-- ==== Sys2Proof/Word.lean ====
section
/-!
DEFINITION. The words of the machine and their plainest arithmetic (R7 to R10, R18).
-/
namespace Sys2Proof

/-- A 64-bit register word. -/
abbrev Word := BitVec 64

/-- A byte of an addressed memory. -/
abbrev Byte := BitVec 8

/-- Bits `[lo + w - 1 : lo]` of a number (R9). -/
def bits (x lo w : Nat) : Nat := (x >>> lo) % 2 ^ w

/-- One bit of a number, as a Boolean. -/
def bit (x i : Nat) : Bool := x.testBit i

/-- `cat(a, b)` of R18, with `b` of width `w` in the less significant position. -/
def catBits (a b w : Nat) : Nat := a <<< w ||| b % 2 ^ w

/-- A Boolean as a one-bit number. -/
def b2n (b : Bool) : Nat := if b then 1 else 0

/-- The two's complement reading of the low `w` bits of a number. -/
def sint (w x : Nat) : Int :=
  if x % 2 ^ w < 2 ^ (w - 1) then (x % 2 ^ w : Nat) else (x % 2 ^ w : Nat) - (2 ^ w : Nat)

/-- The low `w` bits of an integer's two's complement form. -/
def uint (w : Nat) (x : Int) : Nat := (x % (2 ^ w : Nat)).toNat

end Sys2Proof
end

