-- ==== Sys2Proof/Syntax.lean ====
section
/-!
DEFINITION. The commands of the block (spec/opcode_table.json) with their operands, and the layouts of the Sluice instruction
words (Tables 06-1 and 07-1).
-/
namespace Sys2Proof

/-- Layout V (Table 06-1). The opcode is the command's own. -/
structure LV where
  vd  : BitVec 5
  va  : BitVec 5
  vb  : BitVec 5
  vc  : BitVec 5
  fmt : BitVec 5
  rnd : BitVec 3
  pg  : BitVec 3
  bs  : BitVec 1
  sx  : BitVec 4
  ext : BitVec 20
  deriving DecidableEq, Repr

/-- Layout S (Table 06-1). -/
structure LS where
  sd  : BitVec 4
  sa  : BitVec 4
  sb  : BitVec 4
  imm : BitVec 32
  deriving DecidableEq, Repr

/-- Layout C (Table 06-1). -/
structure LC where
  v      : BitVec 5
  vb     : BitVec 5
  region : BitVec 4
  fmt    : BitVec 5
  rnd    : BitVec 3
  pg     : BitVec 3
  prod   : BitVec 1
  sSlot  : BitVec 4
  sAux   : BitVec 4
  stream : BitVec 4
  fold   : BitVec 1
  clr    : BitVec 1
  cnt    : BitVec 10
  deriving DecidableEq, Repr

/-- Layout T (Table 07-1). -/
structure LT where
  v      : BitVec 5
  stream : BitVec 4
  mode   : BitVec 3
  lay    : BitVec 2
  edge   : BitVec 1
  wc     : BitVec 1
  sd     : BitVec 4
  fmt    : BitVec 5
  rnd    : BitVec 3
  sBase  : BitVec 4
  sN     : BitVec 4
  deriving DecidableEq, Repr

/-- Layout G (Table 07-1). -/
structure LG where
  va     : BitVec 5
  vb     : BitVec 5
  tbl    : BitVec 4
  shape  : BitVec 1
  fmt    : BitVec 5
  pg     : BitVec 3
  sRow   : BitVec 4
  sCol   : BitVec 4
  stream : BitVec 4
  deriving DecidableEq, Repr

/-- Layout K of every instruction but LOOP (Table 07-1). -/
structure LK where
  sd   : BitVec 4
  sa   : BitVec 4
  h    : BitVec 4
  wc   : BitVec 1
  fab  : BitVec 1
  cond : BitVec 2
  p    : BitVec 3
  imm  : BitVec 24
  deriving DecidableEq, Repr

/-- Layout K of LOOP: trip count minus 1 and body length (Table 07-1). -/
structure LL where
  trips : BitVec 20
  imm   : BitVec 24
  deriving DecidableEq, Repr

/-- A hardware error during an instruction: none; failed residue or duplicate checks in lanes (R152); a word of the vector
registers, of the scalars or a half of a predicate (R139); a word of the engine store (R149); a cistern column's check, `fails`
times in a row (R156); a cistern word (R114). Lane sets are bit masks. -/
inductive Hw where
  | none
  | check (lanes : Nat)
  | word (reg lane : Nat) (uncorr : Bool)
  | scalar (i : Nat) (uncorr : Bool)
  | pred (i half : Nat) (uncorr : Bool)
  | store (addr : Nat) (uncorr : Bool)
  | column (lanes fails : Nat)
  | cistern (slot : Nat) (uncorr : Bool)
  deriving DecidableEq, Repr

/-- Where an instruction issues: the logical engine, the hardware context, and the hardware error that meets it, if any. -/
structure Site where
  eng : Fin 128
  ctx : Fin 8
  hw  : Hw
  deriving DecidableEq, Repr


/-- A failed check of a noria pipeline (R290): the list it ran (0 scalar, 1 row, 2 column, 3 element), the batch of 8 runs of that list,
how often the batch failed, the runs of the batch that failed as a bit mask, and the pattern signature. -/
structure Miss where
  list  : Nat
  batch : Nat
  fails : Nat
  bad   : Nat
  sig   : Nat
  deriving DecidableEq, Repr

/-- A framed chunk as it arrives (Table 08-6): its header fields, the payload bytes before padding, the trailer's flags, whether its crc holds,
whether entry of its elements had begun before its trailer came (R277), its bytes on the link with header, padding and trailer, and the slots of its
chunk whose words ECC found wrong as it entered, each with whether the error is uncorrectable (R114). `part` is a chunk whose header and first bytes
have come, and no more yet (R272, R280). -/
structure ChunkIn where
  id     : Nat
  chunk  : Nat
  rank   : Nat
  covers : Nat
  kind   : Nat
  tree   : Bool
  re     : Bool
  fmt    : Nat
  data   : List Byte
  pois   : Bool
  last   : Bool
  crc    : Bool
  begun  : Bool
  wire   : Nat
  ecc    : List (Nat × Bool)
  part   : Bool
  deriving DecidableEq, Repr

/-- An ACK as it arrives (Table 08-7). -/
structure AckIn where
  id      : Nat
  next    : Nat
  nchunk  : Nat
  nack    : Bool
  contrib : Bool
  deriving DecidableEq, Repr

/-- A hardware upset in a basin (R366 to R368): 0 a buffer freed twice or with a stale handle, 1 a bad head, 2 a stale link, 3 a link word with an
uncorrectable error, 4 a corrected word; the buffer that a bad link names and the generation seen. -/
structure BasinFault where
  kind  : Fin 5
  index : Fin 131072
  gen   : BitVec 16
  deriving DecidableEq, Repr

/-- A flit as it arrives (Table 13-2): its header, its 256-byte body, and what FEC made of its codeword: 0 clean, 1 corrected, 2 uncorrectable. -/
structure FlitIn where
  hdr  : BitVec 64
  body : List Byte
  fec  : Fin 3
  deriving DecidableEq, Repr

/-- What a JTAG access at debug level 2 does (R531): shift an internal scan chain, or read or write a register or 8 bytes of a memory level. -/
inductive Scan where
  | chain
  | readReg (addr : BitVec 26)
  | writeReg (addr : BitVec 26) (v : BitVec 64)
  | readMem (level : Fin 3) (addr : BitVec 44)
  | writeMem (level : Fin 3) (addr : BitVec 44) (v : BitVec 64)
  deriving DecidableEq, Repr

/-- The commands of the block: one constructor per row of the opcode table, named after its mnemonic, with the row's
operands. -/
inductive Instr where
  /-- Takes the next register's worth of data from a stream into registers, optionally opening the next chunk. (R202) -/
  | srecv (at_ : Site) (f : LT)
  /-- Sends one or two registers to an output stream or channel, closing or padding chunks as needed. (R208) -/
  | ssend (at_ : Site) (f : LT)
  /-- Writes the data an SRECV would deliver without advancing the stream or returning credit. (R207) -/
  | speek (at_ : Site) (f : LT)
  /-- Adds two vector operands elementwise with one rounding. (R178) -/
  | vadd (at_ : Site) (f : LV)
  /-- Adds the negated second operand to the first, elementwise. (R178) -/
  | vsub (at_ : Site) (f : LV)
  /-- Multiplies two vector operands elementwise with one rounding. (R178) -/
  | vmul (at_ : Site) (f : LV)
  /-- Computes a times b plus c exactly per element and rounds once. (R178) -/
  | vfma (at_ : Site) (f : LV)
  /-- Writes the elementwise maximum, with -0 below +0 and NaN ignored. (R179) -/
  | vmax (at_ : Site) (f : LV)
  /-- Writes the elementwise minimum, with -0 below +0 and NaN ignored. (R179) -/
  | vmin (at_ : Site) (f : LV)
  /-- Writes the elementwise magnitude. (R178) -/
  | vabs (at_ : Site) (f : LV)
  /-- Converts each enabled element from one format to another. (R180) -/
  | vcvt (at_ : Site) (f : LV)
  /-- Evaluates a relation per element into a predicate register. (R182) -/
  | vcmp (at_ : Site) (f : LV)
  /-- Bitwise AND of lanes or 64-bit elements. (R183) -/
  | vand (at_ : Site) (f : LV)
  /-- Bitwise OR of lanes or 64-bit elements. (R183) -/
  | vor (at_ : Site) (f : LV)
  /-- Bitwise XOR of lanes or 64-bit elements. (R183) -/
  | vxor (at_ : Site) (f : LV)
  /-- Bitwise a AND NOT b of lanes or 64-bit elements. (R183) -/
  | vandn (at_ : Site) (f : LV)
  /-- Shifts each element left, filling with zeros. (R184) -/
  | vshl (at_ : Site) (f : LV)
  /-- Shifts each element right, filling with zeros. (R184) -/
  | vshr (at_ : Site) (f : LV)
  /-- Shifts each element right, filling with the sign bit. (R184) -/
  | vsra (at_ : Site) (f : LV)
  /-- Copies enabled elements with their poison bits. (R185) -/
  | vmov (at_ : Site) (f : LV)
  /-- Broadcasts a scalar to every enabled element. (R185) -/
  | vbcast (at_ : Site) (f : LV)
  /-- Moves one element into a scalar register. (R185) -/
  | vlane (at_ : Site) (f : LV)
  /-- Writes a base plus lane index times stride to each enabled lane. (R185) -/
  | viota (at_ : Site) (f : LV)
  /-- Combines two predicate registers logically into a third. (R186) -/
  | plog (at_ : Site) (f : LV)
  /-- Loads a sign-extended immediate into a scalar. (R187) -/
  | smovi (at_ : Site) (f : LS)
  /-- Loads an immediate into the upper half of a scalar. (R187) -/
  | smovhi (at_ : Site) (f : LS)
  /-- Adds two scalars modulo 2^64. (R187) -/
  | sadd (at_ : Site) (f : LS)
  /-- Adds a sign-extended immediate to a scalar. (R187) -/
  | saddi (at_ : Site) (f : LS)
  /-- Subtracts two scalars modulo 2^64. (R187) -/
  | ssub (at_ : Site) (f : LS)
  /-- Multiplies two scalars, keeping the low 64 bits. (R187) -/
  | smul (at_ : Site) (f : LS)
  /-- Bitwise AND of two scalars. (R187) -/
  | sand (at_ : Site) (f : LS)
  /-- Bitwise OR of two scalars. (R187) -/
  | sor (at_ : Site) (f : LS)
  /-- Bitwise XOR of two scalars. (R187) -/
  | sxor (at_ : Site) (f : LS)
  /-- Shifts a scalar left by an immediate. (R187) -/
  | sshli (at_ : Site) (f : LS)
  /-- Shifts a scalar right by an immediate. (R187) -/
  | sshri (at_ : Site) (f : LS)
  /-- Enters enabled elements or their products into cistern slots or ordered leaves. (R190) -/
  | cacc (at_ : Site) (f : LC)
  /-- Merges partial records or ordered leaves from a stream into slots. (R193) -/
  | cmerge (at_ : Site) (f : LC)
  /-- Rounds slots out once into a vector register, optionally clearing them. (R195) -/
  | crnd (at_ : Site) (f : LC)
  /-- Encodes slots as partial records or tree sums onto a stream. (R194) -/
  | cxport (at_ : Site) (f : LC)
  /-- Clears a range of slots or resets their tree stacks. (R197) -/
  | cclr (at_ : Site) (f : LC)
  /-- Performs one bitonic compare-exchange stage on key and payload registers. (R212) -/
  | vsort (at_ : Site) (f : LV)
  /-- Merges candidates into a running best-k list. (R213) -/
  | topk (at_ : Site) (f : LV)
  /-- Writes the best k entries of two lists. (R214) -/
  | mergek (at_ : Site) (f : LV)
  /-- Packs enabled elements to the low elements and counts them. (R216) -/
  | vcompress (at_ : Site) (f : LV)
  /-- Spreads low elements to the enabled positions and counts them. (R217) -/
  | vexpand (at_ : Site) (f : LV)
  /-- Selects each element from a or b by predicate. (R218) -/
  | vselect (at_ : Site) (f : LV)
  /-- Expands a compressed block to dense elements, checking each group. (R220) -/
  | spdec (at_ : Site) (f : LV)
  /-- Compresses dense registers into a value and metadata register. (R221) -/
  | spenc (at_ : Site) (f : LV)
  /-- Writes maps keeping the N largest-magnitude positions per group. (R222) -/
  | prune (at_ : Site) (f : LV)
  /-- Requests table rows by index into a channel's landing buffer. (R225) -/
  | gath (at_ : Site) (f : LG)
  /-- Enters values into scatter-table slots through the turnout. (R226) -/
  | scadd (at_ : Site) (f : LG)
  /-- Sets the generator key and tensor id, or writes generated random values. (R228) -/
  | rngk (at_ : Site) (f : LV)
  /-- Puts the context in WAIT_EVENT until an event counter passes a threshold. (R230) -/
  | waitev (at_ : Site) (f : LK)
  /-- Adds an increment to an event counter after earlier operations take effect. (R231) -/
  | sigev (at_ : Site) (f : LK)
  /-- Waits until all earlier operations of the context take effect, optionally flagging the next packets. (R232) -/
  | fence (at_ : Site) (f : LK)
  /-- Enters the context into a lock and waits for its release. (R233) -/
  | lock (at_ : Site) (f : LK)
  /-- Runs a body of instructions a fixed number of times. (R234) -/
  | loop (at_ : Site) (f : LL)
  /-- Branches forward when a predicate test holds. (R235) -/
  | brp (at_ : Site) (f : LK)
  /-- Puts the context in HALTED. (R236) -/
  | halt (at_ : Site) (f : LK)
  /-- An event counter reaches the threshold a waiting WAITEV names, and the context resumes. (R230) -/
  | waitevComplete (eng : Fin 128) (ctx : Fin 8)
  /-- The last earlier operation of a fenced context takes effect, and the context resumes. (R232) -/
  | fenceComplete (eng : Fin 128) (ctx : Fin 8)
  /-- Gathered rows land in the landing buffer, or land as poison for bad indices. (R225) -/
  | gathRowsLanded (eng : Fin 128) (k : Fin 16) (misses : Nat)
  /-- A flume read request completes and its bytes are placed in sequence in the landing buffer. (R456) -/
  | flumeReadComplete (eng : Fin 128) (k : Fin 16) (err : Fin 3) (miss : Bool)
  /-- A flume write completes at its memory level. (R456) -/
  | flumeWriteComplete (eng : Fin 128) (k : Fin 16)
  /-- A turnout read or read-add-write on a slot completes, releasing the next request to that slot. (R458) -/
  | turnoutRequestComplete (n : Nat) (err : Fin 3) (miss : Bool)
  /-- After cancellation, the die's spare engine attaches and continues the contexts, or the engine reissues. (R156) -/
  | spareAttach (die : Fin 8)
  /-- All contexts reach a return point and the spare detaches, unless it retires the engine. (R157) -/
  | spareDetach (die : Fin 8)
  /-- An engine idle for KAT_CTL.idle cycles runs a 64-cycle known-answer burst. (R163) -/
  | katBurst (ph : Fin 136) (ok : Bool) (sig : BitVec 32) (late : Nat)
  /-- A host write of QCMD7 appends a command to a queue or is refused. (R250) -/
  | hostCmdSubmit (q : Fin 64) (w : BitVec 64)
  /-- A class M command message from an endpoint is appended or refused with a CMD_REPLY. (R251) -/
  | cmdSubmit (port : Fin 144) (q : BitVec 8) (tag : BitVec 16) (c : BitVec 512)
  /-- Checks, accepts or rejects, and runs an all-reduce over a group. (R265) -/
  | allreduce (q : Fin 64) (engs : List (Fin 128))
  /-- Checks, accepts and runs a reduce-scatter over a group. (R265) -/
  | reduceScatter (q : Fin 64) (engs : List (Fin 128))
  /-- Checks, accepts and runs a reduction to one root rank. (R265) -/
  | reduce (q : Fin 64) (engs : List (Fin 128))
  /-- Checks, accepts and runs an all-gather of each rank's pieces. (R264) -/
  | allgather (q : Fin 64) (engs : List (Fin 128))
  /-- Checks, accepts and runs a broadcast from the root rank. (R265) -/
  | broadcast (q : Fin 64) (engs : List (Fin 128))
  /-- Checks, accepts and runs an all-to-all on the forwarding path. (R265) -/
  | alltoall (q : Fin 64) (engs : List (Fin 128))
  /-- Checks, accepts and runs dispatch of tokens to their best experts. (R269) -/
  | dispatch (q : Fin 64) (engs : List (Fin 128))
  /-- Checks, accepts and runs an indexed row gather. (R270) -/
  | idxGather (q : Fin 64) (engs : List (Fin 128))
  /-- Checks, accepts and runs a pooled gather with exact bag sums. (R270) -/
  | poolGather (q : Fin 64) (engs : List (Fin 128))
  /-- Checks, accepts and runs exact scatter-add of records into a table. (R270) -/
  | scatterAdd (q : Fin 64) (engs : List (Fin 128))
  /-- Checks, accepts and runs a lock over the ranks of a group. (R344) -/
  | barrier (q : Fin 64)
  /-- Checks, accepts and runs reduction plus optimizer update of a shard. (R302) -/
  | fusedUpdate (q : Fin 64) (engs : List (Fin 128))
  /-- Checks, accepts and runs a program with no group. (R257) -/
  | run (q : Fin 64) (engs : List (Fin 128))
  /-- Checks the envelope, verifies and stores a program image. (R242) -/
  | loadProgram (q : Fin 64)
  /-- Removes a held program unless a command names it. (R243) -/
  | unloadProgram (q : Fin 64)
  /-- Replaces the eight user format slots from a signed load. (R45) -/
  | loadFormats (q : Fin 64)
  /-- Replaces the update-rule table from a signed load. (R296) -/
  | loadRules (q : Fin 64)
  /-- Checks and stores a group record. (R261) -/
  | loadGroup (q : Fin 64)
  /-- Removes a group record unless a collective uses it. (R263) -/
  | unloadGroup (q : Fin 64)
  /-- Adds an increment to an event counter. (R258) -/
  | eventAdd (q : Fin 64)
  /-- Loads a routing bank and optionally flips to it. (R378) -/
  | loadRoutes (q : Fin 64)
  /-- Loads a binding set with shard, norm-set, table and channel records. (R453) -/
  | loadTableBind (q : Fin 64)
  /-- Loads, replaces or empties a tenant's seed set. (R334) -/
  | loadSeeds (q : Fin 64)
  /-- Checks and loads the power profile table. (R576) -/
  | loadProfile (q : Fin 64)
  /-- An accepted command waiting in phase 3 obtains its context, positions and retention and starts. (R254) -/
  | cmdResourcesGranted (q : Fin 64)
  /-- A launch comparator fires and the command enters phase 4 at launch_turn. (R341) -/
  | turnLaunch (q : Fin 64)
  /-- A framed chunk arrives whole and is entered, merged, relayed or judged a membership event. (R266) -/
  | chunkReceive (port : Fin 144) (h : ChunkIn) (dsts : List Nat) (miss : List Miss)
  /-- A halted chunk halts the module's part of the collective and propagates halted chunks. (R616) -/
  | haltedChunkReceive (port : Fin 144) (h : ChunkIn)
  /-- An ACK advances acknowledgements, triggers re-delivery on NACK, or completes the collective. (R275) -/
  | ackReceive (port : Fin 144) (a : AckIn)
  /-- A REVOKE reopens chunks and sends reissue requests and revokes onward. (R277) -/
  | revokeReceive (port : Fin 144) (id first last : BitVec 32) (reason : BitVec 8)
  /-- A reissue request for a partial no longer held reopens the chunk and asks contributors. (R278) -/
  | reissueReqReceive (port : Fin 144) (id first last : BitVec 32) (reason : BitVec 8)
  /-- A receiver or contribution stalls for ACK_TIMEOUT and is reported once. (R276) -/
  | ackTimeout (x : Fin 4096) (port : Fin 144)
  /-- QUORUM_WAIT turns after the quorum-th member, the chunk rounds early and excludes silent members. (R272) -/
  | quorumWait (x : Fin 4096) (chunk : Nat) (begun : List Nat) (miss : List Miss)
  /-- A host write to an event counter takes effect at once, possibly ending waits. (R286) -/
  | evtWrite (n : Fin 4096) (v : BitVec 64)
  /-- Resumes a queue stopped by a rejection. (R255) -/
  | qRestart (q : Fin 64) (restart : Bool)
  /-- A peer's norm partial is merged into the norm set's total slot, possibly completing the norm. (R308) -/
  | normPart (re : Bool) (port : Fin 144) (set : Fin 16) (sender : BitVec 16) (step : BitVec 64) (record : List Byte)
  /-- A peer's NORM_PART missing for ACK_TIMEOUT is reported once. (R308) -/
  | normPeerTimeout (set : Fin 16) (peer : BitVec 16)
  /-- An update pass starts once the norm or previous pass reductions are complete. (R305) -/
  | updatePassStart (x : Fin 4096) (miss : List Miss)
  /-- A COMMIT message arrives; it is refused if late, otherwise armed for its commit turn. (R316) -/
  | commit (step turn : BitVec 64)
  /-- At the commit turn, updated shards flip live copies and COMMIT_ACK and notices are sent. (R316) -/
  | commitApply (step : BitVec 64)
  /-- A DISCARD aborts later collectives, rolls back updated shards and resets the step counter. (R317) -/
  | discard (step : BitVec 64)
  /-- The watermaster takes a module's commit or discard acknowledgement. (R352) -/
  | commitAck (type : Fin 3) (sender : BitVec 16) (step : BitVec 64)
  /-- A storage acknowledgement completes or fails a snapshot segment. (R323) -/
  | snapAck (status : BitVec 8) (seg : BitVec 32) (t object : BitVec 64)
  /-- A snapshot segment unacknowledged for ACK_TIMEOUT fails the snapshot. (R323) -/
  | snapshotTimeout (n : Fin 1024)
  /-- A host write requests a snapshot of a shard after its next commit. (R321) -/
  | snapReq (n : Fin 1024)
  /-- A host write starts restoring a shard from storage with SNAP_READ. (R324) -/
  | norRestore (n : Fin 1024) (port : BitVec 8)
  /-- A returned snapshot segment is verified and written; the last one completes the restore. (R324) -/
  | restoreSegment (n : Fin 1024) (last : Bool) (seg : BitVec 32) (t object : BitVec 64) (ct tag : List Byte)
  /-- A STEP_CLOSE advances the step counter and lets deferred changes take effect. (R333) -/
  | stepClose (step : BitVec 64) (hot : List Nat)
  /-- When step collectives are complete and closed, the signed step record is written and STEP_DIGEST sent. (R347) -/
  | stepRecordWrite (step : BitVec 64)
  /-- The watermaster takes a module's step digest and commits once all agree. (R352) -/
  | stepDigest (sender : BitVec 16) (step : BitVec 64) (status : BitVec 8)
  /-- Software writes the step counter while audit is disabled. (R333) -/
  | stepCtrWrite (v : BitVec 64)
  /-- A write of GCTL.strict governs the step that opens next. (R562) -/
  | gctlStrictWrite (v : Bool)
  /-- Every 2^interval turns a module sends TIME_REQ to its time parent. (R338) -/
  | timeExchangeTimer (sub : Fin 16)
  /-- A parent stamps a TIME_REQ and returns TIME_RESP. (R338) -/
  | timeReq (port : Fin 144) (exch : BitVec 32) (t1 : BitVec 64) (sub2 sub3 : Fin 16)
  /-- A module computes its offset, steps or slews its counter and updates lock state. (R338) -/
  | timeResp (exch : BitVec 32) (t1 t2 t3 : BitVec 64) (sub4 : Fin 16)
  /-- A TREF_IN pulse starts the master turn counter. (R338) -/
  | trefPulse
  /-- Setting TIME_CTL.en starts the local counter and time acquisition. (R338) -/
  | timeEnable
  /-- An arrival is counted and, when complete, passed to the parent or released by the root. (R344) -/
  | lockArrive (port : Fin 144) (h : Fin 16) (count : BitVec 16) (seq id : BitVec 32)
  /-- A release arms a comparator for t_rel, or fires at once if late. (R344) -/
  | lockRelease (port : Fin 144) (h : Fin 16) (seq id : BitVec 32) (tRel : BitVec 64)
  /-- At t_rel the comparator completes local LOCKs or the BARRIER and sends release frames. (R344) -/
  | lockReleaseFire (x : Fin 4096) (h : Fin 17)
  /-- A packet header is parsed, metered, routed and placed in its furrow or furrows. (R358) -/
  | packetHeaderTake (src : Fin 161) (h : BitVec 256) (data : List Byte) (bf : Option BasinFault)
  /-- A waiting packet is granted a basin buffer when a pool becomes eligible. (R364) -/
  | bufferGrant (die : Fin 2) (bf : Option BasinFault)
  /-- A free port's headgate starts the head packet of the first eligible class. (R391) -/
  | packetStart (out : Fin 161) (bf : Option BasinFault)
  /-- The tag sweep finishes and the rebuilt pool is eligible again. (R367) -/
  | freelistRebuildDone (die : Fin 2) (k : Fin 3)
  /-- Software releases gauge-ring records by writing the tail. (R384) -/
  | grTailWrite (v : BitVec 18)
  /-- At the next slot 0 the headgate switches to the selected calendar bank. (R392) -/
  | calBankSwitch (port : Fin 144)
  /-- A demoted head packet waiting HG_STARVE turns is served as main. (R393) -/
  | starvePromote (port : Fin 144) (cls : Fin 4) (src : Fin 161)
  /-- After MARK_GAP turns with red packets, a METER_MARK is sent to the endpoint. (R399) -/
  | meterMark (port : Fin 144) (m : Fin 2)
  /-- Unreported delivered bytes reach the threshold or delay and a report is sent. (R402) -/
  | dlvReportSend (src : BitVec 24) (cls : Fin 4) (mc tree : Bool) (id : BitVec 32)
  /-- A delivery report lowers a flow's outstanding count, releasing window and FENCE holds. (R403) -/
  | dlvReport (module : BitVec 16) (src : BitVec 24) (cls : Fin 4) (mc tree : Bool) (dst : BitVec 24) (coll n : BitVec 32)
  /-- Every 2^shift turns each egress queue's depth and age are binned. (R407) -/
  | telemetrySample
  /-- A write to a shaper or meter register refills its buckets next turn. (R409) -/
  | shaperMeterWrite (port : Fin 144) (which : Fin 6) (v : BitVec 64)
  /-- A data flit is accepted in sequence and held until its seal block verifies. (R423) -/
  | dataFlit (port : Fin 144) (f : FlitIn)
  /-- A seal flit verifies its block's tag and releases or discards the block. (R422) -/
  | seal (port : Fin 144) (f : FlitIn)
  /-- A RETRY control flit makes the sender resend from rx_next. (R425) -/
  | retry (port : Fin 144) (f : FlitIn)
  /-- An INIT flit agrees mode and credits and sets the resend point. (R441) -/
  | init (port : Fin 144) (f : FlitIn)
  /-- A key-exchange fragment advances the hybrid link-key exchange. (R527) -/
  | keyx (port : Fin 144) (f : FlitIn)
  /-- A TRAIN flit reports the peer's action, outcome or substitution. (R439) -/
  | train (port : Fin 144) (f : FlitIn)
  /-- No ack advance for PT_RTO makes the sender replay unacknowledged flits. (R425) -/
  | replayTimeout (port : Fin 144)
  /-- After 2^30 seal blocks the sender announces rekey and moves to the next epoch. (R421) -/
  | rekey (port : Fin 144)
  /-- PT_CTL.en set to 1 starts the training table at the mode's first entry. (R438) -/
  | portEnable (port : Fin 144)
  /-- An entry's timeout passes and the port takes its fail path. (R438) -/
  | trainTimeout (port : Fin 144)
  /-- Far-end detection ends with an outcome. (R439) -/
  | detect (port : Fin 144) (ok : Bool)
  /-- Equalisation converges and ends with an outcome. (R439) -/
  | eq (port : Fin 144) (ok : Bool)
  /-- The PRBS lane test ends, substituting a spare where needed. (R439) -/
  | lanetest (port : Fin 144) (bad : BitVec 4)
  /-- Alignment lock and deskew end with an outcome. (R439) -/
  | align (port : Fin 144) (ok : Bool)
  /-- Checks for a held link secret with the same peer. (R439) -/
  | keychk (port : Fin 144) (same : Bool)
  /-- An ACTIVE port fails on errors, alignment loss or tag failures and leaves ACTIVE. (R439) -/
  | activeFail (port : Fin 144) (align : Bool)
  /-- A HOLD entry ends after param ms. (R439) -/
  | hold (port : Fin 144)
  /-- IEEE 802.3 PMD link training completes. (R439) -/
  | ethTrain (port : Fin 144) (ok : Bool)
  /-- PCS and FEC lock completes. (R439) -/
  | ethLock (port : Fin 144) (ok : Bool)
  /-- A GoE data datagram is checked, accepted in sequence or answered with retry. (R432) -/
  | goeData (port : Fin 144) (seq ack : BitVec 32) (h : BitVec 256) (data : List Byte) (bad : Bool)
  /-- A GoE ack datagram advances acknowledgement or triggers resend. (R432) -/
  | goeAck (port : Fin 144) (ack : BitVec 32) (retry bad : Bool)
  /-- A GoE type 2 datagram carries the key exchange that installs SAKs. (R434) -/
  | goeKeyExchange (port : Fin 144) (no n : BitVec 16) (frag : List Byte)
  /-- A GoE type 3 datagram carries the INIT exchange. (R432) -/
  | goeInit (port : Fin 144) (seq ack : BitVec 32) (mode : BitVec 8) (peer : BitVec 16)
  /-- No ack for GOE_CTL.rto causes datagram replay. (R432) -/
  | goeReplayTimeout (port : Fin 144)
  /-- A received PFC frame pauses or releases a class's priority. (R433) -/
  | pfcFrame (port : Fin 144) (enable : BitVec 8) (quanta : List (BitVec 16))
  /-- Received pause quanta run out and the class may send again. (R433) -/
  | pfcPauseExpire (port : Fin 144) (cls : Fin 4)
  /-- A frame that is not GoE, PFC or MACsec is counted and dropped. (R430) -/
  | frameNotAccepted (port : Fin 144)
  /-- An endpoint writes bytes into the staging area and receives DATA_REPLY. (R437) -/
  | dataPut (port : Fin 144) (tag : BitVec 16) (n : BitVec 32) (off : BitVec 64) (data : List Byte)
  /-- A retrain window opens and retrains the chosen due channel. (R469) -/
  | lpddrRetrainWindow
  /-- A retrain completes and the channel serves its waiting requests. (R470) -/
  | retrainEnd (waited : Bool)
  /-- A retrain exceeding 20,000 turns is a training failure. (R470) -/
  | retrainTimeout
  /-- One page of a remapped channel is copied to the spare; the last completes the remap. (R473) -/
  | migrationPageCopy (bad : Bool)
  /-- Every 10 µs stack temperatures move the thermal ladder and pause or resume class C. (R475) -/
  | hbmTempSample (k : Fin 8) (temp : BitVec 16)
  /-- The scrubber reads and corrects the next line at the scrub rate. (R467) -/
  | scrubRead (lpd : Bool) (err : Fin 3)
  /-- At each epoch the predictor unpins, pins hot rows and halves counters. (R461) -/
  | predictorEpoch (hot : List Nat)
  /-- The watermaster takes a trap notice and forwards it to the fault manager. (R486) -/
  | trapNotice (m : BitVec 256)
  /-- The watermaster takes a fault report, forwards it and may propose a fence. (R486) -/
  | faultReport (m : BitVec 256)
  /-- The watermaster takes a straggler report, forwards it and raises STRAGGLER. (R498) -/
  | straggler (m : BitVec 256)
  /-- A decision from the fault manager is relayed as WM_ORDER to its target. (R486) -/
  | fmOrder (m : BitVec 256)
  /-- No decision within 5 s resends the report to the fault manager. (R486) -/
  | fmResendTimeout (k : Nat)
  /-- The watermaster takes an ORDER_ACK and returns it to the manager. (R486) -/
  | orderAck (m : BitVec 256)
  /-- A FENCE order is armed for its apply turn, or refused in levee mode. (R492) -/
  | wmOrderFence (sender target : BitVec 16) (port : BitVec 8) (seq : BitVec 32) (at_ : BitVec 64)
  /-- An UNFENCE order lifts a fence at the STEP_CLOSE of its step. (R494) -/
  | wmOrderUnfence (sender target : BitVec 16) (port : BitVec 8) (seq : BitVec 32) (step : BitVec 64)
  /-- An ABORT order ends the named collective with status ABORTED. (R495) -/
  | wmOrderAbort (sender : BitVec 16) (id : BitVec 32) (code : BitVec 8) (seq : BitVec 32)
  /-- A REVOKE order starts revocation of a chunk range or is refused. (R495) -/
  | wmOrderRevoke (sender : BitVec 16) (id first last seq : BitVec 32)
  /-- A STATE_LOST order sets its shard LOST. (R504) -/
  | wmOrderStateLost (sender target : BitVec 16) (shard : Fin 1024) (seq : BitVec 32)
  /-- A TAKEOVER order makes the standby the watermaster. (R481) -/
  | wmOrderTakeover (sender : BitVec 16) (fm : Bool) (seq : BitVec 32)
  /-- At the apply turn a fence marks ports, issues fence notices and updates locks. (R492) -/
  | fenceApply
  /-- The watermaster sends a heartbeat to the standby every hb µs. (R481) -/
  | wmHeartbeatSend
  /-- The standby takes a heartbeat from the watermaster. (R481) -/
  | wmHeartbeat (sender : BitVec 16)
  /-- Three missed heartbeats make the standby propose a fence of the watermaster. (R481) -/
  | heartbeatMiss
  /-- A module adopts the sender as watermaster and clears its standby. (R481) -/
  | wmAnnounce (sender : BitVec 16)
  /-- A port out of ACTIVE for LEV_CTL.hold makes the module propose a fence. (R488) -/
  | leveeHoldExpire (port : Fin 144)
  /-- A write proposes a fence of this module. (R488) -/
  | levSelf
  /-- A voter takes a proposal and votes, probes or abstains. (R489) -/
  | leveePropose (sender : BitVec 16) (kind : BitVec 8) (target : BitVec 16) (port : BitVec 8) (self : Bool) (round : BitVec 2) (seq digest : BitVec 32)
  /-- A target answers a probe with LEVEE_PROBE_ACK. (R489) -/
  | leveeProbe (sender proposer : BitVec 16) (seq : BitVec 32)
  /-- A probe answer makes the voter vote no. (R489) -/
  | leveeProbeAck (sender proposer : BitVec 16) (seq : BitVec 32)
  /-- No probe answer within LEV_CTL.probe makes the voter vote yes. (R489) -/
  | leveeProbeTimeout (proposer : BitVec 16) (seq : BitVec 32)
  /-- The proposer counts a vote and decides when yes reaches the majority. (R489) -/
  | leveeVote (sender proposer : BitVec 16) (vote : BitVec 8) (seq : BitVec 32)
  /-- A round ends undecided; a second round starts or the proposal lapses. (R489) -/
  | leveeRoundTimeout (seq : BitVec 32)
  /-- A decided fence is armed for its apply turn or applied at once if late. (R489) -/
  | leveeDecide (kind : BitVec 8) (target : BitVec 16) (port : BitVec 8) (apply : BitVec 64)
  /-- A partner's shard hash is compared with the local shard entry. (R500) -/
  | shardHash (sender : BitVec 16) (outcome : BitVec 8) (shard pshard : Fin 1024) (step t : BitVec 64) (hash : BitVec 256)
  /-- PTN_CTL.wait passes and the module sends PARTNER_VERDICT. (R500) -/
  | partnerWaitExpire (step : BitVec 64)
  /-- The watermaster takes a verdict and may discard the step. (R501) -/
  | partnerVerdict (sender : BitVec 16) (step : BitVec 64) (matched mismatched missing lowest : BitVec 16)
  /-- A write of RSL_CTL.go makes the spare send RESILVER_REQ. (R502) -/
  | resilverStart
  /-- The partner accepts, defers or refuses a resilver request. (R502) -/
  | resilverReq (sender : BitVec 16) (shard pshard : Fin 1024) (seq : BitVec 32)
  /-- The spare writes a resilver segment; the last verifies and completes it. (R502) -/
  | resilverSeg (sender : BitVec 16) (last : Bool) (seg : BitVec 32) (t seq : BitVec 64) (data : List Byte)
  /-- A resilver acknowledgement paces, accepts, refuses or stops a resilver. (R502) -/
  | resilverAck (sender : BitVec 16) (status : BitVec 8) (seg : BitVec 32) (t : BitVec 64) (seq : BitVec 32)
  /-- No segment or acceptance within ACK_TIMEOUT fails the resilver with STATE_LOST. (R504) -/
  | resilverTimeout (n : Fin 1024)
  /-- SPDM GET_VERSION request. (R514) -/
  | getVersion (binding : Fin 3)
  /-- SPDM GET_CAPABILITIES request. (R514) -/
  | getCapabilities (binding : Fin 3)
  /-- SPDM NEGOTIATE_ALGORITHMS request. (R514) -/
  | negotiateAlgorithms (binding : Fin 3) (asym hash dhe aead : Bool)
  /-- SPDM GET_DIGESTS request. (R514) -/
  | getDigests (binding : Fin 3) (session : Option (BitVec 32))
  /-- SPDM GET_CERTIFICATE request. (R514) -/
  | getCertificate (binding : Fin 3) (session : Option (BitVec 32)) (slot : Fin 8) (off len : BitVec 16)
  /-- SPDM CHALLENGE request. (R514) -/
  | challenge (binding : Fin 3) (slot : Fin 8) (nonce : BitVec 256)
  /-- Returns the measurement blocks as SHA-384 digests. (R515) -/
  | getMeasurements (binding : Fin 3) (session : Option (BitVec 32)) (index : BitVec 8) (sign : Bool) (nonce : BitVec 256)
  /-- SPDM KEY_EXCHANGE request with mutual authentication. (R514) -/
  | keyExchange (binding : Fin 3) (request : List Byte)
  /-- SPDM FINISH request completing a session. (R514) -/
  | finish (binding : Fin 3) (session : BitVec 32) (chain fin : List Byte)
  /-- SPDM HEARTBEAT request. (R514) -/
  | spdmHeartbeat (binding : Fin 3) (session : BitVec 32)
  /-- SPDM KEY_UPDATE request. (R514) -/
  | keyUpdate (binding : Fin 3) (session : BitVec 32) (op tag : BitVec 8)
  /-- SPDM END_SESSION request. (R514) -/
  | endSession (binding : Fin 3) (session : BitVec 32)
  /-- SPDM CHUNK_SEND request. (R514) -/
  | chunkSend (binding : Fin 3) (session : Option (BitVec 32)) (handle : BitVec 8) (seq : BitVec 16) (data : List Byte)
  /-- SPDM CHUNK_GET request. (R514) -/
  | chunkGet (binding : Fin 3) (session : Option (BitVec 32)) (handle : BitVec 8) (seq : BitVec 16) (size : BitVec 32)
  /-- Returns the ML-DSA chain and signature over the measurement transcript. (R515) -/
  | attestPq (binding : Fin 3) (session : Option (BitVec 32))
  /-- Enrolls a tenant from an owner-signed record. (R517) -/
  | enroll (binding : Fin 3) (session : BitVec 32) (record : List Byte)
  /-- Removes a tenant unless it still holds work or resources. (R518) -/
  | unenroll (binding : Fin 3) (session tenant : BitVec 32) (ec pq : List Byte)
  /-- Assigns memory granules to tenants, zeroing changed granules. (R522) -/
  | assign (binding : Fin 3) (session : BitVec 32) (list : List (Fin 3 × BitVec 16 × BitVec 32)) (ec pq : List Byte)
  /-- Installs an owner-signed endpoint root. (R528) -/
  | endpointRoot (binding : Fin 3) (session : BitVec 32) (root ec pq : List Byte)
  /-- Stages a firmware image into the inactive slot or selects it. (R513) -/
  | fwStage (len : BitVec 24)
  /-- Raises the fused minimum svn to the running image's svn. (R513) -/
  | svnCommit
  /-- Checks a debug or lifecycle token and changes the debug level or lifecycle. (R532) -/
  | debug (len : BitVec 24)
  /-- Decrypts a data envelope and writes its payload into tenant memory. (R526) -/
  | dataIn (len : BitVec 24)
  /-- Reads tenant memory and writes an encrypted reply envelope. (R526) -/
  | dataOut (len : BitVec 24)
  /-- Writes the owner hash once while it is blank. (R516) -/
  | setOwner (len : BitVec 24)
  /-- Boots a supplied firmware envelope after boot failure. (R510) -/
  | recover (len : BitVec 24)
  /-- Resets configuration space, MSI-X and host registers without stopping work. (R541) -/
  | functionLevelReset
  /-- A hot reset acts as R541 gives. (R541) -/
  | pcieHotReset
  /-- A loss of the PCIe link, or PCIE_PERST_N, acts as R541 gives. (R541) -/
  | pcieLinkLoss
  /-- Return from D3hot sends messages for asserted vectors. (R540) -/
  | d0Entry
  /-- Setting Bus Master Enable sends held messages for unmasked pending vectors. (R559) -/
  | busMasterEnable (on : Bool)
  /-- Unmasking a vector or the function sends one message if its PBA bit and line are set. (R559) -/
  | msixUnmask (vector : Option (Fin 64)) (masked : Bool)
  /-- A vector's gap ends and a held trigger sends one message if the line is still 1. (R559) -/
  | intModerationExpire (v : Fin 64)
  /-- A write naming a vector whose line is 1 starts a new message. (R559) -/
  | intEoi (v : Fin 64)
  /-- Reads 8 bytes at DW_ADDR in the selected space and advances DW_ADDR. (R551) -/
  | dwDataRead (half : Bool)
  /-- Writes 8 bytes at DW_ADDR in the selected space and advances DW_ADDR. (R551) -/
  | dwDataWrite (v : BitVec 64)
  /-- A burst TLP acts as consecutive DW_DATA accesses. (R551) -/
  | dwBurst (n : Option (Fin 257)) (data : List Byte)
  /-- A read completes only after every earlier data-window write takes effect. (R557) -/
  | dwStatusRead
  /-- Writing a count to an ACK register acknowledges a trap record, rejection or event cause. (R550) -/
  | recordAckWrite (addr : BitVec 26) (v : BitVec 32)
  /-- A SET, CLR or TOG alias write modifies RW and RWL fields indivisibly. (R546) -/
  | registerAliasWrite (addr : BitVec 26) (kind : Fin 3) (v : BitVec 64)
  /-- A write to a register with no row of its own, judged against its block's en bit. (R548) -/
  | registerWrite (addr : BitVec 26) (data : List Byte)
  /-- Setting CIS_CTL.en checks the spill configuration and enables the cistern or sets cfg_bad. (R116) -/
  | cisternEnable
  /-- Setting MEM_CTL.en checks retention and cache regions and enables memory or sets cfg_bad. (R478) -/
  | memoryEnable
  /-- Setting FLT_CTL.en enables the fault block or fails for too small a levee set. (R485) -/
  | faultEnable
  /-- Setting SW_CTL.en enables the switch core unless SW_ID is unset. (R385) -/
  | switchEnable
  /-- Setting TMUX_CTL.en at a debug level hands pins from GPIO to TMUX. (R593) -/
  | tmuxEnable
  /-- RESET_N released after power-up brings up rails in order and boots. (R571) -/
  | coldReset (badA badB : Fin 6)
  /-- A RESET_N pulse of 10 µs to 100 ms reboots with rails up. (R573) -/
  | warmReset (badA badB : Fin 6)
  /-- Writing the key to PWR_RST starts a warm reset. (R573) -/
  | pwrRst (key : BitVec 32) (badA badB : Fin 6)
  /-- The power-up sequence completes and PWR_STATUS.ready rises. (R571) -/
  | powerReady
  /-- Block reset of the command processor. (R288) -/
  | brstCommandProcessor
  /-- Block reset of the engine block. (R164) -/
  | brstEngines
  /-- Block reset of the cistern, format and sparse block. (R115) -/
  | brstCistern
  /-- Block reset of the noria block. (R325) -/
  | brstNoria
  /-- Block reset of the switch core and gauge ring. (R385) -/
  | brstSwitchCore
  /-- Block reset of the headgate block. (R408) -/
  | brstHeadgates
  /-- Block reset of the port block and the switch core. (R443) -/
  | brstPorts
  /-- Block reset of the memory block. (R478) -/
  | brstMemory
  /-- Block reset of the time block. (R355) -/
  | brstTime
  /-- Block reset of the audit block. (R355) -/
  | brstAudit
  /-- Block reset of the fault block. (R507) -/
  | brstFaults
  /-- A block reset ends, leaving en at 0 and raising POWER. (R574) -/
  | blockResetDone
  /-- A write of PWR_CTL.profile selects the profile for the next step. (R577) -/
  | profileSelect (p : BitVec 3)
  /-- Every 10 µs the power controller sets island clocks from curves, limiter and guards. (R578) -/
  | powerSample (temps : List (BitVec 16)) (mvs : List (Fin 24 × BitVec 12)) (mv ca w : BitVec 16)
  /-- Every 10 µs coolant temperatures apply or lift the ceiling and class C pause. (R580) -/
  | coolantSample (inlet outlet : BitVec 16)
  /-- V_in below 40 V for 1 ms applies PP1 and pauses class C. (R566) -/
  | vinLow (mv : BitVec 16)
  /-- V_in at 41 V or more for 10 ms ends the low-input state. (R566) -/
  | vinRecover (mv : BitVec 16)
  /-- V_in below 36 V turns every rail off. (R572) -/
  | vinCritical (mv : BitVec 16)
  /-- SMBus block read 0x00 returns GCTL_ID. (R589) -/
  | smbGctlId
  /-- SMBus block read 0x01 returns PWR_STATUS. (R589) -/
  | smbPwrStatus
  /-- SMBus block read 0x02 returns PWR_IN. (R589) -/
  | smbPwrIn
  /-- SMBus block read 0x03 returns COOL. (R589) -/
  | smbCool
  /-- SMBus block read 0x04 returns the hottest island. (R589) -/
  | smbHottestIsland
  /-- SMBus block read 0x05 returns the hottest HBM stack. (R589) -/
  | smbHottestStack
  /-- SMBus block read 0x06 returns ALERT_STATUS. (R589) -/
  | smbAlertStatus
  /-- SMBus block read 0x07 returns powered seconds. (R589) -/
  | smbFlogPtime
  /-- Any other SMBus command or write is NACKed. (R590) -/
  | smbOther
  /-- JTAG IDCODE instruction. (R599) -/
  | idcode
  /-- JTAG BYPASS instruction, also taken by instructions above the debug level. (R599) -/
  | bypass
  /-- JTAG SAMPLE/PRELOAD at debug level 1 or above. (R599) -/
  | samplePreload (cells board : BitVec 16)
  /-- JTAG EXTEST, entered only while every block is disabled. (R600) -/
  | extest
  /-- JTAG internal scan and register and memory access at debug level 2. (R531) -/
  | internalScan (x : Scan)
  /-- Each powered second updates temperature and profile counts. (R604) -/
  | flogSecondTick
  /-- Every 600 powered seconds the summary is written to flash. (R604) -/
  | flogSummaryWrite (fail : Bool)
  /-- A queued journal entry becomes durable in flash. (R604) -/
  | flogEntryDurable (fail : Bool)
  /-- A write of FLOG_CTL.export snapshots the working copy for export. (R609) -/
  | flogExportRequest
  /-- The signed export is built and export_ready rises. (R609) -/
  | flogExportReady
  /-- Reads 8 bytes of the field-log image and advances FLOG_ADDR. (R608) -/
  | flogDataRead
  /-- A lock participant that has not arrived within ACK_TIMEOUT is reported once with FAULT_REPORT kind 0x0C. (R345) -/
  | lockParticipantTimeout (x : Fin 4096) (h : Fin 17) (who : Nat)
  /-- The drift monitor flags an LPDDR channel, setting LPD_CH_n.drift and retraining it at once while LPD_RT_PERIOD is 0. (R469) -/
  | driftMonitorFlag (n : Fin 128)
  /-- TREF_IN stops carrying its 10 MHz clock or its once-per-second pulse, so ref_ok and the master's locked fall. (R338) -/
  | trefInLoss
  /-- An idle flit's header is checked and its ack and credit count advance the sender's replay buffer and class credits. (R418) -/
  | idleFlit (port : Fin 144) (f : FlitIn)
  /-- V_in above 63 V makes the input protection disconnect the module. (R566) -/
  | inputOvervoltage (mv : BitVec 16)
  /-- RESET_N held low for 100 ms turns every rail off in reverse order, so that its release is a cold reset. (R572) -/
  | resetNLongHold
  /-- The function enters D3hot and from then answers configuration requests only, while fabric work continues. (R540) -/
  | d3hotEntry
  /-- Management port 0 goes down or comes back, moving fault-manager datagrams to port 1 or back to port 0. (R486) -/
  | managementPortChange (port : Fin 2) (up : Bool)
  deriving DecidableEq, Repr

end Sys2Proof
end

