-- ==== Sys2Proof/Decode.lean ====
section
/-!
DEFINITION. The words of the Sluice instructions (Tables 06-1, 06-2, 07-1): the encoder of each layout and the decoder, which reads
an instruction's fields back and refuses a reserved opcode or a nonzero reserved bit (R165 to R169, R199). The rows
of the opcode table give no bits, so no table word spells a command.
-/
namespace Sys2Proof

/-- The word of a layout V instruction. -/
def LV.word (op : BitVec 8) (f : LV) : BitVec 64 :=
  op ++ f.vd ++ f.va ++ f.vb ++ f.vc ++ f.fmt ++ f.rnd ++ f.pg ++ f.bs ++ f.sx ++ f.ext

/-- The word of a layout S instruction. -/
def LS.word (op : BitVec 8) (f : LS) : BitVec 64 := op ++ f.sd ++ f.sa ++ f.sb ++ (0 : BitVec 12) ++ f.imm

/-- The word of a layout C instruction. -/
def LC.word (op : BitVec 8) (f : LC) : BitVec 64 :=
  op ++ f.v ++ f.vb ++ (0 : BitVec 5) ++ f.region ++ (0 : BitVec 1) ++ f.fmt ++ f.rnd ++ f.pg ++ f.prod ++ f.sSlot ++ f.sAux ++
    f.stream ++ f.fold ++ f.clr ++ f.cnt

/-- The word of a layout T instruction. -/
def LT.word (op : BitVec 8) (f : LT) : BitVec 64 :=
  op ++ f.v ++ f.stream ++ f.mode ++ f.lay ++ f.edge ++ f.wc ++ f.sd ++ f.fmt ++ f.rnd ++ (0 : BitVec 4) ++ f.sBase ++ f.sN ++
    (0 : BitVec 16)

/-- The word of a layout G instruction. -/
def LG.word (op : BitVec 8) (f : LG) : BitVec 64 :=
  op ++ (0 : BitVec 5) ++ f.va ++ f.vb ++ f.tbl ++ f.shape ++ f.fmt ++ (0 : BitVec 3) ++ f.pg ++ (0 : BitVec 1) ++ f.sRow ++
    f.sCol ++ f.stream ++ (0 : BitVec 12)

/-- The word of a layout K instruction other than LOOP. -/
def LK.word (op : BitVec 8) (f : LK) : BitVec 64 :=
  op ++ f.sd ++ f.sa ++ f.h ++ f.wc ++ f.fab ++ f.cond ++ (0 : BitVec 12) ++ f.p ++ (0 : BitVec 1) ++ f.imm

/-- The word of LOOP. -/
def LL.word (op : BitVec 8) (f : LL) : BitVec 64 := op ++ f.trips ++ (0 : BitVec 12) ++ f.imm

/-- Bits `[lo + n - 1 : lo]` of an instruction word. -/
def wordBits (w : BitVec 64) (lo n : Nat) : BitVec n := w.extractLsb' lo n

/-- The layout V fields of a word. -/
def LV.ofWord (w : BitVec 64) : LV :=
  ⟨wordBits w 51 5, wordBits w 46 5, wordBits w 41 5, wordBits w 36 5, wordBits w 31 5, wordBits w 28 3, wordBits w 25 3,
    wordBits w 24 1, wordBits w 20 4, wordBits w 0 20⟩

/-- The layout S fields of a word. -/
def LS.ofWord (w : BitVec 64) : LS := ⟨wordBits w 52 4, wordBits w 48 4, wordBits w 44 4, wordBits w 0 32⟩

/-- The layout C fields of a word. -/
def LC.ofWord (w : BitVec 64) : LC :=
  ⟨wordBits w 51 5, wordBits w 46 5, wordBits w 37 4, wordBits w 31 5, wordBits w 28 3, wordBits w 25 3, wordBits w 24 1,
    wordBits w 20 4, wordBits w 16 4, wordBits w 12 4, wordBits w 11 1, wordBits w 10 1, wordBits w 0 10⟩

/-- The layout T fields of a word. -/
def LT.ofWord (w : BitVec 64) : LT :=
  ⟨wordBits w 51 5, wordBits w 47 4, wordBits w 44 3, wordBits w 42 2, wordBits w 41 1, wordBits w 40 1, wordBits w 36 4,
    wordBits w 31 5, wordBits w 28 3, wordBits w 20 4, wordBits w 16 4⟩

/-- The layout G fields of a word. -/
def LG.ofWord (w : BitVec 64) : LG :=
  ⟨wordBits w 46 5, wordBits w 41 5, wordBits w 37 4, wordBits w 36 1, wordBits w 31 5, wordBits w 25 3, wordBits w 20 4,
    wordBits w 16 4, wordBits w 12 4⟩

/-- The layout K fields of a word. -/
def LK.ofWord (w : BitVec 64) : LK :=
  ⟨wordBits w 52 4, wordBits w 48 4, wordBits w 44 4, wordBits w 43 1, wordBits w 42 1, wordBits w 40 2, wordBits w 25 3,
    wordBits w 0 24⟩

/-- The LOOP fields of a word. -/
def LL.ofWord (w : BitVec 64) : LL := ⟨wordBits w 36 20, wordBits w 0 24⟩

/-- The opcode of each Sluice instruction (Table 06-2); none for the other commands. -/
def Instr.opcode : Instr → Option (BitVec 8)
  | .srecv _ _ => some 0x1
  | .ssend _ _ => some 0x2
  | .speek _ _ => some 0x3
  | .vadd _ _ => some 0x10
  | .vsub _ _ => some 0x11
  | .vmul _ _ => some 0x12
  | .vfma _ _ => some 0x13
  | .vmax _ _ => some 0x14
  | .vmin _ _ => some 0x15
  | .vabs _ _ => some 0x16
  | .vcvt _ _ => some 0x17
  | .vcmp _ _ => some 0x18
  | .vand _ _ => some 0x20
  | .vor _ _ => some 0x21
  | .vxor _ _ => some 0x22
  | .vandn _ _ => some 0x23
  | .vshl _ _ => some 0x24
  | .vshr _ _ => some 0x25
  | .vsra _ _ => some 0x26
  | .vmov _ _ => some 0x27
  | .vbcast _ _ => some 0x28
  | .vlane _ _ => some 0x29
  | .viota _ _ => some 0x2a
  | .plog _ _ => some 0x2b
  | .smovi _ _ => some 0x30
  | .smovhi _ _ => some 0x31
  | .sadd _ _ => some 0x32
  | .saddi _ _ => some 0x33
  | .ssub _ _ => some 0x34
  | .smul _ _ => some 0x35
  | .sand _ _ => some 0x36
  | .sor _ _ => some 0x37
  | .sxor _ _ => some 0x38
  | .sshli _ _ => some 0x39
  | .sshri _ _ => some 0x3a
  | .cacc _ _ => some 0x40
  | .cmerge _ _ => some 0x41
  | .crnd _ _ => some 0x42
  | .cxport _ _ => some 0x43
  | .cclr _ _ => some 0x44
  | .vsort _ _ => some 0x50
  | .topk _ _ => some 0x51
  | .mergek _ _ => some 0x52
  | .vcompress _ _ => some 0x58
  | .vexpand _ _ => some 0x59
  | .vselect _ _ => some 0x5a
  | .spdec _ _ => some 0x60
  | .spenc _ _ => some 0x61
  | .prune _ _ => some 0x62
  | .gath _ _ => some 0x68
  | .scadd _ _ => some 0x69
  | .rngk _ _ => some 0x70
  | .waitev _ _ => some 0x78
  | .sigev _ _ => some 0x79
  | .fence _ _ => some 0x7a
  | .lock _ _ => some 0x7b
  | .loop _ _ => some 0x80
  | .brp _ _ => some 0x81
  | .halt _ _ => some 0x82
  | _ => none

/-- The word of a Sluice instruction; none for the other commands. -/
def encodeSluice : Instr → Option (BitVec 64)
  | .srecv _ f => some (f.word 0x1)
  | .ssend _ f => some (f.word 0x2)
  | .speek _ f => some (f.word 0x3)
  | .vadd _ f => some (f.word 0x10)
  | .vsub _ f => some (f.word 0x11)
  | .vmul _ f => some (f.word 0x12)
  | .vfma _ f => some (f.word 0x13)
  | .vmax _ f => some (f.word 0x14)
  | .vmin _ f => some (f.word 0x15)
  | .vabs _ f => some (f.word 0x16)
  | .vcvt _ f => some (f.word 0x17)
  | .vcmp _ f => some (f.word 0x18)
  | .vand _ f => some (f.word 0x20)
  | .vor _ f => some (f.word 0x21)
  | .vxor _ f => some (f.word 0x22)
  | .vandn _ f => some (f.word 0x23)
  | .vshl _ f => some (f.word 0x24)
  | .vshr _ f => some (f.word 0x25)
  | .vsra _ f => some (f.word 0x26)
  | .vmov _ f => some (f.word 0x27)
  | .vbcast _ f => some (f.word 0x28)
  | .vlane _ f => some (f.word 0x29)
  | .viota _ f => some (f.word 0x2a)
  | .plog _ f => some (f.word 0x2b)
  | .smovi _ f => some (f.word 0x30)
  | .smovhi _ f => some (f.word 0x31)
  | .sadd _ f => some (f.word 0x32)
  | .saddi _ f => some (f.word 0x33)
  | .ssub _ f => some (f.word 0x34)
  | .smul _ f => some (f.word 0x35)
  | .sand _ f => some (f.word 0x36)
  | .sor _ f => some (f.word 0x37)
  | .sxor _ f => some (f.word 0x38)
  | .sshli _ f => some (f.word 0x39)
  | .sshri _ f => some (f.word 0x3a)
  | .cacc _ f => some (f.word 0x40)
  | .cmerge _ f => some (f.word 0x41)
  | .crnd _ f => some (f.word 0x42)
  | .cxport _ f => some (f.word 0x43)
  | .cclr _ f => some (f.word 0x44)
  | .vsort _ f => some (f.word 0x50)
  | .topk _ f => some (f.word 0x51)
  | .mergek _ f => some (f.word 0x52)
  | .vcompress _ f => some (f.word 0x58)
  | .vexpand _ f => some (f.word 0x59)
  | .vselect _ f => some (f.word 0x5a)
  | .spdec _ f => some (f.word 0x60)
  | .spenc _ f => some (f.word 0x61)
  | .prune _ f => some (f.word 0x62)
  | .gath _ f => some (f.word 0x68)
  | .scadd _ f => some (f.word 0x69)
  | .rngk _ f => some (f.word 0x70)
  | .waitev _ f => some (f.word 0x78)
  | .sigev _ f => some (f.word 0x79)
  | .fence _ f => some (f.word 0x7a)
  | .lock _ f => some (f.word 0x7b)
  | .loop _ f => some (f.word 0x80)
  | .brp _ f => some (f.word 0x81)
  | .halt _ f => some (f.word 0x82)
  | _ => none

/-- Where a Sluice instruction issues. -/
def Instr.site : Instr → Option Site
  | .srecv a _ => some a
  | .ssend a _ => some a
  | .speek a _ => some a
  | .vadd a _ => some a
  | .vsub a _ => some a
  | .vmul a _ => some a
  | .vfma a _ => some a
  | .vmax a _ => some a
  | .vmin a _ => some a
  | .vabs a _ => some a
  | .vcvt a _ => some a
  | .vcmp a _ => some a
  | .vand a _ => some a
  | .vor a _ => some a
  | .vxor a _ => some a
  | .vandn a _ => some a
  | .vshl a _ => some a
  | .vshr a _ => some a
  | .vsra a _ => some a
  | .vmov a _ => some a
  | .vbcast a _ => some a
  | .vlane a _ => some a
  | .viota a _ => some a
  | .plog a _ => some a
  | .smovi a _ => some a
  | .smovhi a _ => some a
  | .sadd a _ => some a
  | .saddi a _ => some a
  | .ssub a _ => some a
  | .smul a _ => some a
  | .sand a _ => some a
  | .sor a _ => some a
  | .sxor a _ => some a
  | .sshli a _ => some a
  | .sshri a _ => some a
  | .cacc a _ => some a
  | .cmerge a _ => some a
  | .crnd a _ => some a
  | .cxport a _ => some a
  | .cclr a _ => some a
  | .vsort a _ => some a
  | .topk a _ => some a
  | .mergek a _ => some a
  | .vcompress a _ => some a
  | .vexpand a _ => some a
  | .vselect a _ => some a
  | .spdec a _ => some a
  | .spenc a _ => some a
  | .prune a _ => some a
  | .gath a _ => some a
  | .scadd a _ => some a
  | .rngk a _ => some a
  | .waitev a _ => some a
  | .sigev a _ => some a
  | .fence a _ => some a
  | .lock a _ => some a
  | .loop a _ => some a
  | .brp a _ => some a
  | .halt a _ => some a
  | _ => none

/-- The Sluice instruction a word spells at a site; none for a reserved opcode (R169). -/
def readOpcode (a : Site) (w : BitVec 64) : Option Instr :=
  match (wordBits w 56 8).toNat with
  | 0x1 => some (.srecv a (LT.ofWord w))
  | 0x2 => some (.ssend a (LT.ofWord w))
  | 0x3 => some (.speek a (LT.ofWord w))
  | 0x10 => some (.vadd a (LV.ofWord w))
  | 0x11 => some (.vsub a (LV.ofWord w))
  | 0x12 => some (.vmul a (LV.ofWord w))
  | 0x13 => some (.vfma a (LV.ofWord w))
  | 0x14 => some (.vmax a (LV.ofWord w))
  | 0x15 => some (.vmin a (LV.ofWord w))
  | 0x16 => some (.vabs a (LV.ofWord w))
  | 0x17 => some (.vcvt a (LV.ofWord w))
  | 0x18 => some (.vcmp a (LV.ofWord w))
  | 0x20 => some (.vand a (LV.ofWord w))
  | 0x21 => some (.vor a (LV.ofWord w))
  | 0x22 => some (.vxor a (LV.ofWord w))
  | 0x23 => some (.vandn a (LV.ofWord w))
  | 0x24 => some (.vshl a (LV.ofWord w))
  | 0x25 => some (.vshr a (LV.ofWord w))
  | 0x26 => some (.vsra a (LV.ofWord w))
  | 0x27 => some (.vmov a (LV.ofWord w))
  | 0x28 => some (.vbcast a (LV.ofWord w))
  | 0x29 => some (.vlane a (LV.ofWord w))
  | 0x2a => some (.viota a (LV.ofWord w))
  | 0x2b => some (.plog a (LV.ofWord w))
  | 0x30 => some (.smovi a (LS.ofWord w))
  | 0x31 => some (.smovhi a (LS.ofWord w))
  | 0x32 => some (.sadd a (LS.ofWord w))
  | 0x33 => some (.saddi a (LS.ofWord w))
  | 0x34 => some (.ssub a (LS.ofWord w))
  | 0x35 => some (.smul a (LS.ofWord w))
  | 0x36 => some (.sand a (LS.ofWord w))
  | 0x37 => some (.sor a (LS.ofWord w))
  | 0x38 => some (.sxor a (LS.ofWord w))
  | 0x39 => some (.sshli a (LS.ofWord w))
  | 0x3a => some (.sshri a (LS.ofWord w))
  | 0x40 => some (.cacc a (LC.ofWord w))
  | 0x41 => some (.cmerge a (LC.ofWord w))
  | 0x42 => some (.crnd a (LC.ofWord w))
  | 0x43 => some (.cxport a (LC.ofWord w))
  | 0x44 => some (.cclr a (LC.ofWord w))
  | 0x50 => some (.vsort a (LV.ofWord w))
  | 0x51 => some (.topk a (LV.ofWord w))
  | 0x52 => some (.mergek a (LV.ofWord w))
  | 0x58 => some (.vcompress a (LV.ofWord w))
  | 0x59 => some (.vexpand a (LV.ofWord w))
  | 0x5a => some (.vselect a (LV.ofWord w))
  | 0x60 => some (.spdec a (LV.ofWord w))
  | 0x61 => some (.spenc a (LV.ofWord w))
  | 0x62 => some (.prune a (LV.ofWord w))
  | 0x68 => some (.gath a (LG.ofWord w))
  | 0x69 => some (.scadd a (LG.ofWord w))
  | 0x70 => some (.rngk a (LV.ofWord w))
  | 0x78 => some (.waitev a (LK.ofWord w))
  | 0x79 => some (.sigev a (LK.ofWord w))
  | 0x7a => some (.fence a (LK.ofWord w))
  | 0x7b => some (.lock a (LK.ofWord w))
  | 0x80 => some (.loop a (LL.ofWord w))
  | 0x81 => some (.brp a (LK.ofWord w))
  | 0x82 => some (.halt a (LK.ofWord w))
  | _ => none

/-- Decode an instruction word at a site: none for a reserved opcode and for a word with a nonzero reserved bit of its layout
(R168, R169). -/
def decodeSluice (a : Site) (w : BitVec 64) : Option Instr :=
  match readOpcode a w with
  | some i => if encodeSluice i = some w then some i else none
  | none => none

/-- The command a word of the opcode table spells. The table gives its rows no bits, so there is none. -/
def decodeTableWord (_nbits _w : Nat) : Option Instr := none

end Sys2Proof
end

