-- ==== Sys2Proof/Machine/Map.lean ====
section
/-!
DEFINITION. Sparse maps: a list of (key, value) pairs with strictly rising keys and no entry equal to what an
unlisted key reads as, so that equal maps are equal data. Register spaces, memories and sparse tables
of the machine are held in this form.
-/
namespace Sys2Proof.Machine

/-- A sparse map from numbers to values. What an unlisted key reads as is a function given to each operation. -/
abbrev SMap (β : Type) := List (Nat × β)

/-- Read a key; an unlisted key reads as `d key`. -/
def SMap.get {β : Type} (d : Nat → β) : SMap β → Nat → β
  | [], k => d k
  | (a, v) :: m, k => if a = k then v else SMap.get d m k

/-- Is the key listed? -/
def SMap.has {β : Type} : SMap β → Nat → Bool
  | [], _ => false
  | (a, _) :: m, k => a == k || SMap.has m k

/-- Put the pair in its place among rising keys. -/
def SMap.insert {β : Type} : SMap β → Nat → β → SMap β
  | [], k, v => [(k, v)]
  | (a, x) :: m, k, v =>
    if k < a then (k, v) :: (a, x) :: m
    else if k = a then (k, v) :: m
    else (a, x) :: SMap.insert m k v

/-- Write a key: put the pair in its place, or take the key out when `v` is what the unlisted key reads as. -/
def SMap.set {β : Type} [DecidableEq β] (d : Nat → β) (m : SMap β) (k : Nat) (v : β) : SMap β :=
  if v = d k then m.filter (fun e => e.1 != k) else SMap.insert m k v

/-- Every key of the list is above the bound. -/
def SMap.above {β : Type} (lo : Nat) : SMap β → Bool
  | [] => true
  | (a, _) :: _ => lo < a

/-- The canonical form: strictly rising keys and no entry equal to what an unlisted key reads as. -/
def SMap.wf {β : Type} [DecidableEq β] (d : Nat → β) : SMap β → Bool
  | [] => true
  | (a, v) :: m => !decide (v = d a) && SMap.above a m && SMap.wf d m

/-- Take out every entry whose key satisfies `p`: those keys read as unlisted. -/
def SMap.erase {β : Type} (p : Nat → Bool) (m : SMap β) : SMap β :=
  m.filter (fun e => !p e.1)

/-- Write consecutive values from key `k` up. -/
def SMap.setList {β : Type} [DecidableEq β] (d : Nat → β) (m : SMap β) (k : Nat) : List β → SMap β
  | [] => m
  | v :: vs => SMap.setList d (SMap.set d m k v) (k + 1) vs

/-- Read `n` consecutive values from key `k` up. -/
def SMap.getList {β : Type} (d : Nat → β) (m : SMap β) (k : Nat) : Nat → List β
  | 0 => []
  | n + 1 => SMap.get d m k :: SMap.getList d m (k + 1) n

/-- Put an element into a list before the first element that it may stand before. -/
def insertBy {α : Type} (le : α → α → Bool) (a : α) : List α → List α
  | [] => [a]
  | b :: l => if le a b then a :: b :: l else b :: insertBy le a l

/-- Sort a list by an order; elements the order does not part keep their sequence. -/
def sortBy {α : Type} (le : α → α → Bool) (l : List α) : List α := l.foldr (insertBy le) []

/-- The little-endian number held in a list of bytes (R10). -/
def leNat : List Byte → Nat
  | [] => 0
  | b :: bs => b.toNat + 256 * leNat bs

/-- The `n` little-endian bytes of a number (R10). -/
def leBytes (x : Nat) : Nat → List Byte
  | 0 => []
  | n + 1 => BitVec.ofNat 8 x :: leBytes (x / 256) n

/-- The `n` big-endian bytes of a number. -/
def beBytes (x n : Nat) : List Byte := (leBytes x n).reverse

/-- The first element of the list that `f` maps to a value. -/
def findMap? {α β : Type} (f : α → Option β) : List α → Option β
  | [] => none
  | a :: as => match f a with
    | some b => some b
    | none => findMap? f as

/-- Replace the element at a place of a list; outside the list nothing changes. -/
def setAt {α : Type} (l : List α) (i : Nat) (v : α) : List α := l.set i v

/-- The numbers of a bit set of width `w`, in rising order. -/
def bitList (x w : Nat) : List Nat := (List.range w).filter (fun i => x.testBit i)

/-- The number of bits set among the low `w` bits. -/
def popCount (x w : Nat) : Nat := (bitList x w).length

end Sys2Proof.Machine
end

