-- ==== Sys2Proof/Machine/Numbers.lean ====
section
/-!
DEFINITION. Number formats, conversions and special values (chapter 02): decoding (R38 to R41), the five rounding
modes (R54 to R57), overflow and underflow (R58, R59, R611), the elementwise special-value tables
(Table 02-7, R612), conversions (Table 02-9, R66, R67) and MX blocks (R69 to R71).
Values are exact: sign, integer magnitude and binary exponent; each operation rounds once.
-/
namespace Sys2Proof.Machine

/-- A format as its descriptor gives it (Table 02-3), with its index in the table (R36). -/
structure Fmt where
  idx    : Nat
  kind   : Nat
  width  : Nat
  sgn    : Bool
  ebits  : Nat
  mbits  : Nat
  bias   : Nat
  policy : Nat
  sat    : Bool
  deriving DecidableEq, Repr

/-- The descriptor word of a format in the layout of Table 02-3. -/
def packDesc (kind width sgn ebits mbits bias policy sat : Nat) : Nat :=
  kind ||| width <<< 3 ||| sgn <<< 10 ||| ebits <<< 11 ||| mbits <<< 15 ||| bias <<< 21 ||| policy <<< 32 |||
    sat <<< 34

/-- The built-in descriptors (Table 02-1, R37, R43). An integer format's sign bit is reported in `sgn`; the fields
that Table 02-1 marks with a dash are 0 (log entry 10). -/
def builtinDesc : Nat → Nat
  | 0 => packDesc 1 64 1 11 52 1023 1 0
  | 1 => packDesc 1 32 1 8 23 127 1 0
  | 2 => packDesc 1 16 1 5 10 15 1 0
  | 3 => packDesc 1 16 1 8 7 127 1 0
  | 4 => packDesc 1 8 1 4 3 7 2 0
  | 5 => packDesc 1 8 1 5 2 15 1 0
  | 6 => packDesc 1 6 1 3 2 3 0 1
  | 7 => packDesc 1 6 1 2 3 1 0 1
  | 8 => packDesc 1 4 1 2 1 1 0 1
  | 9 => packDesc 2 8 0 8 0 127 2 0
  | 10 => packDesc 3 8 1 0 0 0 0 0
  | 11 => packDesc 4 8 0 0 0 0 0 0
  | 12 => packDesc 3 16 1 0 0 0 0 0
  | 13 => packDesc 3 32 1 0 0 0 0 0
  | 14 => packDesc 3 64 1 0 0 0 0 0
  | 15 => packDesc 3 4 1 0 0 0 0 0
  | 16 => packDesc 5 0 0 0 0 0 0 0
  | 17 => packDesc 5 0 0 0 0 0 0 0
  | 18 => packDesc 5 0 0 0 0 0 0 0
  | _ => 0

/-- The format of index `i` whose descriptor word is `d` (Table 02-3). Policy 0 counts as sat = 1 (R43). -/
def fmtOfDesc (i d : Nat) : Fmt :=
  { idx := i, kind := bits d 0 3, width := bits d 3 7, sgn := bit d 10, ebits := bits d 11 4, mbits := bits d 15 6,
    bias := bits d 21 11, policy := bits d 32 2, sat := bit d 34 || bits d 32 2 == 0 }

/-- A built-in format. -/
def builtinFmt (i : Nat) : Fmt := fmtOfDesc i (builtinDesc i)

/-- Is the format of float kind? -/
def Fmt.isFloat (f : Fmt) : Bool := f.kind == 1
/-- Is the format an integer format? -/
def Fmt.isInt (f : Fmt) : Bool := f.kind == 3 || f.kind == 4
/-- Is the format the scale format E8M0? -/
def Fmt.isScale (f : Fmt) : Bool := f.kind == 2
/-- Is the format one of the exact formats C320, C2176, I128? -/
def Fmt.isExact (f : Fmt) : Bool := f.kind == 5
/-- Does the format have NaN (R52)? -/
def Fmt.hasNan (f : Fmt) : Bool := (f.kind == 1 && f.policy != 0) || f.kind == 2

/-- The width of the trap-code field of a format's NaN, 0 for none (Table 02-4). -/
def Fmt.trapBits (f : Fmt) : Nat :=
  if f.idx ≤ 2 then 8 else if f.idx = 3 then 6 else 0

/-- The canonical NaN with trap code `t` (Table 02-4, R48); 0 for a format without NaN, its poison value (R52). -/
def Fmt.canonNan (f : Fmt) (t : Nat) : Nat :=
  if f.kind = 2 then 0xFF
  else if f.kind = 1 then
    if f.policy = 1 then
      ((2 ^ f.ebits - 1) <<< f.mbits ||| 2 ^ (f.mbits - 1)) ||| t % 2 ^ f.trapBits
    else if f.policy = 2 then 2 ^ (f.ebits + f.mbits) - 1
    else if f.policy = 3 then 2 ^ (f.width - 1)
    else 0
  else 0

/-- The largest magnitude code (exponent and mantissa bits) of a finite value (Table 02-2). -/
def Fmt.maxCode (f : Fmt) : Nat :=
  if f.policy = 1 then (2 ^ f.ebits - 1) * 2 ^ f.mbits - 1
  else if f.policy = 2 then 2 ^ (f.ebits + f.mbits) - 2
  else 2 ^ (f.ebits + f.mbits) - 1

/-- An exact value: a NaN with its trap code, an infinity, or (−1)^neg × num × 2^exp. -/
inductive Val where
  | nan (code : Nat)
  | inf (neg : Bool)
  | fin (neg : Bool) (num : Nat) (exp : Int)
  deriving DecidableEq, Repr

/-- The code a decoded or propagated NaN carries: its field when that holds 0x01 to 0x0D, else 0x01 (R49, R175). -/
def nanCode (field : Nat) : Nat := if 1 ≤ field ∧ field ≤ 0x0D then field else 1

/-- The exponent of the smallest quantum of a float format, 1 − bias − M (R38). -/
def Fmt.emin (f : Fmt) : Int := 1 - (f.bias : Int) - (f.mbits : Int)

/-- Decode the bits of one element (R38 to R40, Table 02-2). -/
def Fmt.decode (f : Fmt) (x : Nat) : Val :=
  if f.kind = 1 then
    let s := f.sgn && bit x (f.width - 1)
    let e := bits x f.mbits f.ebits
    let m := bits x 0 f.mbits
    let ones := 2 ^ f.ebits - 1
    if f.policy = 1 ∧ e = ones then
      if m = 0 then .inf s else .nan (nanCode (x % 2 ^ f.trapBits))
    else if f.policy = 2 ∧ e = ones ∧ m = 2 ^ f.mbits - 1 then .nan 1
    else if f.policy = 3 ∧ s ∧ e = 0 ∧ m = 0 then .nan 1
    else if e = 0 then .fin s m f.emin
    else .fin s (2 ^ f.mbits + m) (f.emin + (e : Int) - 1)
  else if f.kind = 2 then
    if x % 256 = 255 then .nan 1 else .fin false 1 ((x % 256 : Nat) - 127)
  else if f.kind = 3 then
    let v := sint f.width x
    .fin (v < 0) v.natAbs 0
  else .fin false (x % 2 ^ f.width) 0

/-- Does the magnitude round up? `a` is the truncated magnitude in units of u, `rem / 2^k` the exact rest
(Table 02-5, R56); `r` is the generator's 16-bit value. `a` is the significand with its leading bit, so in a format
without fraction bits a tie between two normal values goes to the larger magnitude (log entry 11). -/
def roundUp (mode r : Nat) (neg : Bool) (a rem k : Nat) : Bool :=
  match mode with
  | 0 => decide (2 * rem > 2 ^ k) || (decide (2 * rem = 2 ^ k) && a % 2 == 1)
  | 1 => false
  | 2 => rem != 0 && !neg
  | 3 => rem != 0 && neg
  | _ => decide (r < (rem * 65536) >>> k)

/-- Round num × 2^exp to a multiple of 2^q; the answer is in units of 2^q (R55). -/
def roundQ (mode r : Nat) (neg : Bool) (num : Nat) (exp q : Int) : Nat :=
  if exp ≥ q then num <<< (exp - q).toNat
  else
    let k := (q - exp).toNat
    let a := num >>> k
    let rem := num % 2 ^ k
    if roundUp mode r neg a rem k then a + 1 else a

/-- What rounding into a format gives: the stored bits, and whether an overflow gave a NaN (cause 0x02 of R58). -/
structure Enc where
  bits   : Nat
  ovfNan : Bool
  deriving DecidableEq, Repr

/-- The sign bit of a stored element, absent in a format with sgn = 0. -/
def Fmt.signBit (f : Fmt) (neg : Bool) : Nat := if f.sgn && neg then 2 ^ (f.width - 1) else 0

/-- The bits of an infinity under policy 1 (Table 02-2); −inf is +0 where there is no sign (R611). -/
def Fmt.infBits (f : Fmt) (neg : Bool) : Nat :=
  if !f.sgn && neg then 0 else f.signBit neg ||| (2 ^ f.ebits - 1) <<< f.mbits

/-- An infinite result after the policy of R58 (Table 02-2, R611). -/
def Fmt.encInf (f : Fmt) (neg : Bool) : Enc :=
  if !f.sgn && neg then ⟨0, false⟩
  else if f.sat then ⟨f.signBit neg ||| f.maxCode, false⟩
  else if f.policy = 1 then ⟨f.infBits neg, false⟩
  else ⟨f.canonNan 0, true⟩

/-- A rounded result beyond the largest finite value (Table 02-6, then the policy of R58). -/
def Fmt.encOverflow (f : Fmt) (mode : Nat) (neg : Bool) : Enc :=
  let toInf := mode = 0 ∨ mode = 4 ∨ (mode = 2 ∧ !neg) ∨ (mode = 3 ∧ neg)
  if f.sat || !decide toInf then ⟨f.signBit neg ||| f.maxCode, false⟩ else f.encInf neg

/-- A zero in a float format (R59, R611): +0 only in policy 3 and where there is no sign. -/
def Fmt.encZero (f : Fmt) (neg : Bool) : Nat := if f.policy = 3 then 0 else f.signBit neg

/-- Round (−1)^neg × num × 2^exp into a float format, once (R55 to R59, R611). -/
def Fmt.roundFloat (f : Fmt) (mode r : Nat) (neg : Bool) (num : Nat) (exp : Int) : Enc :=
  if !f.sgn && neg then ⟨0, false⟩
  else if num = 0 then ⟨f.encZero neg, false⟩
  else
    let top := exp + (Nat.log2 num : Int)
    let q := max (top - (f.mbits : Int)) f.emin
    let a := roundQ mode r neg num exp q
    let code := (q - f.emin).toNat * 2 ^ f.mbits + a
    if a = 0 then ⟨f.encZero neg, false⟩
    else if code > f.maxCode then f.encOverflow mode neg
    else ⟨f.signBit neg ||| code, false⟩

/-- The least value of an integer format. -/
def Fmt.intLo (f : Fmt) : Int := if f.kind = 3 then -(2 ^ (f.width - 1) : Nat) else 0
/-- The largest value of an integer format. -/
def Fmt.intHi (f : Fmt) : Int :=
  if f.kind = 3 then (2 ^ (f.width - 1) : Nat) - 1 else (2 ^ f.width : Nat) - 1

/-- Saturate an integer to the range of an integer format and store it (R63). -/
def Fmt.satInt (f : Fmt) (v : Int) : Nat := uint f.width (max f.intLo (min f.intHi v))

/-- Round a value to an integer in the selected mode and saturate it (R57, Table 02-9). -/
def Fmt.roundInt (f : Fmt) (mode r : Nat) (neg : Bool) (num : Nat) (exp : Int) : Nat :=
  let a : Int := roundQ mode r neg num exp 0
  f.satInt (if neg then -a else a)

/-- Conversion to E8M0 (R67); the sign and the rounding field are ignored. -/
def e8m0Of : Val → Nat
  | .nan _ => 0xFF
  | .inf _ => 0xFE
  | .fin _ num exp =>
    if num = 0 then 0
    else
      let l := exp + (Nat.log2 num : Int) + 127
      if l < 0 then 0 else min l.toNat 0xFE

/-- What an operation leaves in one lane: the stored bits, the lane's poison bit, the first-NaN cause it raises
(Table 02-11; 0 for none) and the trap code its NaN carries or would carry. -/
structure LaneRes where
  bits  : Nat
  pois  : Bool
  cause : Nat
  code  : Nat
  deriving DecidableEq, Repr

/-- A NaN result with trap code `t`: the canonical NaN, or the poison value with the poison bit where the format
has none (R50, R52, R612). -/
def Fmt.nanRes (f : Fmt) (t cause : Nat) : LaneRes := ⟨f.canonNan t, !f.hasNan, cause, t⟩

/-- The lane of a stored encoding; an overflow into a NaN is an origin of cause 0x02, and its record shows trap code
0x01 (log entry 50). -/
def Enc.res (e : Enc) : LaneRes := ⟨e.bits, false, if e.ovfNan then 2 else 0, if e.ovfNan then 1 else 0⟩

/-- Store a result in format `f` (R55 to R59, R63, R67), an infinity of a float format by the policy of R58, as a
round-out does (Table 02-8). `origin` is the cause an N of this operation raises: 0x01 when it is generated, 0 when
it carries an operand's NaN onward. -/
def Fmt.storeOut (f : Fmt) (mode r : Nat) (v : Val) (origin : Nat) : LaneRes :=
  match v with
  | .nan t => f.nanRes t origin
  | .inf neg =>
    if f.isInt then ⟨f.satInt (if neg then f.intLo else f.intHi), false, 0, 0⟩
    else if f.isScale then ⟨e8m0Of (.inf neg), false, 0, 0⟩
    else (f.encInf neg).res
  | .fin neg num exp =>
    if f.isInt then ⟨f.roundInt mode r neg num exp, false, 0, 0⟩
    else if f.isScale then ⟨e8m0Of (.fin neg num exp), false, 0, 0⟩
    else (f.roundFloat mode r neg num exp).res

/-- Store the exact result of an elementwise operation or a conversion: as `storeOut`, but an infinity stays an
infinity under policy 1, whatever sat holds (Tables 02-7 and 02-9). -/
def Fmt.store (f : Fmt) (mode r : Nat) (v : Val) (origin : Nat) : LaneRes :=
  match v with
  | .inf neg =>
    if f.isFloat && f.policy == 1 then ⟨f.infBits neg, false, 0, 0⟩ else f.storeOut mode r v origin
  | _ => f.storeOut mode r v origin

/-- An operand lane: its bits and its poison bit. -/
structure Lane where
  bits : Nat
  pois : Bool
  deriving DecidableEq, Repr

/-- The trap code an operand lane carries onward when it is NaN or poisoned, `none` otherwise (R50, R53, R175). -/
def Fmt.nanOf (f : Fmt) (a : Lane) : Option Nat :=
  if a.pois then some (nanCode (a.bits % 2 ^ f.trapBits))
  else match f.decode a.bits with
    | .nan t => some t
    | _ => none

/-- The exact sum of two finite values, with the zero rule of Table 02-7 and R64. -/
def addFin (n1 : Bool) (a1 : Nat) (e1 : Int) (n2 : Bool) (a2 : Nat) (e2 : Int) : Val :=
  let e := min e1 e2
  let x : Int := (a1 <<< (e1 - e).toNat : Nat)
  let y : Int := (a2 <<< (e2 - e).toNat : Nat)
  let s := (if n1 then -x else x) + (if n2 then -y else y)
  if s = 0 then .fin (n1 && n2 && a1 == 0 && a2 == 0) 0 0
  else .fin (s < 0) s.natAbs e

/-- The value of a + b for non-NaN operands; `none` is the generated N (Table 02-7). -/
def addVal : Val → Val → Option Val
  | .inf s, .inf t => if s = t then some (.inf s) else none
  | .inf s, _ => some (.inf s)
  | _, .inf t => some (.inf t)
  | .fin n1 a1 e1, .fin n2 a2 e2 => some (addFin n1 a1 e1 n2 a2 e2)
  | _, _ => none

/-- The value of a × b for non-NaN operands; `none` is the generated N (Table 02-7). -/
def mulVal : Val → Val → Option Val
  | .inf s, .inf t => some (.inf (s != t))
  | .inf s, .fin t b _ => if b = 0 then none else some (.inf (s != t))
  | .fin s a _, .inf t => if a = 0 then none else some (.inf (s != t))
  | .fin s a e1, .fin t b e2 => some (.fin (s != t) (a * b) (e1 + e2))
  | _, _ => none

/-- Is the value a NaN? -/
def Val.isNan : Val → Bool
  | .nan _ => true
  | _ => false
/-- Is the value an infinity? -/
def Val.isInf : Val → Bool
  | .inf _ => true
  | _ => false
/-- Is the value a zero? -/
def Val.isZero : Val → Bool
  | .fin _ n _ => n == 0
  | _ => false
/-- The sign of a value. -/
def Val.neg? : Val → Bool
  | .nan _ => false
  | .inf s => s
  | .fin s _ _ => s
/-- The value with its sign replaced. -/
def Val.withSign (s : Bool) : Val → Val
  | .nan t => .nan t
  | .inf _ => .inf s
  | .fin _ n e => .fin s n e
/-- The value with its sign turned. -/
def Val.negate (v : Val) : Val := v.withSign (!v.neg?)

/-- Divide, for non-NaN operands; `none` is the generated N (Table 02-7). The quotient keeps `k` bits and a
sticky bit, enough for every rounding of R55 and R56. -/
def divVal : Val → Val → Option Val
  | .inf _, .inf _ => none
  | .inf s, .fin t _ _ => some (.inf (s != t))
  | .fin s _ _, .inf t => some (.fin (s != t) 0 0)
  | .fin s a e1, .fin t b e2 =>
    if b = 0 then (if a = 0 then none else some (.inf (s != t)))
    else
      let k := 160 + Nat.log2 b
      let n := a <<< k
      some (.fin (s != t) (2 * (n / b) + (if n % b = 0 then 0 else 1)) (e1 - e2 - (k : Int) - 1))
  | _, _ => none

/-- The integer square root by bits, `fuel` bits of answer: the largest r with r² ≤ n. -/
def isqrt (n : Nat) : Nat → Nat → Nat
  | 0, r => r
  | fuel + 1, r =>
    let c := r + 2 ^ fuel
    if c * c ≤ n then isqrt n fuel c else isqrt n fuel r

/-- Square root, for non-NaN operands; `none` is the generated N (Table 02-7). -/
def sqrtVal : Val → Option Val
  | .inf s => if s then none else some (.inf false)
  | .fin s a e =>
    if a = 0 then some (.fin s 0 0)
    else if s then none
    else
      let k := 320 + (if (e % 2 = 0) then 0 else 1)
      let n := a <<< k
      let r := isqrt n (Nat.log2 n / 2 + 1) 0
      some (.fin false (2 * r + (if r * r = n then 0 else 1)) ((e - (k : Int)) / 2 - 1))
  | .nan _ => none

/-- Compare two finite or infinite values as numbers: −1, 0 or 1 as an integer (R62). -/
def cmpVal : Val → Val → Int
  | .inf s, .inf t => if s = t then 0 else if s then -1 else 1
  | .inf s, _ => if s then -1 else 1
  | _, .inf t => if t then 1 else -1
  | .fin n1 a1 e1, .fin n2 a2 e2 =>
    let e := min e1 e2
    let x : Int := (a1 <<< (e1 - e).toNat : Nat)
    let y : Int := (a2 <<< (e2 - e).toNat : Nat)
    let d := (if n1 then -x else x) - (if n2 then -y else y)
    if d < 0 then -1 else if d = 0 then 0 else 1
  | _, _ => 0

/-- The first NaN or poisoned operand's code, in the order given (R50). -/
def firstNan (f : Fmt) : List Lane → Option Nat
  | [] => none
  | a :: as => match f.nanOf a with
    | some t => some t
    | none => firstNan f as

/-- Does any operand lane carry poison (R53)? -/
def anyPois (l : List Lane) : Bool := l.any (·.pois)

/-- Mark the result lane poisoned when an operand lane is (R53). -/
def LaneRes.orPois (x : LaneRes) (p : Bool) : LaneRes := { x with pois := x.pois || p }

/-- Store an elementwise result: a generated N is an origin of cause 0x01 (R50, R612). -/
def Fmt.finish (f : Fmt) (mode r : Nat) : Option Val → LaneRes
  | none => f.nanRes 1 1
  | some v => f.store mode r v 0

/-- a + b in format `f` (Table 02-7, R63, R612). -/
def laneAdd (f : Fmt) (mode r : Nat) (a b : Lane) : LaneRes :=
  match firstNan f [a, b] with
  | some t => (f.nanRes t 0).orPois (anyPois [a, b])
  | none => f.finish mode r (addVal (f.decode a.bits) (f.decode b.bits))

/-- a + (−b) in format `f`: b is negated before the addition, a zero too (Table 02-7). -/
def laneSub (f : Fmt) (mode r : Nat) (a b : Lane) : LaneRes :=
  match firstNan f [a, b] with
  | some t => (f.nanRes t 0).orPois (anyPois [a, b])
  | none =>
    f.finish mode r (addVal (f.decode a.bits) (f.decode b.bits).negate)

/-- a × b in format `f` (Table 02-7). -/
def laneMul (f : Fmt) (mode r : Nat) (a b : Lane) : LaneRes :=
  match firstNan f [a, b] with
  | some t => (f.nanRes t 0).orPois (anyPois [a, b])
  | none => f.finish mode r (mulVal (f.decode a.bits) (f.decode b.bits))

/-- a × b + c in format `f`, rounded once (Table 02-7). 0 × inf gives N with code 0x01 with any c, a NaN included; a
poisoned operand precedes that (R175). -/
def laneFma (f : Fmt) (mode r : Nat) (a b c : Lane) : LaneRes :=
  let va := f.decode a.bits
  let vb := f.decode b.bits
  if !anyPois [a, b, c] && ((va.isZero && vb.isInf) || (va.isInf && vb.isZero)) then f.nanRes 1 1
  else match firstNan f [a, b, c] with
    | some t => (f.nanRes t 0).orPois (anyPois [a, b, c])
    | none => match mulVal va vb with
      | none => f.nanRes 1 1
      | some p => f.finish mode r (addVal p (f.decode c.bits))

/-- The larger (`mx`) or smaller of two lanes, −0 below +0 and one NaN ignored (Table 02-7, R179). -/
def laneMaxMin (f : Fmt) (mx : Bool) (a b : Lane) : LaneRes :=
  if anyPois [a, b] then
    match firstNan f [a, b] with
    | some t => (f.nanRes t 0).orPois true
    | none => (f.nanRes 1 0).orPois true
  else match f.decode a.bits, f.decode b.bits with
    | .nan t, .nan _ => f.nanRes t 0
    | .nan _, _ => ⟨b.bits, false, 0, 0⟩
    | _, .nan _ => ⟨a.bits, false, 0, 0⟩
    | va, vb =>
      let d := cmpVal va vb
      let aLow := d < 0 || (d = 0 && va.neg? && !vb.neg?)
      ⟨if aLow = mx then b.bits else a.bits, false, 0, 0⟩

/-- The magnitude of a lane, sign 0 (Table 02-7, R63). -/
def laneAbs (f : Fmt) (a : Lane) : LaneRes :=
  match f.nanOf a with
  | some t => (f.nanRes t 0).orPois a.pois
  | none => match f.decode a.bits with
    | .fin _ n e => f.store 0 0 (.fin false n e) 0
    | v => ⟨if f.isFloat then (if f.sgn then a.bits % 2 ^ (f.width - 1) else a.bits) else (e8m0Of v), false, 0, 0⟩

/-- Division, noria micro-steps (Table 02-7). -/
def laneDiv (f : Fmt) (mode r : Nat) (a b : Lane) : LaneRes :=
  match firstNan f [a, b] with
  | some t => (f.nanRes t 0).orPois (anyPois [a, b])
  | none => f.finish mode r (divVal (f.decode a.bits) (f.decode b.bits))

/-- Square root, noria micro-steps (Table 02-7). -/
def laneSqrt (f : Fmt) (mode r : Nat) (a : Lane) : LaneRes :=
  match f.nanOf a with
  | some t => (f.nanRes t 0).orPois a.pois
  | none => f.finish mode r (sqrtVal (f.decode a.bits))

/-- Convert one lane from `src` to `dst` (Table 02-9, R66, R67). -/
def laneCvt (src dst : Fmt) (mode r : Nat) (a : Lane) : LaneRes :=
  if a.pois then ⟨dst.canonNan (nanCode (a.bits % 2 ^ src.trapBits)), true, 0, 0⟩
  else match src.decode a.bits with
    | .nan t =>
      let c := if src.isScale then 4 else if dst.hasNan then 0 else 7
      ⟨dst.canonNan t, !dst.hasNan, c, t⟩
    | v => dst.store mode r v 0

/-- floor(log2) of the largest finite magnitude of an MX element format (R71). -/
def mxEmax (idx : Nat) : Int :=
  if idx = 4 then 8 else if idx = 5 then 15 else if idx = 6 then 4 else 2

/-- What decoding one MX element gives (R70): its value, the first-NaN cause it raises, and whether it counts in
MX_INF_COUNT. -/
def mxDecode (f : Fmt) (scale : Nat) (x : Nat) : Val × Nat × Bool :=
  if scale % 256 = 0xFF then (.nan 1, 4, false)
  else match f.decode x with
    | .nan _ => (.nan 1, 3, false)
    | .inf s => (.inf s, 0, false)
    | .fin s n e =>
      let e' := e + ((scale % 256 : Nat) : Int) - 127
      if n ≠ 0 ∧ e' + (Nat.log2 n : Int) ≥ 128 then (.inf s, 0, true) else (.fin s n e', 0, false)

/-- The largest floor(log2 |v|) of the nonzero values of a block. -/
def maxLog2 : List Val → Option Int
  | [] => none
  | .fin _ n e :: vs =>
    let rest := maxLog2 vs
    if n = 0 then rest
    else
      let l := e + (Nat.log2 n : Int)
      match rest with
      | none => some l
      | some m => some (max l m)
  | _ :: vs => maxLog2 vs

/-- Encode a block of values into an MX block: its scale byte, its elements, and whether cause 0x04 arises
(R71). `rs` gives each element's generator value for SR. A magnitude whose scale would pass 2^127 takes that scale, and its element saturates (log
entry 57). -/
def mxEncode (f : Fmt) (mode : Nat) (rs : List Nat) (vs : List Val) : Nat × List Nat × Bool :=
  if vs.any (fun v => v.isNan || v.isInf) then (0xFF, vs.map (fun _ => f.canonNan 1), true)
  else match maxLog2 vs with
    | none => (0, vs.map (fun v => f.encZero v.neg?), false)
    | some l =>
      let k := min 127 (max (l - mxEmax f.idx) (-127))
      let el := fun (p : Val × Nat) => match p.1 with
        | .fin s n e => ({ f with sat := true }.roundFloat mode p.2 s n (e - k)).bits
        | _ => 0
      ((k + 127).toNat, (vs.zip (rs ++ List.replicate vs.length 0)).map el, false)

/-- Is a user descriptor valid (R42)? -/
def userDescValid (d : Nat) : Bool :=
  let f := fmtOfDesc 24 d
  let top : Int := f.emin + (f.maxCode / 2 ^ f.mbits : Nat) - 1 + f.mbits
  f.kind == 1 && f.width == b2n f.sgn + f.ebits + f.mbits && 3 ≤ f.width && f.width ≤ 16 && 2 ≤ f.ebits
    && f.ebits ≤ 8 && f.mbits ≤ 10 && (f.policy != 1 || 1 ≤ f.mbits) && (f.policy != 3 || f.sgn)
    && decide (top < 128) && decide (f.emin ≥ -149) && d >>> 35 == 0

end Sys2Proof.Machine
end

