-- ==== Sys2Proof/Machine/Cistern.lean ====
section
/-!
DEFINITION. The cistern's slot operations (chapter 03), as functions of one slot: entry (R87), overflow (R91), partial
records (R94, R95), merging (R96, R97, R613), rounding out (R98, Table 02-8, R614), and the ordered
mode's tree (R107 to R109).
-/
namespace Sys2Proof.Machine

/-- The three exact formats (Table 03-1). -/
inductive Exact where
  | c320 | c2176 | i128
  deriving DecidableEq, Repr

/-- The exact format of a format index 16 to 18. -/
def Exact.ofIdx (i : Nat) : Exact := if i = 17 then .c2176 else if i = 18 then .i128 else .c320

/-- The format index of an exact format (Table 03-1). -/
def Exact.idx : Exact → Nat
  | .c320 => 16
  | .c2176 => 17
  | .i128 => 18

/-- The exact format a built-in reduction holds its slots in (Table 03-4). -/
def exactOf (f : Fmt) : Exact := if f.isInt then .i128 else if f.idx = 0 then .c2176 else .c320

/-- The two-bit code of an exact format in tags and records (Tables 03-2 and 03-12). -/
def Exact.code : Exact → Nat
  | .c320 => 0
  | .c2176 => 1
  | .i128 => 2

/-- Value width W in bits (Table 03-1). -/
def Exact.width : Exact → Nat
  | .c320 => 320
  | .c2176 => 2176
  | .i128 => 128

/-- LSB offset L (Table 03-1). -/
def Exact.lsb : Exact → Nat
  | .c320 => 149
  | .c2176 => 1074
  | .i128 => 0

/-- Store positions of one slot (Table 03-1). -/
def Exact.positions : Exact → Nat
  | .c2176 => 7
  | _ => 1

/-- Greatest anchor of a compact record (Table 03-6). -/
def Exact.maxAnchor : Exact → Nat
  | .c320 => 192
  | .c2176 => 2048
  | .i128 => 0

/-- Length of a full record in 8-byte units (Table 03-6); I128 has only compact records. -/
def Exact.fullLen : Exact → Nat
  | .c320 => 6
  | .c2176 => 35
  | .i128 => 3

/-- Bytes of a home slot in a spill level (R103). -/
def Exact.homeBytes : Exact → Nat
  | .c2176 => 280
  | _ => 48

/-- May a source format enter the exact format (Table 03-4)? -/
def Exact.accepts (x : Exact) (i : Nat) : Bool :=
  match x with
  | .c320 => (1 ≤ i && i ≤ 8) || (24 ≤ i && i ≤ 31)
  | .c2176 => i ≤ 8 || (24 ≤ i && i ≤ 31)
  | .i128 => 10 ≤ i && i ≤ 15

/-- The flag byte of a slot (Table 03-3). -/
structure Flags where
  pinf     : Bool
  ninf     : Bool
  nan      : Bool
  negzero  : Bool
  inexact  : Bool
  poisoned : Bool
  deriving DecidableEq, Repr

/-- The flag byte with no flag set. -/
def Flags.zero : Flags := ⟨false, false, false, false, false, false⟩

/-- The flag byte as a number (Table 03-3). -/
def Flags.toNat (f : Flags) : Nat :=
  b2n f.pinf + 2 * b2n f.ninf + 4 * b2n f.nan + 8 * b2n f.negzero + 16 * b2n f.inexact + 32 * b2n f.poisoned

/-- The flags a byte holds; its reserved bits are not read here (Table 03-3). -/
def Flags.ofNat (x : Nat) : Flags := ⟨bit x 0, bit x 1, bit x 2, bit x 3, bit x 4, bit x 5⟩

/-- A slot: its value, its tag (R83) and, in an ordered region, its stack of partial sums with the number of leaves
each covers, newest first (R109). `ovf` is 1 from the slot's overflow until it is cleared (R91). -/
structure Slot where
  v     : Int
  occ   : Bool
  cnt   : Nat
  flags : Flags
  ovf   : Bool
  stack : List (Nat × Nat)
  deriving DecidableEq, Repr

/-- A cleared slot (R85). -/
def Slot.empty : Slot := ⟨0, false, 0, .zero, false, []⟩

/-- The contribution count of a slot (R83). -/
def Slot.count (s : Slot) : Nat := if s.occ then s.cnt + 1 else 0

/-- Reduce an integer to a W-bit two's complement value (R82). -/
def wrapInt (w : Nat) (x : Int) : Int := sint w (uint w x)

/-- The tag word of a slot (Table 03-2). -/
def Slot.tag (x : Exact) (s : Slot) : Nat :=
  (if s.occ then s.cnt else 0) ||| b2n s.occ <<< 40 ||| x.code <<< 41 ||| s.flags.toNat <<< 48

/-- What one slot operation did: the slot, whether it overflowed now (R91) and whether it was ignored on an
overflowed slot (counted in CIS_OVF_DROP_COUNT). -/
structure SlotRes where
  slot    : Slot
  ovfNow  : Bool
  dropped : Bool
  deriving DecidableEq, Repr

/-- The overflow of a slot (R91): value and count stay, the poisoned flag is set, the trap is raised once. -/
def Slot.overflow (s : Slot) : SlotRes :=
  ⟨{ s with flags := { s.flags with poisoned := true }, ovf := true }, !s.ovf, false⟩

/-- Enter one contribution (R87). On a slot that has overflowed, the contribution is dropped and counted (R91). -/
def Slot.enter (x : Exact) (s : Slot) (v : Val) (pz inexact : Bool) : SlotRes :=
  if s.ovf then ⟨s, false, true⟩
  else if s.occ && s.cnt == 2 ^ 40 - 1 then s.overflow
  else
    let nz := (match v with
      | .fin neg n _ => neg && n == 0
      | _ => false) && !pz
    let f := { s.flags with negzero := if s.occ then s.flags.negzero && nz else nz }
    let f := { f with inexact := f.inexact || (inexact && !pz) }
    let s := { s with occ := true, cnt := if s.occ then s.cnt + 1 else 0, flags := f }
    if pz then ⟨{ s with flags := { s.flags with poisoned := true } }, false, false⟩
    else match v with
      | .nan _ => ⟨{ s with flags := { s.flags with nan := true } }, false, false⟩
      | .inf false => ⟨{ s with flags := { s.flags with pinf := true } }, false, false⟩
      | .inf true => ⟨{ s with flags := { s.flags with ninf := true } }, false, false⟩
      | .fin neg n e =>
        let t : Int := (n <<< (e + (x.lsb : Int)).toNat : Nat)
        ⟨{ s with v := wrapInt x.width (if neg then s.v - t else s.v + t) }, false, false⟩

/-- A partial record (Table 03-6). `val` is the window of a compact record or the value of a full one. -/
structure Rec where
  anchor : Nat
  flags  : Nat
  len    : Nat
  cnt    : Nat
  val    : Nat
  deriving DecidableEq, Repr

/-- The descriptor word of a record (Table 03-6). -/
def Rec.desc (r : Rec) : Nat := r.anchor ||| r.flags <<< 16 ||| r.len <<< 24 ||| r.cnt <<< 32

/-- A record's bytes, little-endian: 8 × len of them (R94). -/
def Rec.bytes (r : Rec) : List Byte := leBytes r.desc 8 ++ leBytes r.val (8 * r.len - 8)

/-- Read a record whose len field is `len` from the number its bytes hold. -/
def Rec.ofNat (len x : Nat) : Rec := ⟨bits x 0 16, bits x 16 8, len, bits x 32 32, bits x 64 (64 * len - 64)⟩

/-- The number of trailing zero bits of a nonzero number of at most `n` bits. -/
def ctz (x : Nat) : Nat → Nat
  | 0 => 0
  | n + 1 => if x % 2 = 1 then 0 else 1 + ctz (x / 2) n

/-- Encode a slot as a partial record (R95). The second answer is the slot, poisoned when its count is 2^32 or more;
the third says that this overflow is new. -/
def Slot.encode (x : Exact) (s : Slot) : Rec × Slot × Bool :=
  let n := s.count
  let o := s.overflow
  let big := n ≥ 2 ^ 32
  let s' := if big then o.slot else s
  let n' := if big then 2 ^ 32 - 1 else n
  let u := uint x.width s'.v
  let a := if x = .i128 then 0 else if u = 0 then 0 else min (ctz u x.width) x.maxAnchor
  let w := s'.v >>> a
  let r : Rec :=
    if -(2 ^ 127 : Int) ≤ w ∧ w < 2 ^ 127 then ⟨a, s'.flags.toNat, 3, n', uint 128 w⟩
    else ⟨0, s'.flags.toNat, x.fullLen, n', u⟩
  (r, s', if big then o.ovfNow else false)

/-- The record's value as an integer (R96). -/
def Rec.value (x : Exact) (r : Rec) : Int :=
  if r.len = 3 then sint 128 r.val * (2 : Int) ^ r.anchor else sint x.width r.val

/-- Is a record malformed (R97)? A full record's value word is the format's own width; the rest of its bytes is
padding of the record. -/
def Rec.malformed (x : Exact) (r : Rec) : Bool :=
  let full := r.len == x.fullLen && x != .i128
  (r.len != 3 && !full) || (r.len == 3 && decide (r.anchor > x.maxAnchor)) || (full && r.len != 3 && r.anchor != 0)
    || r.flags >>> 6 != 0
    || (r.len == 3 && decide (wrapInt x.width (r.value x) ≠ r.value x))

/-- The poisoned record a malformed one is merged as, with its count (R97). -/
def Rec.poison (cnt : Nat) : Rec := ⟨0, 32, 3, cnt, 0⟩

/-- Merge a record into a slot (R96, R91). -/
def Slot.merge (x : Exact) (s : Slot) (r : Rec) : SlotRes :=
  if s.ovf then ⟨s, false, true⟩
  else if r.cnt = 0 then ⟨s, false, false⟩
  else if s.count + r.cnt > 2 ^ 40 then s.overflow
  else
    let g := Flags.ofNat r.flags
    let f : Flags :=
      ⟨s.flags.pinf || g.pinf, s.flags.ninf || g.ninf, s.flags.nan || g.nan,
        if s.occ then s.flags.negzero && g.negzero else g.negzero, s.flags.inexact || g.inexact,
        s.flags.poisoned || g.poisoned⟩
    ⟨{ s with v := wrapInt x.width (s.v + r.value x), occ := true, cnt := s.count + r.cnt - 1, flags := f },
      false, false⟩

/-- The exact value a reduction's slot stands for, by the first row of Table 02-8 that applies. -/
def Slot.value (x : Exact) (s : Slot) : Val :=
  let f := s.flags
  if f.poisoned || f.nan || (f.pinf && f.ninf) then .nan 1
  else if f.pinf then .inf false
  else if f.ninf then .inf true
  else if s.v = 0 then .fin (s.occ && f.negzero) 0 0
  else .fin (s.v < 0) s.v.natAbs (-(x.lsb : Int))

/-- The first-NaN cause of a slot rounded out to a NaN (R614); `nanless` says that the target has none. -/
def Slot.nanCause (s : Slot) (nanless : Bool) : Nat :=
  let f := s.flags
  if f.poisoned || f.nan then (if s.ovf then 5 else if f.nan && nanless then 7 else 0) else 6

/-- Round a slot out to a target format: the lane written and the first-NaN cause of R614 (Table 02-8, R98). -/
def Slot.roundOut (x : Exact) (s : Slot) (t : Fmt) (mode r : Nat) : LaneRes :=
  match s.value x with
  | .nan c => t.nanRes c (s.nanCause !t.hasNan)
  | v => t.storeOut mode r v 0

/-- The exact product of two elements rounded once for the product path (R89, R191): the value entered, whether it is
inexact, and whether a NaN was generated (cause 0x01). -/
def productVal (x : Exact) (f : Fmt) (a b : Nat) : Val × Bool × Bool :=
  match f.decode a, f.decode b with
  | .nan t, _ => (.nan t, false, false)
  | _, .nan t => (.nan t, false, false)
  | va, vb => match mulVal va vb with
    | none => (.nan 1, false, true)
    | some (.fin neg n e) =>
      if x = .i128 then (.fin neg n e, false, false)
      else
        let w := builtinFmt (if x = .c2176 then 0 else 1)
        let v := w.decode (w.roundFloat 0 0 neg n e).bits
        (v, decide (cmpVal v (.fin neg n e) ≠ 0), false)
    | some v => (v, false, false)

/-- One VADD of the ordered tree, binary32 or binary64, RNE, the left subtree first (R108). The second answer says
that the addition generated a NaN (an origin of cause 0x01, R113) or overflowed into one. -/
def treeAdd (wide : Bool) (a b : Nat) : Nat × Bool :=
  let r := laneAdd (builtinFmt (if wide then 0 else 1)) 0 0 ⟨a, false⟩ ⟨b, false⟩
  (r.bits, r.cause == 1)

/-- Push one leaf onto a binary-counter stack, newest first, adding subtrees of equal size (R109). -/
def pushLeaf (wide : Bool) : List (Nat × Nat) → Nat → Nat → List (Nat × Nat) × Nat
  | [], n, x => ([(n, x)], 0)
  | (m, y) :: st, n, x =>
    if m = n then
      let r := treeAdd wide y x
      let p := pushLeaf wide st (n + n) r.1
      (p.1, p.2 + b2n r.2)
    else ((n, x) :: (m, y) :: st, 0)

/-- Add a stack from the top down (R109); the sum of 0 leaves is +0 (R108). -/
def stackSum (wide : Bool) : List (Nat × Nat) → Nat × Nat
  | [] => (0, 0)
  | (_, x) :: st => st.foldl (fun a p => let r := treeAdd wide p.2 a.1; (r.1, a.2 + b2n r.2)) (x, 0)

/-- The leaves a stack covers. -/
def stackLeaves (st : List (Nat × Nat)) : Nat := (st.map (·.1)).sum

/-- The ordered sum of a list of leaves (R108), by the stack of R109, and the NaNs it generated. -/
def orderedSum (wide : Bool) (xs : List Nat) : Nat × Nat :=
  let p := xs.foldl (fun a x => let r := pushLeaf wide a.1 1 x; (r.1, a.2 + r.2)) ([], 0)
  let q := stackSum wide p.1
  (q.1, p.2 + q.2)

/-- A contribution as a leaf: converted to binary32 or binary64; a poisoned lane gives the canonical NaN (R107). -/
def leafBits (wide : Bool) (v : Val) (pz : Bool) : Nat :=
  let w := builtinFmt (if wide then 0 else 1)
  if pz then w.canonNan 1 else (w.store 0 0 v 0).bits

end Sys2Proof.Machine
end

