-- ==== Sys2Proof/Machine/EngState.lean ====
section
/-!
DEFINITION. The state of the sluice engines (chapters 05 to 07) and of the cistern stores (chapter 03): contexts, stream
bindings, the programs held, the slots in use.
-/
namespace Sys2Proof.Machine

/-- A table whose unlisted keys hold nothing. -/
abbrev OMap (β : Type) := SMap (Option β)

/-- Look a key up in a table of optional values. -/
def OMap.find {β : Type} (m : OMap β) (k : Nat) : Option β := SMap.get (fun _ => none) m k

/-- Put a value at a key. -/
def OMap.put {β : Type} [DecidableEq β] (m : OMap β) (k : Nat) (v : β) : OMap β := SMap.set (fun _ => none) m k (some v)

/-- Take a key out. -/
def OMap.drop {β : Type} [DecidableEq β] (m : OMap β) (k : Nat) : OMap β := SMap.set (fun _ => none) m k none

/-- The values held, with their keys, in rising key order. -/
def OMap.items {β : Type} (m : OMap β) : List (Nat × β) :=
  m.filterMap (fun e => e.2.map (fun v => (e.1, v)))

/-- A number table whose unlisted keys read 0. -/
abbrev NMap := SMap Nat

/-- Read a number table. -/
def NMap.rd (m : NMap) (k : Nat) : Nat := SMap.get (fun _ => 0) m k

/-- Write a number table. -/
def NMap.wr (m : NMap) (k v : Nat) : NMap := SMap.set (fun _ => 0) m k v

/-- A byte memory whose unlisted bytes read 0 (R571, R582). -/
abbrev Bytes := SMap Byte

/-- Read `n` bytes of a memory. -/
def Bytes.rd (m : Bytes) (a n : Nat) : List Byte := SMap.getList (fun _ => 0) m a n

/-- Write bytes to a memory from address `a` up. -/
def Bytes.wr (m : Bytes) (a : Nat) (bs : List Byte) : Bytes := SMap.setList (fun _ => 0) m a bs

/-- Read a little-endian number of `n` bytes. -/
def Bytes.num (m : Bytes) (a n : Nat) : Nat := leNat (m.rd a n)

/-- Does the memory keep its canonical form? -/
def Bytes.wf (m : Bytes) : Bool := SMap.wf (fun _ => 0) m

/-- A record held as the little-endian number of its bytes; `at_` reads the field at byte offset `o`, `n` bits wide. -/
def recAt (w o n : Nat) : Nat := bits w (8 * o) n

/-- A table record of 64 bytes (Table 14-4). -/
structure TableRec where
  w : Nat
  deriving DecidableEq, Repr

namespace TableRec
/-- 0 row table, 1 scatter table. -/
def tkind (r : TableRec) : Nat := recAt r.w 0x02 8
/-- The handle. -/
def handle (r : TableRec) : Nat := recAt r.w 0x01 8
/-- The format index. -/
def fmt (r : TableRec) : Nat := recAt r.w 0x03 8
/-- Rows. -/
def rows (r : TableRec) : Nat := recAt r.w 0x04 32
/-- Columns. -/
def cols (r : TableRec) : Nat := recAt r.w 0x08 16
/-- Bytes of one row. -/
def rowBytes (r : TableRec) : Nat := recAt r.w 0x0A 16
/-- The level code. -/
def level (r : TableRec) : Nat := recAt r.w 0x0C 8
/-- 1 while the row predictor serves the table. -/
def predict (r : TableRec) : Nat := recAt r.w 0x0D 8
/-- The embedding shard whose rows the table reads; 0xFFFF none. -/
def shard (r : TableRec) : Nat := recAt r.w 0x0E 16
/-- The base address. -/
def base (r : TableRec) : Nat := recAt r.w 0x10 64
end TableRec

/-- A channel record of 64 bytes (R455). -/
structure ChanRec where
  w : Nat
  deriving DecidableEq, Repr

namespace ChanRec
/-- The local channel 8 to 15. -/
def stream (r : ChanRec) : Nat := recAt r.w 0x01 8
/-- The logical engine. -/
def engine (r : ChanRec) : Nat := recAt r.w 0x02 8
/-- 0 read, 1 write. -/
def dir (r : ChanRec) : Nat := recAt r.w 0x03 8
/-- The level code. -/
def level (r : ChanRec) : Nat := recAt r.w 0x04 8
/-- 1 while the row predictor serves the channel. -/
def predict (r : ChanRec) : Nat := recAt r.w 0x05 8
/-- The base address. -/
def base (r : ChanRec) : Nat := recAt r.w 0x08 64
/-- Bytes of one row. -/
def rowBytes (r : ChanRec) : Nat := recAt r.w 0x10 32
/-- Rows of the sequence. -/
def rows (r : ChanRec) : Nat := recAt r.w 0x14 32
/-- Byte distance between row starts. -/
def stride (r : ChanRec) : Nat := recAt r.w 0x18 64
/-- How often the sequence is taken. -/
def rep (r : ChanRec) : Nat := recAt r.w 0x20 32
/-- Bytes of the whole sequence. -/
def total (r : ChanRec) : Nat := r.rowBytes * r.rows * r.rep
/-- The address of byte `i` of the sequence (R455). -/
def addr (r : ChanRec) (i : Nat) : Nat :=
  r.base + (i / max 1 r.rowBytes % max 1 r.rows) * r.stride + i % max 1 r.rowBytes
end ChanRec

/-- One active LOOP of a context: the first and last instruction of its body and the trips still to run after
the current one (R234). -/
structure LoopFrame where
  first : Nat
  last  : Nat
  left  : Nat
  deriving DecidableEq, Repr

/-- A SIGEV whose earlier operations have not all taken effect (R231): the event bound, the increment, and the count of the
context's operations before it. -/
structure SigWait where
  event  : Nat
  inc    : Nat
  before : Nat
  deriving DecidableEq, Repr

/-- What holds a context in WAIT_EVENT (R230, R232, R233). -/
inductive EvWait where
  | none
  | event (counter target : Nat)
  | fence (fab : Bool)
  | lock (h : Nat) (wc : Bool) (sd : Nat)
  deriving DecidableEq, Repr

/-- One hardware context (Tables 05-2 and 05-3). Vector register r is the list of its 128 lanes with their poison bits. `tries` counts the
failed checks of its next instruction and `failed` holds their pattern signature (R155, R156). -/
structure Ctx where
  st     : Nat
  prog   : Nat
  coll   : Option Nat
  v      : SMap (List Lane)
  s      : NMap
  p      : NMap
  pc     : Nat
  code   : Nat
  loops  : List LoopFrame
  pos    : NMap
  wait   : EvWait
  rngKey : List Byte
  tau    : Nat
  chunk  : Nat
  elemIx : Nat
  issued : Nat
  open_  : List Nat
  sigs   : List SigWait
  fab    : Nat
  tries  : Nat
  failed : Nat
  deriving DecidableEq, Repr

/-- A context that holds no program (R139: every register and poison bit is 0 when a program starts). -/
def Ctx.free : Ctx :=
  { st := 0, prog := 0xFF, coll := none, v := [], s := [], p := [], pc := 0, code := 0, loops := [], pos := [],
    wait := .none, rngKey := [], tau := 0, chunk := 0, elemIx := 0, issued := 0, open_ := [], sigs := [], fab := 0,
    tries := 0, failed := 0 }

/-- Data of one member for one chunk at an input port: `lead` is where its first byte lies in the member's chunk,
`got` bytes of it have entered the port's FIFO, the rest waits in its furrow, and `off` are consumed (R145, R146). In a partial stream `items` records are still to be
taken and `covers` is the header's (R613). -/
structure Seg where
  chunk  : Nat
  rank   : Nat
  port   : Nat
  pois   : Bool
  covers : Nat
  items  : Nat
  data   : List Byte
  lead   : Nat
  got    : Nat
  off    : Nat
  deriving DecidableEq, Repr

/-- A chunk an engine has closed on an output port: its index, whether it holds partial records, its poison flag, its FENCE flag, its
payload before padding. -/
structure OutChunk where
  idx   : Nat
  up    : Bool
  pois  : Bool
  fence : Bool
  data  : List Byte
  deriving DecidableEq, Repr

/-- A stream of an engine: its binding (R144), its declaration (Table 07-8), and the data at it. `mode` is the code of ENG_BIND_s
(0 any-ready, 1 rank order, 2 store region, 3 flume queue). Input ports hold the current chunk, the ranks expected and done in it, and
the segments that wait. Store regions have a base, a size and a form; flume queues a descriptor, a landing buffer, the bytes of
the descriptor's sequence done, the bytes of gathered rows still to land, and the operations whose bytes wait to be written. Output
ports hold the open chunk (its bytes, poison, records, index), the FIFO's level (R146) and the chunks closed. The chunks a port takes or sends
are `first`, `first + hop` and so on: those of the trees this module combines in (R264). -/
structure Strm where
  coll    : Nat
  ctx     : Nat
  mode    : Nat
  smode   : Nat
  fmt     : Nat
  lay     : Nat
  mx      : Bool
  chunkB  : Nat
  ranks   : List Nat
  chunk   : Option Nat
  done    : List Nat
  segs    : List Seg
  base    : Nat
  size    : Nat
  ring    : Bool
  chan    : Option ChanRec
  land    : List (Byte × Bool)
  cap     : Nat
  seqDone : Nat
  rowsDue : Nat
  wops    : List (Nat × Nat)
  out     : List Byte
  outPois : Bool
  outRecs : Nat
  outUp   : Bool
  outIdx  : Nat
  level   : Nat
  closed  : List OutChunk
  first   : Nat
  hop     : Nat
  deriving DecidableEq, Repr

/-- A stream with nothing at it. -/
def Strm.init : Strm :=
  { coll := 0, ctx := 0, mode := 0, smode := 0, fmt := 0, lay := 0, mx := false, chunkB := 0, ranks := [], chunk := none, done := [],
    segs := [], base := 0, size := 0, ring := false, chan := none, land := [], cap := 0, seqDone := 0, rowsDue := 0, wops := [],
    out := [], outPois := false, outRecs := 0, outUp := false, outIdx := 0, level := 0, closed := [], first := 0, hop := 1 }

/-- A declaration record of a program image (Table 07-8), as its 32 bytes. -/
abbrev DeclRec := List Byte

/-- A program held in the program store (R242, R243). -/
structure Prog where
  image  : List Byte
  digest : List Byte
  tenant : Nat
  bound  : Nat
  deriving DecidableEq, Repr

/-- One slot region a program or a built-in program holds in a cluster's cistern (Table 07-8, R101): with its home slots in the store and in each
spill level, where in the cluster's spill regions those begin (R103), and the groups of `perChunk` slots in the window, oldest first (R104). -/
structure Region where
  fmt      : Nat
  ordered  : Bool
  spill    : Bool
  slots    : Nat
  window   : Nat
  perChunk : Nat
  homes    : List Nat
  starts   : List Nat
  opened   : List Nat
  deriving DecidableEq, Repr

/-- What a turnout request of a program does: land the rows of one GATH in a channel, or add one SCADD contribution to a slot. Of the rows that the
predictor serves, `served` holds the addresses; each takes `rowB` bytes. -/
inductive Want where
  | rows (strm : Nat) (data : List (Byte × Bool)) (badLanes : List Nat) (fmt : Nat) (served : List Nat) (rowB : Nat)
  | add (table : TableRec) (row col fmt bits : Nat) (pois : Bool)
  deriving DecidableEq, Repr

/-- A turnout request that has not completed: the engine, context and operation it belongs to (R225 to R227, R458). -/
structure Req where
  eng  : Nat
  ctx  : Nat
  op   : Nat
  want : Want
  deriving DecidableEq, Repr

/-- The engines and their clusters. `last` holds the context each logical engine issued from last, plus 1 (R141); `retiring` the physical
engines whose retirement waits for their spare or for a return point (R160). Contexts are kept under 8 × logical engine + context, streams under 16 × logical
engine + stream, store bytes under 3,145,728 × logical engine + address (Table 05-1). -/
structure Engines where
  ctxs    : SMap Ctx
  strms   : OMap Strm
  store   : Bytes
  progs   : OMap Prog
  reqs    : List Req
  last    : NMap
  stopped : List Nat
  attach  : OMap Nat
  retiring : List Nat
  katAt   : NMap
  katBins : NMap
  katN    : NMap
  deriving DecidableEq, Repr

/-- The engines with nothing loaded. -/
def Engines.init : Engines := ⟨[], [], [], [], [], [], [], [], [], [], [], []⟩

/-- The cistern stores: slots and regions, kept under (owner, cluster, region, slot) paired into one number, and the chunk plus 1 that a program's
slot last took data of (R277). -/
structure CisStore where
  slots   : SMap Slot
  regions : OMap Region
  chunkOf : NMap
  deriving DecidableEq, Repr

/-- The stores with every slot empty. -/
def CisStore.init : CisStore := ⟨[], [], []⟩

end Sys2Proof.Machine
end

