-- ==== Sys2Proof/Machine/ColState.lean ====
section
/-!
DEFINITION. The state of the command processor and of the collectives (chapter 08): the 64-byte command and its fields, queues,
groups, and what a collective context holds while its collective runs.
-/
namespace Sys2Proof.Machine

/-- A 64-byte command (Table 08-2), as the little-endian number of its bytes. -/
structure Cmd where
  w : Nat
  deriving DecidableEq, Repr

namespace Cmd
/-- Field of a command at byte offset `o`, `n` bits wide (Table 08-2). -/
def at_ (c : Cmd) (o n : Nat) : Nat := bits c.w (8 * o) n
/-- The op (Table 08-3). -/
def op (c : Cmd) : Nat := c.at_ 0x00 8
/-- The flag byte. -/
def flags (c : Cmd) : Nat := c.at_ 0x01 8
/-- flags.ordered. -/
def ordered (c : Cmd) : Bool := bit c.flags 0
/-- flags.spill. -/
def spill (c : Cmd) : Bool := bit c.flags 1
/-- flags.mx. -/
def mx (c : Cmd) : Bool := bit c.flags 2
/-- flags.sparse. -/
def sparse (c : Cmd) : Bool := bit c.flags 3
/-- flags.launch. -/
def launch (c : Cmd) : Bool := bit c.flags 4
/-- flags.quorum. -/
def isQuorum (c : Cmd) : Bool := bit c.flags 5
/-- flags.arrival. -/
def arrival (c : Cmd) : Bool := bit c.flags 6
/-- The group, 0xFFFF for none. -/
def group (c : Cmd) : Nat := c.at_ 0x02 16
/-- The collective identifier. -/
def collId (c : Cmd) : Nat := c.at_ 0x04 32
/-- wait_ev. -/
def waitEv (c : Cmd) : Nat := c.at_ 0x08 16
/-- sig_ev. -/
def sigEv (c : Cmd) : Nat := c.at_ 0x0A 16
/-- wait_val. -/
def waitVal (c : Cmd) : Nat := c.at_ 0x0C 32
/-- sig_inc. -/
def sigInc (c : Cmd) : Nat := c.at_ 0x10 16
/-- chunk_ev. -/
def chunkEv (c : Cmd) : Nat := c.at_ 0x12 16
/-- chunk_bytes, or the payload length of a load. -/
def chunkBytes (c : Cmd) : Nat := c.at_ 0x14 32
/-- elements, or the staging offset of a load. -/
def elements (c : Cmd) : Nat := c.at_ 0x18 64
/-- fmt_in. -/
def fmtIn (c : Cmd) : Nat := c.at_ 0x20 5
/-- fmt_out. -/
def fmtOut (c : Cmd) : Nat := c.at_ 0x21 5
/-- mode[2:0], the rounding mode. -/
def rnd (c : Cmd) : Nat := c.at_ 0x22 3
/-- mode[4:3], the sparse layout. -/
def lay (c : Cmd) : Nat := bits (c.at_ 0x22 8) 3 2
/-- The program handle, 0xFF for the op's built-in program. -/
def prog (c : Cmd) : Nat := c.at_ 0x23 8
/-- The root rank. -/
def root (c : Cmd) : Nat := c.at_ 0x24 16
/-- The quorum. -/
def quorum (c : Cmd) : Nat := c.at_ 0x26 16
/-- arg0. -/
def arg0 (c : Cmd) : Nat := c.at_ 0x28 32
/-- arg1. -/
def arg1 (c : Cmd) : Nat := c.at_ 0x2C 32
/-- launch_turn. -/
def launchTurn (c : Cmd) : Nat := c.at_ 0x30 64
/-- The tenant. -/
def tenant (c : Cmd) : Nat := c.at_ 0x38 32
/-- weight. -/
def weight (c : Cmd) : Nat := c.at_ 0x3C 8
/-- window, the retention window in chunks. -/
def window (c : Cmd) : Nat := c.at_ 0x3D 8
/-- evbase. -/
def evbase (c : Cmd) : Nat := c.at_ 0x3E 16
/-- Is the op a collective (R257)? -/
def isColl (c : Cmd) : Bool := 1 ≤ c.op && c.op ≤ 0x0D
/-- Does the command name a loaded program? Every collective but BARRIER has the field (Table 08-15). -/
def loadedProg (c : Cmd) : Bool := c.isColl && c.op != 0x0B && c.prog != 0xFF
/-- The reduction ops of the first three rows of Table 08-5. -/
def isReduce (c : Cmd) : Bool := 1 ≤ c.op && c.op ≤ 3
/-- The open-chunk window of the op's built-in program (Table 08-3, R302). -/
def openWindow (c : Cmd) : Nat := if c.isReduce then bits c.arg1 24 8 else c.window
end Cmd

/-- A direct member of a group: a rank on one of this module's ports (Table 08-4). -/
structure Member where
  rank   : Nat
  port   : Nat
  fenced : Bool
  deriving DecidableEq, Repr

/-- A child of this module in one of the two trees (Table 08-4). -/
structure Kid where
  tree   : Nat
  ports  : Nat
  low    : Nat
  covers : Nat
  fenced : Bool
  deriving DecidableEq, Repr

/-- A group record (Table 08-4), with the fences in effect. -/
structure Group where
  tier    : Nat
  ranks   : Nat
  par0    : Nat
  par1    : Nat
  members : List Member
  kids    : List Kid
  deriving DecidableEq, Repr

/-- One party of a collective: a direct member (its rank and port) or a child in one tree (its lowest rank, covers and ports).
`cut` is the first chunk it contributes nothing to, `rcut` the first result it does not receive (R280); `next` is what it has
acknowledged, `acked` what this module has acknowledged to it (R275). -/
structure Party where
  isKid  : Bool
  tree   : Nat
  rank   : Nat
  ports  : Nat
  covers : Nat
  cut    : Option Nat
  rcut   : Option Nat
  next   : Nat
  acked  : Nat
  deriving DecidableEq, Repr

/-- An element taken from a contribution: its value and its poison bit (R53, R132). -/
structure Elem where
  val  : Val
  pois : Bool
  deriving DecidableEq, Repr

/-- What one contribution chunk of a collective has taken in: its senders (index among the parties, with the covers and the
lowest rank each gave), its slots (exact mode) or each sender's leaves (ordered mode), the
members a quorum left out, whether it is reopened (R277), whether it is reduced, whether its partial has gone up, the blocks of an op that works on
them whole (sender, rank, poison flag, bytes: R269, R270), and the SHA-256 of the data each sender last gave for it, kept over a reopening (R278,
R328). -/
structure ChunkSt where
  got      : List (Nat × Nat × Nat)
  slots    : SMap Slot
  leaves   : List (Nat × List Nat)
  excluded : List Nat
  reopened : Bool
  reduced  : Bool
  upSent   : Bool
  parts    : List (Nat × Nat × Bool × List Byte)
  sums     : List (Nat × List Byte)
  deriving DecidableEq, Repr

/-- A chunk that has taken nothing in. -/
def ChunkSt.empty : ChunkSt := ⟨[], [], [], [], false, false, false, [], []⟩

/-- A chunk this module sends or relays, kept until it is acknowledged (R274): its header fields, its payload before padding,
whether it is poisoned, the last of its stream where it has one receiver, sent, to be sent with the reissue flag. `up` marks one for the parent. -/
structure Kept where
  idx    : Nat
  up     : Bool
  kind   : Nat
  rank   : Nat
  covers : Nat
  fmt    : Nat
  data   : List Byte
  pois   : Bool
  last   : Bool
  sent   : Bool
  re     : Bool
  fence  : Bool
  only   : Option Nat
  deriving DecidableEq, Repr

/-- A change entry of the completion record (Table 08-9). -/
structure Change where
  chunk  : Nat
  rank   : Nat
  covers : Nat
  kind   : Nat
  deriving DecidableEq, Repr

/-- What a FUSED_UPDATE holds while it runs (R305): its shard and rule, the latched mask, whether it is dense, the gradient chunks in, the passes
done, Q0 to Q7 as binary64, its reduction slots (0–2 T, 3 + 2r ROW r, 4 + 2j COL j), the clip factor, whether the norm skips it, whether its last
pass is done, t before it, and the rows an embedding update wrote. -/
structure FuseSt where
  shard   : Nat
  rule    : Nat
  mask    : Option Nat
  dense   : Bool
  fed     : List Nat
  pass    : Nat
  qs      : List Nat
  slots   : SMap Slot
  k       : Nat
  skipped : Bool
  ended   : Bool
  t0      : Nat
  rows    : List Nat
  deriving DecidableEq, Repr

/-- A collective in its context (R254, R257). `phase` is 0 while it waits for resources and 1 from its start on; `hashes` holds the SHA-256 of each
result chunk that has begun to leave, under `leftKey` (R349); `begun` the contribution chunks that have come in part, as party and result index;
`cmp` is its launch comparator, `granted` that its resources are held, `locks` its lock handles with their comparators (16 for a BARRIER). -/
structure Coll where
  cmd      : Cmd
  queue    : Nat
  phase    : Nat
  start    : Nat
  ranks    : Nat
  fenced   : Nat
  nanHalt  : Bool
  step     : Nat
  ordered  : Bool
  mask     : Option Nat
  engs     : List Nat
  cmp      : Option Nat
  granted  : Bool
  locks    : List (Nat × Nat)
  retain   : Nat
  chunks   : SMap ChunkSt
  kept     : List Kept
  parties  : List Party
  upNext0  : Nat
  upNext1  : Nat
  upAck0   : Nat
  upAck1   : Nat
  evs      : Nat
  changes  : List Change
  revoked  : Nat
  reissued : Nat
  spilled  : Nat
  mbr      : Nat
  late     : List Nat
  relay    : List Nat
  late2    : Bool
  hashes   : OMap (List Byte)
  fuse     : Option FuseSt
  outs     : List (Nat × OutChunk)
  begun    : List (Nat × Nat)
  deriving DecidableEq, Repr

/-- A command queue (R250): the commands held, oldest first; the accepted head that waits for its resources, with its context once it has
one, and the object it loads (R252, R254). -/
structure Queue where
  cmds : List Cmd
  wait : Option Coll
  ctx  : Option Nat
  obj  : List Byte
  deriving DecidableEq, Repr

/-- An empty queue. -/
def Queue.empty : Queue := ⟨[], none, none, []⟩

/-- The command processor: queues by number, groups by number, collectives by context, and for each priority the queue from which its round robin goes
on (R252). -/
structure CmdProc where
  queues : SMap Queue
  groups : OMap Group
  colls  : OMap Coll
  ended  : List (Nat × Nat)
  rr     : NMap
  rings  : Bytes
  deriving DecidableEq, Repr

/-- The command processor with nothing queued. -/
def CmdProc.init : CmdProc := ⟨[], [], [], [], [], []⟩

end Sys2Proof.Machine
end

