-- ==== Sys2Proof/Machine/NorState.lean ====
section
/-!
DEFINITION. The state of the memory levels (chapter 14) and of the noria (chapter 09): bytes with their poisoned lines, binding sets, shards,
norm sets, the rule table, snapshots and restores.
-/
namespace Sys2Proof.Machine

/-- The three memory levels (R444): byte b of level v lies at key v × 2^44 + b; the 64-byte lines that hold an uncorrectable error are
listed by key / 64 (R466). -/
structure Mem where
  bytes : Bytes
  bad   : NMap
  deriving DecidableEq, Repr

/-- A binding set (R452): its tenant, whether it is the tenant's default, its table records by handle and its channel records by engine × 16
+ stream. -/
structure BindSet where
  tenant : Nat
  dflt   : Bool
  tables : OMap TableRec
  chans  : OMap ChanRec
  deriving DecidableEq, Repr

/-- A shard record of 128 bytes (Table 09-2). -/
structure ShardRec where
  w : Nat
  deriving DecidableEq, Repr

namespace ShardRec
/-- 0 dense, 1 embedding. -/
def skind (r : ShardRec) : Nat := recAt r.w 0x01 8
/-- The shard number. -/
def shard (r : ShardRec) : Nat := recAt r.w 0x02 16
/-- The owning tenant. -/
def tenant (r : ShardRec) : Nat := recAt r.w 0x04 32
/-- Elements. -/
def n (r : ShardRec) : Nat := recAt r.w 0x08 64
/-- Rows. -/
def rows (r : ShardRec) : Nat := recAt r.w 0x10 32
/-- Columns. -/
def cols (r : ShardRec) : Nat := recAt r.w 0x14 32
/-- Master-weight format. -/
def wfmt (r : ShardRec) : Nat := recAt r.w 0x18 8
/-- State format. -/
def sfmt (r : ShardRec) : Nat := recAt r.w 0x19 8
/-- Moment planes. -/
def nstate (r : ShardRec) : Nat := recAt r.w 0x1A 8
/-- flags[0]. -/
def factored (r : ShardRec) : Bool := bit (recAt r.w 0x1B 8) 0
/-- flags[1], the sparse store. -/
def sparse (r : ShardRec) : Bool := bit (recAt r.w 0x1B 8) 1
/-- The mask layout; 0xFF no mask. -/
def layout (r : ShardRec) : Nat := recAt r.w 0x1C 8
/-- The level of both copies. -/
def level (r : ShardRec) : Nat := recAt r.w 0x1D 8
/-- The norm set; 0xFF none. -/
def nset (r : ShardRec) : Nat := recAt r.w 0x1E 8
/-- The seed slot of SR output. -/
def seed (r : ShardRec) : Nat := recAt r.w 0x1F 8
/-- The base of a copy: 0 A, 1 B. -/
def base (r : ShardRec) (copy : Nat) : Nat := recAt r.w (if copy = 0 then 0x20 else 0x28) 64
/-- The gradient staging address. -/
def stageBase (r : ShardRec) : Nat := recAt r.w 0x30 64
/-- The gradient staging level. -/
def stageLevel (r : ShardRec) : Nat := recAt r.w 0x38 8
/-- The tensor identifier of SR output. -/
def tensorId (r : ShardRec) : Nat := recAt r.w 0x3C 32
/-- Steps between snapshots; 0 none. -/
def snapEvery (r : ShardRec) : Nat := recAt r.w 0x40 32
/-- The port of the storage endpoint. -/
def snapPort (r : ShardRec) : Nat := recAt r.w 0x44 8
/-- The storage object. -/
def snapObject (r : ShardRec) : Nat := recAt r.w 0x48 64
/-- The binding set and handle of an embedding shard's scatter table; 0xFFFF none. -/
def scatter (r : ShardRec) : Nat := recAt r.w 0x50 16
/-- Bytes of one master weight. -/
def wBytes (r : ShardRec) : Nat := if r.wfmt = 0 then 8 else 4
/-- Bytes of one state element. -/
def sBytes (r : ShardRec) : Nat := if r.sfmt = 0 then 8 else 4
/-- Does the shard have a mask? -/
def hasMask (r : ShardRec) : Bool := r.layout != 0xFF
/-- Positions of one mask group (Table 04-1). -/
def maskG (r : ShardRec) : Nat := if r.layout = 2 then 8 else 4
/-- Bytes of the mask plane: the metadata sections of its blocks (R119). -/
def maskBytes (r : ShardRec) : Nat := (r.n + 64 * r.maskG - 1) / (64 * r.maskG) * (8 * r.maskG)
/-- Bytes of one row record of an embedding shard (R293). -/
def rowBytes (r : ShardRec) : Nat := (r.cols * (r.wBytes + r.nstate * r.sBytes) + 31) / 32 * 32
/-- Where the bitmap of a copy lies behind its base (R293). -/
def bitmapOff (r : ShardRec) : Nat := (r.rows * r.rowBytes + 4095) / 4096 * 4096
end ShardRec

/-- A snapshot in progress: the committed count and copy it reads, its segments not yet acknowledged, and the turn it sent
them. -/
structure Snap where
  t     : Nat
  copy  : Nat
  segs  : Nat
  owed  : List Nat
  since : Nat
  deriving DecidableEq, Repr

/-- A restore in progress (R324): the port and object it reads, the segments taken by number. -/
structure Restore where
  port   : Nat
  object : Nat
  segs   : OMap (List Byte)
  last   : Option Nat
  t      : Nat
  deriving DecidableEq, Repr

/-- A shard (R294): its record, update state (Table 09-3), live copy, committed count, the mask version of each copy, the step,
skip and clip of its pending update, the elements its sparse store keeps, a snapshot asked for, one that is due and waits for the
one that runs (R321), and the snapshot and restore that run. -/
structure Shard where
  record  : ShardRec
  st      : Nat
  live    : Nat
  t       : Nat
  ver0    : Nat
  ver1    : Nat
  step    : Nat
  skipped : Bool
  clip    : Bool
  kept    : Nat
  wanted  : Bool
  due     : Bool
  snap    : Option Snap
  restore : Option Restore
  deriving DecidableEq, Repr

namespace Shard
/-- The mask version of a copy. -/
def ver (h : Shard) (copy : Nat) : Nat := if copy = 0 then h.ver0 else h.ver1
/-- Elements held in W, S1 and S2 (R292). -/
def held (h : Shard) : Nat := if h.record.sparse then h.kept else h.record.n
/-- The byte lengths of the planes W, S1, S2, SR, SC, M (R292), 0 for one the record does not name. -/
def planes (h : Shard) : List Nat :=
  let r := h.record
  if r.skind = 1 then [r.rows * r.rowBytes, 0, 0, 0, 0, 0]
  else [h.held * r.wBytes, if r.nstate ≥ 1 then h.held * r.sBytes else 0, if r.nstate ≥ 2 then h.held * r.sBytes else 0,
    if r.factored then r.rows * r.sBytes else 0, if r.factored then r.cols * r.sBytes else 0,
    if r.hasMask then r.maskBytes else 0]
/-- Where plane `p` lies behind the copy's base: each plane starts on a 4 KiB boundary (R292). -/
def planeOff (h : Shard) (p : Nat) : Nat := ((h.planes.take p).map (fun n => (n + 4095) / 4096 * 4096)).sum
end Shard

/-- A norm set (R307, R308): its record, the step it is pending for, the square slots of its members' chunks (shard × 2^32 + chunk), the
slot last sent, the records taken from peers, the peers reported, the turn it was sent or opened, the factor updates use, and whether a gradient
chunk was reopened after the slot was sent (R311). -/
structure Norm where
  tenant   : Nat
  thr      : Nat
  peers    : List Nat
  step     : Nat
  squares  : SMap Slot
  sent     : Option Slot
  parts    : List (Nat × Rec)
  reported : List Nat
  since    : Nat
  used     : Option Nat
  stale    : Bool
  deriving DecidableEq, Repr

/-- The noria: shards and norm sets by number, the rule table, the COMMITs that are armed (step, turn). -/
structure Noria where
  shards : OMap Shard
  norms  : OMap Norm
  rules  : Bytes
  armed  : List (Nat × Nat)
  deriving DecidableEq, Repr

/-- The noria after reset (R325). -/
def Noria.init : Noria := ⟨[], [], [], []⟩

end Sys2Proof.Machine
end

