-- ==== Sys2Proof/Machine/DetState.lean ====
section
/-!
DEFINITION. The state of chapter 10: seed sets, locks and their comparators, the time base, the step in progress, the audit region.
-/
namespace Sys2Proof.Machine

/-- A seed set (R334): its owner, its entropy slots, its sixteen 32-byte seeds. -/
structure SeedSet where
  tenant  : Nat
  entropy : Nat
  seeds   : List (List Byte)
  deriving DecidableEq, Repr

/-- A lock of an accepted command (R342 to R345): kept under collective context × 32 + handle, with handle 16 for a BARRIER. `locals` are the
local participants that have arrived for the current use, `kids` the tree-0 children with their counts, `later` the arrivals for later uses
(use, 1 for a child, who, count), `fencedOff` the participants a fence removed, `reported` those reported late, `cmp` its comparator. -/
structure LockUse where
  seq       : Nat
  locals    : List Nat
  kids      : List (Nat × Nat)
  later     : List (Nat × Nat × Nat × Nat)
  fencedOff : List Nat
  reported  : List Nat
  passed    : Bool
  tRel      : Option Nat
  cmp       : Nat
  deriving DecidableEq, Repr

/-- The time base (R338, R339): whether the counter counts, whether the first exchange is done, the last exchange sent with its stamp, the
consecutive good exchanges, and fine turns left to slew. -/
structure TimeSt where
  counting : Bool
  acquired : Bool
  exch     : Nat
  t1       : Nat
  good     : Nat
  slew     : Int
  deriving DecidableEq, Repr

/-- A step whose record is not written (R347, Table 10-9); `seeds` are the seed sets its commands bound, each with its entry as it was when first
bound. -/
structure StepInfo where
  step     : Nat
  openTurn : Nat
  closed   : Option Nat
  strict   : Nat
  profile  : Nat
  pert0    : NMap
  pert1    : NMap
  seeds    : List (Nat × List Byte)
  accepted : Nat
  deriving DecidableEq, Repr

/-- A collective that has written its completion record, as the step record needs it (Table 10-10), with the endpoint ports of its group
(R353). -/
structure EndRec where
  op     : Nat
  status : Nat
  trap   : Nat
  collId : Nat
  queue  : Nat
  flags  : Nat
  group  : Nat
  hashed : Nat
  start  : Nat
  stop   : Nat
  hash   : List Byte
  shape  : List Byte
  step   : Nat
  ports  : List Nat
  deriving DecidableEq, Repr

/-- An updated shard as the step record needs it (Table 10-10). -/
structure ShardRecd where
  step    : Nat
  shard   : Nat
  outcome : Nat
  collId  : Nat
  t       : Nat
  maskVer : Nat
  hash    : List Byte
  deriving DecidableEq, Repr

/-- The audit: steps without a record, ended collectives and updated shards by step, the parts of the audit region by seq, the hash of the last
body, and the last commit or discard (R347 to R351). As watermaster: the digests and acknowledgements taken, (step, module, status). `perts` counts
the events of Table 10-2 without a bound, for the counts within a step (R330). -/
structure Audit where
  steps    : List StepInfo
  ends     : List EndRec
  shards   : List ShardRecd
  parts    : OMap (List Byte)
  prevHash : Option (List Byte)
  prev     : Nat × Nat × Nat
  digests  : List (Nat × Nat × Nat)
  acks     : List (Nat × Nat × Nat)
  perts    : NMap
  deriving DecidableEq, Repr

/-- The state of chapter 10. -/
structure Det where
  seeds : OMap SeedSet
  locks : OMap LockUse
  time  : TimeSt
  audit : Audit
  deriving DecidableEq, Repr

/-- The first step, open at turn 0, in the profile of reset (R577). -/
def StepInfo.first : StepInfo := ⟨0, 0, none, 0, 3, [], [], [], 0⟩

/-- Chapter 10 after reset (R355). -/
def Det.init : Det := ⟨[], [], ⟨false, false, 0, 0, 0, 0⟩, ⟨[StepInfo.first], [], [], [], none, (0, 0, 0), [], [], []⟩⟩

end Sys2Proof.Machine
end

