-- ==== Sys2Proof/Machine/SecState.lean ====
section
/-!
DEFINITION. The state of the Ahnivo secure core (chapter 16): tenants, memory ownership, firmware slots, SPDM sessions, link secrets.
-/
namespace Sys2Proof.Machine

/-- A signing key of a tenant (Table 16-5). -/
structure TenKey where
  id : Nat
  ec : List Byte
  pq : List Byte
  deriving DecidableEq, Repr

/-- An enrolled tenant (R517). `last` is one more than its last accepted envelope counter (0: none), `outCtr` the device's output counter for it; an erased secret is
the empty list (R533). -/
structure Tenant where
  id      : Nat
  perm    : Nat
  ports   : Nat
  envBase : Nat
  trs     : List Byte
  keys    : List TenKey
  last    : Nat
  outCtr  : Nat
  deriving DecidableEq, Repr

/-- A firmware slot that software has staged into (R513): its stage 1 and stage 2 images, with their svn, each none for the image as
manufactured. -/
structure FwSlot where
  s1 : Option (Nat × List Byte)
  s2 : Option (Nat × List Byte)
  deriving DecidableEq, Repr

/-- An SPDM session (R514): its number, the binding it runs on (0 PCIe DOE, 1 and 2 the management ports), whether FINISH has secured it,
its ephemeral number, its key generation, its measurement transcript, whether its requester is the fault manager the owner certified (R530). -/
structure Session where
  id      : Nat
  via     : Nat
  secured : Bool
  eph     : Nat
  gen     : Nat
  log     : List Byte
  fm      : Bool
  deriving DecidableEq, Repr

/-- The secure core. Tenants are kept by slot, owners of memory under level × 65,536 + granule (unlisted: tenant 0), staged firmware by slot,
link secrets by port. `owner` is the owner hash, empty while blank; `next` the slot selected for the next reset; `live` the images that a RECOVER booted in
place of the slot's; `neg` how far each binding has negotiated, `mlog` its measurement transcript outside a session; `chunks` what a binding has
gathered of a large request (2b) and its last response (2b + 1). -/
structure Sec where
  tenants  : OMap Tenant
  owners   : NMap
  owner    : List Byte
  fw       : OMap FwSlot
  next     : Option Nat
  roots    : List (List Byte)
  sessions : List Session
  nextSes  : Nat
  chunks   : OMap (List Byte)
  secrets  : OMap (List Byte)
  live     : FwSlot
  neg      : NMap
  mlog     : OMap (List Byte)
  deriving DecidableEq, Repr

/-- The secure core of a blank part. -/
def Sec.init : Sec := ⟨[], [], [], [], none, [], [], 1, [], [], ⟨none, none⟩, [], []⟩

end Sys2Proof.Machine
end

