-- ==== Sys2Proof/Machine/SwState.lean ====
section
/-!
DEFINITION. The state of the switch core and the headgates (chapters 11 and 12) and of the ports (chapter 13): routing banks, furrows,
basins, flows, reports; flits, links, training.
-/
namespace Sys2Proof.Machine

/-- A valid routing entry (Table 11-7). -/
structure Route where
  adaptive : Bool
  scm      : Nat
  d        : Nat
  deriving DecidableEq, Repr

/-- A packet: its 32-byte switch header as a number (Table 11-2) and its payload. -/
structure Packet where
  h    : Nat
  data : List Byte
  deriving DecidableEq, Repr

/-- A packet copy in a furrow: the packet, its buffer's die, pool, index and generation (R365), the copies the packet was given, the turn-clock
pulse at which it entered and at which it became the head, whether a window hold and a FENCE hold of it are counted, whether it is
promoted (R393). -/
structure Desc where
  p       : Packet
  die     : Nat
  pool    : Nat
  idx     : Nat
  gen     : Nat
  copies  : Nat
  entered : Nat
  headAt  : Nat
  winHeld : Bool
  fncHeld : Bool
  promo   : Bool
  deriving DecidableEq, Repr

/-- A packet that waits at its source, which is blocked for its class (R363): the furrow destinations with the bytes each takes, the chunk of a
multicast, and whether it waits for a flow entry (R400), or for a load of the bank it is routed by (R381). -/
structure Wait where
  src   : Nat
  p     : Packet
  dest  : List (Nat × List Byte)
  flow  : Bool
  stale : Bool
  deriving DecidableEq, Repr

/-- A buffer's tag word (R365): its generation above the switch's base, its state, its references, and the source and class that hold it. -/
structure Tag where
  gen  : Nat
  st   : Nat
  refs : Nat
  src  : Nat
  cls  : Nat
  deriving DecidableEq, Repr

/-- The tag of a buffer never used. -/
def Tag.init : Tag := ⟨0, 0, 0, 0, 0⟩

/-- A pool's free list (R366): the buffers freed, head first, and the lowest index never allocated since the last rebuild of the whole pool; the buffers
from there up follow in ascending order. -/
structure Pool where
  stack  : List Nat
  virgin : Nat
  deriving DecidableEq, Repr

/-- A flow at its ingress edge (R400): outstanding bytes, packets held in furrows, the die and class of its entry, whether its first window
hold has been trapped. -/
structure Flow where
  out     : Nat
  held    : Nat
  die     : Nat
  cls     : Nat
  trapped : Bool
  deriving DecidableEq, Repr

/-- A report accumulator (R402): the packet fields that name the flow, the fabric address it reports to (none: this module is the ingress
edge), progress in bytes by copy destination, bytes told, the pulse of the first unreported byte, the die. -/
structure Acc where
  h     : Nat
  up    : Option Nat
  prog  : List (Nat × Nat)
  told  : Nat
  since : Nat
  die   : Nat
  deriving DecidableEq, Repr

/-- A multicast flow within one chunk (R370): the mask read at its first packet and the chunk's bytes still to come; and the bytes a local source
has striped over parent ports (R264). -/
structure McAt where
  mask : Nat
  left : Nat
  sent : Nat
  deriving DecidableEq, Repr

/-- A load of a routing bank that is writing it (R381): the queue whose head it is, the bank, the turn at which it started. -/
structure Writing where
  queue : Nat
  bank  : Nat
  start : Nat
  deriving DecidableEq, Repr

/-- The switch core and headgates. `writing` is the load under way. Banks are kept under bank × 4,096 + module; furrows under (source × 256 + destination) × 4 + class, with
destination 0–143 a port, 224 + k cluster k, 255 management; tags under (die × 3 + pool) × 2^20 + index; pools under die × 3 + pool;
flows, accumulators and multicast positions under the key of a flow. `away` holds the turn + 1 of the last flip away from a bank (bank × 2, + 1 for
class D), `dPend` class D's bank at the next step, `bkt` the buckets of shapers and meters (deficit and pulse), `drr` the credits of furrows,
`last` the source last served per egress queue, `wrr` the class C group in service and what is left of its turn, `marks` what meters have
measured red since their last mark, `grMarks` gauge ring headers seen per die. -/
structure Switch where
  banks   : OMap Route
  away    : NMap
  dPend   : Option Nat
  writing : Option Writing
  furrows : SMap (List Desc)
  waiting : List Wait
  tags    : SMap Tag
  genBase : Nat
  pools   : SMap Pool
  granted : NMap
  flows   : OMap Flow
  accs    : OMap Acc
  mcs     : OMap McAt
  bkt     : NMap
  drr     : NMap
  last    : NMap
  wrr     : NMap
  marks   : NMap
  grSeen  : NMap
  grHeld  : Nat
  deriving DecidableEq, Repr

/-- The switch core with nothing held. -/
def Switch.init : Switch := ⟨[], [], none, none, [], [], [], 0, [], [], [], [], [], [], [], [], [], [], [], 0⟩

/-- A flit: its 64-bit header and its 256-byte body (R416). -/
structure Flit where
  hdr  : Nat
  body : List Byte
  deriving DecidableEq, Repr

/-- A flit of the seal block being received: as it came (body encrypted), its plain body, and whether it was accepted in sequence (R423). -/
structure RxFlit where
  f     : Flit
  plain : List Byte
  took  : Bool
  deriving DecidableEq, Repr

/-- A key exchange in progress (R527): this side's ephemeral number, whether it is the initiator, the messages exchanged, oldest first, and the
fragments of the next one. -/
structure Kx where
  eph   : Nat
  init  : Bool
  msgs  : List (List Byte)
  frags : List (Nat × List Byte)
  deriving DecidableEq, Repr

/-- A port's link. Sender: the next sequence number, the flits or datagrams not acknowledged, the data flits of a started packet not sent yet, the seal
block being filled, key epoch, seal counter, whether a rekey is announced, the class whose credit goes next, credits used and granted per
class, the pulse at which an ack last advanced. Receiver: rx_next, the next sequence number expected, the seal block being received, whether flits
are discarded, the RETRY last sent with its pulse, key epoch and counter, credits given per class, the packet being assembled and the packets in
the ingress buffer. Then: whether blocks are sealed, the peer's module identifier, the offer taken at INIT, the pulse at which the training
entry began, the outcomes of both sides (0 none, 1 ok, 2 alt, 3 fail), lanes that wait for a substitution, recent uncorrectable codewords and tag failures,
the exchange in progress; paused classes with the pulse of the end, the priorities paused for a
class and, from bit 8, for the whole buffer; the MACsec packet number. -/
structure Link where
  txSeq   : Nat
  replay  : List Flit
  queue   : List Flit
  txBlock : List Flit
  txEpoch : Nat
  txCtr   : Nat
  rekey   : Bool
  crClass : Nat
  used    : NMap
  granted : NMap
  ackAt   : Nat
  rxNext  : Nat
  rxExp   : Nat
  rxBlock : List RxFlit
  discard : Bool
  retried : Option (Nat × Nat)
  rxEpoch : Nat
  rxCtr   : Nat
  given   : NMap
  part    : List Byte
  ready   : List Packet
  crypt   : Bool
  peer    : Nat
  offered : Bool
  entryAt : Nat
  mine    : Nat
  theirs  : Nat
  lanes   : List Nat
  fecAt   : List Nat
  tagAt   : List Nat
  kx      : Option Kx
  paused  : NMap
  sentPfc : Nat
  pn      : Nat
  deriving DecidableEq, Repr

/-- A port that has not run. -/
def Link.init : Link :=
  { txSeq := 0, replay := [], queue := [], txBlock := [], txEpoch := 0, txCtr := 0, rekey := false, crClass := 0, used := [], granted := [],
    ackAt := 0, rxNext := 0, rxExp := 0, rxBlock := [], discard := false, retried := none, rxEpoch := 0, rxCtr := 0, given := [], part := [],
    ready := [], crypt := false, peer := 0xFFFF, offered := false, entryAt := 0, mine := 0, theirs := 0, lanes := [], fecAt := [], tagAt := [],
    kx := none, paused := [], sentPfc := 0, pn := 0 }

end Sys2Proof.Machine
end

