-- ==== Sys2Proof/Machine/RsvState.lean ====
section
/-!
DEFINITION. The state of the memory levels that no register shows (chapter 14): the retraining, the failures and the migrations of LPDDR
channels, the scrubber's place, the rows the predictor holds.
-/
namespace Sys2Proof.Machine

/-- Chapter 14. `trained`: the turn-clock pulse at which a logical channel was last trained; `rt` the retrain under way (channel, the turn it
began); `rtWin` one more than the last window used; `uncorr` the uncorrectable lines of a channel with their powered second; `corr` the
corrected errors under 2^40 × channel + powered second; `fails` the failed physical channels with their powered second; `mig` the
migration under way (channel, spare, local page) and `migs` those that wait; `scrub` the next line per level; `pins` the pinned
256-byte LPDDR lines, each with whether a request has used it, and `ahead` the addresses of the LPDDR rows fetched ahead of their request (R462); `modes` the words of RSV_MODE in effect since the block was last enabled (R478), where they
differ from the reset values. -/
structure Rsv where
  trained : NMap
  rt      : Option (Nat × Nat)
  rtWin   : Nat
  uncorr  : List (Nat × Nat)
  corr    : NMap
  fails   : List (Nat × Nat)
  mig     : Option (Nat × Nat × Nat)
  migs    : List (Nat × Nat)
  scrub   : NMap
  pins    : List (Nat × Bool)
  ahead   : List Nat
  modes   : SMap Word
  deriving DecidableEq, Repr

/-- Nothing under way. -/
def Rsv.init : Rsv := ⟨[], none, 0, [], [], [], none, [], [], [], [], []⟩

end Sys2Proof.Machine
end

