-- ==== Sys2Proof/Machine/FltState.lean ====
section
/-!
DEFINITION. The state of chapter 15 that no register shows: fences, proposals and votes, the watermaster's decisions, replica partners, resilvers,
stragglers, what is held for the fault manager.
-/
namespace Sys2Proof.Machine

/-- A fence in effect (R492): its kind (1 port, 2 module), target, port (0xFF for a module), and the ports of this module it covers. -/
structure Fence where
  kind   : Nat
  target : Nat
  port   : Nat
  marks  : Nat
  deriving DecidableEq, Repr

/-- A fence decided or ordered, armed for its apply turn (R489, R492). -/
structure Armed where
  kind   : Nat
  target : Nat
  port   : Nat
  turn   : Nat
  deriving DecidableEq, Repr

/-- A proposal of this module under way (R489): the votes of its present round as (module, vote), the most votes of any kind a round has
gathered, the turn-clock pulse at which the round began. -/
structure Motion where
  kind   : Nat
  target : Nat
  port   : Nat
  self   : Bool
  cause  : Nat
  seq    : Nat
  round  : Nat
  votes  : List (Nat × Nat)
  most   : Nat
  since  : Nat
  deriving DecidableEq, Repr

/-- A proposal of another module on which this one has voted (vote 1 to 3) or waits for its probe (vote 0). -/
structure Ballot where
  proposer : Nat
  seq      : Nat
  round    : Nat
  target   : Nat
  vote     : Nat
  since    : Nat
  deriving DecidableEq, Repr

/-- A SHARD_HASH taken (R500). -/
structure ShardHash where
  sender  : Nat
  shard   : Nat
  pshard  : Nat
  step    : Nat
  outcome : Nat
  t       : Nat
  hash    : List Byte
  deriving DecidableEq, Repr

/-- A resilver of a shard here (R502): the partner and its shard, the request number, the segments taken, and the pulse of the last message. -/
structure Resilver where
  partner : Nat
  pshard  : Nat
  seq     : Nat
  segs    : OMap (List Byte)
  last    : Option Nat
  t       : Nat
  since   : Nat
  deriving DecidableEq, Repr

/-- A request this module took as a partner: not yet accepted while `next` is none, else the segment to be acknowledged; t as latched. -/
structure Lend where
  spare  : Nat
  shard  : Nat
  pshard : Nat
  seq    : Nat
  next   : Option Nat
  t      : Nat
  deriving DecidableEq, Repr

/-- A report that asks the fault manager for a decision (R486): its body, the module or the step it is about, when it was last sent. -/
structure FmReport where
  body   : List Byte
  module : Option Nat
  step   : Option Nat
  since  : Nat
  deriving DecidableEq, Repr

/-- Chapter 15. `lifts` are UNFENCE orders (target, port, step); `short` the last proposals that lapsed in a row with fewer than m votes;
`held` the last COMMIT (0x10) or DISCARD (0x11) with its step and turn, and `pend` whether it waits for the standby; `settled` the steps decided or
reported; `verdicts` (step, module, clean); `recs` and `waits` the shard entries and steps whose verdict is owed; `first` one more than the
turn at which a chunk of a context came whole from its first member; `win` the straggler windows; `mgmt` the management ports that are up;
`downAt` one more than the pulse at which a port left ACTIVE. -/
structure Flt where
  fences   : List Fence
  armed    : List Armed
  lifts    : List (Nat × Nat × Nat)
  motions  : List Motion
  seq      : Nat
  ballots  : List Ballot
  short    : Nat
  miss     : Nat
  hbAt     : Nat
  held     : Option (Nat × Nat × Nat)
  pend     : Bool
  settled  : List Nat
  verdicts : List (Nat × Nat × Bool)
  hashes   : List ShardHash
  recs     : List ShardHash
  waits    : List (Nat × Nat)
  spares   : OMap Resilver
  lends    : List Lend
  rslSeq   : Nat
  first    : NMap
  win      : NMap
  fm       : List FmReport
  mgmt     : Nat
  downAt   : NMap
  deriving DecidableEq, Repr

/-- Nothing under way; management port 0 is up (log entry 32). -/
def Flt.init : Flt :=
  { fences := [], armed := [], lifts := [], motions := [], seq := 0, ballots := [], short := 0, miss := 0, hbAt := 0, held := none, pend := false,
    settled := [], verdicts := [], hashes := [], recs := [], waits := [], spares := [], lends := [], rslSeq := 0, first := [], win := [],
    fm := [], mgmt := 1, downAt := [] }

end Sys2Proof.Machine
end

