-- ==== Sys2Proof/Machine/PwrState.lean ====
section
/-!
DEFINITION. The state of power, clocks and resets (chapter 18), of the debug unit and of the field log's flash (chapter 19).
-/
namespace Sys2Proof.Machine

/-- The profile table: its 768 record bytes (none: the default table), and a table loaded that waits for the next step (R576). `lim` is by how
many MHz the limiter holds an island below its nominal clock, `under` the samples in a row below 95 % of the ceiling (R578); `hot` the islands
in pause (bit i), `cool` whether the coolant pauses class C, `outHot` whether it lowers the ceiling (R580); `apart` the pairs of neighbours whose
crossings are held (R570); `brst` the block resets under way and waiting (R574); `off` whether the rails are off, `trip` whether THERMTRIP_N
is asserted (R572, R579). -/
structure Power where
  table  : Option (List Byte)
  next   : Option (List Byte)
  lim    : NMap
  under  : Nat
  hot    : Nat
  cool   : Bool
  outHot : Bool
  apart  : List (Nat × Nat)
  brst   : List Nat
  off    : Bool
  trip   : Bool
  deriving DecidableEq, Repr

/-- Power after cold reset. -/
def Power.init : Power := ⟨none, none, [], 0, 0, false, false, [], [], false, false⟩

/-- The debug unit: the JTAG instruction in force (0 IDCODE, 1 BYPASS, 2 SAMPLE/PRELOAD, 3 EXTEST, 4 internal scan) and the boundary cells of the GPIO
pins (R599, R600); the levels that the board puts on those pins, as last seen. -/
structure Debug where
  jtag  : Nat
  cells : Nat
  board : Nat
  deriving DecidableEq, Repr

/-- The debug unit after reset. -/
def Debug.init : Debug := ⟨0, 0, 0⟩

/-- A journal entry of the field log (Table 19-7), without its CRC. -/
structure JEntry where
  kind   : Nat
  sub    : Nat
  unit   : Nat
  boot   : Nat
  secs   : Nat
  turn   : Nat
  temp   : Nat
  mv     : Nat
  sig    : Nat
  detail : Nat
  seq    : Nat
  deriving DecidableEq, Repr

/-- A summary of the field log in flash (R604): its sequence number, its counts, the next entry's sequence number and the powered seconds. -/
structure Summary where
  seq  : Nat
  body : Bytes
  next : Nat
  secs : Nat
  deriving DecidableEq, Repr

/-- One version of the field log's image (Table 19-6): header, counts, maps, the permanent journal, the last entries of the rolling journal and
how many were written. -/
structure FlogImage where
  head : List Byte
  body : Bytes
  maps : List Byte
  perm : List JEntry
  roll : List JEntry
  n    : Nat
  deriving DecidableEq, Repr

/-- A signed export: its 64-byte header, the image, the trailer once it is built (R609). -/
structure Export where
  head  : List Byte
  image : FlogImage
  sig   : List Byte
  deriving DecidableEq, Repr

/-- The field log in flash: the two summaries, the permanent and the rolling journal with the number of rolling entries written, the next entry's
number; and the export. -/
structure Flash where
  sums : List Summary
  perm : List JEntry
  roll : List JEntry
  n    : Nat
  next : Nat
  exp  : Option Export
  deriving DecidableEq, Repr

/-- The field log of a part that has logged nothing. -/
def Flash.init : Flash := ⟨[], [], [], 0, 0, none⟩

end Sys2Proof.Machine
end

