-- ==== Sys2Proof/Machine/Crypto.lean ====
section
/-!
DEFINITION. The published functions that the spec names and the device computes: SHA-256 and SHA-384 (FIPS 180-4),
HMAC and HKDF over SHA-384, AES-128 and AES-256 (FIPS 197), GCM (SP 800-38D) and CRC-32C (Table 08-6).
-/
namespace Sys2Proof.Machine

/-! ### The constants of SHA-2 -/

/-- The first 80 primes. -/
def shaPrimes : List Nat := (List.range 410).filter (fun n => decide (2 ≤ n) && (List.range n).all (fun d => d < 2 || n % d != 0))

/-- The integer k-th root of `n` whose bits above the lowest `b` are already in `r`. -/
def rootBits (k n : Nat) : Nat → Nat → Nat
  | 0, r => r
  | b + 1, r => rootBits k n b (if (r + 2 ^ b) ^ k ≤ n then r + 2 ^ b else r)

/-- The first `w` bits of the fraction of the k-th root of a prime below 512. -/
def rootFraction (k w p : Nat) : Nat := rootBits k (p <<< (k * w)) (w + 5) 0 % 2 ^ w

/-- The round constants: fractions of the cube roots of the first `n` primes. -/
def shaK (w n : Nat) : List Nat := (shaPrimes.take n).map (rootFraction 3 w)

/-- The initial hash value: fractions of the square roots of eight primes, from the one at place `i`. -/
def shaH (w i : Nat) : List Nat := ((shaPrimes.drop i).take 8).map (rootFraction 2 w)

/-- The round constants of SHA-256. -/
def sha256K : List Nat := shaK 32 64

/-- The round constants of SHA-384. -/
def sha512K : List Nat := shaK 64 80

/-- The AES substitution box, part 1. -/
def aesSbox1 : List Nat :=
  [0x63, 0x7c, 0x77, 0x7b, 0xf2, 0x6b, 0x6f, 0xc5, 0x30, 0x1, 0x67, 0x2b, 0xfe, 0xd7, 0xab, 0x76,
   0xca, 0x82, 0xc9, 0x7d, 0xfa, 0x59, 0x47, 0xf0, 0xad, 0xd4, 0xa2, 0xaf, 0x9c, 0xa4, 0x72, 0xc0,
   0xb7, 0xfd, 0x93, 0x26, 0x36, 0x3f, 0xf7, 0xcc, 0x34, 0xa5, 0xe5, 0xf1, 0x71, 0xd8, 0x31, 0x15,
   0x4, 0xc7, 0x23, 0xc3, 0x18, 0x96, 0x5, 0x9a, 0x7, 0x12, 0x80, 0xe2, 0xeb, 0x27, 0xb2, 0x75]

/-- The AES substitution box, part 2. -/
def aesSbox2 : List Nat :=
  [0x9, 0x83, 0x2c, 0x1a, 0x1b, 0x6e, 0x5a, 0xa0, 0x52, 0x3b, 0xd6, 0xb3, 0x29, 0xe3, 0x2f, 0x84,
   0x53, 0xd1, 0x0, 0xed, 0x20, 0xfc, 0xb1, 0x5b, 0x6a, 0xcb, 0xbe, 0x39, 0x4a, 0x4c, 0x58, 0xcf,
   0xd0, 0xef, 0xaa, 0xfb, 0x43, 0x4d, 0x33, 0x85, 0x45, 0xf9, 0x2, 0x7f, 0x50, 0x3c, 0x9f, 0xa8,
   0x51, 0xa3, 0x40, 0x8f, 0x92, 0x9d, 0x38, 0xf5, 0xbc, 0xb6, 0xda, 0x21, 0x10, 0xff, 0xf3, 0xd2]

/-- The AES substitution box, part 3. -/
def aesSbox3 : List Nat :=
  [0xcd, 0xc, 0x13, 0xec, 0x5f, 0x97, 0x44, 0x17, 0xc4, 0xa7, 0x7e, 0x3d, 0x64, 0x5d, 0x19, 0x73,
   0x60, 0x81, 0x4f, 0xdc, 0x22, 0x2a, 0x90, 0x88, 0x46, 0xee, 0xb8, 0x14, 0xde, 0x5e, 0xb, 0xdb,
   0xe0, 0x32, 0x3a, 0xa, 0x49, 0x6, 0x24, 0x5c, 0xc2, 0xd3, 0xac, 0x62, 0x91, 0x95, 0xe4, 0x79,
   0xe7, 0xc8, 0x37, 0x6d, 0x8d, 0xd5, 0x4e, 0xa9, 0x6c, 0x56, 0xf4, 0xea, 0x65, 0x7a, 0xae, 0x8]

/-- The AES substitution box, part 4. -/
def aesSbox4 : List Nat :=
  [0xba, 0x78, 0x25, 0x2e, 0x1c, 0xa6, 0xb4, 0xc6, 0xe8, 0xdd, 0x74, 0x1f, 0x4b, 0xbd, 0x8b, 0x8a,
   0x70, 0x3e, 0xb5, 0x66, 0x48, 0x3, 0xf6, 0xe, 0x61, 0x35, 0x57, 0xb9, 0x86, 0xc1, 0x1d, 0x9e,
   0xe1, 0xf8, 0x98, 0x11, 0x69, 0xd9, 0x8e, 0x94, 0x9b, 0x1e, 0x87, 0xe9, 0xce, 0x55, 0x28, 0xdf,
   0x8c, 0xa1, 0x89, 0xd, 0xbf, 0xe6, 0x42, 0x68, 0x41, 0x99, 0x2d, 0xf, 0xb0, 0x54, 0xbb, 0x16]

/-- The AES substitution box. -/
def aesSbox : List Nat := aesSbox1 ++ aesSbox2 ++ aesSbox3 ++ aesSbox4

/-- Rotate an n-bit word right. -/
def rotr (n x k : Nat) : Nat := (x >>> k ||| x <<< (n - k)) % 2 ^ n

/-- The complement of an n-bit word. -/
def notN (n x : Nat) : Nat := 2 ^ n - 1 - x % 2 ^ n

/-- The big-endian number held in a list of bytes. -/
def beNat (bs : List Byte) : Nat := bs.foldl (fun a b => a * 256 + b.toNat) 0

/-- Cut a list into `k` pieces of `n`. -/
def pieces {α : Type} (n : Nat) : Nat → List α → List (List α)
  | 0, _ => []
  | k + 1, l => l.take n :: pieces n k (l.drop n)

/-- The parameters of a SHA-2 function: word width, rounds and the six rotation triples. -/
structure Sha where
  w  : Nat
  k  : List Nat
  h  : List Nat
  s0 : Nat × Nat × Nat
  s1 : Nat × Nat × Nat
  b0 : Nat × Nat × Nat
  b1 : Nat × Nat × Nat

/-- SHA-256. -/
def sha256P : Sha := ⟨32, sha256K, shaH 32 0, (7, 18, 3), (17, 19, 10), (2, 13, 22), (6, 11, 25)⟩
/-- SHA-384. -/
def sha384P : Sha := ⟨64, sha512K, shaH 64 8, (1, 8, 7), (19, 61, 6), (28, 34, 39), (14, 18, 41)⟩

/-- A small sigma: two rotations and a shift. -/
def shaSmall (n : Nat) (t : Nat × Nat × Nat) (x : Nat) : Nat := rotr n x t.1 ^^^ rotr n x t.2.1 ^^^ x >>> t.2.2
/-- A big sigma: three rotations. -/
def shaBig (n : Nat) (t : Nat × Nat × Nat) (x : Nat) : Nat := rotr n x t.1 ^^^ rotr n x t.2.1 ^^^ rotr n x t.2.2

/-- The next word of the message schedule, from the 16 before it, newest first. -/
def shaNext (p : Sha) (last : List Nat) : Nat :=
  (shaSmall p.w p.s1 (last.getD 1 0) + last.getD 6 0 + shaSmall p.w p.s0 (last.getD 14 0) + last.getD 15 0) % 2 ^ p.w

/-- The working variables of a block under way, a to h, and the last 16 words of its schedule, newest first. -/
structure ShaWork where
  v    : Vector Nat 8
  last : List Nat

/-- One round: the working variables move down a place, a and e are new; `c` is the round's constant and `x` its word. -/
def shaRound (p : Sha) (v : Vector Nat 8) (c x : Nat) : Vector Nat 8 :=
  let ch := (v[4] &&& v[5]) ||| (notN p.w v[4] &&& v[6])
  let maj := (v[0] &&& v[1]) ||| (v[2] &&& (v[0] ||| v[1]))
  let t := v[7] + shaBig p.w p.b1 v[4] + ch + c + x
  #v[(t + shaBig p.w p.b0 v[0] + maj) % 2 ^ p.w, v[0], v[1], v[2], (v[3] + t) % 2 ^ p.w, v[4], v[5], v[6]]

/-- The round of constant `c`: its word is the oldest of the schedule, which it extends. -/
def ShaWork.step (p : Sha) (u : ShaWork) (c : Nat) : ShaWork :=
  ⟨shaRound p u.v c (u.last.getD 15 0), (shaNext p u.last :: u.last).take 16⟩

/-- Compress one block of 16 words. -/
def shaBlock (p : Sha) (h : List Nat) (blk : List Byte) : List Nat :=
  let u : ShaWork := ⟨Vector.ofFn (fun i : Fin 8 => h.getD i 0), ((pieces (p.w / 8) 16 blk).map beNat).reverse⟩
  (h.zip (p.k.foldl (ShaWork.step p) u).v.toList).map (fun x => (x.1 + x.2) % 2 ^ p.w)

/-- Pad a message to whole blocks of 2w bytes. -/
def shaPad (p : Sha) (m : List Byte) : List Byte :=
  let b := 2 * p.w
  let l := p.w / 4
  let z := (b - (m.length + 1 + l) % b) % b
  m ++ [0x80] ++ List.replicate z 0 ++ beBytes (8 * m.length) l

/-- A SHA-2 digest of `n` bytes. -/
def shaDigest (p : Sha) (n : Nat) (m : List Byte) : List Byte :=
  let x := shaPad p m
  let h := (pieces (2 * p.w) (x.length / (2 * p.w)) x).foldl (shaBlock p) p.h
  (h.flatMap (fun w => beBytes w (p.w / 8))).take n

/-- SHA-256. -/
def sha256 (m : List Byte) : List Byte := shaDigest sha256P 32 m
/-- SHA-384. -/
def sha384 (m : List Byte) : List Byte := shaDigest sha384P 48 m

/-- Byte-wise exclusive or of two strings. -/
def xorBytes (a b : List Byte) : List Byte := (a.zip b).map (fun x => x.1 ^^^ x.2)

/-- HMAC-SHA-384. -/
def hmac384 (key m : List Byte) : List Byte :=
  let k := if key.length > 128 then sha384 key else key
  let k := k ++ List.replicate (128 - k.length) 0
  sha384 (k.map (· ^^^ 0x5C) ++ sha384 (k.map (· ^^^ 0x36) ++ m))

/-- The blocks of HKDF-Expand. -/
def hkdfBlocks (prk info : List Byte) : Nat → Nat → List Byte → List Byte
  | 0, _, _ => []
  | n + 1, i, t =>
    let b := hmac384 prk (t ++ info ++ [BitVec.ofNat 8 i])
    b ++ hkdfBlocks prk info n (i + 1) b

/-- HKDF-SHA-384: extract with the salt, expand to `n` bytes. -/
def hkdf384 (salt ikm info : List Byte) (n : Nat) : List Byte :=
  (hkdfBlocks (hmac384 salt ikm) info ((n + 47) / 48) 1 []).take n

/-- Multiplication by x in the AES field. -/
def xtime (a : Nat) : Nat := if a < 128 then 2 * a else (2 * a) ^^^ 0x11B

/-- Substitute one byte. -/
def subByte (a : Nat) : Nat := aesSbox.getD a 0

/-- The expanded key, word by word, oldest first; `nk` words of key, `fuel` words to add. -/
def aesExpand (nk : Nat) : Nat → Nat → Nat → List (List Nat) → List (List Nat)
  | 0, _, _, ws => ws
  | n + 1, i, rc, ws =>
    let prev := ws.getD (i - 1) []
    let base := ws.getD (i - nk) []
    let t := if i % nk = 0 then
        match prev with
        | [a, b, c, d] => [subByte b ^^^ rc, subByte c, subByte d, subByte a]
        | l => l
      else if nk = 8 ∧ i % 8 = 4 then prev.map subByte else prev
    aesExpand nk n (i + 1) (if i % nk = 0 then xtime rc else rc) (ws ++ [(base.zip t).map (fun x => x.1 ^^^ x.2)])

/-- Shift the rows of a state of 16 bytes held column by column. -/
def shiftRows (s : List Nat) : List Nat :=
  [0, 5, 10, 15, 4, 9, 14, 3, 8, 13, 2, 7, 12, 1, 6, 11].map (fun i => s.getD i 0)

/-- Mix one column. -/
def mixCol (c : List Nat) : List Nat :=
  match c with
  | [a, b, c, d] =>
    [xtime a ^^^ (xtime b ^^^ b) ^^^ c ^^^ d, a ^^^ xtime b ^^^ (xtime c ^^^ c) ^^^ d,
      a ^^^ b ^^^ xtime c ^^^ (xtime d ^^^ d), (xtime a ^^^ a) ^^^ b ^^^ c ^^^ xtime d]
  | l => l

/-- Add a round key. -/
def addKey (s : List Nat) (ws : List (List Nat)) (r : Nat) : List Nat :=
  (s.zip ((ws.drop (4 * r)).take 4).flatten).map (fun x => x.1 ^^^ x.2)

/-- The middle rounds of AES. -/
def aesRounds (ws : List (List Nat)) : Nat → Nat → List Nat → List Nat
  | 0, _, s => s
  | n + 1, r, s =>
    let s := shiftRows (s.map subByte)
    aesRounds ws n (r + 1) (addKey ((pieces 4 4 s).flatMap mixCol) ws r)

/-- Encrypt one block under a 16-byte or 32-byte key. -/
def aesEncrypt (key blk : List Byte) : List Byte :=
  let nk := key.length / 4
  let nr := nk + 6
  let ws := aesExpand nk (4 * (nr + 1) - nk) nk 1 ((pieces 4 nk key).map (·.map (·.toNat)))
  let s := aesRounds ws (nr - 1) 1 (addKey (blk.map (·.toNat)) ws 0)
  (addKey (shiftRows (s.map subByte)) ws nr).map (BitVec.ofNat 8)

/-- Multiply in the GCM field; `x` is read bit by bit from its most significant of 128. -/
def gfMul (x : Nat) : Nat → Nat → Nat → Nat
  | 0, _, z => z
  | n + 1, v, z =>
    let z := if x.testBit n then z ^^^ v else z
    let v := if v % 2 = 1 then v / 2 ^^^ 0xE1000000000000000000000000000000 else v / 2
    gfMul x n v z

/-- GHASH over whole 16-byte blocks. -/
def ghash (h : Nat) (bs : List Byte) : Nat :=
  (pieces 16 (bs.length / 16) bs).foldl (fun y b => gfMul (y ^^^ beNat b) 128 h 0) 0

/-- Pad with zeros to whole 16-byte blocks. -/
def pad16 (b : List Byte) : List Byte := b ++ List.replicate ((16 - b.length % 16) % 16) 0

/-- The GCM key stream, `n` blocks from counter `c`. -/
def gcmStream (key iv : List Byte) : Nat → Nat → List Byte
  | 0, _ => []
  | n + 1, c => aesEncrypt key (iv ++ beBytes c 4) ++ gcmStream key iv n (c + 1)

/-- The GCM cipher text (or plain text, the function is its own inverse) for a 12-byte IV. -/
def gcmCrypt (key iv m : List Byte) : List Byte := xorBytes m (gcmStream key iv ((m.length + 15) / 16) 2)

/-- The 16-byte GCM tag over additional data and cipher text. -/
def gcmTag (key iv aad c : List Byte) : List Byte :=
  let h := beNat (aesEncrypt key (List.replicate 16 0))
  let x := ghash h (pad16 aad ++ pad16 c ++ beBytes (8 * aad.length) 8 ++ beBytes (8 * c.length) 8)
  xorBytes (beBytes x 16) (aesEncrypt key (iv ++ beBytes 1 4))

/-- One bit of a reflected CRC-32C step. -/
def crcBits : Nat → Nat → Nat
  | 0, c => c
  | n + 1, c => crcBits n (if c % 2 = 1 then c / 2 ^^^ 0x82F63B78 else c / 2)

/-- CRC-32C: Castagnoli, reflected, initial value and final XOR all ones (Table 08-6). -/
def crc32c (m : List Byte) : Nat :=
  m.foldl (fun c b => crcBits 8 (c ^^^ b.toNat)) 0xFFFFFFFF ^^^ 0xFFFFFFFF

/-- The ASCII bytes of a string. -/
def ascii (s : String) : List Byte := s.toList.map (fun c => BitVec.ofNat 8 c.toNat)

/-- The generator's key for slot `j` of a set with the given 32-byte seed (R336). -/
def seedKey (j : Nat) (seed : List Byte) : List Byte :=
  (sha256 (ascii "KZ4810-RNG" ++ [BitVec.ofNat 8 j] ++ seed)).take 16

/-- The 16-bit value r of the counter-based generator (R337). -/
def genR (key : List Byte) (tau step e : Nat) : Nat :=
  let c := aesEncrypt key (leBytes step 6 ++ leBytes tau 4 ++ leBytes (e / 8) 6)
  leNat ((c.drop (2 * (e % 8))).take 2)

end Sys2Proof.Machine
end

