-- ==== Sys2Proof/Config.lean ====
section
/-!
DEFINITION. What one implementation fixes (fuses, keys) and the free values of the model: constants with no body,
so that no proof can see what they are.
-/
namespace Sys2Proof.Config

/-- A fresh value nothing constrains, one for each number of the state's own counter `fresh`
(log entry 1). -/
opaque freeValue : Nat → Nat

/-- The PCIe Vendor ID held in the fuses (R537, R561). -/
opaque vendorId : BitVec 16

/-- The unique device secret (Table 16-2). -/
opaque uds : Vector Byte 32

/-- The Huboda firmware keys (R510): ECDSA P-384 and ML-DSA-87. -/
opaque hubodaEc : List Byte
/-- The Huboda ML-DSA-87 key. -/
opaque hubodaPq : List Byte

/-- The firmware images of a slot and stage as manufactured. -/
opaque factoryImage : Nat → Nat → List Byte

/-- The device's ECDSA and ML-DSA certificate chains, 0 and 1, given CDI_2 (R512). -/
opaque certChain : Nat → List Byte → List Byte

/-- Does an ECDSA P-384 signature verify: key, message, signature? -/
opaque ecdsaOk : List Byte → List Byte → List Byte → Bool
/-- Does an ML-DSA-87 signature verify? -/
opaque mldsaOk : List Byte → List Byte → List Byte → Bool

/-- The alias pair's ECDSA signature over a message, given CDI_2 (R511). -/
opaque aliasEc : List Byte → List Byte → Vector Byte 96
/-- The alias pair's ML-DSA-87 signature. -/
opaque aliasPq : List Byte → List Byte → Vector Byte 4627

/-- The shared secret of a hybrid exchange, ML-KEM-1024 then ECDH P-384, given this side's ephemeral number and the peer's messages (R527). -/
opaque kemSecret : Nat → List Byte → Vector Byte 80

/-- Does a peer's certificate chain verify to a root: the root, the chain, the owner hash its TcbInfo must carry (R528)? -/
opaque chainOk : List Byte → List Byte → List Byte → Bool

/-- The Huboda manufacturing root in ROM. -/
opaque hubodaRoot : List Byte

/-- The memory assignment digest of an assignment (R522): the spec gives no encoding. -/
opaque assignDigest : List (Nat × Nat) → Vector Byte 48

/-- What this side's ephemeral number gives a KX_INIT (R527): the random value, the ECDH public key, the ML-KEM encapsulation key. -/
opaque kxOffer : Nat → Vector Byte 1697

/-- What this side's ephemeral number answers to a KX_INIT: the random value, the ECDH public key, the ML-KEM ciphertext. -/
opaque kxAnswer : Nat → List Byte → Vector Byte 1697

/-- The ECDSA public key of a certificate chain's leaf. -/
opaque leafEc : List Byte → List Byte
/-- The ML-DSA-87 public key of a certificate chain's leaf. -/
opaque leafPq : List Byte → List Byte

/-- The DeviceID ECDSA public key, uncompressed (R512). -/
opaque deviceEc : Vector Byte 97

/-- The SHA-384 of the ROM (measurement 1). -/
opaque romDigest : Vector Byte 48

/-- The JTAG manufacturer field held in the fuses (R599). -/
opaque jtagMaker : BitVec 11

/-- The debug nonce that the first boot drew (R532). -/
opaque bootNonce : Nat → BitVec 64

/-- The owner's ECDSA and ML-DSA-87 public keys behind an owner hash (R516). -/
opaque ownerEc : List Byte → List Byte
/-- The owner's ML-DSA-87 public key behind an owner hash. -/
opaque ownerPq : List Byte → List Byte

/-- Does a requester's certificate chain lead to a certificate that the owner of a hash signed (R530)? -/
opaque ownerSigned : List Byte → List Byte → Bool

/-- The bytes that an object of a kind lays its fields out in, where the spec names the fields and gives no layout. -/
opaque layout : Nat → List Nat → List Byte

/-- What this side's ephemeral number answers to an SPDM KEY_EXCHANGE. -/
opaque spdmKey : Nat → List Byte → List Byte

/-- Does a FINISH verify: the session's ephemeral number, the requester's chain, the FINISH? -/
opaque spdmFinish : Nat → List Byte → List Byte → Bool

/-- The clock of the port islands in MHz, derived from REFCLK_156 by their own PLLs (Table 01-3). -/
opaque portClock : BitVec 12

/-- Has a cluster's turnout queue that holds so many requests room for 128 more (R226)? -/
opaque turnoutRoom : Nat → Bool

/-- The level that a test-multiplexer signal shows at a turn-clock pulse, where chapter 19 gives its timing alone: pulses and divided clocks. -/
opaque tmuxLevel : Nat → Nat → Bool

end Sys2Proof.Config
end

