-- ==== Sys2Proof/Machine/Regs.lean ====
section
/-!
DEFINITION. The register space of BAR0 (R11, R12, R542 to R550): the address of every register of the spec's
register maps, the place of every field of its register tables, and for each register family the fields
with their access codes (Table 00-5) and their values after cold reset (R11).
Addresses are BAR0 offsets. A field whose Reset column is an index formula, a table, a fuse or a
flash value is given its reset value by `regInit` in Machine/RegInit.lean.
-/
namespace Sys2Proof.Machine

/-- The access codes of Table 00-5 (R12). -/
inductive Access where
  | ro | rw | wo | rwl | st | cnt
  deriving DecidableEq, Repr

/-- A field of one register: its BAR0 offset, its lowest bit and its width. -/
structure Fld where
  reg : Nat
  lo  : Nat
  w   : Nat
  deriving DecidableEq, Repr

/-- A field of a register family: lowest bit, width, access code and reset value. -/
structure RegField where
  lo    : Nat
  w     : Nat
  acc   : Access
  reset : Nat
  deriving DecidableEq, Repr

/-- A register family: base offset, its index dimensions (stride and count, outermost first) and its fields. -/
structure RegFam where
  base   : Nat
  dims   : List (Nat × Nat)
  fields : List RegField
  deriving DecidableEq, Repr

namespace R

abbrev GCTL_ID : Nat := 0x0
abbrev GCTL : Nat := 0x8
abbrev GCTL_BLK : Nat := 0x10
abbrev GCTL_SCRATCH : Nat := 0x18
abbrev HOST_BAD_ACCESS : Nat := 0x100000
abbrev DW_CTRL : Nat := 0x100008
abbrev DW_ADDR : Nat := 0x100010
abbrev DW_DATA : Nat := 0x100018
abbrev DW_STATUS : Nat := 0x100020
abbrev DW_ERR_COUNT : Nat := 0x100028
abbrev DW_ERR_ADDR : Nat := 0x100030
abbrev DW_LOCK_COUNT : Nat := 0x100038
abbrev STG_MARK (i : Nat) : Nat := 0x100100 + 0x8 * i
abbrev INT_STATUS : Nat := 0x10c000
abbrev INT_EN : Nat := 0x10c008
abbrev INT_PEND : Nat := 0x10c010
abbrev INT_EOI : Nat := 0x10c018
abbrev INT_MAP (i : Nat) : Nat := 0x10c100 + 0x8 * i
abbrev INT_EVT (i : Nat) : Nat := 0x10c400 + 0x10 * i
abbrev INT_EVT_ACK (i : Nat) : Nat := 0x10c408 + 0x10 * i
abbrev INT_VEC (i : Nat) : Nat := 0x10c800 + 0x8 * i
abbrev CMD_CTL : Nat := 0x200000
abbrev CMD_STATUS : Nat := 0x200008
abbrev CMD_REJ_COUNT : Nat := 0x200010
abbrev CMD_REJ_ADDR : Nat := 0x200018
abbrev CMD_REJ_ACK : Nat := 0x200020
abbrev CMD_ACCEPT_COUNT : Nat := 0x200028
abbrev CMD_REJECT_COUNT : Nat := 0x200030
abbrev ACK_TIMEOUT : Nat := 0x200038
abbrev QUORUM_WAIT : Nat := 0x200040
abbrev CMD_FOREIGN_COUNT : Nat := 0x200048
abbrev REVOKE_COUNT : Nat := 0x200050
abbrev REISSUE_COUNT : Nat := 0x200058
abbrev CTX_FREE : Nat := 0x200060
abbrev MBR_SEQ : Nat := 0x204000
abbrev MBR_ACK : Nat := 0x204008
abbrev MBR_REC0 : Nat := 0x204010
abbrev MBR_REC1 : Nat := 0x204018
abbrev MBR_REC2 : Nat := 0x204020
abbrev MBR_LOST_COUNT : Nat := 0x204028
abbrev MBR_EVENT_COUNT : Nat := 0x204030
abbrev Q_CTL (i : Nat) : Nat := 0x210000 + 0x4000 * i
abbrev Q_STATUS (i : Nat) : Nat := 0x210008 + 0x4000 * i
abbrev Q_REJ_COUNT (i : Nat) : Nat := 0x210010 + 0x4000 * i
abbrev Q_REJ_ADDR (i : Nat) : Nat := 0x210018 + 0x4000 * i
abbrev Q_REJ_ACK (i : Nat) : Nat := 0x210020 + 0x4000 * i
abbrev Q_RESTART (i : Nat) : Nat := 0x210028 + 0x4000 * i
abbrev Q_ACCEPT_COUNT (i : Nat) : Nat := 0x210030 + 0x4000 * i
abbrev Q_CPL_COUNT (i : Nat) : Nat := 0x210038 + 0x4000 * i
abbrev Q_FULL_COUNT (i : Nat) : Nat := 0x210040 + 0x4000 * i
abbrev QCMD (i j : Nat) : Nat := 0x210080 + 0x4000 * i + 0x8 * j
abbrev EVT (i j : Nat) : Nat := 0x310000 + 0x4000 * i + 0x8 * j
abbrev GRP (i : Nat) : Nat := 0x330000 + 0x8 * i
abbrev CTX (i j : Nat) : Nat := 0x340000 + 0x4000 * i + 0x8 * j
abbrev PVF_SEQ : Nat := 0x3f0000
abbrev PVF_ACK : Nat := 0x3f0008
abbrev PVF_STATUS : Nat := 0x3f0010
abbrev PVF_REC0 : Nat := 0x3f0018
abbrev PVF_REC1 : Nat := 0x3f0020
abbrev PVF_REC2 : Nat := 0x3f0028
abbrev PVF_LOST_COUNT : Nat := 0x3f0030
abbrev PRG_LOAD_COUNT : Nat := 0x3f0038
abbrev PRG_HELD : Nat := 0x3f0040
abbrev STR_SKIP_COUNT : Nat := 0x3f0048
abbrev ENG_STATUS (i : Nat) : Nat := 0x400000 + 0x10000 * i
abbrev ENG_CTX (i : Nat) : Nat := 0x400008 + 0x10000 * i
abbrev ENG_ISSUE_COUNT (i : Nat) : Nat := 0x400010 + 0x10000 * i
abbrev ENG_STALL_COUNT (i : Nat) : Nat := 0x400018 + 0x10000 * i
abbrev ENG_RES_COUNT (i : Nat) : Nat := 0x400020 + 0x10000 * i
abbrev ENG_ECC_COUNT (i : Nat) : Nat := 0x400028 + 0x10000 * i
abbrev ENG_BIND (i j : Nat) : Nat := 0x400100 + 0x10000 * i + 0x8 * j
abbrev ENG_CTL : Nat := 0xf00000
abbrev ENG_GSTATUS : Nat := 0xf00008
abbrev ENG_REJ_COUNT : Nat := 0xf00010
abbrev ENG_REJ_ADDR : Nat := 0xf00018
abbrev ENG_REJ_ACK : Nat := 0xf00020
abbrev KAT_CTL : Nat := 0xf00028
abbrev RES_SEQ : Nat := 0xf00030
abbrev RES_ACK : Nat := 0xf00038
abbrev RES_REC0 : Nat := 0xf00040
abbrev RES_REC1 : Nat := 0xf00048
abbrev RES_REC2 : Nat := 0xf00050
abbrev RES_REC3 : Nat := 0xf00058
abbrev RES_LOST_COUNT : Nat := 0xf00060
abbrev RES_UNREC_COUNT : Nat := 0xf00068
abbrev KAT_DELAY_COUNT : Nat := 0xf00070
abbrev KAT_PASS_COUNT : Nat := 0xf00078
abbrev ENG_MAP (i : Nat) : Nat := 0xf00400 + 0x8 * i
abbrev COL_STATUS (i : Nat) : Nat := 0xf00800 + 0x8 * i
abbrev FMT_DESC (i : Nat) : Nat := 0x1000000 + 0x8 * i
abbrev FMT_DIGEST (i : Nat) : Nat := 0x1000100 + 0x8 * i
abbrev FMT_LOAD_COUNT : Nat := 0x1000120
abbrev FNT_CTL : Nat := 0x1004000
abbrev FNT_SEQ : Nat := 0x1004008
abbrev FNT_ACK : Nat := 0x1004010
abbrev FNT_STATUS : Nat := 0x1004018
abbrev FNT_REC0 : Nat := 0x1004020
abbrev FNT_REC1 : Nat := 0x1004028
abbrev FNT_REC2 : Nat := 0x1004030
abbrev FNT_REC3 : Nat := 0x1004038
abbrev NAN_GEN_COUNT : Nat := 0x1004040
abbrev NAN_IN_COUNT : Nat := 0x1004048
abbrev MX_INF_COUNT : Nat := 0x1004050
abbrev POISON_COUNT : Nat := 0x1004058
abbrev CIS_CTL : Nat := 0x1008000
abbrev CIS_STATUS : Nat := 0x1008008
abbrev CIS_REJ_COUNT : Nat := 0x1008010
abbrev CIS_REJ_ADDR : Nat := 0x1008018
abbrev CIS_REJ_ACK : Nat := 0x1008020
abbrev CIS_ORD_COUNT : Nat := 0x1008028
abbrev CIS_CONTRIB_COUNT : Nat := 0x1008030
abbrev CIS_OVF_DROP_COUNT : Nat := 0x1008038
abbrev CIS_BAD_RECORD_COUNT : Nat := 0x1008040
abbrev CIS_ECC_CORR_COUNT : Nat := 0x1008048
abbrev CIS_ECC_UNCORR_COUNT : Nat := 0x1008050
abbrev CIS_PART_COUNT : Nat := 0x1008058
abbrev CIS_OVF_SEQ : Nat := 0x100c000
abbrev CIS_OVF_ACK : Nat := 0x100c008
abbrev CIS_OVF_REC0 : Nat := 0x100c010
abbrev CIS_OVF_REC1 : Nat := 0x100c018
abbrev CIS_OVF_REC2 : Nat := 0x100c020
abbrev CIS_OVF_LOST_COUNT : Nat := 0x100c028
abbrev CIS_SPILL_RES (i : Nat) : Nat := 0x1010000 + 0x4000 * i
abbrev CIS_SPILL_HBM (i : Nat) : Nat := 0x1010008 + 0x4000 * i
abbrev CIS_SPILL_LPD (i : Nat) : Nat := 0x1010010 + 0x4000 * i
abbrev CIS_OCC (i : Nat) : Nat := 0x1010018 + 0x4000 * i
abbrev CIS_SPILL_OCC_RES (i : Nat) : Nat := 0x1010020 + 0x4000 * i
abbrev CIS_SPILL_OCC_HBM (i : Nat) : Nat := 0x1010028 + 0x4000 * i
abbrev CIS_SPILL_OCC_LPD (i : Nat) : Nat := 0x1010030 + 0x4000 * i
abbrev SPT_SEQ : Nat := 0x1080000
abbrev SPT_ACK : Nat := 0x1080008
abbrev SPT_STATUS : Nat := 0x1080010
abbrev SPT_REC0 : Nat := 0x1080018
abbrev SPT_REC1 : Nat := 0x1080020
abbrev SPT_REC2 : Nat := 0x1080028
abbrev SPT_REC3 : Nat := 0x1080030
abbrev SPT_GROUP_COUNT : Nat := 0x1080038
abbrev SPT_INDEX_COUNT : Nat := 0x1080040
abbrev SPT_MASK_COUNT : Nat := 0x1080048
abbrev SPT_LOST_COUNT : Nat := 0x1080050
abbrev SPT_BLOCK_COUNT : Nat := 0x1080058
abbrev NOR_CTL : Nat := 0x1400000
abbrev NOR_STATUS : Nat := 0x1400008
abbrev NOR_REJ_COUNT : Nat := 0x1400010
abbrev NOR_REJ_ADDR : Nat := 0x1400018
abbrev NOR_REJ_ACK : Nat := 0x1400020
abbrev RULE_LOAD_COUNT : Nat := 0x1400028
abbrev RULE_DIGEST (i : Nat) : Nat := 0x1400030 + 0x8 * i
abbrev NOR_UPDATE_COUNT : Nat := 0x1400050
abbrev NOR_SKIP_COUNT : Nat := 0x1400058
abbrev NOR_RES_COUNT : Nat := 0x1400060
abbrev NOR_COMMIT_COUNT : Nat := 0x1400068
abbrev NOR_DISCARD_COUNT : Nat := 0x1400070
abbrev NOR_LAST_COMMIT : Nat := 0x1400078
abbrev SNAP_REQ : Nat := 0x1400080
abbrev NOR_RESTORE : Nat := 0x1400088
abbrev NOR_RESTORE_OBJ : Nat := 0x1400090
abbrev SNAP_COUNT : Nat := 0x1400098
abbrev NSET (i : Nat) : Nat := 0x1404000 + 0x8 * i
abbrev SHD_STATE (i : Nat) : Nat := 0x1410000 + 0x10 * i
abbrev SHD_STEP (i : Nat) : Nat := 0x1410008 + 0x10 * i
abbrev TIME_CTL : Nat := 0x3000000
abbrev TURN_COUNT : Nat := 0x3000008
abbrev TIME_STATUS : Nat := 0x3000010
abbrev TIME_REJ_COUNT : Nat := 0x3000018
abbrev TIME_REJ_ADDR : Nat := 0x3000020
abbrev TIME_REJ_ACK : Nat := 0x3000028
abbrev TIME_UNLOCK_COUNT : Nat := 0x3000030
abbrev LAUNCH_LEAD : Nat := 0x3000038
abbrev LOCK_HOP : Nat := 0x3000048
abbrev CMP_FREE : Nat := 0x3004000
abbrev CMP_LATE_COUNT : Nat := 0x3004008
abbrev CMP_CTL (i : Nat) : Nat := 0x3004100 + 0x10 * i
abbrev CMP_TURN (i : Nat) : Nat := 0x3004108 + 0x10 * i
abbrev STEP_CTR : Nat := 0x3008000
abbrev STEP_STATUS : Nat := 0x3008008
abbrev SEED (i : Nat) : Nat := 0x3008100 + 0x8 * i
abbrev AUD_CTL : Nat := 0x300c000
abbrev AUD_STATUS : Nat := 0x300c008
abbrev AUD_REJ_COUNT : Nat := 0x300c010
abbrev AUD_REJ_ADDR : Nat := 0x300c018
abbrev AUD_REJ_ACK : Nat := 0x300c020
abbrev AUD_SEQ : Nat := 0x300c028
abbrev AUD_EXPORT_ACK : Nat := 0x300c030
abbrev AUD_HEAD : Nat := 0x300c038
abbrev AUD_FREE : Nat := 0x300c040
abbrev AUD_HOLD_COUNT : Nat := 0x300c048
abbrev AUD_BOOT : Nat := 0x300c050
abbrev PERT (i : Nat) : Nat := 0x300c100 + 0x8 * i
abbrev SW_CTL : Nat := 0x1800000
abbrev SW_STATUS : Nat := 0x1800008
abbrev SW_REJ_COUNT : Nat := 0x1800010
abbrev SW_REJ_ADDR : Nat := 0x1800018
abbrev SW_REJ_ACK : Nat := 0x1800020
abbrev SW_ID : Nat := 0x1800028
abbrev SW_RSV : Nat := 0x1800030
abbrev SW_FENCE (i : Nat) : Nat := 0x1800038 + 0x8 * i
abbrev FNC_HOLD_COUNT : Nat := 0x1800050
abbrev BP_COUNT : Nat := 0x1800058
abbrev BSN_SEQ : Nat := 0x1804000
abbrev BSN_ACK : Nat := 0x1804008
abbrev BSN_REC0 : Nat := 0x1804010
abbrev BSN_REC1 : Nat := 0x1804018
abbrev BSN_REC2 : Nat := 0x1804020
abbrev BSN_LOST_COUNT : Nat := 0x1804028
abbrev BSN_FREE (i j : Nat) : Nat := 0x1808000 + 0x4000 * i + 0x20 * j
abbrev BSN_HEAD (i j : Nat) : Nat := 0x1808008 + 0x4000 * i + 0x20 * j
abbrev BSN_QUAR (i j : Nat) : Nat := 0x1808010 + 0x4000 * i + 0x20 * j
abbrev BSN_FALLBACK (i j : Nat) : Nat := 0x1808018 + 0x4000 * i + 0x20 * j
abbrev BSN_LIM (i j : Nat) : Nat := 0x1810000 + 0x20 * i + 0x8 * j
abbrev SPILL_PKT (i : Nat) : Nat := 0x1820000 + 0x10 * i
abbrev SPILL_BYTE (i : Nat) : Nat := 0x1820008 + 0x10 * i
abbrev RT_STATUS : Nat := 0x1830000
abbrev RT_DRAIN : Nat := 0x1830008
abbrev RT_FLIP_TURN : Nat := 0x1830010
abbrev RT_MISS_COUNT : Nat := 0x1830018
abbrev RT_MISS_ADDR : Nat := 0x1830020
abbrev RT_STALE_COUNT : Nat := 0x1830028
abbrev RT_HELD : Nat := 0x1830030
abbrev MC (i : Nat) : Nat := 0x1840000 + 0x8 * i
abbrev GR_CTL : Nat := 0x1860000
abbrev GR_FILTER : Nat := 0x1860008
abbrev GR_MIRROR : Nat := 0x1860010
abbrev GR_HEAD : Nat := 0x1860018
abbrev GR_TAIL : Nat := 0x1860020
abbrev GR_REC_COUNT : Nat := 0x1860028
abbrev GR_LOST_COUNT : Nat := 0x1860030
abbrev GR_STATUS : Nat := 0x1860038
abbrev GR_REJ_COUNT : Nat := 0x1860040
abbrev GR_REJ_ADDR : Nat := 0x1860048
abbrev GR_REJ_ACK : Nat := 0x1860050
abbrev HG_PORT (i : Nat) : Nat := 0x2000000 + 0x4000 * i
abbrev HG_PSTATUS (i : Nat) : Nat := 0x2000008 + 0x4000 * i
abbrev HG_DRR (i : Nat) : Nat := 0x2000010 + 0x4000 * i
abbrev HG_CAL (i j k : Nat) : Nat := 0x2000018 + 0x4000 * i + 0x20 * j + 0x8 * k
abbrev SHP_D (i : Nat) : Nat := 0x2000058 + 0x4000 * i
abbrev SHP_M (i : Nat) : Nat := 0x2000060 + 0x4000 * i
abbrev MTR_RATE (i j : Nat) : Nat := 0x2000068 + 0x4000 * i + 0x10 * j
abbrev MTR_BKT (i j : Nat) : Nat := 0x2000070 + 0x4000 * i + 0x10 * j
abbrev PC_IN_PKT (i j : Nat) : Nat := 0x2000100 + 0x4000 * i + 0x40 * j
abbrev PC_IN_BYTE (i j : Nat) : Nat := 0x2000108 + 0x4000 * i + 0x40 * j
abbrev PC_OUT_PKT (i j : Nat) : Nat := 0x2000110 + 0x4000 * i + 0x40 * j
abbrev PC_OUT_BYTE (i j : Nat) : Nat := 0x2000118 + 0x4000 * i + 0x40 * j
abbrev PC_STALL (i j : Nat) : Nat := 0x2000120 + 0x4000 * i + 0x40 * j
abbrev PC_DEMOTE (i j : Nat) : Nat := 0x2000128 + 0x4000 * i + 0x40 * j
abbrev MTR_GREEN (i j : Nat) : Nat := 0x2000200 + 0x4000 * i + 0x18 * j
abbrev MTR_YELLOW (i j : Nat) : Nat := 0x2000208 + 0x4000 * i + 0x18 * j
abbrev MTR_RED (i j : Nat) : Nat := 0x2000210 + 0x4000 * i + 0x18 * j
abbrev HIST_DEPTH (i j k : Nat) : Nat := 0x2000400 + 0x4000 * i + 0x100 * j + 0x8 * k
abbrev HIST_DELAY (i j k : Nat) : Nat := 0x2000480 + 0x4000 * i + 0x100 * j + 0x8 * k
abbrev HG_CTL : Nat := 0x2300000
abbrev HG_STATUS : Nat := 0x2300008
abbrev HG_REJ_COUNT : Nat := 0x2300010
abbrev HG_REJ_ADDR : Nat := 0x2300018
abbrev HG_REJ_ACK : Nat := 0x2300020
abbrev WIN_SIZE : Nat := 0x2300028
abbrev DLV_CTL : Nat := 0x2300030
abbrev HG_SAMPLE : Nat := 0x2300038
abbrev HG_STARVE : Nat := 0x2300040
abbrev MARK_GAP : Nat := 0x2300048
abbrev WIN_SEQ : Nat := 0x2300050
abbrev WIN_ACK : Nat := 0x2300058
abbrev WIN_REC0 : Nat := 0x2300060
abbrev WIN_REC1 : Nat := 0x2300068
abbrev WIN_REC2 : Nat := 0x2300070
abbrev WIN_LOST_COUNT : Nat := 0x2300078
abbrev FLOW_USE : Nat := 0x2300080
abbrev FLOW_WAIT_COUNT : Nat := 0x2300088
abbrev DLV_COUNT : Nat := 0x2300090
abbrev DLV_BAD_COUNT : Nat := 0x2300098
abbrev WIN_HOLD_COUNT : Nat := 0x23000a0
abbrev STARVE_COUNT : Nat := 0x23000a8
abbrev PT_CTL (i : Nat) : Nat := 0x2400000 + 0x4000 * i
abbrev PT_STATUS (i : Nat) : Nat := 0x2400008 + 0x4000 * i
abbrev PT_LANEMAP (i : Nat) : Nat := 0x2400010 + 0x4000 * i
abbrev PT_CRED (i : Nat) : Nat := 0x2400018 + 0x4000 * i
abbrev PT_RTO (i : Nat) : Nat := 0x2400020 + 0x4000 * i
abbrev PT_REPLAY_COUNT (i : Nat) : Nat := 0x2400028 + 0x4000 * i
abbrev PT_ERR_COUNT (i : Nat) : Nat := 0x2400030 + 0x4000 * i
abbrev PT_FEC_COUNT (i : Nat) : Nat := 0x2400038 + 0x4000 * i
abbrev PT_TRAIN_COUNT (i : Nat) : Nat := 0x2400040 + 0x4000 * i
abbrev PT_KEY (i : Nat) : Nat := 0x2400048 + 0x4000 * i
abbrev PT_PFC (i : Nat) : Nat := 0x2400050 + 0x4000 * i
abbrev PT_PFC_COUNT (i : Nat) : Nat := 0x2400058 + 0x4000 * i
abbrev GOE_CTL (i : Nat) : Nat := 0x2400060 + 0x4000 * i
abbrev GOE_MAC (i : Nat) : Nat := 0x2400068 + 0x4000 * i
abbrev GOE_PEER_MAC (i : Nat) : Nat := 0x2400070 + 0x4000 * i
abbrev GOE_LOCAL0 (i : Nat) : Nat := 0x2400078 + 0x4000 * i
abbrev GOE_LOCAL1 (i : Nat) : Nat := 0x2400080 + 0x4000 * i
abbrev GOE_PEER0 (i : Nat) : Nat := 0x2400088 + 0x4000 * i
abbrev GOE_PEER1 (i : Nat) : Nat := 0x2400090 + 0x4000 * i
abbrev GOE_COUNT (i : Nat) : Nat := 0x2400098 + 0x4000 * i
abbrev PT_GCTL : Nat := 0x2700000
abbrev PT_GSTATUS : Nat := 0x2700008
abbrev PT_REJ_COUNT : Nat := 0x2700010
abbrev PT_REJ_ADDR : Nat := 0x2700018
abbrev PT_REJ_ACK : Nat := 0x2700020
abbrev SPARE (i j : Nat) : Nat := 0x2700100 + 0x10 * i + 0x8 * j
abbrev PT_TRAIN (i : Nat) : Nat := 0x2700200 + 0x8 * i
abbrev MEM_CTL : Nat := 0x2800000
abbrev MEM_STATUS : Nat := 0x2800008
abbrev MEM_REJ_COUNT : Nat := 0x2800010
abbrev MEM_REJ_ADDR : Nat := 0x2800018
abbrev MEM_REJ_ACK : Nat := 0x2800020
abbrev MEM_RETAIN : Nat := 0x2800028
abbrev ECC_COUNT (i : Nat) : Nat := 0x2800030 + 0x8 * i
abbrev RSV_MODE (i : Nat) : Nat := 0x2800100 + 0x8 * i
abbrev HBM_STACK (i : Nat) : Nat := 0x2804000 + 0x8 * i
abbrev LPD_RT_BASE : Nat := 0x2808000
abbrev LPD_RT_PERIOD : Nat := 0x2808008
abbrev LPD_RT_CTL : Nat := 0x2808010
abbrev LPD_FAIL : Nat := 0x2808018
abbrev LPD_MIG : Nat := 0x2808020
abbrev LPD_SPARE : Nat := 0x2808028
abbrev LPD_CH (i : Nat) : Nat := 0x2808100 + 0x8 * i
abbrev PRD_CTL : Nat := 0x280c000
abbrev PRD_MISS_COUNT : Nat := 0x280c008
abbrev PRD_WASTE_COUNT : Nat := 0x280c010
abbrev TRN_COUNT : Nat := 0x280c018
abbrev GIX_SEQ : Nat := 0x280c100
abbrev GIX_ACK : Nat := 0x280c108
abbrev GIX_REC0 : Nat := 0x280c110
abbrev GIX_REC1 : Nat := 0x280c118
abbrev GIX_REC2 : Nat := 0x280c120
abbrev GIX_LOST_COUNT : Nat := 0x280c128
abbrev GIX_COUNT : Nat := 0x280c130
abbrev FLT_CTL : Nat := 0x3400000
abbrev FLT_STATUS : Nat := 0x3400008
abbrev FLT_REJ_COUNT : Nat := 0x3400010
abbrev FLT_REJ_ADDR : Nat := 0x3400018
abbrev FLT_REJ_ACK : Nat := 0x3400020
abbrev WM_CTL : Nat := 0x3400028
abbrev LEV_CTL : Nat := 0x3400030
abbrev LEV_CTL2 : Nat := 0x3400038
abbrev LEV_STATUS : Nat := 0x3400040
abbrev LEV_DEC_COUNT : Nat := 0x3400048
abbrev LEV_LATE_COUNT : Nat := 0x3400050
abbrev FLT_POLICY : Nat := 0x3400058
abbrev LEV_SELF : Nat := 0x3400060
abbrev FLT_REPORT_COUNT : Nat := 0x3400068
abbrev FM_CTL : Nat := 0x3400070
abbrev FM_ADDR0 : Nat := 0x3400078
abbrev FM_ADDR1 : Nat := 0x3400080
abbrev FM_RESEND_COUNT : Nat := 0x3400088
abbrev ORDER_COUNT : Nat := 0x3400090
abbrev LEV_MEM (i : Nat) : Nat := 0x3400100 + 0x8 * i
abbrev SLOST_SEQ : Nat := 0x3404000
abbrev SLOST_ACK : Nat := 0x3404008
abbrev SLOST_REC0 : Nat := 0x3404010
abbrev SLOST_REC1 : Nat := 0x3404018
abbrev SLOST_REC2 : Nat := 0x3404020
abbrev SLOST_LOST_COUNT : Nat := 0x3404028
abbrev RSL_CTL : Nat := 0x3404030
abbrev RSL_COUNT : Nat := 0x3404038
abbrev STG_CTL : Nat := 0x3404040
abbrev PTN_CTL : Nat := 0x3404048
abbrev PTN_COUNT : Nat := 0x3404050
abbrev DOM (i j : Nat) : Nat := 0x3410000 + 0x4000 * i + 0x8 * j
abbrev PTN (i j : Nat) : Nat := 0x3420000 + 0x4000 * i + 0x8 * j
abbrev STG_HIST (i j k : Nat) : Nat := 0x3440000 + 0x4000 * i + 0x80 * j + 0x8 * k
abbrev SEC_STATUS : Nat := 0x3800000
abbrev SEC_ID0 : Nat := 0x3800008
abbrev SEC_ID1 : Nat := 0x3800010
abbrev FW_DIGEST (i : Nat) : Nat := 0x3800018 + 0x8 * i
abbrev FW_SVN : Nat := 0x3800038
abbrev MBX_CMD : Nat := 0x3800040
abbrev MBX_ARG : Nat := 0x3800048
abbrev MBX_STATUS : Nat := 0x3800050
abbrev DBG_NONCE0 : Nat := 0x3800058
abbrev DBG_NONCE1 : Nat := 0x3800060
abbrev SIG_SEQ : Nat := 0x3800068
abbrev SIG_ACK : Nat := 0x3800070
abbrev SIG_REC0 : Nat := 0x3800078
abbrev SIG_REC1 : Nat := 0x3800080
abbrev SIG_REC2 : Nat := 0x3800088
abbrev SIG_LOST_COUNT : Nat := 0x3800090
abbrev SIG_COUNT : Nat := 0x3800098
abbrev SEC_DW_DENY : Nat := 0x38000a0
abbrev MBX_BUSY_COUNT : Nat := 0x38000a8
abbrev TEN (i : Nat) : Nat := 0x3800100 + 0x8 * i
abbrev PWR_CTL : Nat := 0x3c00000
abbrev PWR_STATUS : Nat := 0x3c00008
abbrev PWR_REJ_COUNT : Nat := 0x3c00010
abbrev PWR_REJ_ADDR : Nat := 0x3c00018
abbrev PWR_REJ_ACK : Nat := 0x3c00020
abbrev PWR_IN : Nat := 0x3c00028
abbrev PWR_BRST : Nat := 0x3c00030
abbrev PWR_RST : Nat := 0x3c00038
abbrev COOL : Nat := 0x3c00040
abbrev PROF_DIGEST (i : Nat) : Nat := 0x3c00048 + 0x8 * i
abbrev ISL (i : Nat) : Nat := 0x3c00100 + 0x8 * i
abbrev DBG_STATUS : Nat := 0x3e00000
abbrev DBG_REJ_COUNT : Nat := 0x3e00008
abbrev DBG_REJ_ADDR : Nat := 0x3e00010
abbrev DBG_REJ_ACK : Nat := 0x3e00018
abbrev GPIO_DIR : Nat := 0x3e00020
abbrev GPIO_OUT : Nat := 0x3e00028
abbrev GPIO_IN : Nat := 0x3e00030
abbrev TMUX_CTL : Nat := 0x3e00038
abbrev TMUX_SEL (i : Nat) : Nat := 0x3e00040 + 0x8 * i
abbrev AMON_SEL : Nat := 0x3e00060
abbrev ALERT_EN : Nat := 0x3e00068
abbrev ALERT_STATUS : Nat := 0x3e00070
abbrev JTAG_ID : Nat := 0x3e00078
abbrev FLOG_CTL : Nat := 0x3e04000
abbrev FLOG_STATUS : Nat := 0x3e04008
abbrev FLOG_ADDR : Nat := 0x3e04010
abbrev FLOG_DATA : Nat := 0x3e04018
abbrev FLOG_NONCE (i : Nat) : Nat := 0x3e04020 + 0x8 * i
abbrev FLOG_PTIME : Nat := 0x3e04040
abbrev FLOG_WRITE_COUNT : Nat := 0x3e04048

end R

namespace F

abbrev GCTL_ID_device : Fld := ⟨R.GCTL_ID, 0, 16⟩
abbrev GCTL_ID_stepping : Fld := ⟨R.GCTL_ID, 16, 8⟩
abbrev GCTL_ID_family : Fld := ⟨R.GCTL_ID, 24, 8⟩
abbrev GCTL_ID_vendor : Fld := ⟨R.GCTL_ID, 32, 16⟩
abbrev GCTL_strict : Fld := ⟨R.GCTL, 0, 1⟩
abbrev GCTL_BLK_blk : Fld := ⟨R.GCTL_BLK, 0, 14⟩
abbrev GCTL_SCRATCH_scratch : Fld := ⟨R.GCTL_SCRATCH, 0, 64⟩
abbrev HOST_BAD_ACCESS_short : Fld := ⟨R.HOST_BAD_ACCESS, 0, 32⟩
abbrev HOST_BAD_ACCESS_range : Fld := ⟨R.HOST_BAD_ACCESS, 32, 32⟩
abbrev DW_CTRL_space : Fld := ⟨R.DW_CTRL, 0, 3⟩
abbrev DW_ADDR_addr : Fld := ⟨R.DW_ADDR, 3, 61⟩
abbrev DW_DATA_data : Fld := ⟨R.DW_DATA, 0, 64⟩
abbrev DW_STATUS_busy : Fld := ⟨R.DW_STATUS, 0, 1⟩
abbrev DW_STATUS_err_space : Fld := ⟨R.DW_STATUS, 8, 3⟩
abbrev DW_STATUS_err_kind : Fld := ⟨R.DW_STATUS, 12, 4⟩
abbrev DW_ERR_COUNT_refused : Fld := ⟨R.DW_ERR_COUNT, 0, 64⟩
abbrev DW_ERR_ADDR_addr : Fld := ⟨R.DW_ERR_ADDR, 0, 64⟩
abbrev DW_LOCK_COUNT_locked : Fld := ⟨R.DW_LOCK_COUNT, 0, 64⟩
abbrev STG_MARK_mark (i : Nat) : Fld := ⟨(R.STG_MARK i), 0, 64⟩
abbrev INT_STATUS_cause : Fld := ⟨R.INT_STATUS, 0, 25⟩
abbrev INT_EN_en : Fld := ⟨R.INT_EN, 0, 25⟩
abbrev INT_PEND_pend : Fld := ⟨R.INT_PEND, 0, 25⟩
abbrev INT_EOI_vector : Fld := ⟨R.INT_EOI, 0, 6⟩
abbrev INT_MAP_vector (i : Nat) : Fld := ⟨(R.INT_MAP i), 0, 6⟩
abbrev INT_EVT_events (i : Nat) : Fld := ⟨(R.INT_EVT i), 0, 32⟩
abbrev INT_EVT_ACK_ack (i : Nat) : Fld := ⟨(R.INT_EVT_ACK i), 0, 32⟩
abbrev INT_VEC_gap (i : Nat) : Fld := ⟨(R.INT_VEC i), 0, 16⟩
abbrev INT_VEC_sent (i : Nat) : Fld := ⟨(R.INT_VEC i), 32, 32⟩
abbrev CMD_CTL_en : Fld := ⟨R.CMD_CTL, 0, 1⟩
abbrev CMD_STATUS_cfg_rej : Fld := ⟨R.CMD_STATUS, 0, 1⟩
abbrev CMD_STATUS_mbr_pending : Fld := ⟨R.CMD_STATUS, 1, 1⟩
abbrev CMD_REJ_COUNT_rej : Fld := ⟨R.CMD_REJ_COUNT, 0, 32⟩
abbrev CMD_REJ_ADDR_addr : Fld := ⟨R.CMD_REJ_ADDR, 0, 26⟩
abbrev CMD_REJ_ACK_ack : Fld := ⟨R.CMD_REJ_ACK, 0, 32⟩
abbrev CMD_ACCEPT_COUNT_accepted : Fld := ⟨R.CMD_ACCEPT_COUNT, 0, 64⟩
abbrev CMD_REJECT_COUNT_rejected : Fld := ⟨R.CMD_REJECT_COUNT, 0, 64⟩
abbrev ACK_TIMEOUT_us : Fld := ⟨R.ACK_TIMEOUT, 0, 20⟩
abbrev QUORUM_WAIT_turns : Fld := ⟨R.QUORUM_WAIT, 0, 32⟩
abbrev CMD_FOREIGN_COUNT_foreign : Fld := ⟨R.CMD_FOREIGN_COUNT, 0, 64⟩
abbrev REVOKE_COUNT_reopened : Fld := ⟨R.REVOKE_COUNT, 0, 32⟩
abbrev REVOKE_COUNT_received : Fld := ⟨R.REVOKE_COUNT, 32, 32⟩
abbrev REISSUE_COUNT_sent : Fld := ⟨R.REISSUE_COUNT, 0, 32⟩
abbrev REISSUE_COUNT_requests : Fld := ⟨R.REISSUE_COUNT, 32, 32⟩
abbrev CTX_FREE_free : Fld := ⟨R.CTX_FREE, 0, 13⟩
abbrev MBR_SEQ_seq : Fld := ⟨R.MBR_SEQ, 0, 32⟩
abbrev MBR_ACK_ack : Fld := ⟨R.MBR_ACK, 0, 32⟩
abbrev MBR_REC0_collective : Fld := ⟨R.MBR_REC0, 0, 32⟩
abbrev MBR_REC0_chunk : Fld := ⟨R.MBR_REC0, 32, 32⟩
abbrev MBR_REC1_rank : Fld := ⟨R.MBR_REC1, 0, 16⟩
abbrev MBR_REC1_port : Fld := ⟨R.MBR_REC1, 16, 8⟩
abbrev MBR_REC1_cond : Fld := ⟨R.MBR_REC1, 24, 8⟩
abbrev MBR_REC1_group : Fld := ⟨R.MBR_REC1, 32, 16⟩
abbrev MBR_REC2_turn : Fld := ⟨R.MBR_REC2, 0, 64⟩
abbrev MBR_LOST_COUNT_lost : Fld := ⟨R.MBR_LOST_COUNT, 0, 32⟩
abbrev MBR_EVENT_COUNT_events : Fld := ⟨R.MBR_EVENT_COUNT, 0, 64⟩
abbrev Q_CTL_en (i : Nat) : Fld := ⟨(R.Q_CTL i), 0, 1⟩
abbrev Q_CTL_owner (i : Nat) : Fld := ⟨(R.Q_CTL i), 1, 1⟩
abbrev Q_CTL_port (i : Nat) : Fld := ⟨(R.Q_CTL i), 2, 8⟩
abbrev Q_CTL_prio (i : Nat) : Fld := ⟨(R.Q_CTL i), 10, 2⟩
abbrev Q_CTL_stop_on_rej (i : Nat) : Fld := ⟨(R.Q_CTL i), 12, 1⟩
abbrev Q_STATUS_cfg_rej (i : Nat) : Fld := ⟨(R.Q_STATUS i), 0, 1⟩
abbrev Q_STATUS_stopped (i : Nat) : Fld := ⟨(R.Q_STATUS i), 1, 1⟩
abbrev Q_STATUS_full (i : Nat) : Fld := ⟨(R.Q_STATUS i), 2, 1⟩
abbrev Q_STATUS_phase (i : Nat) : Fld := ⟨(R.Q_STATUS i), 3, 3⟩
abbrev Q_STATUS_depth (i : Nat) : Fld := ⟨(R.Q_STATUS i), 8, 9⟩
abbrev Q_STATUS_last_reason (i : Nat) : Fld := ⟨(R.Q_STATUS i), 24, 8⟩
abbrev Q_REJ_COUNT_rej (i : Nat) : Fld := ⟨(R.Q_REJ_COUNT i), 0, 32⟩
abbrev Q_REJ_ADDR_addr (i : Nat) : Fld := ⟨(R.Q_REJ_ADDR i), 0, 26⟩
abbrev Q_REJ_ACK_ack (i : Nat) : Fld := ⟨(R.Q_REJ_ACK i), 0, 32⟩
abbrev Q_RESTART_restart (i : Nat) : Fld := ⟨(R.Q_RESTART i), 0, 1⟩
abbrev Q_ACCEPT_COUNT_accepted (i : Nat) : Fld := ⟨(R.Q_ACCEPT_COUNT i), 0, 64⟩
abbrev Q_CPL_COUNT_records (i : Nat) : Fld := ⟨(R.Q_CPL_COUNT i), 0, 64⟩
abbrev Q_FULL_COUNT_refused (i : Nat) : Fld := ⟨(R.Q_FULL_COUNT i), 0, 32⟩
abbrev QCMD_word (i j : Nat) : Fld := ⟨(R.QCMD i j), 0, 64⟩
abbrev EVT_value (i j : Nat) : Fld := ⟨(R.EVT i j), 0, 32⟩
abbrev GRP_loaded (i : Nat) : Fld := ⟨(R.GRP i), 0, 1⟩
abbrev GRP_tier (i : Nat) : Fld := ⟨(R.GRP i), 1, 3⟩
abbrev GRP_direct (i : Nat) : Fld := ⟨(R.GRP i), 16, 16⟩
abbrev GRP_active (i : Nat) : Fld := ⟨(R.GRP i), 32, 13⟩
abbrev CTX_busy (i j : Nat) : Fld := ⟨(R.CTX i j), 0, 1⟩
abbrev CTX_phase (i j : Nat) : Fld := ⟨(R.CTX i j), 1, 2⟩
abbrev CTX_queue (i j : Nat) : Fld := ⟨(R.CTX i j), 3, 6⟩
abbrev CTX_group (i j : Nat) : Fld := ⟨(R.CTX i j), 9, 8⟩
abbrev CTX_coll_id (i j : Nat) : Fld := ⟨(R.CTX i j), 32, 32⟩
abbrev PVF_SEQ_seq : Fld := ⟨R.PVF_SEQ, 0, 32⟩
abbrev PVF_ACK_ack : Fld := ⟨R.PVF_ACK, 0, 32⟩
abbrev PVF_STATUS_pvf_pending : Fld := ⟨R.PVF_STATUS, 0, 1⟩
abbrev PVF_REC0_request : Fld := ⟨R.PVF_REC0, 0, 32⟩
abbrev PVF_REC0_check : Fld := ⟨R.PVF_REC0, 32, 8⟩
abbrev PVF_REC0_context : Fld := ⟨R.PVF_REC0, 40, 3⟩
abbrev PVF_REC0_ctx_valid : Fld := ⟨R.PVF_REC0, 43, 1⟩
abbrev PVF_REC1_insn : Fld := ⟨R.PVF_REC1, 0, 32⟩
abbrev PVF_REC1_decl : Fld := ⟨R.PVF_REC1, 32, 16⟩
abbrev PVF_REC2_turn : Fld := ⟨R.PVF_REC2, 0, 64⟩
abbrev PVF_LOST_COUNT_lost : Fld := ⟨R.PVF_LOST_COUNT, 0, 32⟩
abbrev PRG_LOAD_COUNT_loads : Fld := ⟨R.PRG_LOAD_COUNT, 0, 64⟩
abbrev PRG_HELD_held : Fld := ⟨R.PRG_HELD, 0, 9⟩
abbrev STR_SKIP_COUNT_bytes : Fld := ⟨R.STR_SKIP_COUNT, 0, 64⟩
abbrev ENG_STATUS_role (i : Nat) : Fld := ⟨(R.ENG_STATUS i), 0, 2⟩
abbrev ENG_STATUS_degraded (i : Nat) : Fld := ⟨(R.ENG_STATUS i), 2, 1⟩
abbrev ENG_STATUS_attached (i : Nat) : Fld := ⟨(R.ENG_STATUS i), 3, 1⟩
abbrev ENG_STATUS_kat (i : Nat) : Fld := ⟨(R.ENG_STATUS i), 4, 1⟩
abbrev ENG_STATUS_peer (i : Nat) : Fld := ⟨(R.ENG_STATUS i), 8, 8⟩
abbrev ENG_STATUS_logical (i : Nat) : Fld := ⟨(R.ENG_STATUS i), 16, 7⟩
abbrev ENG_CTX_state0 (i : Nat) : Fld := ⟨(R.ENG_CTX i), 0, 4⟩
abbrev ENG_CTX_state1 (i : Nat) : Fld := ⟨(R.ENG_CTX i), 4, 4⟩
abbrev ENG_CTX_state2 (i : Nat) : Fld := ⟨(R.ENG_CTX i), 8, 4⟩
abbrev ENG_CTX_state3 (i : Nat) : Fld := ⟨(R.ENG_CTX i), 12, 4⟩
abbrev ENG_CTX_state4 (i : Nat) : Fld := ⟨(R.ENG_CTX i), 16, 4⟩
abbrev ENG_CTX_state5 (i : Nat) : Fld := ⟨(R.ENG_CTX i), 20, 4⟩
abbrev ENG_CTX_state6 (i : Nat) : Fld := ⟨(R.ENG_CTX i), 24, 4⟩
abbrev ENG_CTX_state7 (i : Nat) : Fld := ⟨(R.ENG_CTX i), 28, 4⟩
abbrev ENG_ISSUE_COUNT_issued (i : Nat) : Fld := ⟨(R.ENG_ISSUE_COUNT i), 0, 64⟩
abbrev ENG_STALL_COUNT_stall (i : Nat) : Fld := ⟨(R.ENG_STALL_COUNT i), 0, 64⟩
abbrev ENG_RES_COUNT_events (i : Nat) : Fld := ⟨(R.ENG_RES_COUNT i), 0, 32⟩
abbrev ENG_ECC_COUNT_corr (i : Nat) : Fld := ⟨(R.ENG_ECC_COUNT i), 0, 32⟩
abbrev ENG_ECC_COUNT_uncorr (i : Nat) : Fld := ⟨(R.ENG_ECC_COUNT i), 32, 32⟩
abbrev ENG_BIND_coll_ctx (i j : Nat) : Fld := ⟨(R.ENG_BIND i j), 0, 12⟩
abbrev ENG_BIND_context (i j : Nat) : Fld := ⟨(R.ENG_BIND i j), 12, 3⟩
abbrev ENG_BIND_valid (i j : Nat) : Fld := ⟨(R.ENG_BIND i j), 15, 1⟩
abbrev ENG_BIND_mode (i j : Nat) : Fld := ⟨(R.ENG_BIND i j), 16, 2⟩
abbrev ENG_CTL_en : Fld := ⟨R.ENG_CTL, 0, 1⟩
abbrev ENG_GSTATUS_cfg_rej : Fld := ⟨R.ENG_GSTATUS, 0, 1⟩
abbrev ENG_GSTATUS_res_pending : Fld := ⟨R.ENG_GSTATUS, 1, 1⟩
abbrev ENG_GSTATUS_degraded_any : Fld := ⟨R.ENG_GSTATUS, 2, 1⟩
abbrev ENG_REJ_COUNT_rej : Fld := ⟨R.ENG_REJ_COUNT, 0, 32⟩
abbrev ENG_REJ_ADDR_addr : Fld := ⟨R.ENG_REJ_ADDR, 0, 26⟩
abbrev ENG_REJ_ACK_ack : Fld := ⟨R.ENG_REJ_ACK, 0, 32⟩
abbrev KAT_CTL_en : Fld := ⟨R.KAT_CTL, 0, 1⟩
abbrev KAT_CTL_idle : Fld := ⟨R.KAT_CTL, 16, 16⟩
abbrev KAT_CTL_period : Fld := ⟨R.KAT_CTL, 32, 16⟩
abbrev RES_SEQ_seq : Fld := ⟨R.RES_SEQ, 0, 32⟩
abbrev RES_ACK_ack : Fld := ⟨R.RES_ACK, 0, 32⟩
abbrev RES_REC0_phys : Fld := ⟨R.RES_REC0, 0, 8⟩
abbrev RES_REC0_logical : Fld := ⟨R.RES_REC0, 8, 7⟩
abbrev RES_REC0_kind : Fld := ⟨R.RES_REC0, 15, 1⟩
abbrev RES_REC0_column : Fld := ⟨R.RES_REC0, 16, 4⟩
abbrev RES_REC0_outcome : Fld := ⟨R.RES_REC0, 20, 2⟩
abbrev RES_REC0_retired : Fld := ⟨R.RES_REC0, 22, 1⟩
abbrev RES_REC1_signature : Fld := ⟨R.RES_REC1, 0, 32⟩
abbrev RES_REC1_collective : Fld := ⟨R.RES_REC1, 32, 32⟩
abbrev RES_REC2_temp : Fld := ⟨R.RES_REC2, 0, 16⟩
abbrev RES_REC2_mv : Fld := ⟨R.RES_REC2, 16, 16⟩
abbrev RES_REC2_chunk : Fld := ⟨R.RES_REC2, 32, 32⟩
abbrev RES_REC3_turn : Fld := ⟨R.RES_REC3, 0, 64⟩
abbrev RES_LOST_COUNT_lost : Fld := ⟨R.RES_LOST_COUNT, 0, 32⟩
abbrev RES_UNREC_COUNT_unrec : Fld := ⟨R.RES_UNREC_COUNT, 0, 32⟩
abbrev KAT_DELAY_COUNT_delay : Fld := ⟨R.KAT_DELAY_COUNT, 0, 64⟩
abbrev KAT_PASS_COUNT_pass : Fld := ⟨R.KAT_PASS_COUNT, 0, 64⟩
abbrev ENG_MAP_phys (i : Nat) : Fld := ⟨(R.ENG_MAP i), 0, 8⟩
abbrev COL_STATUS_col0 (i : Nat) : Fld := ⟨(R.COL_STATUS i), 0, 2⟩
abbrev COL_STATUS_col1 (i : Nat) : Fld := ⟨(R.COL_STATUS i), 2, 2⟩
abbrev COL_STATUS_col2 (i : Nat) : Fld := ⟨(R.COL_STATUS i), 4, 2⟩
abbrev COL_STATUS_col3 (i : Nat) : Fld := ⟨(R.COL_STATUS i), 6, 2⟩
abbrev COL_STATUS_col4 (i : Nat) : Fld := ⟨(R.COL_STATUS i), 8, 2⟩
abbrev COL_STATUS_col5 (i : Nat) : Fld := ⟨(R.COL_STATUS i), 10, 2⟩
abbrev COL_STATUS_col6 (i : Nat) : Fld := ⟨(R.COL_STATUS i), 12, 2⟩
abbrev COL_STATUS_col7 (i : Nat) : Fld := ⟨(R.COL_STATUS i), 14, 2⟩
abbrev COL_STATUS_col8 (i : Nat) : Fld := ⟨(R.COL_STATUS i), 16, 2⟩
abbrev FMT_DESC_kind (i : Nat) : Fld := ⟨(R.FMT_DESC i), 0, 3⟩
abbrev FMT_DESC_width (i : Nat) : Fld := ⟨(R.FMT_DESC i), 3, 7⟩
abbrev FMT_DESC_sgn (i : Nat) : Fld := ⟨(R.FMT_DESC i), 10, 1⟩
abbrev FMT_DESC_ebits (i : Nat) : Fld := ⟨(R.FMT_DESC i), 11, 4⟩
abbrev FMT_DESC_mbits (i : Nat) : Fld := ⟨(R.FMT_DESC i), 15, 6⟩
abbrev FMT_DESC_bias (i : Nat) : Fld := ⟨(R.FMT_DESC i), 21, 11⟩
abbrev FMT_DESC_policy (i : Nat) : Fld := ⟨(R.FMT_DESC i), 32, 2⟩
abbrev FMT_DESC_sat (i : Nat) : Fld := ⟨(R.FMT_DESC i), 34, 1⟩
abbrev FMT_DIGEST_digest (i : Nat) : Fld := ⟨(R.FMT_DIGEST i), 0, 64⟩
abbrev FMT_LOAD_COUNT_loads : Fld := ⟨R.FMT_LOAD_COUNT, 0, 64⟩
abbrev FNT_CTL_arm : Fld := ⟨R.FNT_CTL, 0, 1⟩
abbrev FNT_CTL_nan_action : Fld := ⟨R.FNT_CTL, 1, 1⟩
abbrev FNT_SEQ_seq : Fld := ⟨R.FNT_SEQ, 0, 32⟩
abbrev FNT_ACK_ack : Fld := ⟨R.FNT_ACK, 0, 32⟩
abbrev FNT_STATUS_fnt_pending : Fld := ⟨R.FNT_STATUS, 0, 1⟩
abbrev FNT_REC0_collective : Fld := ⟨R.FNT_REC0, 0, 32⟩
abbrev FNT_REC0_chunk : Fld := ⟨R.FNT_REC0, 32, 32⟩
abbrev FNT_REC1_element : Fld := ⟨R.FNT_REC1, 0, 32⟩
abbrev FNT_REC1_port : Fld := ⟨R.FNT_REC1, 32, 8⟩
abbrev FNT_REC1_opcode : Fld := ⟨R.FNT_REC1, 40, 8⟩
abbrev FNT_REC1_cause : Fld := ⟨R.FNT_REC1, 48, 8⟩
abbrev FNT_REC1_trap_code : Fld := ⟨R.FNT_REC1, 56, 8⟩
abbrev FNT_REC2_unit : Fld := ⟨R.FNT_REC2, 0, 8⟩
abbrev FNT_REC2_kind : Fld := ⟨R.FNT_REC2, 8, 4⟩
abbrev FNT_REC2_context : Fld := ⟨R.FNT_REC2, 12, 3⟩
abbrev FNT_REC2_lane : Fld := ⟨R.FNT_REC2, 16, 7⟩
abbrev FNT_REC2_format : Fld := ⟨R.FNT_REC2, 24, 5⟩
abbrev FNT_REC3_turn : Fld := ⟨R.FNT_REC3, 0, 64⟩
abbrev NAN_GEN_COUNT_gen : Fld := ⟨R.NAN_GEN_COUNT, 0, 64⟩
abbrev NAN_IN_COUNT_in : Fld := ⟨R.NAN_IN_COUNT, 0, 64⟩
abbrev MX_INF_COUNT_mxinf : Fld := ⟨R.MX_INF_COUNT, 0, 64⟩
abbrev POISON_COUNT_poison : Fld := ⟨R.POISON_COUNT, 0, 64⟩
abbrev CIS_CTL_en : Fld := ⟨R.CIS_CTL, 0, 1⟩
abbrev CIS_STATUS_cfg_rej : Fld := ⟨R.CIS_STATUS, 0, 1⟩
abbrev CIS_STATUS_ovf_pending : Fld := ⟨R.CIS_STATUS, 1, 1⟩
abbrev CIS_STATUS_cfg_bad : Fld := ⟨R.CIS_STATUS, 2, 1⟩
abbrev CIS_REJ_COUNT_rej : Fld := ⟨R.CIS_REJ_COUNT, 0, 32⟩
abbrev CIS_REJ_ADDR_addr : Fld := ⟨R.CIS_REJ_ADDR, 0, 26⟩
abbrev CIS_REJ_ACK_ack : Fld := ⟨R.CIS_REJ_ACK, 0, 32⟩
abbrev CIS_ORD_COUNT_selected : Fld := ⟨R.CIS_ORD_COUNT, 0, 32⟩
abbrev CIS_ORD_COUNT_forced : Fld := ⟨R.CIS_ORD_COUNT, 32, 32⟩
abbrev CIS_CONTRIB_COUNT_contrib : Fld := ⟨R.CIS_CONTRIB_COUNT, 0, 64⟩
abbrev CIS_OVF_DROP_COUNT_drop : Fld := ⟨R.CIS_OVF_DROP_COUNT, 0, 64⟩
abbrev CIS_BAD_RECORD_COUNT_bad : Fld := ⟨R.CIS_BAD_RECORD_COUNT, 0, 64⟩
abbrev CIS_ECC_CORR_COUNT_corr : Fld := ⟨R.CIS_ECC_CORR_COUNT, 0, 64⟩
abbrev CIS_ECC_UNCORR_COUNT_uncorr : Fld := ⟨R.CIS_ECC_UNCORR_COUNT, 0, 64⟩
abbrev CIS_PART_COUNT_compact : Fld := ⟨R.CIS_PART_COUNT, 0, 32⟩
abbrev CIS_PART_COUNT_full : Fld := ⟨R.CIS_PART_COUNT, 32, 32⟩
abbrev CIS_OVF_SEQ_seq : Fld := ⟨R.CIS_OVF_SEQ, 0, 32⟩
abbrev CIS_OVF_ACK_ack : Fld := ⟨R.CIS_OVF_ACK, 0, 32⟩
abbrev CIS_OVF_REC0_collective : Fld := ⟨R.CIS_OVF_REC0, 0, 32⟩
abbrev CIS_OVF_REC0_chunk : Fld := ⟨R.CIS_OVF_REC0, 32, 32⟩
abbrev CIS_OVF_REC1_element : Fld := ⟨R.CIS_OVF_REC1, 0, 32⟩
abbrev CIS_OVF_REC1_cluster : Fld := ⟨R.CIS_OVF_REC1, 32, 4⟩
abbrev CIS_OVF_REC1_format : Fld := ⟨R.CIS_OVF_REC1, 36, 2⟩
abbrev CIS_OVF_REC1_op : Fld := ⟨R.CIS_OVF_REC1, 38, 2⟩
abbrev CIS_OVF_REC2_turn : Fld := ⟨R.CIS_OVF_REC2, 0, 64⟩
abbrev CIS_OVF_LOST_COUNT_lost : Fld := ⟨R.CIS_OVF_LOST_COUNT, 0, 32⟩
abbrev CIS_SPILL_RES_base (i : Nat) : Fld := ⟨(R.CIS_SPILL_RES i), 0, 9⟩
abbrev CIS_SPILL_RES_size (i : Nat) : Fld := ⟨(R.CIS_SPILL_RES i), 16, 10⟩
abbrev CIS_SPILL_HBM_base (i : Nat) : Fld := ⟨(R.CIS_SPILL_HBM i), 0, 27⟩
abbrev CIS_SPILL_HBM_size (i : Nat) : Fld := ⟨(R.CIS_SPILL_HBM i), 32, 27⟩
abbrev CIS_SPILL_LPD_base (i : Nat) : Fld := ⟨(R.CIS_SPILL_LPD i), 0, 30⟩
abbrev CIS_SPILL_LPD_size (i : Nat) : Fld := ⟨(R.CIS_SPILL_LPD i), 32, 30⟩
abbrev CIS_OCC_store (i : Nat) : Fld := ⟨(R.CIS_OCC i), 0, 19⟩
abbrev CIS_SPILL_OCC_RES_slots (i : Nat) : Fld := ⟨(R.CIS_SPILL_OCC_RES i), 0, 32⟩
abbrev CIS_SPILL_OCC_HBM_slots (i : Nat) : Fld := ⟨(R.CIS_SPILL_OCC_HBM i), 0, 36⟩
abbrev CIS_SPILL_OCC_LPD_slots (i : Nat) : Fld := ⟨(R.CIS_SPILL_OCC_LPD i), 0, 36⟩
abbrev SPT_SEQ_seq : Fld := ⟨R.SPT_SEQ, 0, 32⟩
abbrev SPT_ACK_ack : Fld := ⟨R.SPT_ACK, 0, 32⟩
abbrev SPT_STATUS_spt_pending : Fld := ⟨R.SPT_STATUS, 0, 1⟩
abbrev SPT_REC0_collective : Fld := ⟨R.SPT_REC0, 0, 32⟩
abbrev SPT_REC0_chunk : Fld := ⟨R.SPT_REC0, 32, 32⟩
abbrev SPT_REC1_group : Fld := ⟨R.SPT_REC1, 0, 32⟩
abbrev SPT_REC1_port : Fld := ⟨R.SPT_REC1, 32, 8⟩
abbrev SPT_REC1_trap_code : Fld := ⟨R.SPT_REC1, 40, 8⟩
abbrev SPT_REC1_engine : Fld := ⟨R.SPT_REC1, 48, 7⟩
abbrev SPT_REC1_context : Fld := ⟨R.SPT_REC1, 56, 3⟩
abbrev SPT_REC2_map_sent : Fld := ⟨R.SPT_REC2, 0, 8⟩
abbrev SPT_REC2_map_mask : Fld := ⟨R.SPT_REC2, 8, 8⟩
abbrev SPT_REC2_format : Fld := ⟨R.SPT_REC2, 16, 5⟩
abbrev SPT_REC2_layout : Fld := ⟨R.SPT_REC2, 21, 2⟩
abbrev SPT_REC2_mx : Fld := ⟨R.SPT_REC2, 23, 1⟩
abbrev SPT_REC3_turn : Fld := ⟨R.SPT_REC3, 0, 64⟩
abbrev SPT_GROUP_COUNT_group : Fld := ⟨R.SPT_GROUP_COUNT, 0, 64⟩
abbrev SPT_INDEX_COUNT_index : Fld := ⟨R.SPT_INDEX_COUNT, 0, 64⟩
abbrev SPT_MASK_COUNT_mask : Fld := ⟨R.SPT_MASK_COUNT, 0, 64⟩
abbrev SPT_LOST_COUNT_lost : Fld := ⟨R.SPT_LOST_COUNT, 0, 32⟩
abbrev SPT_BLOCK_COUNT_blocks : Fld := ⟨R.SPT_BLOCK_COUNT, 0, 64⟩
abbrev NOR_CTL_en : Fld := ⟨R.NOR_CTL, 0, 1⟩
abbrev NOR_CTL_snap_rate : Fld := ⟨R.NOR_CTL, 8, 8⟩
abbrev NOR_STATUS_cfg_rej : Fld := ⟨R.NOR_STATUS, 0, 1⟩
abbrev NOR_STATUS_snap_busy : Fld := ⟨R.NOR_STATUS, 1, 1⟩
abbrev NOR_REJ_COUNT_rej : Fld := ⟨R.NOR_REJ_COUNT, 0, 32⟩
abbrev NOR_REJ_ADDR_addr : Fld := ⟨R.NOR_REJ_ADDR, 0, 26⟩
abbrev NOR_REJ_ACK_ack : Fld := ⟨R.NOR_REJ_ACK, 0, 32⟩
abbrev RULE_LOAD_COUNT_loads : Fld := ⟨R.RULE_LOAD_COUNT, 0, 64⟩
abbrev RULE_DIGEST_digest (i : Nat) : Fld := ⟨(R.RULE_DIGEST i), 0, 64⟩
abbrev NOR_UPDATE_COUNT_updates : Fld := ⟨R.NOR_UPDATE_COUNT, 0, 64⟩
abbrev NOR_SKIP_COUNT_skips : Fld := ⟨R.NOR_SKIP_COUNT, 0, 64⟩
abbrev NOR_RES_COUNT_mismatch : Fld := ⟨R.NOR_RES_COUNT, 0, 32⟩
abbrev NOR_RES_COUNT_unrec : Fld := ⟨R.NOR_RES_COUNT, 32, 32⟩
abbrev NOR_COMMIT_COUNT_acks : Fld := ⟨R.NOR_COMMIT_COUNT, 0, 32⟩
abbrev NOR_COMMIT_COUNT_nacks : Fld := ⟨R.NOR_COMMIT_COUNT, 32, 32⟩
abbrev NOR_DISCARD_COUNT_discards : Fld := ⟨R.NOR_DISCARD_COUNT, 0, 64⟩
abbrev NOR_LAST_COMMIT_step : Fld := ⟨R.NOR_LAST_COMMIT, 0, 64⟩
abbrev SNAP_REQ_shard : Fld := ⟨R.SNAP_REQ, 0, 10⟩
abbrev NOR_RESTORE_shard : Fld := ⟨R.NOR_RESTORE, 0, 10⟩
abbrev NOR_RESTORE_port : Fld := ⟨R.NOR_RESTORE, 10, 8⟩
abbrev NOR_RESTORE_OBJ_object : Fld := ⟨R.NOR_RESTORE_OBJ, 0, 64⟩
abbrev SNAP_COUNT_done : Fld := ⟨R.SNAP_COUNT, 0, 32⟩
abbrev SNAP_COUNT_failed : Fld := ⟨R.SNAP_COUNT, 32, 32⟩
abbrev NSET_loaded (i : Nat) : Fld := ⟨(R.NSET i), 0, 1⟩
abbrev NSET_complete (i : Nat) : Fld := ⟨(R.NSET i), 1, 1⟩
abbrev NSET_peers (i : Nat) : Fld := ⟨(R.NSET i), 2, 10⟩
abbrev NSET_received (i : Nat) : Fld := ⟨(R.NSET i), 12, 10⟩
abbrev NSET_step (i : Nat) : Fld := ⟨(R.NSET i), 32, 32⟩
abbrev SHD_STATE_state (i : Nat) : Fld := ⟨(R.SHD_STATE i), 0, 3⟩
abbrev SHD_STATE_live (i : Nat) : Fld := ⟨(R.SHD_STATE i), 3, 1⟩
abbrev SHD_STATE_snap (i : Nat) : Fld := ⟨(R.SHD_STATE i), 4, 1⟩
abbrev SHD_STATE_skipped (i : Nat) : Fld := ⟨(R.SHD_STATE i), 5, 1⟩
abbrev SHD_STATE_mask_ver (i : Nat) : Fld := ⟨(R.SHD_STATE i), 16, 16⟩
abbrev SHD_STATE_step (i : Nat) : Fld := ⟨(R.SHD_STATE i), 32, 32⟩
abbrev SHD_STEP_t (i : Nat) : Fld := ⟨(R.SHD_STEP i), 0, 64⟩
abbrev TIME_CTL_en : Fld := ⟨R.TIME_CTL, 0, 1⟩
abbrev TIME_CTL_master : Fld := ⟨R.TIME_CTL, 1, 1⟩
abbrev TIME_CTL_src_port : Fld := ⟨R.TIME_CTL, 2, 8⟩
abbrev TIME_CTL_interval : Fld := ⟨R.TIME_CTL, 16, 5⟩
abbrev TURN_COUNT_count : Fld := ⟨R.TURN_COUNT, 0, 64⟩
abbrev TIME_STATUS_locked : Fld := ⟨R.TIME_STATUS, 0, 1⟩
abbrev TIME_STATUS_ref_ok : Fld := ⟨R.TIME_STATUS, 1, 1⟩
abbrev TIME_STATUS_cfg_rej : Fld := ⟨R.TIME_STATUS, 2, 1⟩
abbrev TIME_STATUS_offset : Fld := ⟨R.TIME_STATUS, 8, 16⟩
abbrev TIME_REJ_COUNT_rej : Fld := ⟨R.TIME_REJ_COUNT, 0, 32⟩
abbrev TIME_REJ_ADDR_addr : Fld := ⟨R.TIME_REJ_ADDR, 0, 26⟩
abbrev TIME_REJ_ACK_ack : Fld := ⟨R.TIME_REJ_ACK, 0, 32⟩
abbrev TIME_UNLOCK_COUNT_unlocks : Fld := ⟨R.TIME_UNLOCK_COUNT, 0, 32⟩
abbrev LAUNCH_LEAD_turns : Fld := ⟨R.LAUNCH_LEAD, 0, 32⟩
abbrev LOCK_HOP_turns : Fld := ⟨R.LOCK_HOP, 0, 16⟩
abbrev CMP_FREE_free : Fld := ⟨R.CMP_FREE, 0, 7⟩
abbrev CMP_LATE_COUNT_launch : Fld := ⟨R.CMP_LATE_COUNT, 0, 32⟩
abbrev CMP_LATE_COUNT_release : Fld := ⟨R.CMP_LATE_COUNT, 32, 32⟩
abbrev CMP_CTL_kind (i : Nat) : Fld := ⟨(R.CMP_CTL i), 0, 2⟩
abbrev CMP_CTL_armed (i : Nat) : Fld := ⟨(R.CMP_CTL i), 2, 1⟩
abbrev CMP_CTL_coll_ctx (i : Nat) : Fld := ⟨(R.CMP_CTL i), 3, 12⟩
abbrev CMP_CTL_group (i : Nat) : Fld := ⟨(R.CMP_CTL i), 16, 8⟩
abbrev CMP_CTL_seq (i : Nat) : Fld := ⟨(R.CMP_CTL i), 32, 32⟩
abbrev CMP_TURN_turn (i : Nat) : Fld := ⟨(R.CMP_TURN i), 0, 64⟩
abbrev STEP_CTR_step : Fld := ⟨R.STEP_CTR, 0, 64⟩
abbrev STEP_STATUS_strict : Fld := ⟨R.STEP_STATUS, 0, 1⟩
abbrev STEP_STATUS_closing : Fld := ⟨R.STEP_STATUS, 1, 1⟩
abbrev STEP_STATUS_bad_close : Fld := ⟨R.STEP_STATUS, 16, 16⟩
abbrev STEP_STATUS_accepted : Fld := ⟨R.STEP_STATUS, 32, 32⟩
abbrev SEED_loaded (i : Nat) : Fld := ⟨(R.SEED i), 0, 1⟩
abbrev SEED_entropy (i : Nat) : Fld := ⟨(R.SEED i), 1, 16⟩
abbrev SEED_tenant (i : Nat) : Fld := ⟨(R.SEED i), 32, 32⟩
abbrev AUD_CTL_en : Fld := ⟨R.AUD_CTL, 0, 1⟩
abbrev AUD_STATUS_cfg_rej : Fld := ⟨R.AUD_STATUS, 0, 1⟩
abbrev AUD_STATUS_hold : Fld := ⟨R.AUD_STATUS, 1, 1⟩
abbrev AUD_REJ_COUNT_rej : Fld := ⟨R.AUD_REJ_COUNT, 0, 32⟩
abbrev AUD_REJ_ADDR_addr : Fld := ⟨R.AUD_REJ_ADDR, 0, 26⟩
abbrev AUD_REJ_ACK_ack : Fld := ⟨R.AUD_REJ_ACK, 0, 32⟩
abbrev AUD_SEQ_parts : Fld := ⟨R.AUD_SEQ, 0, 64⟩
abbrev AUD_EXPORT_ACK_released : Fld := ⟨R.AUD_EXPORT_ACK, 0, 64⟩
abbrev AUD_HEAD_addr : Fld := ⟨R.AUD_HEAD, 0, 64⟩
abbrev AUD_FREE_kib : Fld := ⟨R.AUD_FREE, 0, 32⟩
abbrev AUD_HOLD_COUNT_holds : Fld := ⟨R.AUD_HOLD_COUNT, 0, 32⟩
abbrev AUD_BOOT_boot : Fld := ⟨R.AUD_BOOT, 0, 32⟩
abbrev PERT_events (i : Nat) : Fld := ⟨(R.PERT i), 0, 32⟩
abbrev SW_CTL_en : Fld := ⟨R.SW_CTL, 0, 1⟩
abbrev SW_STATUS_cfg_rej : Fld := ⟨R.SW_STATUS, 0, 1⟩
abbrev SW_STATUS_bsn_pending : Fld := ⟨R.SW_STATUS, 1, 1⟩
abbrev SW_STATUS_rebuild : Fld := ⟨R.SW_STATUS, 2, 6⟩
abbrev SW_REJ_COUNT_rej : Fld := ⟨R.SW_REJ_COUNT, 0, 32⟩
abbrev SW_REJ_ADDR_addr : Fld := ⟨R.SW_REJ_ADDR, 0, 26⟩
abbrev SW_REJ_ACK_ack : Fld := ⟨R.SW_REJ_ACK, 0, 32⟩
abbrev SW_ID_module : Fld := ⟨R.SW_ID, 0, 16⟩
abbrev SW_RSV_rsv_s : Fld := ⟨R.SW_RSV, 0, 18⟩
abbrev SW_RSV_rsv_m : Fld := ⟨R.SW_RSV, 18, 18⟩
abbrev SW_FENCE_ports (i : Nat) : Fld := ⟨(R.SW_FENCE i), 0, 64⟩
abbrev FNC_HOLD_COUNT_holds : Fld := ⟨R.FNC_HOLD_COUNT, 0, 64⟩
abbrev BP_COUNT_blocks : Fld := ⟨R.BP_COUNT, 0, 64⟩
abbrev BSN_SEQ_seq : Fld := ⟨R.BSN_SEQ, 0, 32⟩
abbrev BSN_ACK_ack : Fld := ⟨R.BSN_ACK, 0, 32⟩
abbrev BSN_REC0_die : Fld := ⟨R.BSN_REC0, 0, 1⟩
abbrev BSN_REC0_pool : Fld := ⟨R.BSN_REC0, 1, 2⟩
abbrev BSN_REC0_kind : Fld := ⟨R.BSN_REC0, 3, 2⟩
abbrev BSN_REC1_index : Fld := ⟨R.BSN_REC1, 0, 20⟩
abbrev BSN_REC1_gen_seen : Fld := ⟨R.BSN_REC1, 20, 16⟩
abbrev BSN_REC1_gen_tag : Fld := ⟨R.BSN_REC1, 36, 16⟩
abbrev BSN_REC2_turn : Fld := ⟨R.BSN_REC2, 0, 64⟩
abbrev BSN_LOST_COUNT_lost : Fld := ⟨R.BSN_LOST_COUNT, 0, 32⟩
abbrev BSN_FREE_free (i j : Nat) : Fld := ⟨(R.BSN_FREE i j), 0, 20⟩
abbrev BSN_HEAD_index (i j : Nat) : Fld := ⟨(R.BSN_HEAD i j), 0, 20⟩
abbrev BSN_HEAD_empty (i j : Nat) : Fld := ⟨(R.BSN_HEAD i j), 20, 1⟩
abbrev BSN_HEAD_gen (i j : Nat) : Fld := ⟨(R.BSN_HEAD i j), 24, 16⟩
abbrev BSN_QUAR_quar (i j : Nat) : Fld := ⟨(R.BSN_QUAR i j), 0, 20⟩
abbrev BSN_QUAR_corr (i j : Nat) : Fld := ⟨(R.BSN_QUAR i j), 20, 20⟩
abbrev BSN_QUAR_rebuilds (i j : Nat) : Fld := ⟨(R.BSN_QUAR i j), 40, 16⟩
abbrev BSN_FALLBACK_fallback (i j : Nat) : Fld := ⟨(R.BSN_FALLBACK i j), 0, 64⟩
abbrev BSN_LIM_small (i j : Nat) : Fld := ⟨(R.BSN_LIM i j), 0, 20⟩
abbrev BSN_LIM_medium (i j : Nat) : Fld := ⟨(R.BSN_LIM i j), 20, 20⟩
abbrev BSN_LIM_large (i j : Nat) : Fld := ⟨(R.BSN_LIM i j), 40, 20⟩
abbrev SPILL_PKT_packets (i : Nat) : Fld := ⟨(R.SPILL_PKT i), 0, 64⟩
abbrev SPILL_BYTE_bytes (i : Nat) : Fld := ⟨(R.SPILL_BYTE i), 0, 64⟩
abbrev RT_STATUS_act : Fld := ⟨R.RT_STATUS, 0, 1⟩
abbrev RT_STATUS_act_d : Fld := ⟨R.RT_STATUS, 1, 1⟩
abbrev RT_STATUS_loaded0 : Fld := ⟨R.RT_STATUS, 2, 1⟩
abbrev RT_STATUS_loaded1 : Fld := ⟨R.RT_STATUS, 3, 1⟩
abbrev RT_STATUS_loading : Fld := ⟨R.RT_STATUS, 4, 1⟩
abbrev RT_DRAIN_turns : Fld := ⟨R.RT_DRAIN, 0, 32⟩
abbrev RT_FLIP_TURN_turn : Fld := ⟨R.RT_FLIP_TURN, 0, 64⟩
abbrev RT_MISS_COUNT_misses : Fld := ⟨R.RT_MISS_COUNT, 0, 64⟩
abbrev RT_MISS_ADDR_dst : Fld := ⟨R.RT_MISS_ADDR, 0, 24⟩
abbrev RT_STALE_COUNT_stale : Fld := ⟨R.RT_STALE_COUNT, 0, 64⟩
abbrev RT_HELD_epoch0 : Fld := ⟨R.RT_HELD, 0, 32⟩
abbrev RT_HELD_epoch1 : Fld := ⟨R.RT_HELD, 32, 32⟩
abbrev MC_valid (i : Nat) : Fld := ⟨(R.MC i), 0, 1⟩
abbrev MC_members0 (i : Nat) : Fld := ⟨(R.MC i), 1, 8⟩
abbrev MC_members1 (i : Nat) : Fld := ⟨(R.MC i), 9, 8⟩
abbrev MC_rb (i : Nat) : Fld := ⟨(R.MC i), 32, 32⟩
abbrev GR_CTL_en : Fld := ⟨R.GR_CTL, 0, 1⟩
abbrev GR_CTL_wrap : Fld := ⟨R.GR_CTL, 1, 1⟩
abbrev GR_CTL_mirror : Fld := ⟨R.GR_CTL, 2, 1⟩
abbrev GR_CTL_sample : Fld := ⟨R.GR_CTL, 8, 5⟩
abbrev GR_FILTER_classes : Fld := ⟨R.GR_FILTER, 0, 4⟩
abbrev GR_FILTER_mc_only : Fld := ⟨R.GR_FILTER, 4, 1⟩
abbrev GR_FILTER_fence_only : Fld := ⟨R.GR_FILTER, 5, 1⟩
abbrev GR_FILTER_in : Fld := ⟨R.GR_FILTER, 8, 8⟩
abbrev GR_FILTER_out : Fld := ⟨R.GR_FILTER, 16, 8⟩
abbrev GR_MIRROR_dst : Fld := ⟨R.GR_MIRROR, 0, 24⟩
abbrev GR_HEAD_head : Fld := ⟨R.GR_HEAD, 0, 18⟩
abbrev GR_TAIL_tail : Fld := ⟨R.GR_TAIL, 0, 18⟩
abbrev GR_REC_COUNT_records : Fld := ⟨R.GR_REC_COUNT, 0, 64⟩
abbrev GR_LOST_COUNT_lost : Fld := ⟨R.GR_LOST_COUNT, 0, 64⟩
abbrev GR_STATUS_cfg_rej : Fld := ⟨R.GR_STATUS, 0, 1⟩
abbrev GR_STATUS_full : Fld := ⟨R.GR_STATUS, 1, 1⟩
abbrev GR_REJ_COUNT_rej : Fld := ⟨R.GR_REJ_COUNT, 0, 32⟩
abbrev GR_REJ_ADDR_addr : Fld := ⟨R.GR_REJ_ADDR, 0, 26⟩
abbrev GR_REJ_ACK_ack : Fld := ⟨R.GR_REJ_ACK, 0, 32⟩
abbrev HG_PORT_cal_bank (i : Nat) : Fld := ⟨(R.HG_PORT i), 0, 1⟩
abbrev HG_PSTATUS_active (i : Nat) : Fld := ⟨(R.HG_PSTATUS i), 0, 1⟩
abbrev HG_PSTATUS_demoted (i : Nat) : Fld := ⟨(R.HG_PSTATUS i), 1, 4⟩
abbrev HG_DRR_quantum (i : Nat) : Fld := ⟨(R.HG_DRR i), 0, 24⟩
abbrev HG_DRR_burst (i : Nat) : Fld := ⟨(R.HG_DRR i), 24, 24⟩
abbrev HG_CAL_slots (i j k : Nat) : Fld := ⟨(R.HG_CAL i j k), 0, 64⟩
abbrev SHP_D_rate (i : Nat) : Fld := ⟨(R.SHP_D i), 0, 16⟩
abbrev SHP_D_bucket (i : Nat) : Fld := ⟨(R.SHP_D i), 16, 24⟩
abbrev SHP_M_rate (i : Nat) : Fld := ⟨(R.SHP_M i), 0, 16⟩
abbrev SHP_M_bucket (i : Nat) : Fld := ⟨(R.SHP_M i), 16, 24⟩
abbrev MTR_RATE_cir (i j : Nat) : Fld := ⟨(R.MTR_RATE i j), 0, 16⟩
abbrev MTR_RATE_pir (i j : Nat) : Fld := ⟨(R.MTR_RATE i j), 16, 16⟩
abbrev MTR_RATE_mode (i j : Nat) : Fld := ⟨(R.MTR_RATE i j), 32, 2⟩
abbrev MTR_BKT_cbs (i j : Nat) : Fld := ⟨(R.MTR_BKT i j), 0, 24⟩
abbrev MTR_BKT_ebs_pbs (i j : Nat) : Fld := ⟨(R.MTR_BKT i j), 24, 24⟩
abbrev PC_IN_PKT_count (i j : Nat) : Fld := ⟨(R.PC_IN_PKT i j), 0, 64⟩
abbrev PC_IN_BYTE_count (i j : Nat) : Fld := ⟨(R.PC_IN_BYTE i j), 0, 64⟩
abbrev PC_OUT_PKT_count (i j : Nat) : Fld := ⟨(R.PC_OUT_PKT i j), 0, 64⟩
abbrev PC_OUT_BYTE_count (i j : Nat) : Fld := ⟨(R.PC_OUT_BYTE i j), 0, 64⟩
abbrev PC_STALL_turns (i j : Nat) : Fld := ⟨(R.PC_STALL i j), 0, 64⟩
abbrev PC_DEMOTE_count (i j : Nat) : Fld := ⟨(R.PC_DEMOTE i j), 0, 64⟩
abbrev MTR_GREEN_count (i j : Nat) : Fld := ⟨(R.MTR_GREEN i j), 0, 64⟩
abbrev MTR_YELLOW_count (i j : Nat) : Fld := ⟨(R.MTR_YELLOW i j), 0, 64⟩
abbrev MTR_RED_count (i j : Nat) : Fld := ⟨(R.MTR_RED i j), 0, 64⟩
abbrev HIST_DEPTH_count (i j k : Nat) : Fld := ⟨(R.HIST_DEPTH i j k), 0, 64⟩
abbrev HIST_DELAY_count (i j k : Nat) : Fld := ⟨(R.HIST_DELAY i j k), 0, 64⟩
abbrev HG_CTL_en : Fld := ⟨R.HG_CTL, 0, 1⟩
abbrev HG_STATUS_cfg_rej : Fld := ⟨R.HG_STATUS, 0, 1⟩
abbrev HG_STATUS_win_pending : Fld := ⟨R.HG_STATUS, 1, 1⟩
abbrev HG_REJ_COUNT_rej : Fld := ⟨R.HG_REJ_COUNT, 0, 32⟩
abbrev HG_REJ_ADDR_addr : Fld := ⟨R.HG_REJ_ADDR, 0, 26⟩
abbrev HG_REJ_ACK_ack : Fld := ⟨R.HG_REJ_ACK, 0, 32⟩
abbrev WIN_SIZE_c : Fld := ⟨R.WIN_SIZE, 0, 12⟩
abbrev WIN_SIZE_d : Fld := ⟨R.WIN_SIZE, 16, 12⟩
abbrev WIN_SIZE_m : Fld := ⟨R.WIN_SIZE, 32, 12⟩
abbrev DLV_CTL_bytes : Fld := ⟨R.DLV_CTL, 0, 16⟩
abbrev DLV_CTL_turns : Fld := ⟨R.DLV_CTL, 32, 16⟩
abbrev HG_SAMPLE_shift : Fld := ⟨R.HG_SAMPLE, 0, 5⟩
abbrev HG_STARVE_turns : Fld := ⟨R.HG_STARVE, 0, 32⟩
abbrev MARK_GAP_turns : Fld := ⟨R.MARK_GAP, 0, 32⟩
abbrev WIN_SEQ_seq : Fld := ⟨R.WIN_SEQ, 0, 32⟩
abbrev WIN_ACK_ack : Fld := ⟨R.WIN_ACK, 0, 32⟩
abbrev WIN_REC0_src : Fld := ⟨R.WIN_REC0, 0, 24⟩
abbrev WIN_REC0_class : Fld := ⟨R.WIN_REC0, 24, 2⟩
abbrev WIN_REC0_mc : Fld := ⟨R.WIN_REC0, 26, 1⟩
abbrev WIN_REC0_tree : Fld := ⟨R.WIN_REC0, 27, 1⟩
abbrev WIN_REC0_coll_id : Fld := ⟨R.WIN_REC0, 32, 32⟩
abbrev WIN_REC1_dst : Fld := ⟨R.WIN_REC1, 0, 24⟩
abbrev WIN_REC1_outstanding : Fld := ⟨R.WIN_REC1, 32, 32⟩
abbrev WIN_REC2_turn : Fld := ⟨R.WIN_REC2, 0, 64⟩
abbrev WIN_LOST_COUNT_lost : Fld := ⟨R.WIN_LOST_COUNT, 0, 32⟩
abbrev FLOW_USE_die0 : Fld := ⟨R.FLOW_USE, 0, 17⟩
abbrev FLOW_USE_die1 : Fld := ⟨R.FLOW_USE, 32, 17⟩
abbrev FLOW_WAIT_COUNT_waits : Fld := ⟨R.FLOW_WAIT_COUNT, 0, 64⟩
abbrev DLV_COUNT_sent : Fld := ⟨R.DLV_COUNT, 0, 32⟩
abbrev DLV_COUNT_received : Fld := ⟨R.DLV_COUNT, 32, 32⟩
abbrev DLV_BAD_COUNT_bad : Fld := ⟨R.DLV_BAD_COUNT, 0, 64⟩
abbrev WIN_HOLD_COUNT_holds : Fld := ⟨R.WIN_HOLD_COUNT, 0, 64⟩
abbrev STARVE_COUNT_promoted : Fld := ⟨R.STARVE_COUNT, 0, 64⟩
abbrev PT_CTL_en (i : Nat) : Fld := ⟨(R.PT_CTL i), 0, 1⟩
abbrev PT_CTL_mode (i : Nat) : Fld := ⟨(R.PT_CTL i), 1, 3⟩
abbrev PT_CTL_spare_ok (i : Nat) : Fld := ⟨(R.PT_CTL i), 4, 1⟩
abbrev PT_STATUS_up (i : Nat) : Fld := ⟨(R.PT_STATUS i), 0, 1⟩
abbrev PT_STATUS_entry (i : Nat) : Fld := ⟨(R.PT_STATUS i), 1, 5⟩
abbrev PT_STATUS_action (i : Nat) : Fld := ⟨(R.PT_STATUS i), 6, 4⟩
abbrev PT_STATUS_subst (i : Nat) : Fld := ⟨(R.PT_STATUS i), 10, 4⟩
abbrev PT_STATUS_keyed (i : Nat) : Fld := ⟨(R.PT_STATUS i), 14, 1⟩
abbrev PT_LANEMAP_phys0 (i : Nat) : Fld := ⟨(R.PT_LANEMAP i), 0, 10⟩
abbrev PT_LANEMAP_phys1 (i : Nat) : Fld := ⟨(R.PT_LANEMAP i), 10, 10⟩
abbrev PT_LANEMAP_phys2 (i : Nat) : Fld := ⟨(R.PT_LANEMAP i), 20, 10⟩
abbrev PT_LANEMAP_phys3 (i : Nat) : Fld := ⟨(R.PT_LANEMAP i), 30, 10⟩
abbrev PT_CRED_s (i : Nat) : Fld := ⟨(R.PT_CRED i), 0, 6⟩
abbrev PT_CRED_c (i : Nat) : Fld := ⟨(R.PT_CRED i), 8, 6⟩
abbrev PT_CRED_d (i : Nat) : Fld := ⟨(R.PT_CRED i), 16, 6⟩
abbrev PT_CRED_m (i : Nat) : Fld := ⟨(R.PT_CRED i), 24, 6⟩
abbrev PT_RTO_ns (i : Nat) : Fld := ⟨(R.PT_RTO i), 0, 16⟩
abbrev PT_REPLAY_COUNT_replays (i : Nat) : Fld := ⟨(R.PT_REPLAY_COUNT i), 0, 32⟩
abbrev PT_REPLAY_COUNT_flits (i : Nat) : Fld := ⟨(R.PT_REPLAY_COUNT i), 32, 32⟩
abbrev PT_ERR_COUNT_crc (i : Nat) : Fld := ⟨(R.PT_ERR_COUNT i), 0, 32⟩
abbrev PT_ERR_COUNT_tag (i : Nat) : Fld := ⟨(R.PT_ERR_COUNT i), 32, 32⟩
abbrev PT_FEC_COUNT_corrected (i : Nat) : Fld := ⟨(R.PT_FEC_COUNT i), 0, 32⟩
abbrev PT_FEC_COUNT_uncorr (i : Nat) : Fld := ⟨(R.PT_FEC_COUNT i), 32, 32⟩
abbrev PT_TRAIN_COUNT_trains (i : Nat) : Fld := ⟨(R.PT_TRAIN_COUNT i), 0, 16⟩
abbrev PT_TRAIN_COUNT_exits (i : Nat) : Fld := ⟨(R.PT_TRAIN_COUNT i), 16, 16⟩
abbrev PT_TRAIN_COUNT_holds (i : Nat) : Fld := ⟨(R.PT_TRAIN_COUNT i), 32, 16⟩
abbrev PT_TRAIN_COUNT_substs (i : Nat) : Fld := ⟨(R.PT_TRAIN_COUNT i), 48, 16⟩
abbrev PT_KEY_epoch (i : Nat) : Fld := ⟨(R.PT_KEY i), 0, 32⟩
abbrev PT_KEY_rekeys (i : Nat) : Fld := ⟨(R.PT_KEY i), 32, 32⟩
abbrev PT_PFC_pcp_s (i : Nat) : Fld := ⟨(R.PT_PFC i), 0, 3⟩
abbrev PT_PFC_pcp_c (i : Nat) : Fld := ⟨(R.PT_PFC i), 4, 3⟩
abbrev PT_PFC_pcp_d (i : Nat) : Fld := ⟨(R.PT_PFC i), 8, 3⟩
abbrev PT_PFC_pcp_m (i : Nat) : Fld := ⟨(R.PT_PFC i), 12, 3⟩
abbrev PT_PFC_dscp_s (i : Nat) : Fld := ⟨(R.PT_PFC i), 16, 6⟩
abbrev PT_PFC_dscp_c (i : Nat) : Fld := ⟨(R.PT_PFC i), 24, 6⟩
abbrev PT_PFC_dscp_d (i : Nat) : Fld := ⟨(R.PT_PFC i), 32, 6⟩
abbrev PT_PFC_dscp_m (i : Nat) : Fld := ⟨(R.PT_PFC i), 40, 6⟩
abbrev PT_PFC_COUNT_sent (i : Nat) : Fld := ⟨(R.PT_PFC_COUNT i), 0, 32⟩
abbrev PT_PFC_COUNT_received (i : Nat) : Fld := ⟨(R.PT_PFC_COUNT i), 32, 32⟩
abbrev GOE_CTL_udp (i : Nat) : Fld := ⟨(R.GOE_CTL i), 0, 16⟩
abbrev GOE_CTL_hops (i : Nat) : Fld := ⟨(R.GOE_CTL i), 16, 8⟩
abbrev GOE_CTL_rto (i : Nat) : Fld := ⟨(R.GOE_CTL i), 24, 16⟩
abbrev GOE_MAC_mac (i : Nat) : Fld := ⟨(R.GOE_MAC i), 0, 48⟩
abbrev GOE_PEER_MAC_mac (i : Nat) : Fld := ⟨(R.GOE_PEER_MAC i), 0, 48⟩
abbrev GOE_LOCAL0_addr (i : Nat) : Fld := ⟨(R.GOE_LOCAL0 i), 0, 64⟩
abbrev GOE_LOCAL1_addr (i : Nat) : Fld := ⟨(R.GOE_LOCAL1 i), 0, 64⟩
abbrev GOE_PEER0_addr (i : Nat) : Fld := ⟨(R.GOE_PEER0 i), 0, 64⟩
abbrev GOE_PEER1_addr (i : Nat) : Fld := ⟨(R.GOE_PEER1 i), 0, 64⟩
abbrev GOE_COUNT_bad (i : Nat) : Fld := ⟨(R.GOE_COUNT i), 0, 32⟩
abbrev GOE_COUNT_other (i : Nat) : Fld := ⟨(R.GOE_COUNT i), 32, 32⟩
abbrev PT_GCTL_en : Fld := ⟨R.PT_GCTL, 0, 1⟩
abbrev PT_GCTL_start_g : Fld := ⟨R.PT_GCTL, 1, 5⟩
abbrev PT_GCTL_start_e : Fld := ⟨R.PT_GCTL, 6, 5⟩
abbrev PT_GSTATUS_cfg_rej : Fld := ⟨R.PT_GSTATUS, 0, 1⟩
abbrev PT_REJ_COUNT_rej : Fld := ⟨R.PT_REJ_COUNT, 0, 32⟩
abbrev PT_REJ_ADDR_addr : Fld := ⟨R.PT_REJ_ADDR, 0, 26⟩
abbrev PT_REJ_ACK_ack : Fld := ⟨R.PT_REJ_ACK, 0, 32⟩
abbrev SPARE_port (i j : Nat) : Fld := ⟨(R.SPARE i j), 0, 8⟩
abbrev SPARE_in_use (i j : Nat) : Fld := ⟨(R.SPARE i j), 8, 1⟩
abbrev SPARE_lane (i j : Nat) : Fld := ⟨(R.SPARE i j), 9, 2⟩
abbrev PT_TRAIN_entry (i : Nat) : Fld := ⟨(R.PT_TRAIN i), 0, 64⟩
abbrev MEM_CTL_en : Fld := ⟨R.MEM_CTL, 0, 1⟩
abbrev MEM_CTL_scrub : Fld := ⟨R.MEM_CTL, 16, 16⟩
abbrev MEM_STATUS_cfg_rej : Fld := ⟨R.MEM_STATUS, 0, 1⟩
abbrev MEM_STATUS_gix_pending : Fld := ⟨R.MEM_STATUS, 1, 1⟩
abbrev MEM_STATUS_cfg_bad : Fld := ⟨R.MEM_STATUS, 2, 1⟩
abbrev MEM_STATUS_degraded : Fld := ⟨R.MEM_STATUS, 3, 1⟩
abbrev MEM_STATUS_migrating : Fld := ⟨R.MEM_STATUS, 4, 1⟩
abbrev MEM_STATUS_paused : Fld := ⟨R.MEM_STATUS, 5, 8⟩
abbrev MEM_REJ_COUNT_rej : Fld := ⟨R.MEM_REJ_COUNT, 0, 32⟩
abbrev MEM_REJ_ADDR_addr : Fld := ⟨R.MEM_REJ_ADDR, 0, 26⟩
abbrev MEM_REJ_ACK_ack : Fld := ⟨R.MEM_REJ_ACK, 0, 32⟩
abbrev MEM_RETAIN_base : Fld := ⟨R.MEM_RETAIN, 0, 9⟩
abbrev MEM_RETAIN_size : Fld := ⟨R.MEM_RETAIN, 16, 10⟩
abbrev ECC_COUNT_corr (i : Nat) : Fld := ⟨(R.ECC_COUNT i), 0, 32⟩
abbrev ECC_COUNT_uncorr (i : Nat) : Fld := ⟨(R.ECC_COUNT i), 32, 32⟩
abbrev RSV_MODE_scratch (i : Nat) : Fld := ⟨(R.RSV_MODE i), 0, 64⟩
abbrev HBM_STACK_temp (i : Nat) : Fld := ⟨(R.HBM_STACK i), 0, 16⟩
abbrev HBM_STACK_step (i : Nat) : Fld := ⟨(R.HBM_STACK i), 16, 2⟩
abbrev HBM_STACK_entries (i : Nat) : Fld := ⟨(R.HBM_STACK i), 32, 16⟩
abbrev HBM_STACK_pauses (i : Nat) : Fld := ⟨(R.HBM_STACK i), 48, 16⟩
abbrev LPD_RT_BASE_turn : Fld := ⟨R.LPD_RT_BASE, 0, 64⟩
abbrev LPD_RT_PERIOD_turns : Fld := ⟨R.LPD_RT_PERIOD, 0, 32⟩
abbrev LPD_RT_CTL_interval : Fld := ⟨R.LPD_RT_CTL, 0, 16⟩
abbrev LPD_FAIL_uncorr : Fld := ⟨R.LPD_FAIL, 0, 16⟩
abbrev LPD_FAIL_corr : Fld := ⟨R.LPD_FAIL, 16, 32⟩
abbrev LPD_MIG_rate : Fld := ⟨R.LPD_MIG, 0, 8⟩
abbrev LPD_MIG_chan : Fld := ⟨R.LPD_MIG, 8, 7⟩
abbrev LPD_MIG_ptr : Fld := ⟨R.LPD_MIG, 16, 24⟩
abbrev LPD_SPARE_free : Fld := ⟨R.LPD_SPARE, 0, 8⟩
abbrev LPD_CH_phys (i : Nat) : Fld := ⟨(R.LPD_CH i), 0, 8⟩
abbrev LPD_CH_state (i : Nat) : Fld := ⟨(R.LPD_CH i), 8, 2⟩
abbrev LPD_CH_drift (i : Nat) : Fld := ⟨(R.LPD_CH i), 10, 1⟩
abbrev LPD_CH_retrains (i : Nat) : Fld := ⟨(R.LPD_CH i), 16, 16⟩
abbrev PRD_CTL_threshold : Fld := ⟨R.PRD_CTL, 0, 16⟩
abbrev PRD_CTL_quota : Fld := ⟨R.PRD_CTL, 16, 12⟩
abbrev PRD_CTL_period : Fld := ⟨R.PRD_CTL, 32, 32⟩
abbrev PRD_MISS_COUNT_miss : Fld := ⟨R.PRD_MISS_COUNT, 0, 64⟩
abbrev PRD_WASTE_COUNT_waste : Fld := ⟨R.PRD_WASTE_COUNT, 0, 64⟩
abbrev TRN_COUNT_requests : Fld := ⟨R.TRN_COUNT, 0, 64⟩
abbrev GIX_SEQ_seq : Fld := ⟨R.GIX_SEQ, 0, 32⟩
abbrev GIX_ACK_ack : Fld := ⟨R.GIX_ACK, 0, 32⟩
abbrev GIX_REC0_collective : Fld := ⟨R.GIX_REC0, 0, 32⟩
abbrev GIX_REC0_chunk : Fld := ⟨R.GIX_REC0, 32, 32⟩
abbrev GIX_REC1_index : Fld := ⟨R.GIX_REC1, 0, 32⟩
abbrev GIX_REC1_engine : Fld := ⟨R.GIX_REC1, 32, 7⟩
abbrev GIX_REC1_lane : Fld := ⟨R.GIX_REC1, 39, 7⟩
abbrev GIX_REC1_handle : Fld := ⟨R.GIX_REC1, 46, 4⟩
abbrev GIX_REC1_op : Fld := ⟨R.GIX_REC1, 50, 2⟩
abbrev GIX_REC1_poisoned : Fld := ⟨R.GIX_REC1, 52, 1⟩
abbrev GIX_REC2_turn : Fld := ⟨R.GIX_REC2, 0, 64⟩
abbrev GIX_LOST_COUNT_lost : Fld := ⟨R.GIX_LOST_COUNT, 0, 32⟩
abbrev GIX_COUNT_count : Fld := ⟨R.GIX_COUNT, 0, 64⟩
abbrev FLT_CTL_en : Fld := ⟨R.FLT_CTL, 0, 1⟩
abbrev FLT_STATUS_cfg_rej : Fld := ⟨R.FLT_STATUS, 0, 1⟩
abbrev FLT_STATUS_cfg_bad : Fld := ⟨R.FLT_STATUS, 1, 1⟩
abbrev FLT_STATUS_slost_pending : Fld := ⟨R.FLT_STATUS, 2, 1⟩
abbrev FLT_STATUS_fenced : Fld := ⟨R.FLT_STATUS, 3, 1⟩
abbrev FLT_STATUS_resilver : Fld := ⟨R.FLT_STATUS, 4, 1⟩
abbrev FLT_REJ_COUNT_rej : Fld := ⟨R.FLT_REJ_COUNT, 0, 32⟩
abbrev FLT_REJ_ADDR_addr : Fld := ⟨R.FLT_REJ_ADDR, 0, 26⟩
abbrev FLT_REJ_ACK_ack : Fld := ⟨R.FLT_REJ_ACK, 0, 32⟩
abbrev WM_CTL_role : Fld := ⟨R.WM_CTL, 0, 2⟩
abbrev WM_CTL_wm : Fld := ⟨R.WM_CTL, 16, 16⟩
abbrev WM_CTL_standby : Fld := ⟨R.WM_CTL, 32, 16⟩
abbrev WM_CTL_hb : Fld := ⟨R.WM_CTL, 48, 16⟩
abbrev LEV_CTL_mode : Fld := ⟨R.LEV_CTL, 0, 1⟩
abbrev LEV_CTL_hold : Fld := ⟨R.LEV_CTL, 8, 16⟩
abbrev LEV_CTL_probe : Fld := ⟨R.LEV_CTL, 24, 16⟩
abbrev LEV_CTL_round : Fld := ⟨R.LEV_CTL, 40, 16⟩
abbrev LEV_CTL2_apply : Fld := ⟨R.LEV_CTL2, 0, 16⟩
abbrev LEV_STATUS_live : Fld := ⟨R.LEV_STATUS, 0, 7⟩
abbrev LEV_STATUS_isolated : Fld := ⟨R.LEV_STATUS, 7, 1⟩
abbrev LEV_STATUS_pending : Fld := ⟨R.LEV_STATUS, 8, 5⟩
abbrev LEV_STATUS_digest : Fld := ⟨R.LEV_STATUS, 32, 32⟩
abbrev LEV_DEC_COUNT_applied : Fld := ⟨R.LEV_DEC_COUNT, 0, 32⟩
abbrev LEV_DEC_COUNT_lapsed : Fld := ⟨R.LEV_DEC_COUNT, 32, 32⟩
abbrev LEV_LATE_COUNT_late : Fld := ⟨R.LEV_LATE_COUNT, 0, 32⟩
abbrev FLT_POLICY_propose : Fld := ⟨R.FLT_POLICY, 1, 16⟩
abbrev LEV_SELF_self : Fld := ⟨R.LEV_SELF, 0, 1⟩
abbrev FLT_REPORT_COUNT_sent : Fld := ⟨R.FLT_REPORT_COUNT, 0, 32⟩
abbrev FLT_REPORT_COUNT_folded : Fld := ⟨R.FLT_REPORT_COUNT, 32, 32⟩
abbrev FM_CTL_en : Fld := ⟨R.FM_CTL, 0, 1⟩
abbrev FM_CTL_udp : Fld := ⟨R.FM_CTL, 16, 16⟩
abbrev FM_ADDR0_addr : Fld := ⟨R.FM_ADDR0, 0, 64⟩
abbrev FM_ADDR1_addr : Fld := ⟨R.FM_ADDR1, 0, 64⟩
abbrev FM_RESEND_COUNT_resends : Fld := ⟨R.FM_RESEND_COUNT, 0, 32⟩
abbrev ORDER_COUNT_applied : Fld := ⟨R.ORDER_COUNT, 0, 32⟩
abbrev ORDER_COUNT_refused : Fld := ⟨R.ORDER_COUNT, 32, 16⟩
abbrev ORDER_COUNT_foreign : Fld := ⟨R.ORDER_COUNT, 48, 16⟩
abbrev LEV_MEM_module (i : Nat) : Fld := ⟨(R.LEV_MEM i), 0, 16⟩
abbrev LEV_MEM_valid (i : Nat) : Fld := ⟨(R.LEV_MEM i), 16, 1⟩
abbrev SLOST_SEQ_seq : Fld := ⟨R.SLOST_SEQ, 0, 32⟩
abbrev SLOST_ACK_ack : Fld := ⟨R.SLOST_ACK, 0, 32⟩
abbrev SLOST_REC0_shard : Fld := ⟨R.SLOST_REC0, 0, 10⟩
abbrev SLOST_REC0_partner : Fld := ⟨R.SLOST_REC0, 16, 16⟩
abbrev SLOST_REC0_cause : Fld := ⟨R.SLOST_REC0, 32, 8⟩
abbrev SLOST_REC1_step : Fld := ⟨R.SLOST_REC1, 0, 64⟩
abbrev SLOST_REC2_turn : Fld := ⟨R.SLOST_REC2, 0, 64⟩
abbrev SLOST_LOST_COUNT_lost : Fld := ⟨R.SLOST_LOST_COUNT, 0, 32⟩
abbrev RSL_CTL_shard : Fld := ⟨R.RSL_CTL, 0, 10⟩
abbrev RSL_CTL_go : Fld := ⟨R.RSL_CTL, 10, 1⟩
abbrev RSL_CTL_rate : Fld := ⟨R.RSL_CTL, 16, 8⟩
abbrev RSL_COUNT_done : Fld := ⟨R.RSL_COUNT, 0, 32⟩
abbrev RSL_COUNT_failed : Fld := ⟨R.RSL_COUNT, 32, 32⟩
abbrev STG_CTL_window : Fld := ⟨R.STG_CTL, 0, 16⟩
abbrev STG_CTL_count : Fld := ⟨R.STG_CTL, 16, 16⟩
abbrev STG_CTL_bin : Fld := ⟨R.STG_CTL, 32, 4⟩
abbrev PTN_CTL_wait : Fld := ⟨R.PTN_CTL, 0, 32⟩
abbrev PTN_COUNT_matched : Fld := ⟨R.PTN_COUNT, 0, 32⟩
abbrev PTN_COUNT_bad : Fld := ⟨R.PTN_COUNT, 32, 32⟩
abbrev DOM_module (i j : Nat) : Fld := ⟨(R.DOM i j), 0, 16⟩
abbrev DOM_valid (i j : Nat) : Fld := ⟨(R.DOM i j), 16, 1⟩
abbrev PTN_module (i j : Nat) : Fld := ⟨(R.PTN i j), 0, 16⟩
abbrev PTN_pshard (i j : Nat) : Fld := ⟨(R.PTN i j), 16, 10⟩
abbrev PTN_valid (i j : Nat) : Fld := ⟨(R.PTN i j), 31, 1⟩
abbrev STG_HIST_lags (i j k : Nat) : Fld := ⟨(R.STG_HIST i j k), 0, 64⟩
abbrev SEC_STATUS_lifecycle : Fld := ⟨R.SEC_STATUS, 0, 2⟩
abbrev SEC_STATUS_debug : Fld := ⟨R.SEC_STATUS, 2, 2⟩
abbrev SEC_STATUS_boot_slot : Fld := ⟨R.SEC_STATUS, 4, 1⟩
abbrev SEC_STATUS_owner_set : Fld := ⟨R.SEC_STATUS, 5, 1⟩
abbrev SEC_STATUS_sig_pending : Fld := ⟨R.SEC_STATUS, 6, 1⟩
abbrev SEC_STATUS_boot_fail : Fld := ⟨R.SEC_STATUS, 7, 1⟩
abbrev SEC_ID0_dev : Fld := ⟨R.SEC_ID0, 0, 64⟩
abbrev SEC_ID1_dev : Fld := ⟨R.SEC_ID1, 0, 64⟩
abbrev FW_DIGEST_digest (i : Nat) : Fld := ⟨(R.FW_DIGEST i), 0, 64⟩
abbrev FW_SVN_fuse : Fld := ⟨R.FW_SVN, 0, 32⟩
abbrev FW_SVN_running : Fld := ⟨R.FW_SVN, 32, 32⟩
abbrev MBX_CMD_op : Fld := ⟨R.MBX_CMD, 0, 8⟩
abbrev MBX_CMD_length : Fld := ⟨R.MBX_CMD, 16, 24⟩
abbrev MBX_ARG_offset : Fld := ⟨R.MBX_ARG, 0, 64⟩
abbrev MBX_STATUS_busy : Fld := ⟨R.MBX_STATUS, 0, 1⟩
abbrev MBX_STATUS_result : Fld := ⟨R.MBX_STATUS, 8, 8⟩
abbrev MBX_STATUS_reply : Fld := ⟨R.MBX_STATUS, 32, 32⟩
abbrev DBG_NONCE0_nonce : Fld := ⟨R.DBG_NONCE0, 0, 64⟩
abbrev DBG_NONCE1_nonce : Fld := ⟨R.DBG_NONCE1, 0, 64⟩
abbrev SIG_SEQ_seq : Fld := ⟨R.SIG_SEQ, 0, 32⟩
abbrev SIG_ACK_ack : Fld := ⟨R.SIG_ACK, 0, 32⟩
abbrev SIG_REC0_cause : Fld := ⟨R.SIG_REC0, 0, 8⟩
abbrev SIG_REC0_kind : Fld := ⟨R.SIG_REC0, 8, 8⟩
abbrev SIG_REC0_key : Fld := ⟨R.SIG_REC0, 16, 32⟩
abbrev SIG_REC0_source : Fld := ⟨R.SIG_REC0, 48, 8⟩
abbrev SIG_REC1_request : Fld := ⟨R.SIG_REC1, 0, 32⟩
abbrev SIG_REC1_port : Fld := ⟨R.SIG_REC1, 32, 8⟩
abbrev SIG_REC2_turn : Fld := ⟨R.SIG_REC2, 0, 64⟩
abbrev SIG_LOST_COUNT_lost : Fld := ⟨R.SIG_LOST_COUNT, 0, 32⟩
abbrev SIG_COUNT_passed : Fld := ⟨R.SIG_COUNT, 0, 32⟩
abbrev SIG_COUNT_failed : Fld := ⟨R.SIG_COUNT, 32, 32⟩
abbrev SEC_DW_DENY_denied : Fld := ⟨R.SEC_DW_DENY, 0, 64⟩
abbrev MBX_BUSY_COUNT_busy : Fld := ⟨R.MBX_BUSY_COUNT, 0, 32⟩
abbrev TEN_perm (i : Nat) : Fld := ⟨(R.TEN i), 0, 8⟩
abbrev TEN_enrolled (i : Nat) : Fld := ⟨(R.TEN i), 8, 1⟩
abbrev TEN_nkeys (i : Nat) : Fld := ⟨(R.TEN i), 9, 3⟩
abbrev TEN_tenant (i : Nat) : Fld := ⟨(R.TEN i), 32, 32⟩
abbrev PWR_CTL_profile : Fld := ⟨R.PWR_CTL, 0, 3⟩
abbrev PWR_STATUS_ready : Fld := ⟨R.PWR_STATUS, 0, 1⟩
abbrev PWR_STATUS_profile : Fld := ⟨R.PWR_STATUS, 1, 3⟩
abbrev PWR_STATUS_brst_busy : Fld := ⟨R.PWR_STATUS, 4, 1⟩
abbrev PWR_STATUS_cfg_rej : Fld := ⟨R.PWR_STATUS, 5, 1⟩
abbrev PWR_STATUS_vin_low : Fld := ⟨R.PWR_STATUS, 6, 1⟩
abbrev PWR_STATUS_icap : Fld := ⟨R.PWR_STATUS, 7, 1⟩
abbrev PWR_STATUS_neighbour : Fld := ⟨R.PWR_STATUS, 8, 1⟩
abbrev PWR_STATUS_paused : Fld := ⟨R.PWR_STATUS, 9, 1⟩
abbrev PWR_REJ_COUNT_rej : Fld := ⟨R.PWR_REJ_COUNT, 0, 32⟩
abbrev PWR_REJ_ADDR_addr : Fld := ⟨R.PWR_REJ_ADDR, 0, 26⟩
abbrev PWR_REJ_ACK_ack : Fld := ⟨R.PWR_REJ_ACK, 0, 32⟩
abbrev PWR_IN_mv : Fld := ⟨R.PWR_IN, 0, 16⟩
abbrev PWR_IN_ca : Fld := ⟨R.PWR_IN, 16, 16⟩
abbrev PWR_IN_w : Fld := ⟨R.PWR_IN, 32, 16⟩
abbrev PWR_BRST_blocks : Fld := ⟨R.PWR_BRST, 0, 11⟩
abbrev PWR_RST_key : Fld := ⟨R.PWR_RST, 0, 32⟩
abbrev COOL_inlet : Fld := ⟨R.COOL, 0, 16⟩
abbrev COOL_outlet : Fld := ⟨R.COOL, 16, 16⟩
abbrev PROF_DIGEST_digest (i : Nat) : Fld := ⟨(R.PROF_DIGEST i), 0, 64⟩
abbrev ISL_temp (i : Nat) : Fld := ⟨(R.ISL i), 0, 16⟩
abbrev ISL_mv (i : Nat) : Fld := ⟨(R.ISL i), 16, 12⟩
abbrev ISL_mhz (i : Nat) : Fld := ⟨(R.ISL i), 28, 16⟩
abbrev ISL_changes (i : Nat) : Fld := ⟨(R.ISL i), 44, 12⟩
abbrev ISL_pauses (i : Nat) : Fld := ⟨(R.ISL i), 56, 8⟩
abbrev DBG_STATUS_cfg_rej : Fld := ⟨R.DBG_STATUS, 0, 1⟩
abbrev DBG_STATUS_tmux_on : Fld := ⟨R.DBG_STATUS, 1, 1⟩
abbrev DBG_REJ_COUNT_rej : Fld := ⟨R.DBG_REJ_COUNT, 0, 32⟩
abbrev DBG_REJ_ADDR_addr : Fld := ⟨R.DBG_REJ_ADDR, 0, 26⟩
abbrev DBG_REJ_ACK_ack : Fld := ⟨R.DBG_REJ_ACK, 0, 32⟩
abbrev GPIO_DIR_dir : Fld := ⟨R.GPIO_DIR, 0, 16⟩
abbrev GPIO_OUT_out : Fld := ⟨R.GPIO_OUT, 0, 16⟩
abbrev GPIO_IN_in : Fld := ⟨R.GPIO_IN, 0, 16⟩
abbrev TMUX_CTL_en : Fld := ⟨R.TMUX_CTL, 0, 1⟩
abbrev TMUX_CTL_pins : Fld := ⟨R.TMUX_CTL, 16, 16⟩
abbrev TMUX_SEL_sel0 (i : Nat) : Fld := ⟨(R.TMUX_SEL i), 0, 16⟩
abbrev TMUX_SEL_sel1 (i : Nat) : Fld := ⟨(R.TMUX_SEL i), 16, 16⟩
abbrev TMUX_SEL_sel2 (i : Nat) : Fld := ⟨(R.TMUX_SEL i), 32, 16⟩
abbrev TMUX_SEL_sel3 (i : Nat) : Fld := ⟨(R.TMUX_SEL i), 48, 16⟩
abbrev AMON_SEL_amon0 : Fld := ⟨R.AMON_SEL, 0, 8⟩
abbrev AMON_SEL_amon1 : Fld := ⟨R.AMON_SEL, 8, 8⟩
abbrev ALERT_EN_en : Fld := ⟨R.ALERT_EN, 0, 25⟩
abbrev ALERT_STATUS_cause : Fld := ⟨R.ALERT_STATUS, 0, 25⟩
abbrev ALERT_STATUS_boot_fail : Fld := ⟨R.ALERT_STATUS, 32, 1⟩
abbrev ALERT_STATUS_flog_fail : Fld := ⟨R.ALERT_STATUS, 33, 1⟩
abbrev ALERT_STATUS_alert : Fld := ⟨R.ALERT_STATUS, 34, 1⟩
abbrev JTAG_ID_idcode : Fld := ⟨R.JTAG_ID, 0, 32⟩
abbrev FLOG_CTL_src : Fld := ⟨R.FLOG_CTL, 0, 1⟩
abbrev FLOG_CTL_export : Fld := ⟨R.FLOG_CTL, 1, 1⟩
abbrev FLOG_STATUS_export_busy : Fld := ⟨R.FLOG_STATUS, 0, 1⟩
abbrev FLOG_STATUS_export_ready : Fld := ⟨R.FLOG_STATUS, 1, 1⟩
abbrev FLOG_STATUS_flog_fail : Fld := ⟨R.FLOG_STATUS, 2, 1⟩
abbrev FLOG_STATUS_pending : Fld := ⟨R.FLOG_STATUS, 8, 9⟩
abbrev FLOG_STATUS_dropped : Fld := ⟨R.FLOG_STATUS, 32, 32⟩
abbrev FLOG_ADDR_addr : Fld := ⟨R.FLOG_ADDR, 3, 18⟩
abbrev FLOG_DATA_data : Fld := ⟨R.FLOG_DATA, 0, 64⟩
abbrev FLOG_NONCE_nonce (i : Nat) : Fld := ⟨(R.FLOG_NONCE i), 0, 64⟩
abbrev FLOG_PTIME_seconds : Fld := ⟨R.FLOG_PTIME, 0, 64⟩
abbrev FLOG_WRITE_COUNT_summaries : Fld := ⟨R.FLOG_WRITE_COUNT, 0, 32⟩
abbrev FLOG_WRITE_COUNT_entries : Fld := ⟨R.FLOG_WRITE_COUNT, 32, 32⟩

end F

/-- Register families of the Gctl block, part 1. -/
def famsGctl1 : List RegFam :=
  [
    /- GCTL_ID -/ ⟨0x0, [], [⟨0, 16, .ro, 0x4810⟩, ⟨16, 8, .ro, 0⟩, ⟨24, 8, .ro, 1⟩, ⟨32, 16, .ro, 0⟩]⟩,
    /- GCTL -/ ⟨0x8, [], [⟨0, 1, .rw, 0⟩]⟩,
    /- GCTL_BLK -/ ⟨0x10, [], [⟨0, 14, .st, 0⟩]⟩,
    /- GCTL_SCRATCH -/ ⟨0x18, [], [⟨0, 64, .rw, 0⟩]⟩]

/-- Register families of the Gctl block. -/
def famsGctl : List RegFam := famsGctl1

/-- Register families of the Host block, part 1. -/
def famsHost1 : List RegFam :=
  [
    /- HOST_BAD_ACCESS -/ ⟨0x100000, [], [⟨0, 32, .cnt, 0⟩, ⟨32, 32, .cnt, 0⟩]⟩,
    /- DW_CTRL -/ ⟨0x100008, [], [⟨0, 3, .rw, 0⟩]⟩,
    /- DW_ADDR -/ ⟨0x100010, [], [⟨3, 61, .rw, 0⟩]⟩,
    /- DW_DATA -/ ⟨0x100018, [], [⟨0, 64, .rw, 0⟩]⟩,
    /- DW_STATUS -/ ⟨0x100020, [], [⟨0, 1, .st, 0⟩, ⟨8, 3, .ro, 0⟩, ⟨12, 4, .ro, 0⟩]⟩,
    /- DW_ERR_COUNT -/ ⟨0x100028, [], [⟨0, 64, .cnt, 0⟩]⟩,
    /- DW_ERR_ADDR -/ ⟨0x100030, [], [⟨0, 64, .ro, 0⟩]⟩,
    /- DW_LOCK_COUNT -/ ⟨0x100038, [], [⟨0, 64, .cnt, 0⟩]⟩,
    /- STG_MARK -/ ⟨0x100100, [(0x8, 16)], [⟨0, 64, .ro, 0⟩]⟩,
    /- INT_STATUS -/ ⟨0x10c000, [], [⟨0, 25, .st, 0⟩]⟩,
    /- INT_EN -/ ⟨0x10c008, [], [⟨0, 25, .rw, 0⟩]⟩,
    /- INT_PEND -/ ⟨0x10c010, [], [⟨0, 25, .st, 0⟩]⟩,
    /- INT_EOI -/ ⟨0x10c018, [], [⟨0, 6, .wo, 0⟩]⟩,
    /- INT_MAP -/ ⟨0x10c100, [(0x8, 64)], [⟨0, 6, .rw, 0⟩]⟩,
    /- INT_EVT -/ ⟨0x10c400, [(0x10, 32)], [⟨0, 32, .cnt, 0⟩]⟩,
    /- INT_EVT_ACK -/ ⟨0x10c408, [(0x10, 32)], [⟨0, 32, .rw, 0⟩]⟩]

/-- Register families of the Host block, part 2. -/
def famsHost2 : List RegFam :=
  [
    /- INT_VEC -/ ⟨0x10c800, [(0x8, 64)], [⟨0, 16, .rw, 0⟩, ⟨32, 32, .cnt, 0⟩]⟩]

/-- Register families of the Host block. -/
def famsHost : List RegFam := famsHost1 ++ famsHost2

/-- Register families of the Cmd block, part 1. -/
def famsCmd1 : List RegFam :=
  [
    /- CMD_CTL -/ ⟨0x200000, [], [⟨0, 1, .rw, 0⟩]⟩,
    /- CMD_STATUS -/ ⟨0x200008, [], [⟨0, 1, .st, 0⟩, ⟨1, 1, .st, 0⟩]⟩,
    /- CMD_REJ_COUNT -/ ⟨0x200010, [], [⟨0, 32, .cnt, 0⟩]⟩,
    /- CMD_REJ_ADDR -/ ⟨0x200018, [], [⟨0, 26, .ro, 0⟩]⟩,
    /- CMD_REJ_ACK -/ ⟨0x200020, [], [⟨0, 32, .rw, 0⟩]⟩,
    /- CMD_ACCEPT_COUNT -/ ⟨0x200028, [], [⟨0, 64, .cnt, 0⟩]⟩,
    /- CMD_REJECT_COUNT -/ ⟨0x200030, [], [⟨0, 64, .cnt, 0⟩]⟩,
    /- ACK_TIMEOUT -/ ⟨0x200038, [], [⟨0, 20, .rwl, 0x64⟩]⟩,
    /- QUORUM_WAIT -/ ⟨0x200040, [], [⟨0, 32, .rwl, 0x7d0⟩]⟩,
    /- CMD_FOREIGN_COUNT -/ ⟨0x200048, [], [⟨0, 64, .cnt, 0⟩]⟩,
    /- REVOKE_COUNT -/ ⟨0x200050, [], [⟨0, 32, .cnt, 0⟩, ⟨32, 32, .cnt, 0⟩]⟩,
    /- REISSUE_COUNT -/ ⟨0x200058, [], [⟨0, 32, .cnt, 0⟩, ⟨32, 32, .cnt, 0⟩]⟩,
    /- CTX_FREE -/ ⟨0x200060, [], [⟨0, 13, .ro, 0x1000⟩]⟩,
    /- MBR_SEQ -/ ⟨0x204000, [], [⟨0, 32, .cnt, 0⟩]⟩,
    /- MBR_ACK -/ ⟨0x204008, [], [⟨0, 32, .rw, 0⟩]⟩,
    /- MBR_REC0 -/ ⟨0x204010, [], [⟨0, 32, .ro, 0⟩, ⟨32, 32, .ro, 0⟩]⟩]

/-- Register families of the Cmd block, part 2. -/
def famsCmd2 : List RegFam :=
  [
    /- MBR_REC1 -/ ⟨0x204018, [], [⟨0, 16, .ro, 0⟩, ⟨16, 8, .ro, 0⟩, ⟨24, 8, .ro, 0⟩, ⟨32, 16, .ro, 0⟩]⟩,
    /- MBR_REC2 -/ ⟨0x204020, [], [⟨0, 64, .ro, 0⟩]⟩,
    /- MBR_LOST_COUNT -/ ⟨0x204028, [], [⟨0, 32, .cnt, 0⟩]⟩,
    /- MBR_EVENT_COUNT -/ ⟨0x204030, [], [⟨0, 64, .cnt, 0⟩]⟩,
    /- Q_CTL -/ ⟨0x210000, [(0x4000, 64)], [⟨0, 1, .rw, 0⟩, ⟨1, 1, .rwl, 0⟩, ⟨2, 8, .rwl, 0⟩, ⟨10, 2, .rwl, 0⟩, ⟨12, 1, .rwl, 1⟩]⟩,
    /- Q_STATUS -/ ⟨0x210008, [(0x4000, 64)], [⟨0, 1, .st, 0⟩, ⟨1, 1, .st, 0⟩, ⟨2, 1, .st, 0⟩, ⟨3, 3, .ro, 0⟩, ⟨8, 9, .ro, 0⟩, ⟨24, 8, .ro, 0⟩]⟩,
    /- Q_REJ_COUNT -/ ⟨0x210010, [(0x4000, 64)], [⟨0, 32, .cnt, 0⟩]⟩,
    /- Q_REJ_ADDR -/ ⟨0x210018, [(0x4000, 64)], [⟨0, 26, .ro, 0⟩]⟩,
    /- Q_REJ_ACK -/ ⟨0x210020, [(0x4000, 64)], [⟨0, 32, .rw, 0⟩]⟩,
    /- Q_RESTART -/ ⟨0x210028, [(0x4000, 64)], [⟨0, 1, .wo, 0⟩]⟩,
    /- Q_ACCEPT_COUNT -/ ⟨0x210030, [(0x4000, 64)], [⟨0, 64, .cnt, 0⟩]⟩,
    /- Q_CPL_COUNT -/ ⟨0x210038, [(0x4000, 64)], [⟨0, 64, .cnt, 0⟩]⟩,
    /- Q_FULL_COUNT -/ ⟨0x210040, [(0x4000, 64)], [⟨0, 32, .cnt, 0⟩]⟩,
    /- QCMD -/ ⟨0x210080, [(0x4000, 64), (0x8, 8)], [⟨0, 64, .wo, 0⟩]⟩,
    /- EVT -/ ⟨0x310000, [(0x4000, 8), (0x8, 512)], [⟨0, 32, .rw, 0⟩]⟩,
    /- GRP -/ ⟨0x330000, [(0x8, 256)], [⟨0, 1, .st, 0⟩, ⟨1, 3, .ro, 0⟩, ⟨16, 16, .ro, 0⟩, ⟨32, 13, .ro, 0⟩]⟩]

/-- Register families of the Cmd block, part 3. -/
def famsCmd3 : List RegFam :=
  [
    /- CTX -/ ⟨0x340000, [(0x4000, 8), (0x8, 512)], [⟨0, 1, .st, 0⟩, ⟨1, 2, .ro, 0⟩, ⟨3, 6, .ro, 0⟩, ⟨9, 8, .ro, 0⟩, ⟨32, 32, .ro, 0⟩]⟩,
    /- PVF_SEQ -/ ⟨0x3f0000, [], [⟨0, 32, .cnt, 0⟩]⟩,
    /- PVF_ACK -/ ⟨0x3f0008, [], [⟨0, 32, .rw, 0⟩]⟩,
    /- PVF_STATUS -/ ⟨0x3f0010, [], [⟨0, 1, .st, 0⟩]⟩,
    /- PVF_REC0 -/ ⟨0x3f0018, [], [⟨0, 32, .ro, 0⟩, ⟨32, 8, .ro, 0⟩, ⟨40, 3, .ro, 0⟩, ⟨43, 1, .ro, 0⟩]⟩,
    /- PVF_REC1 -/ ⟨0x3f0020, [], [⟨0, 32, .ro, 0⟩, ⟨32, 16, .ro, 0⟩]⟩,
    /- PVF_REC2 -/ ⟨0x3f0028, [], [⟨0, 64, .ro, 0⟩]⟩,
    /- PVF_LOST_COUNT -/ ⟨0x3f0030, [], [⟨0, 32, .cnt, 0⟩]⟩,
    /- PRG_LOAD_COUNT -/ ⟨0x3f0038, [], [⟨0, 64, .cnt, 0⟩]⟩,
    /- PRG_HELD -/ ⟨0x3f0040, [], [⟨0, 9, .ro, 0⟩]⟩,
    /- STR_SKIP_COUNT -/ ⟨0x3f0048, [], [⟨0, 64, .cnt, 0⟩]⟩]

/-- Register families of the Cmd block. -/
def famsCmd : List RegFam := famsCmd1 ++ famsCmd2 ++ famsCmd3

/-- Register families of the Eng block, part 1. -/
def famsEng1 : List RegFam :=
  [
    /- ENG_STATUS -/ ⟨0x400000, [(0x10000, 136)], [⟨0, 2, .ro, 0⟩, ⟨2, 1, .st, 0⟩, ⟨3, 1, .st, 0⟩, ⟨4, 1, .st, 0⟩, ⟨8, 8, .ro, 0xff⟩, ⟨16, 7, .ro, 0⟩]⟩,
    /- ENG_CTX -/ ⟨0x400008, [(0x10000, 136)], [⟨0, 4, .ro, 0⟩, ⟨4, 4, .ro, 0⟩, ⟨8, 4, .ro, 0⟩, ⟨12, 4, .ro, 0⟩, ⟨16, 4, .ro, 0⟩, ⟨20, 4, .ro, 0⟩, ⟨24, 4, .ro, 0⟩, ⟨28, 4, .ro, 0⟩]⟩,
    /- ENG_ISSUE_COUNT -/ ⟨0x400010, [(0x10000, 136)], [⟨0, 64, .cnt, 0⟩]⟩,
    /- ENG_STALL_COUNT -/ ⟨0x400018, [(0x10000, 136)], [⟨0, 64, .cnt, 0⟩]⟩,
    /- ENG_RES_COUNT -/ ⟨0x400020, [(0x10000, 136)], [⟨0, 32, .cnt, 0⟩]⟩,
    /- ENG_ECC_COUNT -/ ⟨0x400028, [(0x10000, 136)], [⟨0, 32, .cnt, 0⟩, ⟨32, 32, .cnt, 0⟩]⟩,
    /- ENG_BIND -/ ⟨0x400100, [(0x10000, 136), (0x8, 16)], [⟨0, 12, .ro, 0⟩, ⟨12, 3, .ro, 0⟩, ⟨15, 1, .st, 0⟩, ⟨16, 2, .ro, 0⟩]⟩,
    /- ENG_CTL -/ ⟨0xf00000, [], [⟨0, 1, .rw, 0⟩]⟩,
    /- ENG_GSTATUS -/ ⟨0xf00008, [], [⟨0, 1, .st, 0⟩, ⟨1, 1, .st, 0⟩, ⟨2, 1, .st, 0⟩]⟩,
    /- ENG_REJ_COUNT -/ ⟨0xf00010, [], [⟨0, 32, .cnt, 0⟩]⟩,
    /- ENG_REJ_ADDR -/ ⟨0xf00018, [], [⟨0, 26, .ro, 0⟩]⟩,
    /- ENG_REJ_ACK -/ ⟨0xf00020, [], [⟨0, 32, .rw, 0⟩]⟩,
    /- KAT_CTL -/ ⟨0xf00028, [], [⟨0, 1, .rwl, 1⟩, ⟨16, 16, .rwl, 0x100⟩, ⟨32, 16, .rwl, 0xa⟩]⟩,
    /- RES_SEQ -/ ⟨0xf00030, [], [⟨0, 32, .cnt, 0⟩]⟩,
    /- RES_ACK -/ ⟨0xf00038, [], [⟨0, 32, .rw, 0⟩]⟩,
    /- RES_REC0 -/ ⟨0xf00040, [], [⟨0, 8, .ro, 0⟩, ⟨8, 7, .ro, 0⟩, ⟨15, 1, .ro, 0⟩, ⟨16, 4, .ro, 0⟩, ⟨20, 2, .ro, 0⟩, ⟨22, 1, .ro, 0⟩]⟩]

/-- Register families of the Eng block, part 2. -/
def famsEng2 : List RegFam :=
  [
    /- RES_REC1 -/ ⟨0xf00048, [], [⟨0, 32, .ro, 0⟩, ⟨32, 32, .ro, 0⟩]⟩,
    /- RES_REC2 -/ ⟨0xf00050, [], [⟨0, 16, .ro, 0⟩, ⟨16, 16, .ro, 0⟩, ⟨32, 32, .ro, 0⟩]⟩,
    /- RES_REC3 -/ ⟨0xf00058, [], [⟨0, 64, .ro, 0⟩]⟩,
    /- RES_LOST_COUNT -/ ⟨0xf00060, [], [⟨0, 32, .cnt, 0⟩]⟩,
    /- RES_UNREC_COUNT -/ ⟨0xf00068, [], [⟨0, 32, .cnt, 0⟩]⟩,
    /- KAT_DELAY_COUNT -/ ⟨0xf00070, [], [⟨0, 64, .cnt, 0⟩]⟩,
    /- KAT_PASS_COUNT -/ ⟨0xf00078, [], [⟨0, 64, .cnt, 0⟩]⟩,
    /- ENG_MAP -/ ⟨0xf00400, [(0x8, 128)], [⟨0, 8, .ro, 0⟩]⟩,
    /- COL_STATUS -/ ⟨0xf00800, [(0x8, 16)], [⟨0, 2, .ro, 0⟩, ⟨2, 2, .ro, 0⟩, ⟨4, 2, .ro, 0⟩, ⟨6, 2, .ro, 0⟩, ⟨8, 2, .ro, 0⟩, ⟨10, 2, .ro, 0⟩, ⟨12, 2, .ro, 0⟩, ⟨14, 2, .ro, 0⟩, ⟨16, 2, .ro, 0⟩]⟩]

/-- Register families of the Eng block. -/
def famsEng : List RegFam := famsEng1 ++ famsEng2

/-- Register families of the Cis block, part 1. -/
def famsCis1 : List RegFam :=
  [
    /- FMT_DESC -/ ⟨0x1000000, [(0x8, 32)], [⟨0, 3, .ro, 0⟩, ⟨3, 7, .ro, 0⟩, ⟨10, 1, .ro, 0⟩, ⟨11, 4, .ro, 0⟩, ⟨15, 6, .ro, 0⟩, ⟨21, 11, .ro, 0⟩, ⟨32, 2, .ro, 0⟩, ⟨34, 1, .ro, 0⟩]⟩,
    /- FMT_DIGEST -/ ⟨0x1000100, [(0x8, 4)], [⟨0, 64, .ro, 0⟩]⟩,
    /- FMT_LOAD_COUNT -/ ⟨0x1000120, [], [⟨0, 64, .cnt, 0⟩]⟩,
    /- FNT_CTL -/ ⟨0x1004000, [], [⟨0, 1, .rw, 0⟩, ⟨1, 1, .rw, 0⟩]⟩,
    /- FNT_SEQ -/ ⟨0x1004008, [], [⟨0, 32, .cnt, 0⟩]⟩,
    /- FNT_ACK -/ ⟨0x1004010, [], [⟨0, 32, .rw, 0⟩]⟩,
    /- FNT_STATUS -/ ⟨0x1004018, [], [⟨0, 1, .st, 0⟩]⟩,
    /- FNT_REC0 -/ ⟨0x1004020, [], [⟨0, 32, .ro, 0⟩, ⟨32, 32, .ro, 0⟩]⟩,
    /- FNT_REC1 -/ ⟨0x1004028, [], [⟨0, 32, .ro, 0⟩, ⟨32, 8, .ro, 0⟩, ⟨40, 8, .ro, 0⟩, ⟨48, 8, .ro, 0⟩, ⟨56, 8, .ro, 0⟩]⟩,
    /- FNT_REC2 -/ ⟨0x1004030, [], [⟨0, 8, .ro, 0⟩, ⟨8, 4, .ro, 0⟩, ⟨12, 3, .ro, 0⟩, ⟨16, 7, .ro, 0⟩, ⟨24, 5, .ro, 0⟩]⟩,
    /- FNT_REC3 -/ ⟨0x1004038, [], [⟨0, 64, .ro, 0⟩]⟩,
    /- NAN_GEN_COUNT -/ ⟨0x1004040, [], [⟨0, 64, .cnt, 0⟩]⟩,
    /- NAN_IN_COUNT -/ ⟨0x1004048, [], [⟨0, 64, .cnt, 0⟩]⟩,
    /- MX_INF_COUNT -/ ⟨0x1004050, [], [⟨0, 64, .cnt, 0⟩]⟩,
    /- POISON_COUNT -/ ⟨0x1004058, [], [⟨0, 64, .cnt, 0⟩]⟩,
    /- CIS_CTL -/ ⟨0x1008000, [], [⟨0, 1, .rw, 0⟩]⟩]

/-- Register families of the Cis block, part 2. -/
def famsCis2 : List RegFam :=
  [
    /- CIS_STATUS -/ ⟨0x1008008, [], [⟨0, 1, .st, 0⟩, ⟨1, 1, .st, 0⟩, ⟨2, 1, .st, 0⟩]⟩,
    /- CIS_REJ_COUNT -/ ⟨0x1008010, [], [⟨0, 32, .cnt, 0⟩]⟩,
    /- CIS_REJ_ADDR -/ ⟨0x1008018, [], [⟨0, 26, .ro, 0⟩]⟩,
    /- CIS_REJ_ACK -/ ⟨0x1008020, [], [⟨0, 32, .rw, 0⟩]⟩,
    /- CIS_ORD_COUNT -/ ⟨0x1008028, [], [⟨0, 32, .cnt, 0⟩, ⟨32, 32, .cnt, 0⟩]⟩,
    /- CIS_CONTRIB_COUNT -/ ⟨0x1008030, [], [⟨0, 64, .cnt, 0⟩]⟩,
    /- CIS_OVF_DROP_COUNT -/ ⟨0x1008038, [], [⟨0, 64, .cnt, 0⟩]⟩,
    /- CIS_BAD_RECORD_COUNT -/ ⟨0x1008040, [], [⟨0, 64, .cnt, 0⟩]⟩,
    /- CIS_ECC_CORR_COUNT -/ ⟨0x1008048, [], [⟨0, 64, .cnt, 0⟩]⟩,
    /- CIS_ECC_UNCORR_COUNT -/ ⟨0x1008050, [], [⟨0, 64, .cnt, 0⟩]⟩,
    /- CIS_PART_COUNT -/ ⟨0x1008058, [], [⟨0, 32, .cnt, 0⟩, ⟨32, 32, .cnt, 0⟩]⟩,
    /- CIS_OVF_SEQ -/ ⟨0x100c000, [], [⟨0, 32, .cnt, 0⟩]⟩,
    /- CIS_OVF_ACK -/ ⟨0x100c008, [], [⟨0, 32, .rw, 0⟩]⟩,
    /- CIS_OVF_REC0 -/ ⟨0x100c010, [], [⟨0, 32, .ro, 0⟩, ⟨32, 32, .ro, 0⟩]⟩,
    /- CIS_OVF_REC1 -/ ⟨0x100c018, [], [⟨0, 32, .ro, 0⟩, ⟨32, 4, .ro, 0⟩, ⟨36, 2, .ro, 0⟩, ⟨38, 2, .ro, 0⟩]⟩,
    /- CIS_OVF_REC2 -/ ⟨0x100c020, [], [⟨0, 64, .ro, 0⟩]⟩]

/-- Register families of the Cis block, part 3. -/
def famsCis3 : List RegFam :=
  [
    /- CIS_OVF_LOST_COUNT -/ ⟨0x100c028, [], [⟨0, 32, .cnt, 0⟩]⟩,
    /- CIS_SPILL_RES -/ ⟨0x1010000, [(0x4000, 16)], [⟨0, 9, .rwl, 0⟩, ⟨16, 10, .rwl, 0⟩]⟩,
    /- CIS_SPILL_HBM -/ ⟨0x1010008, [(0x4000, 16)], [⟨0, 27, .rwl, 0⟩, ⟨32, 27, .rwl, 0⟩]⟩,
    /- CIS_SPILL_LPD -/ ⟨0x1010010, [(0x4000, 16)], [⟨0, 30, .rwl, 0⟩, ⟨32, 30, .rwl, 0⟩]⟩,
    /- CIS_OCC -/ ⟨0x1010018, [(0x4000, 16)], [⟨0, 19, .ro, 0⟩]⟩,
    /- CIS_SPILL_OCC_RES -/ ⟨0x1010020, [(0x4000, 16)], [⟨0, 32, .ro, 0⟩]⟩,
    /- CIS_SPILL_OCC_HBM -/ ⟨0x1010028, [(0x4000, 16)], [⟨0, 36, .ro, 0⟩]⟩,
    /- CIS_SPILL_OCC_LPD -/ ⟨0x1010030, [(0x4000, 16)], [⟨0, 36, .ro, 0⟩]⟩,
    /- SPT_SEQ -/ ⟨0x1080000, [], [⟨0, 32, .cnt, 0⟩]⟩,
    /- SPT_ACK -/ ⟨0x1080008, [], [⟨0, 32, .rw, 0⟩]⟩,
    /- SPT_STATUS -/ ⟨0x1080010, [], [⟨0, 1, .st, 0⟩]⟩,
    /- SPT_REC0 -/ ⟨0x1080018, [], [⟨0, 32, .ro, 0⟩, ⟨32, 32, .ro, 0⟩]⟩,
    /- SPT_REC1 -/ ⟨0x1080020, [], [⟨0, 32, .ro, 0⟩, ⟨32, 8, .ro, 0⟩, ⟨40, 8, .ro, 0⟩, ⟨48, 7, .ro, 0⟩, ⟨56, 3, .ro, 0⟩]⟩,
    /- SPT_REC2 -/ ⟨0x1080028, [], [⟨0, 8, .ro, 0⟩, ⟨8, 8, .ro, 0⟩, ⟨16, 5, .ro, 0⟩, ⟨21, 2, .ro, 0⟩, ⟨23, 1, .ro, 0⟩]⟩,
    /- SPT_REC3 -/ ⟨0x1080030, [], [⟨0, 64, .ro, 0⟩]⟩,
    /- SPT_GROUP_COUNT -/ ⟨0x1080038, [], [⟨0, 64, .cnt, 0⟩]⟩]

/-- Register families of the Cis block, part 4. -/
def famsCis4 : List RegFam :=
  [
    /- SPT_INDEX_COUNT -/ ⟨0x1080040, [], [⟨0, 64, .cnt, 0⟩]⟩,
    /- SPT_MASK_COUNT -/ ⟨0x1080048, [], [⟨0, 64, .cnt, 0⟩]⟩,
    /- SPT_LOST_COUNT -/ ⟨0x1080050, [], [⟨0, 32, .cnt, 0⟩]⟩,
    /- SPT_BLOCK_COUNT -/ ⟨0x1080058, [], [⟨0, 64, .cnt, 0⟩]⟩]

/-- Register families of the Cis block. -/
def famsCis : List RegFam := famsCis1 ++ famsCis2 ++ famsCis3 ++ famsCis4

/-- Register families of the Nor block, part 1. -/
def famsNor1 : List RegFam :=
  [
    /- NOR_CTL -/ ⟨0x1400000, [], [⟨0, 1, .rw, 0⟩, ⟨8, 8, .rwl, 0x32⟩]⟩,
    /- NOR_STATUS -/ ⟨0x1400008, [], [⟨0, 1, .st, 0⟩, ⟨1, 1, .st, 0⟩]⟩,
    /- NOR_REJ_COUNT -/ ⟨0x1400010, [], [⟨0, 32, .cnt, 0⟩]⟩,
    /- NOR_REJ_ADDR -/ ⟨0x1400018, [], [⟨0, 26, .ro, 0⟩]⟩,
    /- NOR_REJ_ACK -/ ⟨0x1400020, [], [⟨0, 32, .rw, 0⟩]⟩,
    /- RULE_LOAD_COUNT -/ ⟨0x1400028, [], [⟨0, 64, .cnt, 0⟩]⟩,
    /- RULE_DIGEST -/ ⟨0x1400030, [(0x8, 4)], [⟨0, 64, .ro, 0⟩]⟩,
    /- NOR_UPDATE_COUNT -/ ⟨0x1400050, [], [⟨0, 64, .cnt, 0⟩]⟩,
    /- NOR_SKIP_COUNT -/ ⟨0x1400058, [], [⟨0, 64, .cnt, 0⟩]⟩,
    /- NOR_RES_COUNT -/ ⟨0x1400060, [], [⟨0, 32, .cnt, 0⟩, ⟨32, 32, .cnt, 0⟩]⟩,
    /- NOR_COMMIT_COUNT -/ ⟨0x1400068, [], [⟨0, 32, .cnt, 0⟩, ⟨32, 32, .cnt, 0⟩]⟩,
    /- NOR_DISCARD_COUNT -/ ⟨0x1400070, [], [⟨0, 64, .cnt, 0⟩]⟩,
    /- NOR_LAST_COMMIT -/ ⟨0x1400078, [], [⟨0, 64, .ro, 0⟩]⟩,
    /- SNAP_REQ -/ ⟨0x1400080, [], [⟨0, 10, .wo, 0⟩]⟩,
    /- NOR_RESTORE -/ ⟨0x1400088, [], [⟨0, 10, .wo, 0⟩, ⟨10, 8, .wo, 0⟩]⟩,
    /- NOR_RESTORE_OBJ -/ ⟨0x1400090, [], [⟨0, 64, .rw, 0⟩]⟩]

/-- Register families of the Nor block, part 2. -/
def famsNor2 : List RegFam :=
  [
    /- SNAP_COUNT -/ ⟨0x1400098, [], [⟨0, 32, .cnt, 0⟩, ⟨32, 32, .cnt, 0⟩]⟩,
    /- NSET -/ ⟨0x1404000, [(0x8, 16)], [⟨0, 1, .st, 0⟩, ⟨1, 1, .st, 0⟩, ⟨2, 10, .ro, 0⟩, ⟨12, 10, .ro, 0⟩, ⟨32, 32, .ro, 0⟩]⟩,
    /- SHD_STATE -/ ⟨0x1410000, [(0x10, 1024)], [⟨0, 3, .ro, 0⟩, ⟨3, 1, .ro, 0⟩, ⟨4, 1, .st, 0⟩, ⟨5, 1, .ro, 0⟩, ⟨16, 16, .ro, 0⟩, ⟨32, 32, .ro, 0⟩]⟩,
    /- SHD_STEP -/ ⟨0x1410008, [(0x10, 1024)], [⟨0, 64, .ro, 0⟩]⟩]

/-- Register families of the Nor block. -/
def famsNor : List RegFam := famsNor1 ++ famsNor2

/-- Register families of the Sw block, part 1. -/
def famsSw1 : List RegFam :=
  [
    /- SW_CTL -/ ⟨0x1800000, [], [⟨0, 1, .rw, 0⟩]⟩,
    /- SW_STATUS -/ ⟨0x1800008, [], [⟨0, 1, .st, 0⟩, ⟨1, 1, .st, 0⟩, ⟨2, 6, .st, 0⟩]⟩,
    /- SW_REJ_COUNT -/ ⟨0x1800010, [], [⟨0, 32, .cnt, 0⟩]⟩,
    /- SW_REJ_ADDR -/ ⟨0x1800018, [], [⟨0, 26, .ro, 0⟩]⟩,
    /- SW_REJ_ACK -/ ⟨0x1800020, [], [⟨0, 32, .rw, 0⟩]⟩,
    /- SW_ID -/ ⟨0x1800028, [], [⟨0, 16, .rwl, 0xffff⟩]⟩,
    /- SW_RSV -/ ⟨0x1800030, [], [⟨0, 18, .rwl, 0x1000⟩, ⟨18, 18, .rwl, 0x800⟩]⟩,
    /- SW_FENCE -/ ⟨0x1800038, [(0x8, 3)], [⟨0, 64, .ro, 0⟩]⟩,
    /- FNC_HOLD_COUNT -/ ⟨0x1800050, [], [⟨0, 64, .cnt, 0⟩]⟩,
    /- BP_COUNT -/ ⟨0x1800058, [], [⟨0, 64, .cnt, 0⟩]⟩,
    /- BSN_SEQ -/ ⟨0x1804000, [], [⟨0, 32, .cnt, 0⟩]⟩,
    /- BSN_ACK -/ ⟨0x1804008, [], [⟨0, 32, .rw, 0⟩]⟩,
    /- BSN_REC0 -/ ⟨0x1804010, [], [⟨0, 1, .ro, 0⟩, ⟨1, 2, .ro, 0⟩, ⟨3, 2, .ro, 0⟩]⟩,
    /- BSN_REC1 -/ ⟨0x1804018, [], [⟨0, 20, .ro, 0⟩, ⟨20, 16, .ro, 0⟩, ⟨36, 16, .ro, 0⟩]⟩,
    /- BSN_REC2 -/ ⟨0x1804020, [], [⟨0, 64, .ro, 0⟩]⟩,
    /- BSN_LOST_COUNT -/ ⟨0x1804028, [], [⟨0, 32, .cnt, 0⟩]⟩]

/-- Register families of the Sw block, part 2. -/
def famsSw2 : List RegFam :=
  [
    /- BSN_FREE -/ ⟨0x1808000, [(0x4000, 2), (0x20, 3)], [⟨0, 20, .ro, 0⟩]⟩,
    /- BSN_HEAD -/ ⟨0x1808008, [(0x4000, 2), (0x20, 3)], [⟨0, 20, .ro, 0⟩, ⟨20, 1, .st, 0⟩, ⟨24, 16, .ro, 0⟩]⟩,
    /- BSN_QUAR -/ ⟨0x1808010, [(0x4000, 2), (0x20, 3)], [⟨0, 20, .ro, 0⟩, ⟨20, 20, .cnt, 0⟩, ⟨40, 16, .cnt, 0⟩]⟩,
    /- BSN_FALLBACK -/ ⟨0x1808018, [(0x4000, 2), (0x20, 3)], [⟨0, 64, .cnt, 0⟩]⟩,
    /- BSN_LIM -/ ⟨0x1810000, [(0x20, 161), (0x8, 4)], [⟨0, 20, .rwl, 0x1000⟩, ⟨20, 20, .rwl, 0x400⟩, ⟨40, 20, .rwl, 0x100⟩]⟩,
    /- SPILL_PKT -/ ⟨0x1820000, [(0x10, 10)], [⟨0, 64, .cnt, 0⟩]⟩,
    /- SPILL_BYTE -/ ⟨0x1820008, [(0x10, 10)], [⟨0, 64, .cnt, 0⟩]⟩,
    /- RT_STATUS -/ ⟨0x1830000, [], [⟨0, 1, .ro, 0⟩, ⟨1, 1, .ro, 0⟩, ⟨2, 1, .st, 0⟩, ⟨3, 1, .st, 0⟩, ⟨4, 1, .st, 0⟩]⟩,
    /- RT_DRAIN -/ ⟨0x1830008, [], [⟨0, 32, .rwl, 0xf4240⟩]⟩,
    /- RT_FLIP_TURN -/ ⟨0x1830010, [], [⟨0, 64, .ro, 0⟩]⟩,
    /- RT_MISS_COUNT -/ ⟨0x1830018, [], [⟨0, 64, .cnt, 0⟩]⟩,
    /- RT_MISS_ADDR -/ ⟨0x1830020, [], [⟨0, 24, .ro, 0⟩]⟩,
    /- RT_STALE_COUNT -/ ⟨0x1830028, [], [⟨0, 64, .cnt, 0⟩]⟩,
    /- RT_HELD -/ ⟨0x1830030, [], [⟨0, 32, .ro, 0⟩, ⟨32, 32, .ro, 0⟩]⟩,
    /- MC -/ ⟨0x1840000, [(0x8, 4096)], [⟨0, 1, .st, 0⟩, ⟨1, 8, .ro, 0⟩, ⟨9, 8, .ro, 0⟩, ⟨32, 32, .ro, 0⟩]⟩,
    /- GR_CTL -/ ⟨0x1860000, [], [⟨0, 1, .rw, 0⟩, ⟨1, 1, .rwl, 1⟩, ⟨2, 1, .rwl, 0⟩, ⟨8, 5, .rwl, 0xa⟩]⟩]

/-- Register families of the Sw block, part 3. -/
def famsSw3 : List RegFam :=
  [
    /- GR_FILTER -/ ⟨0x1860008, [], [⟨0, 4, .rwl, 0xf⟩, ⟨4, 1, .rwl, 0⟩, ⟨5, 1, .rwl, 0⟩, ⟨8, 8, .rwl, 0xff⟩, ⟨16, 8, .rwl, 0xff⟩]⟩,
    /- GR_MIRROR -/ ⟨0x1860010, [], [⟨0, 24, .rwl, 0⟩]⟩,
    /- GR_HEAD -/ ⟨0x1860018, [], [⟨0, 18, .ro, 0⟩]⟩,
    /- GR_TAIL -/ ⟨0x1860020, [], [⟨0, 18, .rw, 0⟩]⟩,
    /- GR_REC_COUNT -/ ⟨0x1860028, [], [⟨0, 64, .cnt, 0⟩]⟩,
    /- GR_LOST_COUNT -/ ⟨0x1860030, [], [⟨0, 64, .cnt, 0⟩]⟩,
    /- GR_STATUS -/ ⟨0x1860038, [], [⟨0, 1, .st, 0⟩, ⟨1, 1, .st, 0⟩]⟩,
    /- GR_REJ_COUNT -/ ⟨0x1860040, [], [⟨0, 32, .cnt, 0⟩]⟩,
    /- GR_REJ_ADDR -/ ⟨0x1860048, [], [⟨0, 26, .ro, 0⟩]⟩,
    /- GR_REJ_ACK -/ ⟨0x1860050, [], [⟨0, 32, .rw, 0⟩]⟩]

/-- Register families of the Sw block. -/
def famsSw : List RegFam := famsSw1 ++ famsSw2 ++ famsSw3

/-- Register families of the Hg block, part 1. -/
def famsHg1 : List RegFam :=
  [
    /- HG_PORT -/ ⟨0x2000000, [(0x4000, 144)], [⟨0, 1, .rw, 0⟩]⟩,
    /- HG_PSTATUS -/ ⟨0x2000008, [(0x4000, 144)], [⟨0, 1, .ro, 0⟩, ⟨1, 4, .st, 0⟩]⟩,
    /- HG_DRR -/ ⟨0x2000010, [(0x4000, 144)], [⟨0, 24, .rwl, 0x4000⟩, ⟨24, 24, .rwl, 0x10000⟩]⟩,
    /- HG_CAL -/ ⟨0x2000018, [(0x4000, 144), (0x20, 2), (0x8, 4)], [⟨0, 64, .rw, 0xffffffffffffffff⟩]⟩,
    /- SHP_D -/ ⟨0x2000058, [(0x4000, 144)], [⟨0, 16, .rw, 0⟩, ⟨16, 24, .rw, 0x10000⟩]⟩,
    /- SHP_M -/ ⟨0x2000060, [(0x4000, 144)], [⟨0, 16, .rw, 0⟩, ⟨16, 24, .rw, 0x10000⟩]⟩,
    /- MTR_RATE -/ ⟨0x2000068, [(0x4000, 144), (0x10, 2)], [⟨0, 16, .rw, 0⟩, ⟨16, 16, .rw, 0⟩, ⟨32, 2, .rw, 0⟩]⟩,
    /- MTR_BKT -/ ⟨0x2000070, [(0x4000, 144), (0x10, 2)], [⟨0, 24, .rw, 0x10000⟩, ⟨24, 24, .rw, 0x10000⟩]⟩,
    /- PC_IN_PKT -/ ⟨0x2000100, [(0x4000, 144), (0x40, 4)], [⟨0, 64, .cnt, 0⟩]⟩,
    /- PC_IN_BYTE -/ ⟨0x2000108, [(0x4000, 144), (0x40, 4)], [⟨0, 64, .cnt, 0⟩]⟩,
    /- PC_OUT_PKT -/ ⟨0x2000110, [(0x4000, 144), (0x40, 4)], [⟨0, 64, .cnt, 0⟩]⟩,
    /- PC_OUT_BYTE -/ ⟨0x2000118, [(0x4000, 144), (0x40, 4)], [⟨0, 64, .cnt, 0⟩]⟩,
    /- PC_STALL -/ ⟨0x2000120, [(0x4000, 144), (0x40, 4)], [⟨0, 64, .cnt, 0⟩]⟩,
    /- PC_DEMOTE -/ ⟨0x2000128, [(0x4000, 144), (0x40, 4)], [⟨0, 64, .cnt, 0⟩]⟩,
    /- MTR_GREEN -/ ⟨0x2000200, [(0x4000, 144), (0x18, 2)], [⟨0, 64, .cnt, 0⟩]⟩,
    /- MTR_YELLOW -/ ⟨0x2000208, [(0x4000, 144), (0x18, 2)], [⟨0, 64, .cnt, 0⟩]⟩]

/-- Register families of the Hg block, part 2. -/
def famsHg2 : List RegFam :=
  [
    /- MTR_RED -/ ⟨0x2000210, [(0x4000, 144), (0x18, 2)], [⟨0, 64, .cnt, 0⟩]⟩,
    /- HIST_DEPTH -/ ⟨0x2000400, [(0x4000, 144), (0x100, 4), (0x8, 16)], [⟨0, 64, .cnt, 0⟩]⟩,
    /- HIST_DELAY -/ ⟨0x2000480, [(0x4000, 144), (0x100, 4), (0x8, 16)], [⟨0, 64, .cnt, 0⟩]⟩,
    /- HG_CTL -/ ⟨0x2300000, [], [⟨0, 1, .rw, 0⟩]⟩,
    /- HG_STATUS -/ ⟨0x2300008, [], [⟨0, 1, .st, 0⟩, ⟨1, 1, .st, 0⟩]⟩,
    /- HG_REJ_COUNT -/ ⟨0x2300010, [], [⟨0, 32, .cnt, 0⟩]⟩,
    /- HG_REJ_ADDR -/ ⟨0x2300018, [], [⟨0, 26, .ro, 0⟩]⟩,
    /- HG_REJ_ACK -/ ⟨0x2300020, [], [⟨0, 32, .rw, 0⟩]⟩,
    /- WIN_SIZE -/ ⟨0x2300028, [], [⟨0, 12, .rwl, 0x40⟩, ⟨16, 12, .rwl, 0⟩, ⟨32, 12, .rwl, 0⟩]⟩,
    /- DLV_CTL -/ ⟨0x2300030, [], [⟨0, 16, .rwl, 0x80⟩, ⟨32, 16, .rwl, 0x1f4⟩]⟩,
    /- HG_SAMPLE -/ ⟨0x2300038, [], [⟨0, 5, .rwl, 0xa⟩]⟩,
    /- HG_STARVE -/ ⟨0x2300040, [], [⟨0, 32, .rwl, 0x186a0⟩]⟩,
    /- MARK_GAP -/ ⟨0x2300048, [], [⟨0, 32, .rwl, 0x2710⟩]⟩,
    /- WIN_SEQ -/ ⟨0x2300050, [], [⟨0, 32, .cnt, 0⟩]⟩,
    /- WIN_ACK -/ ⟨0x2300058, [], [⟨0, 32, .rw, 0⟩]⟩,
    /- WIN_REC0 -/ ⟨0x2300060, [], [⟨0, 24, .ro, 0⟩, ⟨24, 2, .ro, 0⟩, ⟨26, 1, .ro, 0⟩, ⟨27, 1, .ro, 0⟩, ⟨32, 32, .ro, 0⟩]⟩]

/-- Register families of the Hg block, part 3. -/
def famsHg3 : List RegFam :=
  [
    /- WIN_REC1 -/ ⟨0x2300068, [], [⟨0, 24, .ro, 0⟩, ⟨32, 32, .ro, 0⟩]⟩,
    /- WIN_REC2 -/ ⟨0x2300070, [], [⟨0, 64, .ro, 0⟩]⟩,
    /- WIN_LOST_COUNT -/ ⟨0x2300078, [], [⟨0, 32, .cnt, 0⟩]⟩,
    /- FLOW_USE -/ ⟨0x2300080, [], [⟨0, 17, .ro, 0⟩, ⟨32, 17, .ro, 0⟩]⟩,
    /- FLOW_WAIT_COUNT -/ ⟨0x2300088, [], [⟨0, 64, .cnt, 0⟩]⟩,
    /- DLV_COUNT -/ ⟨0x2300090, [], [⟨0, 32, .cnt, 0⟩, ⟨32, 32, .cnt, 0⟩]⟩,
    /- DLV_BAD_COUNT -/ ⟨0x2300098, [], [⟨0, 64, .cnt, 0⟩]⟩,
    /- WIN_HOLD_COUNT -/ ⟨0x23000a0, [], [⟨0, 64, .cnt, 0⟩]⟩,
    /- STARVE_COUNT -/ ⟨0x23000a8, [], [⟨0, 64, .cnt, 0⟩]⟩]

/-- Register families of the Hg block. -/
def famsHg : List RegFam := famsHg1 ++ famsHg2 ++ famsHg3

/-- Register families of the Pt block, part 1. -/
def famsPt1 : List RegFam :=
  [
    /- PT_CTL -/ ⟨0x2400000, [(0x4000, 144)], [⟨0, 1, .rw, 0⟩, ⟨1, 3, .rwl, 0⟩, ⟨4, 1, .rwl, 1⟩]⟩,
    /- PT_STATUS -/ ⟨0x2400008, [(0x4000, 144)], [⟨0, 1, .st, 0⟩, ⟨1, 5, .ro, 0⟩, ⟨6, 4, .ro, 0⟩, ⟨10, 4, .ro, 0⟩, ⟨14, 1, .st, 0⟩]⟩,
    /- PT_LANEMAP -/ ⟨0x2400010, [(0x4000, 144)], [⟨0, 10, .ro, 0⟩, ⟨10, 10, .ro, 0⟩, ⟨20, 10, .ro, 0⟩, ⟨30, 10, .ro, 0⟩]⟩,
    /- PT_CRED -/ ⟨0x2400018, [(0x4000, 144)], [⟨0, 6, .rwl, 4⟩, ⟨8, 6, .rwl, 0x20⟩, ⟨16, 6, .rwl, 0x10⟩, ⟨24, 6, .rwl, 0xc⟩]⟩,
    /- PT_RTO -/ ⟨0x2400020, [(0x4000, 144)], [⟨0, 16, .rwl, 0x3e8⟩]⟩,
    /- PT_REPLAY_COUNT -/ ⟨0x2400028, [(0x4000, 144)], [⟨0, 32, .cnt, 0⟩, ⟨32, 32, .cnt, 0⟩]⟩,
    /- PT_ERR_COUNT -/ ⟨0x2400030, [(0x4000, 144)], [⟨0, 32, .cnt, 0⟩, ⟨32, 32, .cnt, 0⟩]⟩,
    /- PT_FEC_COUNT -/ ⟨0x2400038, [(0x4000, 144)], [⟨0, 32, .cnt, 0⟩, ⟨32, 32, .cnt, 0⟩]⟩,
    /- PT_TRAIN_COUNT -/ ⟨0x2400040, [(0x4000, 144)], [⟨0, 16, .cnt, 0⟩, ⟨16, 16, .cnt, 0⟩, ⟨32, 16, .cnt, 0⟩, ⟨48, 16, .cnt, 0⟩]⟩,
    /- PT_KEY -/ ⟨0x2400048, [(0x4000, 144)], [⟨0, 32, .ro, 0⟩, ⟨32, 32, .cnt, 0⟩]⟩,
    /- PT_PFC -/ ⟨0x2400050, [(0x4000, 144)], [⟨0, 3, .rwl, 7⟩, ⟨4, 3, .rwl, 5⟩, ⟨8, 3, .rwl, 1⟩, ⟨12, 3, .rwl, 3⟩, ⟨16, 6, .rwl, 0x30⟩, ⟨24, 6, .rwl, 0x28⟩, ⟨32, 6, .rwl, 8⟩, ⟨40, 6, .rwl, 0x18⟩]⟩,
    /- PT_PFC_COUNT -/ ⟨0x2400058, [(0x4000, 144)], [⟨0, 32, .cnt, 0⟩, ⟨32, 32, .cnt, 0⟩]⟩,
    /- GOE_CTL -/ ⟨0x2400060, [(0x4000, 144)], [⟨0, 16, .rwl, 0xc1a0⟩, ⟨16, 8, .rwl, 0x40⟩, ⟨24, 16, .rwl, 0xa⟩]⟩,
    /- GOE_MAC -/ ⟨0x2400068, [(0x4000, 144)], [⟨0, 48, .rwl, 0⟩]⟩,
    /- GOE_PEER_MAC -/ ⟨0x2400070, [(0x4000, 144)], [⟨0, 48, .rwl, 0⟩]⟩,
    /- GOE_LOCAL0 -/ ⟨0x2400078, [(0x4000, 144)], [⟨0, 64, .rwl, 0⟩]⟩]

/-- Register families of the Pt block, part 2. -/
def famsPt2 : List RegFam :=
  [
    /- GOE_LOCAL1 -/ ⟨0x2400080, [(0x4000, 144)], [⟨0, 64, .rwl, 0⟩]⟩,
    /- GOE_PEER0 -/ ⟨0x2400088, [(0x4000, 144)], [⟨0, 64, .rwl, 0⟩]⟩,
    /- GOE_PEER1 -/ ⟨0x2400090, [(0x4000, 144)], [⟨0, 64, .rwl, 0⟩]⟩,
    /- GOE_COUNT -/ ⟨0x2400098, [(0x4000, 144)], [⟨0, 32, .cnt, 0⟩, ⟨32, 32, .cnt, 0⟩]⟩,
    /- PT_GCTL -/ ⟨0x2700000, [], [⟨0, 1, .rw, 0⟩, ⟨1, 5, .rwl, 0⟩, ⟨6, 5, .rwl, 0x10⟩]⟩,
    /- PT_GSTATUS -/ ⟨0x2700008, [], [⟨0, 1, .st, 0⟩]⟩,
    /- PT_REJ_COUNT -/ ⟨0x2700010, [], [⟨0, 32, .cnt, 0⟩]⟩,
    /- PT_REJ_ADDR -/ ⟨0x2700018, [], [⟨0, 26, .ro, 0⟩]⟩,
    /- PT_REJ_ACK -/ ⟨0x2700020, [], [⟨0, 32, .rw, 0⟩]⟩,
    /- SPARE -/ ⟨0x2700100, [(0x10, 8), (0x8, 2)], [⟨0, 8, .rwl, 0xff⟩, ⟨8, 1, .st, 0⟩, ⟨9, 2, .ro, 0⟩]⟩,
    /- PT_TRAIN -/ ⟨0x2700200, [(0x8, 32)], [⟨0, 64, .rwl, 0⟩]⟩]

/-- Register families of the Pt block. -/
def famsPt : List RegFam := famsPt1 ++ famsPt2

/-- Register families of the Mem block, part 1. -/
def famsMem1 : List RegFam :=
  [
    /- MEM_CTL -/ ⟨0x2800000, [], [⟨0, 1, .rw, 0⟩, ⟨16, 16, .rwl, 0x64⟩]⟩,
    /- MEM_STATUS -/ ⟨0x2800008, [], [⟨0, 1, .st, 0⟩, ⟨1, 1, .st, 0⟩, ⟨2, 1, .st, 0⟩, ⟨3, 1, .st, 0⟩, ⟨4, 1, .st, 0⟩, ⟨5, 8, .st, 0⟩]⟩,
    /- MEM_REJ_COUNT -/ ⟨0x2800010, [], [⟨0, 32, .cnt, 0⟩]⟩,
    /- MEM_REJ_ADDR -/ ⟨0x2800018, [], [⟨0, 26, .ro, 0⟩]⟩,
    /- MEM_REJ_ACK -/ ⟨0x2800020, [], [⟨0, 32, .rw, 0⟩]⟩,
    /- MEM_RETAIN -/ ⟨0x2800028, [], [⟨0, 9, .rwl, 0x1b8⟩, ⟨16, 10, .rwl, 0x40⟩]⟩,
    /- ECC_COUNT -/ ⟨0x2800030, [(0x8, 3)], [⟨0, 32, .cnt, 0⟩, ⟨32, 32, .cnt, 0⟩]⟩,
    /- RSV_MODE -/ ⟨0x2800100, [(0x8, 8)], [⟨0, 64, .rwl, 0⟩]⟩,
    /- HBM_STACK -/ ⟨0x2804000, [(0x8, 8)], [⟨0, 16, .ro, 0⟩, ⟨16, 2, .ro, 0⟩, ⟨32, 16, .cnt, 0⟩, ⟨48, 16, .cnt, 0⟩]⟩,
    /- LPD_RT_BASE -/ ⟨0x2808000, [], [⟨0, 64, .rwl, 0⟩]⟩,
    /- LPD_RT_PERIOD -/ ⟨0x2808008, [], [⟨0, 32, .rwl, 0⟩]⟩,
    /- LPD_RT_CTL -/ ⟨0x2808010, [], [⟨0, 16, .rwl, 0x258⟩]⟩,
    /- LPD_FAIL -/ ⟨0x2808018, [], [⟨0, 16, .rwl, 4⟩, ⟨16, 32, .rwl, 0xf4240⟩]⟩,
    /- LPD_MIG -/ ⟨0x2808020, [], [⟨0, 8, .rwl, 4⟩, ⟨8, 7, .ro, 0⟩, ⟨16, 24, .ro, 0⟩]⟩,
    /- LPD_SPARE -/ ⟨0x2808028, [], [⟨0, 8, .ro, 0⟩]⟩,
    /- LPD_CH -/ ⟨0x2808100, [(0x8, 128)], [⟨0, 8, .ro, 0⟩, ⟨8, 2, .ro, 0⟩, ⟨10, 1, .st, 0⟩, ⟨16, 16, .cnt, 0⟩]⟩]

/-- Register families of the Mem block, part 2. -/
def famsMem2 : List RegFam :=
  [
    /- PRD_CTL -/ ⟨0x280c000, [], [⟨0, 16, .rwl, 0x10⟩, ⟨16, 12, .rwl, 0x20⟩, ⟨32, 32, .rwl, 0x989680⟩]⟩,
    /- PRD_MISS_COUNT -/ ⟨0x280c008, [], [⟨0, 64, .cnt, 0⟩]⟩,
    /- PRD_WASTE_COUNT -/ ⟨0x280c010, [], [⟨0, 64, .cnt, 0⟩]⟩,
    /- TRN_COUNT -/ ⟨0x280c018, [], [⟨0, 64, .cnt, 0⟩]⟩,
    /- GIX_SEQ -/ ⟨0x280c100, [], [⟨0, 32, .cnt, 0⟩]⟩,
    /- GIX_ACK -/ ⟨0x280c108, [], [⟨0, 32, .rw, 0⟩]⟩,
    /- GIX_REC0 -/ ⟨0x280c110, [], [⟨0, 32, .ro, 0⟩, ⟨32, 32, .ro, 0⟩]⟩,
    /- GIX_REC1 -/ ⟨0x280c118, [], [⟨0, 32, .ro, 0⟩, ⟨32, 7, .ro, 0⟩, ⟨39, 7, .ro, 0⟩, ⟨46, 4, .ro, 0⟩, ⟨50, 2, .ro, 0⟩, ⟨52, 1, .ro, 0⟩]⟩,
    /- GIX_REC2 -/ ⟨0x280c120, [], [⟨0, 64, .ro, 0⟩]⟩,
    /- GIX_LOST_COUNT -/ ⟨0x280c128, [], [⟨0, 32, .cnt, 0⟩]⟩,
    /- GIX_COUNT -/ ⟨0x280c130, [], [⟨0, 64, .cnt, 0⟩]⟩]

/-- Register families of the Mem block. -/
def famsMem : List RegFam := famsMem1 ++ famsMem2

/-- Register families of the Time block, part 1. -/
def famsTime1 : List RegFam :=
  [
    /- TIME_CTL -/ ⟨0x3000000, [], [⟨0, 1, .rw, 0⟩, ⟨1, 1, .rwl, 0⟩, ⟨2, 8, .rwl, 0xff⟩, ⟨16, 5, .rwl, 0x10⟩]⟩,
    /- TURN_COUNT -/ ⟨0x3000008, [], [⟨0, 64, .ro, 0⟩]⟩,
    /- TIME_STATUS -/ ⟨0x3000010, [], [⟨0, 1, .st, 0⟩, ⟨1, 1, .st, 0⟩, ⟨2, 1, .st, 0⟩, ⟨8, 16, .ro, 0⟩]⟩,
    /- TIME_REJ_COUNT -/ ⟨0x3000018, [], [⟨0, 32, .cnt, 0⟩]⟩,
    /- TIME_REJ_ADDR -/ ⟨0x3000020, [], [⟨0, 26, .ro, 0⟩]⟩,
    /- TIME_REJ_ACK -/ ⟨0x3000028, [], [⟨0, 32, .rw, 0⟩]⟩,
    /- TIME_UNLOCK_COUNT -/ ⟨0x3000030, [], [⟨0, 32, .cnt, 0⟩]⟩,
    /- LAUNCH_LEAD -/ ⟨0x3000038, [], [⟨0, 32, .rwl, 0x2710⟩]⟩,
    /- LOCK_HOP -/ ⟨0x3000048, [], [⟨0, 16, .rwl, 0x1f4⟩]⟩,
    /- CMP_FREE -/ ⟨0x3004000, [], [⟨0, 7, .ro, 0x40⟩]⟩,
    /- CMP_LATE_COUNT -/ ⟨0x3004008, [], [⟨0, 32, .cnt, 0⟩, ⟨32, 32, .cnt, 0⟩]⟩,
    /- CMP_CTL -/ ⟨0x3004100, [(0x10, 64)], [⟨0, 2, .ro, 0⟩, ⟨2, 1, .st, 0⟩, ⟨3, 12, .ro, 0⟩, ⟨16, 8, .ro, 0⟩, ⟨32, 32, .ro, 0⟩]⟩,
    /- CMP_TURN -/ ⟨0x3004108, [(0x10, 64)], [⟨0, 64, .ro, 0⟩]⟩,
    /- STEP_CTR -/ ⟨0x3008000, [], [⟨0, 64, .rwl, 0⟩]⟩,
    /- STEP_STATUS -/ ⟨0x3008008, [], [⟨0, 1, .ro, 0⟩, ⟨1, 1, .st, 0⟩, ⟨16, 16, .cnt, 0⟩, ⟨32, 32, .ro, 0⟩]⟩,
    /- SEED -/ ⟨0x3008100, [(0x8, 16)], [⟨0, 1, .st, 0⟩, ⟨1, 16, .ro, 0⟩, ⟨32, 32, .ro, 0⟩]⟩]

/-- Register families of the Time block, part 2. -/
def famsTime2 : List RegFam :=
  [
    /- AUD_CTL -/ ⟨0x300c000, [], [⟨0, 1, .rw, 0⟩]⟩,
    /- AUD_STATUS -/ ⟨0x300c008, [], [⟨0, 1, .st, 0⟩, ⟨1, 1, .st, 0⟩]⟩,
    /- AUD_REJ_COUNT -/ ⟨0x300c010, [], [⟨0, 32, .cnt, 0⟩]⟩,
    /- AUD_REJ_ADDR -/ ⟨0x300c018, [], [⟨0, 26, .ro, 0⟩]⟩,
    /- AUD_REJ_ACK -/ ⟨0x300c020, [], [⟨0, 32, .rw, 0⟩]⟩,
    /- AUD_SEQ -/ ⟨0x300c028, [], [⟨0, 64, .cnt, 0⟩]⟩,
    /- AUD_EXPORT_ACK -/ ⟨0x300c030, [], [⟨0, 64, .rw, 0⟩]⟩,
    /- AUD_HEAD -/ ⟨0x300c038, [], [⟨0, 64, .ro, 0⟩]⟩,
    /- AUD_FREE -/ ⟨0x300c040, [], [⟨0, 32, .ro, 0x40000⟩]⟩,
    /- AUD_HOLD_COUNT -/ ⟨0x300c048, [], [⟨0, 32, .cnt, 0⟩]⟩,
    /- AUD_BOOT -/ ⟨0x300c050, [], [⟨0, 32, .ro, 0⟩]⟩,
    /- PERT -/ ⟨0x300c100, [(0x8, 16)], [⟨0, 32, .cnt, 0⟩]⟩]

/-- Register families of the Time block. -/
def famsTime : List RegFam := famsTime1 ++ famsTime2

/-- Register families of the Flt block, part 1. -/
def famsFlt1 : List RegFam :=
  [
    /- FLT_CTL -/ ⟨0x3400000, [], [⟨0, 1, .rw, 0⟩]⟩,
    /- FLT_STATUS -/ ⟨0x3400008, [], [⟨0, 1, .st, 0⟩, ⟨1, 1, .st, 0⟩, ⟨2, 1, .st, 0⟩, ⟨3, 1, .st, 0⟩, ⟨4, 1, .st, 0⟩]⟩,
    /- FLT_REJ_COUNT -/ ⟨0x3400010, [], [⟨0, 32, .cnt, 0⟩]⟩,
    /- FLT_REJ_ADDR -/ ⟨0x3400018, [], [⟨0, 26, .ro, 0⟩]⟩,
    /- FLT_REJ_ACK -/ ⟨0x3400020, [], [⟨0, 32, .rw, 0⟩]⟩,
    /- WM_CTL -/ ⟨0x3400028, [], [⟨0, 2, .rwl, 0⟩, ⟨16, 16, .rwl, 0xffff⟩, ⟨32, 16, .rwl, 0xffff⟩, ⟨48, 16, .rwl, 0x64⟩]⟩,
    /- LEV_CTL -/ ⟨0x3400030, [], [⟨0, 1, .rwl, 0⟩, ⟨8, 16, .rwl, 0x1f4⟩, ⟨24, 16, .rwl, 0xc8⟩, ⟨40, 16, .rwl, 0x258⟩]⟩,
    /- LEV_CTL2 -/ ⟨0x3400038, [], [⟨0, 16, .rwl, 0x64⟩]⟩,
    /- LEV_STATUS -/ ⟨0x3400040, [], [⟨0, 7, .ro, 0⟩, ⟨7, 1, .st, 0⟩, ⟨8, 5, .ro, 0⟩, ⟨32, 32, .ro, 0⟩]⟩,
    /- LEV_DEC_COUNT -/ ⟨0x3400048, [], [⟨0, 32, .cnt, 0⟩, ⟨32, 32, .cnt, 0⟩]⟩,
    /- LEV_LATE_COUNT -/ ⟨0x3400050, [], [⟨0, 32, .cnt, 0⟩]⟩,
    /- FLT_POLICY -/ ⟨0x3400058, [], [⟨1, 16, .rwl, 0⟩]⟩,
    /- LEV_SELF -/ ⟨0x3400060, [], [⟨0, 1, .wo, 0⟩]⟩,
    /- FLT_REPORT_COUNT -/ ⟨0x3400068, [], [⟨0, 32, .cnt, 0⟩, ⟨32, 32, .cnt, 0⟩]⟩,
    /- FM_CTL -/ ⟨0x3400070, [], [⟨0, 1, .rwl, 0⟩, ⟨16, 16, .rwl, 0xc1c0⟩]⟩,
    /- FM_ADDR0 -/ ⟨0x3400078, [], [⟨0, 64, .rwl, 0⟩]⟩]

/-- Register families of the Flt block, part 2. -/
def famsFlt2 : List RegFam :=
  [
    /- FM_ADDR1 -/ ⟨0x3400080, [], [⟨0, 64, .rwl, 0⟩]⟩,
    /- FM_RESEND_COUNT -/ ⟨0x3400088, [], [⟨0, 32, .cnt, 0⟩]⟩,
    /- ORDER_COUNT -/ ⟨0x3400090, [], [⟨0, 32, .cnt, 0⟩, ⟨32, 16, .cnt, 0⟩, ⟨48, 16, .cnt, 0⟩]⟩,
    /- LEV_MEM -/ ⟨0x3400100, [(0x8, 64)], [⟨0, 16, .rwl, 0⟩, ⟨16, 1, .rwl, 0⟩]⟩,
    /- SLOST_SEQ -/ ⟨0x3404000, [], [⟨0, 32, .cnt, 0⟩]⟩,
    /- SLOST_ACK -/ ⟨0x3404008, [], [⟨0, 32, .rw, 0⟩]⟩,
    /- SLOST_REC0 -/ ⟨0x3404010, [], [⟨0, 10, .ro, 0⟩, ⟨16, 16, .ro, 0⟩, ⟨32, 8, .ro, 0⟩]⟩,
    /- SLOST_REC1 -/ ⟨0x3404018, [], [⟨0, 64, .ro, 0⟩]⟩,
    /- SLOST_REC2 -/ ⟨0x3404020, [], [⟨0, 64, .ro, 0⟩]⟩,
    /- SLOST_LOST_COUNT -/ ⟨0x3404028, [], [⟨0, 32, .cnt, 0⟩]⟩,
    /- RSL_CTL -/ ⟨0x3404030, [], [⟨0, 10, .rwl, 0⟩, ⟨10, 1, .wo, 0⟩, ⟨16, 8, .rwl, 0x32⟩]⟩,
    /- RSL_COUNT -/ ⟨0x3404038, [], [⟨0, 32, .cnt, 0⟩, ⟨32, 32, .cnt, 0⟩]⟩,
    /- STG_CTL -/ ⟨0x3404040, [], [⟨0, 16, .rwl, 0x100⟩, ⟨16, 16, .rwl, 0x20⟩, ⟨32, 4, .rwl, 0xa⟩]⟩,
    /- PTN_CTL -/ ⟨0x3404048, [], [⟨0, 32, .rwl, 0x3e8⟩]⟩,
    /- PTN_COUNT -/ ⟨0x3404050, [], [⟨0, 32, .cnt, 0⟩, ⟨32, 32, .cnt, 0⟩]⟩,
    /- DOM -/ ⟨0x3410000, [(0x4000, 2), (0x8, 512)], [⟨0, 16, .rwl, 0⟩, ⟨16, 1, .rwl, 0⟩]⟩]

/-- Register families of the Flt block, part 3. -/
def famsFlt3 : List RegFam :=
  [
    /- PTN -/ ⟨0x3420000, [(0x4000, 2), (0x8, 512)], [⟨0, 16, .rwl, 0xffff⟩, ⟨16, 10, .rwl, 0⟩, ⟨31, 1, .rwl, 0⟩]⟩,
    /- STG_HIST -/ ⟨0x3440000, [(0x4000, 5), (0x80, 32), (0x8, 16)], [⟨0, 64, .cnt, 0⟩]⟩]

/-- Register families of the Flt block. -/
def famsFlt : List RegFam := famsFlt1 ++ famsFlt2 ++ famsFlt3

/-- Register families of the Sec block, part 1. -/
def famsSec1 : List RegFam :=
  [
    /- SEC_STATUS -/ ⟨0x3800000, [], [⟨0, 2, .ro, 0⟩, ⟨2, 2, .ro, 0⟩, ⟨4, 1, .ro, 0⟩, ⟨5, 1, .ro, 0⟩, ⟨6, 1, .st, 0⟩, ⟨7, 1, .st, 0⟩]⟩,
    /- SEC_ID0 -/ ⟨0x3800008, [], [⟨0, 64, .ro, 0⟩]⟩,
    /- SEC_ID1 -/ ⟨0x3800010, [], [⟨0, 64, .ro, 0⟩]⟩,
    /- FW_DIGEST -/ ⟨0x3800018, [(0x8, 4)], [⟨0, 64, .ro, 0⟩]⟩,
    /- FW_SVN -/ ⟨0x3800038, [], [⟨0, 32, .ro, 0⟩, ⟨32, 32, .ro, 0⟩]⟩,
    /- MBX_CMD -/ ⟨0x3800040, [], [⟨0, 8, .wo, 0⟩, ⟨16, 24, .wo, 0⟩]⟩,
    /- MBX_ARG -/ ⟨0x3800048, [], [⟨0, 64, .rw, 0⟩]⟩,
    /- MBX_STATUS -/ ⟨0x3800050, [], [⟨0, 1, .st, 0⟩, ⟨8, 8, .ro, 0⟩, ⟨32, 32, .ro, 0⟩]⟩,
    /- DBG_NONCE0 -/ ⟨0x3800058, [], [⟨0, 64, .ro, 0⟩]⟩,
    /- DBG_NONCE1 -/ ⟨0x3800060, [], [⟨0, 64, .ro, 0⟩]⟩,
    /- SIG_SEQ -/ ⟨0x3800068, [], [⟨0, 32, .cnt, 0⟩]⟩,
    /- SIG_ACK -/ ⟨0x3800070, [], [⟨0, 32, .rw, 0⟩]⟩,
    /- SIG_REC0 -/ ⟨0x3800078, [], [⟨0, 8, .ro, 0⟩, ⟨8, 8, .ro, 0⟩, ⟨16, 32, .ro, 0⟩, ⟨48, 8, .ro, 0⟩]⟩,
    /- SIG_REC1 -/ ⟨0x3800080, [], [⟨0, 32, .ro, 0⟩, ⟨32, 8, .ro, 0⟩]⟩,
    /- SIG_REC2 -/ ⟨0x3800088, [], [⟨0, 64, .ro, 0⟩]⟩,
    /- SIG_LOST_COUNT -/ ⟨0x3800090, [], [⟨0, 32, .cnt, 0⟩]⟩]

/-- Register families of the Sec block, part 2. -/
def famsSec2 : List RegFam :=
  [
    /- SIG_COUNT -/ ⟨0x3800098, [], [⟨0, 32, .cnt, 0⟩, ⟨32, 32, .cnt, 0⟩]⟩,
    /- SEC_DW_DENY -/ ⟨0x38000a0, [], [⟨0, 64, .cnt, 0⟩]⟩,
    /- MBX_BUSY_COUNT -/ ⟨0x38000a8, [], [⟨0, 32, .cnt, 0⟩]⟩,
    /- TEN -/ ⟨0x3800100, [(0x8, 16)], [⟨0, 8, .ro, 0⟩, ⟨8, 1, .st, 0⟩, ⟨9, 3, .ro, 0⟩, ⟨32, 32, .ro, 0⟩]⟩]

/-- Register families of the Sec block. -/
def famsSec : List RegFam := famsSec1 ++ famsSec2

/-- Register families of the Pwr block, part 1. -/
def famsPwr1 : List RegFam :=
  [
    /- PWR_CTL -/ ⟨0x3c00000, [], [⟨0, 3, .rw, 3⟩]⟩,
    /- PWR_STATUS -/ ⟨0x3c00008, [], [⟨0, 1, .st, 0⟩, ⟨1, 3, .ro, 3⟩, ⟨4, 1, .st, 0⟩, ⟨5, 1, .st, 0⟩, ⟨6, 1, .st, 0⟩, ⟨7, 1, .st, 0⟩, ⟨8, 1, .st, 0⟩, ⟨9, 1, .st, 0⟩]⟩,
    /- PWR_REJ_COUNT -/ ⟨0x3c00010, [], [⟨0, 32, .cnt, 0⟩]⟩,
    /- PWR_REJ_ADDR -/ ⟨0x3c00018, [], [⟨0, 26, .ro, 0⟩]⟩,
    /- PWR_REJ_ACK -/ ⟨0x3c00020, [], [⟨0, 32, .rw, 0⟩]⟩,
    /- PWR_IN -/ ⟨0x3c00028, [], [⟨0, 16, .ro, 0⟩, ⟨16, 16, .ro, 0⟩, ⟨32, 16, .ro, 0⟩]⟩,
    /- PWR_BRST -/ ⟨0x3c00030, [], [⟨0, 11, .wo, 0⟩]⟩,
    /- PWR_RST -/ ⟨0x3c00038, [], [⟨0, 32, .wo, 0⟩]⟩,
    /- COOL -/ ⟨0x3c00040, [], [⟨0, 16, .ro, 0⟩, ⟨16, 16, .ro, 0⟩]⟩,
    /- PROF_DIGEST -/ ⟨0x3c00048, [(0x8, 4)], [⟨0, 64, .ro, 0⟩]⟩,
    /- ISL -/ ⟨0x3c00100, [(0x8, 24)], [⟨0, 16, .ro, 0⟩, ⟨16, 12, .ro, 0⟩, ⟨28, 16, .ro, 0⟩, ⟨44, 12, .cnt, 0⟩, ⟨56, 8, .cnt, 0⟩]⟩]

/-- Register families of the Pwr block. -/
def famsPwr : List RegFam := famsPwr1

/-- Register families of the Dbg block, part 1. -/
def famsDbg1 : List RegFam :=
  [
    /- DBG_STATUS -/ ⟨0x3e00000, [], [⟨0, 1, .st, 0⟩, ⟨1, 1, .st, 0⟩]⟩,
    /- DBG_REJ_COUNT -/ ⟨0x3e00008, [], [⟨0, 32, .cnt, 0⟩]⟩,
    /- DBG_REJ_ADDR -/ ⟨0x3e00010, [], [⟨0, 26, .ro, 0⟩]⟩,
    /- DBG_REJ_ACK -/ ⟨0x3e00018, [], [⟨0, 32, .rw, 0⟩]⟩,
    /- GPIO_DIR -/ ⟨0x3e00020, [], [⟨0, 16, .rw, 0⟩]⟩,
    /- GPIO_OUT -/ ⟨0x3e00028, [], [⟨0, 16, .rw, 0⟩]⟩,
    /- GPIO_IN -/ ⟨0x3e00030, [], [⟨0, 16, .st, 0⟩]⟩,
    /- TMUX_CTL -/ ⟨0x3e00038, [], [⟨0, 1, .rw, 0⟩, ⟨16, 16, .rwl, 0⟩]⟩,
    /- TMUX_SEL -/ ⟨0x3e00040, [(0x8, 4)], [⟨0, 16, .rwl, 0⟩, ⟨16, 16, .rwl, 0⟩, ⟨32, 16, .rwl, 0⟩, ⟨48, 16, .rwl, 0⟩]⟩,
    /- AMON_SEL -/ ⟨0x3e00060, [], [⟨0, 8, .rw, 0⟩, ⟨8, 8, .rw, 0⟩]⟩,
    /- ALERT_EN -/ ⟨0x3e00068, [], [⟨0, 25, .rw, 0x1408080⟩]⟩,
    /- ALERT_STATUS -/ ⟨0x3e00070, [], [⟨0, 25, .st, 0⟩, ⟨32, 1, .st, 0⟩, ⟨33, 1, .st, 0⟩, ⟨34, 1, .st, 0⟩]⟩,
    /- JTAG_ID -/ ⟨0x3e00078, [], [⟨0, 32, .ro, 0⟩]⟩,
    /- FLOG_CTL -/ ⟨0x3e04000, [], [⟨0, 1, .rw, 0⟩, ⟨1, 1, .wo, 0⟩]⟩,
    /- FLOG_STATUS -/ ⟨0x3e04008, [], [⟨0, 1, .st, 0⟩, ⟨1, 1, .st, 0⟩, ⟨2, 1, .st, 0⟩, ⟨8, 9, .ro, 0⟩, ⟨32, 32, .cnt, 0⟩]⟩,
    /- FLOG_ADDR -/ ⟨0x3e04010, [], [⟨3, 18, .rw, 0⟩]⟩]

/-- Register families of the Dbg block, part 2. -/
def famsDbg2 : List RegFam :=
  [
    /- FLOG_DATA -/ ⟨0x3e04018, [], [⟨0, 64, .ro, 0⟩]⟩,
    /- FLOG_NONCE -/ ⟨0x3e04020, [(0x8, 4)], [⟨0, 64, .rw, 0⟩]⟩,
    /- FLOG_PTIME -/ ⟨0x3e04040, [], [⟨0, 64, .ro, 0⟩]⟩,
    /- FLOG_WRITE_COUNT -/ ⟨0x3e04048, [], [⟨0, 32, .cnt, 0⟩, ⟨32, 32, .cnt, 0⟩]⟩]

/-- Register families of the Dbg block. -/
def famsDbg : List RegFam := famsDbg1 ++ famsDbg2

/-- The register families of the block that holds offset `a` (Table 17-1). -/
def famsAt (a : Nat) : List RegFam :=
  if a < 0x100000 then famsGctl else
  if a < 0x200000 then famsHost else
  if a < 0x400000 then famsCmd else
  if a < 0x1000000 then famsEng else
  if a < 0x1400000 then famsCis else
  if a < 0x1800000 then famsNor else
  if a < 0x2000000 then famsSw else
  if a < 0x2400000 then famsHg else
  if a < 0x2800000 then famsPt else
  if a < 0x3000000 then famsMem else
  if a < 0x3400000 then famsTime else
  if a < 0x3800000 then famsFlt else
  if a < 0x3c00000 then famsSec else
  if a < 0x3e00000 then famsPwr else
  famsDbg

end Sys2Proof.Machine
end

