-- ==== Sys2Proof/Machine/RegInit.lean ====
section
/-!
DEFINITION. What each register of BAR0 reads as after cold reset (R11, R571): the Reset column of the register tables,
with the entries that name an index, a table or a stored value worked out here (log entry 2 names those
that fuses and flash hold).
-/
namespace Sys2Proof.Machine

/-- The place of an offset within a list of index dimensions: the indices, or none where the offset names no element. -/
def dimIdx : List (Nat × Nat) → Nat → Option (List Nat)
  | [], off => if off = 0 then some [] else none
  | (stride, count) :: ds, off =>
    if off / stride < count then (dimIdx ds (off % stride)).map (off / stride :: ·) else none

/-- The indices of offset `a` in the family, or none where the family does not hold it. -/
def RegFam.idx (f : RegFam) (a : Nat) : Option (List Nat) :=
  if f.base ≤ a then dimIdx f.dims (a - f.base) else none

/-- The register family that holds an offset (R542); none for reserved and unmapped offsets (R15). -/
def famOf (a : Nat) : Option RegFam :=
  if a < 0x4000000 then (famsAt a).find? (fun f => (f.idx a).isSome) else none

/-- The word whose fields hold their Reset values. -/
def RegFam.resetWord (f : RegFam) : Nat := f.fields.foldl (fun w x => w ||| (x.reset % 2 ^ x.w) <<< x.lo) 0

/-- The 256 bytes of the format table after cold reset (R47). -/
def builtinTableBytes : List Byte := (List.range 32).flatMap (fun i => leBytes (builtinDesc i) 8)

/-- Word `n` of a digest: bytes 8n to 8n + 7, little-endian. -/
def digestWord (d : List Byte) (n : Nat) : Nat := leNat ((d.drop (8 * n)).take 8)

/-- A training entry word (Table 13-7). -/
def trainEntry (action ok alt fail timeout param : Nat) : Nat :=
  action ||| ok <<< 4 ||| alt <<< 9 ||| fail <<< 14 ||| timeout <<< 20 ||| param <<< 40

/-- The default training table (Table 13-9); an outcome the table marks with a dash is 0. -/
def defaultTrain : Nat → Nat
  | 0 => trainEntry 1 1 0 0 100000 0
  | 1 => trainEntry 2 2 0 9 20000 0
  | 2 => trainEntry 3 3 1 9 50000 (10 + 6 * 256)
  | 3 => trainEntry 4 4 0 9 1000 4000
  | 4 => trainEntry 6 6 5 0 0 0
  | 5 => trainEntry 5 6 0 9 50000 0
  | 6 => trainEntry 7 7 0 9 1000 0
  | 7 => trainEntry 8 0 0 8 0 16
  | 8 => trainEntry 2 2 0 9 20000 0
  | 9 => trainEntry 9 0 0 0 0 100
  | 16 => trainEntry 10 17 0 9 500000 0
  | 17 => trainEntry 11 4 0 9 1000 0
  | _ => 0

/-- One curve of the default profile table (R575): the maximum clock to the start temperature, then a line down to the floor
clock at 105 °C. The spec names the line and not its eight points; the model takes points at equal
steps from start to 105 °C (log entry 3). Temperatures in 0.125 °C, clocks in MHz. -/
def defaultCurve (start mx floor : Nat) : List (Nat × Nat) :=
  (List.range 8).map (fun i => (start + i * (840 - start) / 7, mx - i * (mx - floor) / 7))

/-- One record of the profile table (Table 18-7). -/
structure Profile where
  ceiling : Nat
  sluice  : Nat
  switch  : Nat
  rsv     : Nat
  curves  : List (List (Nat × Nat))
  deriving DecidableEq, Repr

/-- A record of the default profile table (Table 18-6). -/
def mkProfile (ceiling sluice switch rsv start : Nat) : Profile :=
  ⟨ceiling, sluice, switch, rsv, [defaultCurve start sluice 1000, defaultCurve start switch 800, defaultCurve start rsv 900]⟩

/-- The default profile table PP1 to PP6 (Table 18-6). -/
def defaultProfiles : List Profile :=
  [mkProfile 1800 1000 1200 1200 680, mkProfile 2600 1500 1600 1800 720, mkProfile 3200 2000 1600 1800 760,
    mkProfile 3560 2000 1600 1800 760, mkProfile 3800 2000 1600 1800 800, mkProfile 4000 2000 1600 1800 800]

/-- The 128 bytes of profile record `n` (Table 18-7). -/
def Profile.bytes (n : Nat) (p : Profile) : List Byte :=
  leBytes n 2 ++ leBytes p.ceiling 2 ++ leBytes p.sluice 2 ++ leBytes p.switch 2 ++ leBytes p.rsv 2 ++ leBytes 0 6 ++
    p.curves.flatMap (fun c => c.flatMap (fun x => leBytes x.1 2 ++ leBytes x.2 2)) ++ leBytes 0 16

/-- The 768 record bytes of a profile table (R576). -/
def profileBytes (ps : List Profile) : List Byte := (ps.zipIdx).flatMap (fun x => x.1.bytes (x.2 + 1))

/-- The logical engine that physical engine `k` serves before any substitution (R24); 0x7F none. -/
def homeLogical (k : Nat) : Nat := if k % 17 = 16 then 0x7F else 16 * (k / 17) + k % 17

/-- The physical engine that serves logical engine `n` before any substitution (R24). -/
def homePhys (n : Nat) : Nat := 17 * (n / 16) + n % 16

/-- Registers whose Reset entry is an index, a table or a stored value. -/
def regInitX (a : Nat) (idx : List Nat) (dflt : Nat) : Nat :=
  let i := idx.headD 0
  if a = R.GCTL_ID then dflt ||| 0xB1 <<< 16 ||| Config.vendorId.toNat <<< 32
  else if a = R.JTAG_ID then 0x14810001 ||| Config.jtagMaker.toNat <<< 1
  else if a = R.SEC_STATUS then dflt ||| 1
  else if a = R.SEC_ID0 then digestWord (sha384 Config.deviceEc.toList) 0
  else if a = R.SEC_ID1 then digestWord (sha384 Config.deviceEc.toList) 1
  else if R.FW_DIGEST 0 ≤ a ∧ a < R.FW_DIGEST 4 then digestWord (sha256 (sha384 (Config.factoryImage 0 1) ++ sha384 (Config.factoryImage 0 2))) i
  else if a = R.DBG_NONCE0 then (Config.bootNonce 0).toNat
  else if a = R.DBG_NONCE1 then (Config.bootNonce 1).toNat
  else if R.INT_MAP 0 ≤ a ∧ a < R.INT_MAP 25 then (a - R.INT_MAP 0) / 8
  else if R.FMT_DESC 0 ≤ a ∧ a < R.FMT_DESC 32 then builtinDesc i
  else if R.FMT_DIGEST 0 ≤ a ∧ a < R.FMT_DIGEST 4 then digestWord (sha256 builtinTableBytes) i
  else if R.RULE_DIGEST 0 ≤ a ∧ a < R.RULE_DIGEST 4 then digestWord (sha256 (List.replicate 65536 0)) i
  else if R.PROF_DIGEST 0 ≤ a ∧ a < R.PROF_DIGEST 4 then digestWord (sha256 (profileBytes defaultProfiles)) i
  else if 0x400000 ≤ a ∧ a < 0x400000 + 136 * 0x10000 ∧ a = R.ENG_STATUS i then
    dflt ||| b2n (i % 17 == 16) ||| homeLogical i <<< 16
  else if R.ENG_MAP 0 ≤ a ∧ a < R.ENG_MAP 128 then homePhys i
  else if 0x2400000 ≤ a ∧ a < 0x2400000 + 144 * 0x4000 ∧ a = R.PT_LANEMAP i then
    let l := 74 * (i / 18) + 4 * (i % 18)
    l ||| (l + 1) <<< 10 ||| (l + 2) <<< 20 ||| (l + 3) <<< 30
  else if R.PT_TRAIN 0 ≤ a ∧ a < R.PT_TRAIN 32 then defaultTrain i
  else if a = R.RSV_MODE 6 then 0xFF00000000000000
  else if a = R.RSV_MODE 7 then 0xFFFFFFFFFFFFFFFF
  else if a = R.LPD_SPARE then dflt ||| 0xFF
  else if R.LPD_CH 0 ≤ a ∧ a < R.LPD_CH 128 then dflt ||| i
  else dflt

/-- What the register at offset `a` reads as after cold reset (R11). -/
def regInit (a : Nat) : Word :=
  match famOf a with
  | none => 0
  | some f => BitVec.ofNat 64 (regInitX a ((f.idx a).getD []) f.resetWord)

end Sys2Proof.Machine
end

