-- ==== Sys2Proof/Machine/State.lean ====
section
/-!
DEFINITION. The state of the block: the registers of BAR0, and the structured state behind them, chapter by chapter; what has left
the block (`out`); and the queue of commands that are waiting, first in, first out.
-/
namespace Sys2Proof.Machine
open Sys2Proof

/-- What leaves the block: an MSI-X message write; the data a host or bus read returns; a message of a class (0 S, 1 C, 2 D, 3 M) to a
fabric address; a frame toward the ports of a mask, with its FENCE flag; a flit or frame on one port; a level on a pin; a reply on a
side interface; an SPDM response on a binding (0 PCIe, 1 and 2 the management ports), within a secured session or in clear; a datagram of a session
to the fault manager on a management port. -/
inductive Out where
  | msix (vector addr data : Nat)
  | read (value : Nat)
  | msg (dst cls : Nat) (body : List Byte)
  | chunk (ports : Nat) (fence : Bool) (body : List Byte)
  | flit (port : Nat) (body : List Byte)
  | udp (port : Nat) (body : List Byte)
  | packet (port cls : Nat) (body : List Byte)
  | pin (name : String) (level : Bool)
  | reply (channel : String) (body : List Byte)
  | spdm (binding : Nat) (session : Option Nat) (body : List Byte)
  | datagram (mgmt session addr udp : Nat) (body : List Byte)
  deriving DecidableEq, Repr

/-- One entry of the MSI-X table (R538). -/
structure MsixEntry where
  addr : Nat
  data : Nat
  mask : Bool
  deriving DecidableEq, Repr

/-- The host interface (chapter 17): the MSI-X table, PBA and masks, the interrupt lines as last seen, the vectors within
their moderation gap and the triggers held there, the latched command words, the staging area with its marks and
its locks (first byte, length, holder). -/
structure HostIf where
  msix      : SMap MsixEntry
  pba       : Nat
  fnMask    : Bool
  busMaster : Bool
  d3hot     : Bool
  lines     : Nat
  gapOpen   : Nat
  gapHeld   : Nat
  qcmd      : SMap Word
  staging   : Bytes
  marks     : Nat
  locks     : List (Nat × Nat × Nat)
  held      : List (Nat × Nat × Nat × List Byte)
  deriving DecidableEq, Repr

/-- A masked MSI-X entry, its value at reset (R541). -/
def MsixEntry.init : MsixEntry := ⟨0, 0, true⟩

/-- The host interface after reset (R541, R564). -/
def HostIf.init : HostIf := ⟨[], 0, false, false, false, 0, 0, 0, [], [], 0, [], []⟩

/-- The crossings between islands (R28): the credit units held in each, the engine output port next in each sluice die's round robin (R31), and the
commands whose data waits for credit, oldest first, with the crossings they take. -/
structure Crossings where
  units : NMap
  next  : NMap
  held  : List (List Nat × Instr)
  deriving DecidableEq, Repr

/-- The state of the block. -/
structure State where
  regs    : SMap Word
  turn    : Nat
  fresh   : Nat
  host    : HostIf
  eng     : Engines
  cis     : CisStore
  cp      : CmdProc
  mem     : Mem
  binds   : OMap BindSet
  nor     : Noria
  bitev   : NMap
  det     : Det
  sec     : Sec
  journal : List JEntry
  flog    : Bytes
  reports : NMap
  beat    : Nat
  sw      : Switch
  links   : SMap Link
  pwr     : Power
  rsv     : Rsv
  flt     : Flt
  dbg     : Debug
  flash   : Flash
  xing    : Crossings
  out     : List Out
  pending : List Instr
  deriving DecidableEq, Repr

/-- Why a run stops with a fault. -/
inductive Fault where
  /-- No command raises it: the block reports every error in its state (its traps, records and status codes), and goes on. Safe: the obligation
  LinesFollowCauses says that every step answers a next state. -/
  | none
  deriving DecidableEq, Repr

/-- Why a command is refused. -/
inductive Refusal where
  /-- The arm of a command whose meaning is not written; safe. -/
  | notModelled (mnemonic : String)
  deriving DecidableEq, Repr

/-- The machine after reset. -/
def State.reset : State :=
  { regs := [], turn := 0, fresh := 0, host := HostIf.init, eng := Engines.init, cis := CisStore.init, cp := CmdProc.init,
    mem := ⟨[], []⟩, binds := [], nor := Noria.init, bitev := [], det := Det.init, sec := Sec.init, journal := [], flog := [], reports := [],
    beat := 0, sw := Switch.init, links := [], pwr := Power.init, rsv := Rsv.init, flt := Flt.init,
    dbg := Debug.init, flash := Flash.init, xing := ⟨[], [], []⟩, out := [], pending := [] }

end Sys2Proof.Machine
end

