-- ==== Sys2Proof/Machine/Ops.lean ====
section
/-!
DEFINITION. Operations every block shares: register fields and counters, messages and trap notices, fault reports, the field
log's queue, interrupt causes and MSI-X messages (chapters 00, 15, 17, 19).
-/
namespace Sys2Proof.Machine
open Sys2Proof

/-! ### Registers -/

/-- The word a register holds. -/
def State.word (s : State) (a : Nat) : Word := SMap.get regInit s.regs a

/-- Set the word a register holds. -/
def State.setWord (s : State) (a : Nat) (w : Word) : State := { s with regs := SMap.set regInit s.regs a w }

/-- The value of a register field. -/
def State.get (s : State) (f : Fld) : Nat := bits (s.word f.reg).toNat f.lo f.w

/-- A word with one field replaced; the value is cut to the field's width. -/
def putField (w : Word) (f : Fld) (v : Nat) : Word :=
  BitVec.ofNat 64 ((w.toNat ^^^ (bits w.toNat f.lo f.w) <<< f.lo) ||| (v % 2 ^ f.w) <<< f.lo)

/-- Set a register field. -/
def State.set (s : State) (f : Fld) (v : Nat) : State := s.setWord f.reg (putField (s.word f.reg) f v)

/-- Add to a CNT field; it wraps modulo 2^w (R13). -/
def State.inc (s : State) (f : Fld) (n : Nat := 1) : State := s.set f (s.get f + n)

/-- Set several fields in turn. -/
def State.sets (s : State) (l : List (Fld × Nat)) : State := l.foldl (fun t p => t.set p.1 p.2) s

/-- Return every register whose offset satisfies `p` to its value after cold reset. -/
def State.resetRegs (s : State) (p : Nat → Bool) : State := { s with regs := SMap.erase p s.regs }

/-- Return the CNT fields of the registers whose offsets satisfy `p` to 0 (R13). -/
def State.resetCounts (s : State) (p : Nat → Bool) : State :=
  (s.regs.filter (fun e => p e.1)).foldl (fun s e => match famOf e.1 with
    | some f => (f.fields.filter (fun x => x.acc == .cnt)).foldl (fun s x => s.set ⟨e.1, x.lo, x.w⟩ 0) s
    | none => s) s

/-- The value a free choice takes, `w` bits wide, and the state that has used it (log entry 1). -/
def State.free (s : State) (w : Nat) : Nat × State :=
  (Config.freeValue s.fresh % 2 ^ w, { s with fresh := s.fresh + 1 })

/-- Append to what leaves the block. -/
def State.emit (s : State) (o : Out) : State := { s with out := s.out ++ [o] }

/-- Does the device answer BAR0 (R571)? -/
def State.ready (s : State) : Bool := s.get F.PWR_STATUS_ready == 1

/-- What a BAR0 write does: nothing before PWR_STATUS.ready (R571, R573), nor in D3hot, where the function answers configuration requests only
(R540). -/
def State.bar (s : State) (f : State → State) : State := if s.ready && !s.host.d3hot then f s else s

/-! ### Bit-packed messages -/

/-- A number built of fields: lowest bit, width, value. -/
def packBits (l : List (Nat × Nat × Nat)) : Nat := l.foldl (fun a x => a ||| (x.2.2 % 2 ^ x.2.1) <<< x.1) 0

/-- Class S, C, D and M (chapter 12). -/
def clsS : Nat := 0
/-- Class C. -/
def clsC : Nat := 1
/-- Class D. -/
def clsD : Nat := 2
/-- Class M. -/
def clsM : Nat := 3

/-- Send a message of `n` bytes built of fields to a fabric address in a class. -/
def State.send (s : State) (dst cls n : Nat) (l : List (Nat × Nat × Nat)) : State :=
  s.emit (.msg dst cls (leBytes (packBits l) n))

/-- The fabric address of a whole module (R480). -/
def moduleAddr (m : Nat) : Nat := catBits m 0xFF 8

/-- This module's identifier (SW_ID). -/
def State.me (s : State) : Nat := s.get F.SW_ID_module

/-- Send a class S message of `n` bytes to the watermaster, and a copy to the standby while there is one (R480). The type is
bits [7:0] and the sender bits [31:16] (R482). -/
def State.sendWm (s : State) (type n : Nat) (l : List (Nat × Nat × Nat)) : State :=
  let l := (0, 8, type) :: (16, 16, s.me) :: l
  let s1 := s.send (moduleAddr (s.get F.WM_CTL_wm)) clsS n l
  if s.get F.WM_CTL_standby = 0xFFFF then s1
  else s1.send (moduleAddr (s.get F.WM_CTL_standby)) clsS n l

/-- Send a laid-out message to the watermaster, with the copy to the standby (R480). -/
def State.tellWm (s : State) (b : List Byte) : State :=
  let s1 := s.emit (.msg (moduleAddr (s.get F.WM_CTL_wm)) clsS b)
  if s.get F.WM_CTL_standby = 0xFFFF then s1 else s1.emit (.msg (moduleAddr (s.get F.WM_CTL_standby)) clsS b)

/-- Send a class S message of `n` bytes to a module (R482). -/
def State.sendMod (s : State) (m type n : Nat) (l : List (Nat × Nat × Nat)) : State :=
  s.send (moduleAddr m) clsS n ((0, 8, type) :: (16, 16, s.me) :: l)

/-- The class S trap notification of a trap (R483, Table 15-2). -/
def State.trapNotice (s : State) (code coll chunk seq turn unit : Nat) : State :=
  s.sendWm 0x80 32 [(8, 8, code), (32, 32, coll), (64, 32, chunk), (96, 32, seq), (128, 64, turn), (192, 16, unit)]

/-- The key under which the last report of a kind and unit is kept: its turn under 2k, its folded count under 2k + 1 (R484). -/
def reportKey (kind unit : Nat) : Nat := 2 * (kind * 65536 + unit)

/-- Report a fault to the watermaster (R483, R484). A report within 1 ms of the last one of the same kind and unit is
folded into the next, but for a port that goes down. -/
def State.faultReport (s : State) (kind unit severity detail : Nat) : State :=
  let k := reportKey kind unit
  let last := s.reports.rd k
  if last ≠ 0 ∧ s.turn < last - 1 + 1000000 ∧ ¬ (kind = 9 ∧ severity = 2) then
    { s with reports := s.reports.wr (k + 1) (s.reports.rd (k + 1) + 1) }.inc F.FLT_REPORT_COUNT_folded
  else
    let folded := s.reports.rd (k + 1)
    let s := { s with reports := (s.reports.wr k (s.turn + 1)).wr (k + 1) 0 }
    (s.inc F.FLT_REPORT_COUNT_sent).sendWm 0x81 32
      [(8, 8, kind), (32, 16, unit), (48, 2, severity), (64, 64, s.turn), (128, 64, detail), (192, 32, folded)]

/-! ### Interrupt causes -/

/-- One event of an event cause (R558). -/
def State.intEvent (s : State) (k : Nat) : State := s.inc (F.INT_EVT_events k)

/-- Do a count and its acknowledgement differ (R550)? -/
def State.differ (s : State) (a b : Fld) : Bool := s.get a != s.get b

/-- cfg_rej of the host queues: a queue page whose two counts differ (R550). -/
def State.queueRej (s : State) : Bool := (List.range 64).any (fun q => s.differ (F.Q_REJ_COUNT_rej q) (F.Q_REJ_ACK_ack q))

/-- OR of every block's cfg_rej (cause 17). -/
def State.anyRej (s : State) : Bool :=
  s.differ F.CMD_REJ_COUNT_rej F.CMD_REJ_ACK_ack || s.differ F.ENG_REJ_COUNT_rej F.ENG_REJ_ACK_ack
    || s.differ F.CIS_REJ_COUNT_rej F.CIS_REJ_ACK_ack || s.differ F.NOR_REJ_COUNT_rej F.NOR_REJ_ACK_ack
    || s.differ F.SW_REJ_COUNT_rej F.SW_REJ_ACK_ack || s.differ F.GR_REJ_COUNT_rej F.GR_REJ_ACK_ack
    || s.differ F.HG_REJ_COUNT_rej F.HG_REJ_ACK_ack || s.differ F.PT_REJ_COUNT_rej F.PT_REJ_ACK_ack
    || s.differ F.MEM_REJ_COUNT_rej F.MEM_REJ_ACK_ack || s.differ F.TIME_REJ_COUNT_rej F.TIME_REJ_ACK_ack
    || s.differ F.AUD_REJ_COUNT_rej F.AUD_REJ_ACK_ack || s.differ F.FLT_REJ_COUNT_rej F.FLT_REJ_ACK_ack
    || s.differ F.PWR_REJ_COUNT_rej F.PWR_REJ_ACK_ack || s.differ F.DBG_REJ_COUNT_rej F.DBG_REJ_ACK_ack || s.queueRej

/-- Free space of the audit region in KiB (R351); the register's own field is its home. -/
def State.audHold (s : State) : Bool := s.get F.AUD_STATUS_hold == 1

/-- Is cause k asserted (Table 17-5)? -/
def State.cause (s : State) (k : Nat) : Bool :=
  match k with
  | 0 => s.differ F.FNT_SEQ_seq F.FNT_ACK_ack
  | 1 => s.differ F.CIS_OVF_SEQ_seq F.CIS_OVF_ACK_ack
  | 2 => s.differ F.SPT_SEQ_seq F.SPT_ACK_ack
  | 3 => s.differ F.GIX_SEQ_seq F.GIX_ACK_ack
  | 4 => s.differ F.RES_SEQ_seq F.RES_ACK_ack
  | 5 => s.differ F.PVF_SEQ_seq F.PVF_ACK_ack
  | 6 => s.differ F.MBR_SEQ_seq F.MBR_ACK_ack
  | 7 => s.differ F.SLOST_SEQ_seq F.SLOST_ACK_ack
  | 8 => s.differ F.BSN_SEQ_seq F.BSN_ACK_ack
  | 9 => s.differ F.WIN_SEQ_seq F.WIN_ACK_ack
  | 10 => s.differ F.SIG_SEQ_seq F.SIG_ACK_ack
  | 17 => s.anyRej
  | 18 => s.get F.CIS_STATUS_cfg_bad == 1 || s.get F.MEM_STATUS_cfg_bad == 1 || s.get F.FLT_STATUS_cfg_bad == 1
  | 21 => s.audHold
  | 22 => s.get F.ENG_GSTATUS_degraded_any == 1 || s.get F.MEM_STATUS_degraded == 1
  | 23 => (List.range 64).any (fun q => s.get (F.Q_STATUS_stopped q) == 1)
  | _ => k ≤ 24 && s.differ (F.INT_EVT_events k) (F.INT_EVT_ACK_ack k)

/-- INT_STATUS: bit k is 1 while cause k is asserted (R558). -/
def State.intStatus (s : State) : Nat :=
  ((List.range 25).filter s.cause).foldl (fun a k => a ||| 1 <<< k) 0

/-- INT_PEND: INT_STATUS and INT_EN (Table 17-9). -/
def State.intPend (s : State) : Nat := s.intStatus &&& s.get F.INT_EN_en

/-- The lines of the vectors, bit v for vector v (R559). -/
def State.intLines (s : State) : Nat :=
  (bitList s.intPend 25).foldl (fun a k => a ||| 1 <<< s.get (F.INT_MAP_vector k)) 0

/-- The entry of a vector in the MSI-X table. -/
def State.msixEntry (s : State) (v : Nat) : MsixEntry := SMap.get (fun _ => MsixEntry.init) s.host.msix v

/-- Is a vector held from sending by its mask, the function's mask or Bus Master Enable (R559)? -/
def State.msixHeld (s : State) (v : Nat) : Bool := s.host.fnMask || !s.host.busMaster || (s.msixEntry v).mask

/-- Write one MSI-X message and open the vector's moderation gap (R559, R539). -/
def State.msixWrite (s : State) (v : Nat) : State :=
  let e := s.msixEntry v
  let s := (s.emit (.msix v e.addr e.data)).inc (F.INT_VEC_sent v)
  if s.get (F.INT_VEC_gap v) = 0 then s else { s with host.gapOpen := s.host.gapOpen ||| 1 <<< v }

/-- Act on one trigger of vector v (R559): hold it in the PBA, hold it for the gap, or send. In D3hot the function
answers configuration requests only (R540), so a trigger is held in the PBA. -/
def State.msixTrigger (s : State) (v : Nat) : State :=
  if s.msixHeld v || s.host.d3hot then { s with host.pba := s.host.pba ||| 1 <<< v }
  else if bit s.host.gapOpen v then { s with host.gapHeld := s.host.gapHeld ||| 1 <<< v }
  else s.msixWrite v

/-- Compare the vector lines with those last seen and act on every rise (R559). While no cause is enabled no line is 1. -/
def State.hostIrq (s : State) : State :=
  if s.get F.INT_EN_en = 0 then { s with host.lines := 0 }
  else
    let now := s.intLines
    let rises := (bitList now 64).filter (fun v => !bit s.host.lines v)
    rises.foldl State.msixTrigger { s with host.lines := now }

/-- Release a held vector: send one message if its line is 1, and clear its PBA bit (R559). -/
def State.msixRelease (s : State) (v : Nat) : State :=
  if !bit s.host.pba v then s
  else if s.msixHeld v || s.host.d3hot then s
  else
    let t := if bit s.intLines v then s.msixTrigger v else s
    { t with host.pba := t.host.pba &&& (2 ^ 64 - 1 - 1 <<< v) }

/-- Every command's effect ends with the interrupt lines it moves, and answers the next state. -/
def done (s : State) : Host.Outcome State Fault Refusal := .next s.hostIrq

/-! ### Counts of chapters 10 and 11 -/

/-- Count a timing-perturbing event (R330); the register saturates, and the step's own count is kept beside it. -/
def State.pert (s : State) (code : Nat) (n : Nat := 1) : State :=
  { s with det.audit.perts := s.det.audit.perts.wr code (s.det.audit.perts.rd code + n) }.set (F.PERT_events code) (min (2 ^ 32 - 1) (s.get (F.PERT_events code) + n))

/-- Count an event of a step (R328, Table 10-9): 0 halted collectives, 1 unrecovered batches, 2 skipped updates, 3 fence and exclusion entries; kept
with them, 4 the events of R328, which 1 and 3 are. -/
def State.bitEvent (s : State) (step k : Nat) : State :=
  let add := fun (m : NMap) (k : Nat) => m.wr (8 * step + k) (m.rd (8 * step + k) + 1)
  { s with bitev := if k = 1 ∨ k = 3 then add (add s.bitev k) 4 else add s.bitev k }

/-- Dispose of one packet or unit of `n` payload bytes in the spillway under reason r (R371). -/
def State.spill (s : State) (r n : Nat) : State := (s.inc (F.SPILL_PKT_packets r)).inc (F.SPILL_BYTE_bytes r) n

/-- Is class C work paused on the module (R476): a stack at step 3, or a pause of chapter 18? -/
def State.classCPaused (s : State) : Bool := s.get F.MEM_STATUS_paused != 0 || s.get F.PWR_STATUS_paused == 1

/-! ### The power profile -/

/-- A digest in four registers: word n is bytes 8n to 8n + 7. -/
def State.setDigest (s : State) (reg : Nat → Nat) (d : List Byte) : State :=
  (List.range 4).foldl (fun t n => t.setWord (reg n) (BitVec.ofNat 64 (digestWord d n))) s

/-- Take the profile table that waits, and the profile that PWR_CTL selects (R576, R577); a change of it is a POWER event (R581). -/
def State.takeProfile (s : State) : State :=
  let s := match s.pwr.next with
    | some t => { s with pwr.table := some t, pwr.next := none }.setDigest R.PROF_DIGEST (sha256 t)
    | none => s
  let s := if s.get F.PWR_STATUS_profile = s.get F.PWR_CTL_profile then s else s.intEvent 24
  s.set F.PWR_STATUS_profile (s.get F.PWR_CTL_profile)

/-! ### The field log's queue -/

/-- A saturating addition to a count of `n` bytes in the field log (R601). -/
def State.flogAdd (s : State) (off n : Nat) (by_ : Nat := 1) : State :=
  { s with flog := s.flog.wr off (leBytes (min (256 ^ n - 1) (s.flog.num off n + by_)) n) }

/-- Is the journal kind permanent (Table 19-8)? -/
def jPermanent (kind : Nat) : Bool := kind == 0x02 || kind == 0x04 || kind == 0x0A

/-- The journal entry of an event of this moment, with the next entry's number (Table 19-7). DEDUCED (log 44): the number is taken at the event, so that
a summary, which holds the event's counts, is numbered past it and no count is applied twice at power-up (R606). -/
def State.entryNow (s : State) (kind sub unit temp mv sig detail : Nat) : JEntry :=
  ⟨kind, sub, unit, s.get F.AUD_BOOT_boot, s.get F.FLOG_PTIME_seconds, s.turn, temp, mv, sig, detail, s.flash.next⟩

/-- Put a journal entry in the queue of entries that wait for flash (R602, R604). A rolling entry that finds 256 waiting is
dropped and counted; a permanent entry goes ahead of every rolling one. -/
def State.journalPut (s : State) (kind sub unit temp mv sig detail : Nat) : State :=
  let e := s.entryNow kind sub unit temp mv sig detail
  let t := { s with flash.next := s.flash.next + 1 }
  if jPermanent kind then
    { t with journal := s.journal.filter (fun x => jPermanent x.kind) ++ e :: s.journal.filter (fun x => !jPermanent x.kind) }
  else if s.journal.length ≥ 256 then (s.inc F.FLOG_STATUS_dropped).flogAdd 0x38 4
  else { t with journal := s.journal ++ [e] }

end Sys2Proof.Machine
end

