-- ==== Sys2Proof/Machine/Crossing.lean ====
section
/-!
DEFINITION. The crossings between islands (R28 to R31, R570): their table, the credit a producer holds, and what waits behind one without credit.
-/
namespace Sys2Proof.Machine
open Sys2Proof

/-- A crossing of Table 01-4: the producing and the consuming island, the depth of its FIFO and its credit unit, both in bytes. -/
structure Crossing where
  src   : Nat
  dst   : Nat
  depth : Nat
  unit  : Nat
  deriving DecidableEq, Repr

/-- The 112 data crossings of Table 01-4 in the order of TMUX group 6 (Table 19-3): ingress 0–7, egress 8–23, engine input 24–39, engine output 40–47,
flume 48–79 from the sluice dies and 80–111 from the reservoir dies. Islands are numbered as in Table 18-2. -/
def dataCrossings : List Crossing :=
  (List.range 8).map (fun p => ⟨p, 8 + p / 4, 65536, 256⟩)
    ++ [8, 9].flatMap (fun d => (List.range 8).map (fun p => ⟨d, p, 65536, 256⟩))
    ++ [8, 9].flatMap (fun d => (List.range 8).map (fun l => ⟨d, 10 + l, 65536, 256⟩))
    ++ (List.range 8).map (fun l => ⟨10 + l, 8 + l / 4, 65536, 256⟩)
    ++ (List.range 8).flatMap (fun l => (List.range 4).map (fun r => ⟨10 + l, 18 + r, 16384, 64⟩))
    ++ (List.range 4).flatMap (fun r => (List.range 8).map (fun l => ⟨18 + r, 10 + l, 16384, 64⟩))

/-- The 23 stops of the control ring, 112–134: the management die's, then those of the switch-core, sluice, reservoir and port dies. -/
def ringStops : List Crossing :=
  ([22, 8, 9] ++ (List.range 8).map (· + 10) ++ (List.range 4).map (· + 18) ++ List.range 8).map (fun i => ⟨i, 22, 4096, 64⟩)

/-- Every crossing, by its index in TMUX group 6. -/
def crossings : List Crossing := dataCrossings ++ ringStops

/-- The home die of a source (R358, R24). -/
def homeDie (src : Nat) : Nat := if src < 144 then src / 72 else if src < 160 then (src - 144) / 8 else 0

/-- Clusters of a set of engines. -/
def clustersOf (engs : List Nat) : List Nat := (engs.map (· / 8)).eraseDups

/-- The ingress crossing of a port. -/
def ingressOf (port : Nat) : Nat := port / 18
/-- The egress crossing from a switch-core die to a port. -/
def egressOf (die port : Nat) : Nat := 8 + 8 * die + port / 18
/-- The engine-input crossing from a switch-core die to a cluster. -/
def inputOf (die cluster : Nat) : Nat := 24 + 8 * die + cluster / 2
/-- The engine-output crossing of a cluster. -/
def outputOf (cluster : Nat) : Nat := 40 + cluster / 2
/-- The crossing by which a source's data enters the switch core: none for the management die, whose ring has no limit. -/
def enterOf (src : Nat) : List Nat := if src < 144 then [ingressOf src] else if src < 160 then [outputOf (src - 144)] else []
/-- The crossing by which a source's data leaves the switch core toward a port, a cluster (224 on) or the management die (255). -/
def leaveOf (src dest : Nat) : List Nat :=
  if dest < 144 then [egressOf (homeDie src) dest] else if dest = 0xFF then [] else [inputOf (homeDie src) (dest - 0xE0)]
/-- The flume crossings by which a cluster writes memory, and reads it. -/
def flumeOf (cluster : Nat) (read : Bool) : List Nat :=
  (List.range 4).map (fun r => if read then 80 + 8 * r + cluster / 2 else 48 + 4 * (cluster / 2) + r)

/-- Is a crossing's credit withheld: do its islands differ by more than the limits (R570)? The ring's stops have no such limit (R569). -/
def State.withheld (s : State) (x : Nat) : Bool :=
  match dataCrossings[x]? with
  | some c => s.pwr.apart.any (fun p => p == (c.src, c.dst) || p == (c.dst, c.src))
  | none => false

/-- The credits a producer holds: one for each credit unit free in the consumer's FIFO (R28). -/
def State.credits (s : State) (x : Nat) : Nat :=
  match crossings[x]? with
  | some c => if s.withheld x then 0 else c.depth / c.unit - s.xing.units.rd x
  | none => 0

/-- Is a crossing full, as its producer sees it (Table 19-3)? -/
def State.crossFull (s : State) (x : Nat) : Bool := s.credits x == 0

/-- Must data that takes these crossings wait: is one full, or does earlier data wait for one of them (R29)? -/
def State.stuck (s : State) (xs : List Nat) : Bool := xs.any (fun x => s.crossFull x || s.xing.held.any (fun h => h.1.contains x))

/-- Data that a command brings crosses by the crossings named; where they have no credit it waits, whole and in order, and the producer stalls (R28,
R29). -/
def State.through (s : State) (xs : List Nat) (i : Instr) (f : State → State) : State :=
  if s.stuck xs then { s with xing.held := s.xing.held ++ [(xs, i)] } else f s

/-- What waits and may cross now, oldest first, and what goes on waiting. -/
def State.crossNow (s : State) : List Instr × List (List Nat × Instr) :=
  s.xing.held.foldl (fun a h =>
    if h.1.any (fun x => s.crossFull x || a.2.any (fun g => g.1.contains x)) then (a.1, a.2 ++ [h]) else (a.1 ++ [h.2], a.2)) ([], [])

/-- The engine output ports of a sluice die that hold data, in ascending order of their keys. A cluster whose packet waits for a buffer is granted no
credit (R363). -/
def State.sending (s : State) (die : Nat) : List Nat :=
  (s.eng.strms.items.filter (fun e => e.1 / 256 == die && decide (e.2.level > 0) && !s.sw.waiting.any (fun w => w.src == 144 + e.1 / 128))).map (·.1)

/-- One turn-clock pulse of a sluice die's engine-output crossing: what it holds enters the switch core, and one credit unit of a port enters it while
there is credit, the ports that hold data in round robin (R31, log entry 69). -/
def State.drainDie (s : State) (die : Nat) : State :=
  let x := 40 + die
  let s := if s.withheld x then s else { s with xing.units := s.xing.units.wr x 0 }
  if s.crossFull x then s
  else
    let l := s.sending die
    match (l.find? (fun k => decide (s.xing.next.rd die ≤ k))).or l.head? with
    | none => s
    | some k => match s.eng.strms.find k with
      | none => s
      | some t =>
        { s with
          eng.strms := s.eng.strms.put k { t with level := t.level - 256 }
          xing.units := s.xing.units.wr x (s.xing.units.rd x + 1)
          xing.next := s.xing.next.wr die (k + 1) }

end Sys2Proof.Machine
end

