-- ==== Sys2Proof/Machine/CollOps.lean ====
section
/-!
DEFINITION. What every collective shares (chapter 08): events, chunk frames, parties and receivers, retention and acknowledgement,
halting, completion records, and the step that settles a collective after each change of its state.
-/
namespace Sys2Proof.Machine
open Sys2Proof

/-! ### Events, contexts, groups -/

/-- The register field of event counter n (Table 08-12). -/
def evt (n : Nat) : Fld := F.EVT_value (n / 512) (n % 512)

/-- Add to an event counter (R258). -/
def State.evtAdd (s : State) (n inc : Nat) : State := s.inc (evt n) inc

/-- Has the counter reached the threshold (R230, R258)? -/
def State.evtMet (s : State) (n target : Nat) : Bool := (s.get (evt n) + 2 ^ 32 - target % 2 ^ 32) % 2 ^ 32 < 2 ^ 31

/-- The collective of a context. -/
def State.coll (s : State) (x : Nat) : Option Coll := s.cp.colls.find x

/-- Put a collective in a context. -/
def State.putColl (s : State) (x : Nat) (c : Coll) : State := { s with cp.colls := s.cp.colls.put x c }

/-- The context of an incomplete collective by its identifier. -/
def State.collOf (s : State) (id : Nat) : Option (Nat × Coll) :=
  (s.cp.colls.items).find? (fun p => p.2.cmd.collId == id)

/-- The commands accepted and not complete: those in a context and those that wait at the head of a queue. -/
def State.accepted (s : State) : List Coll :=
  s.cp.colls.items.map (·.2) ++ s.cp.queues.filterMap (fun (e : Nat × Queue) => if e.2.ctx.isSome then none else e.2.wait)

/-- The group of a number. -/
def State.group (s : State) (g : Nat) : Option Group := s.cp.groups.find g

/-- The group of a collective; one with no members where it takes none. -/
def State.groupOf (s : State) (c : Coll) : Group := (s.group c.cmd.group).getD ⟨0, 0, 0, 0, [], []⟩

/-- The format of an index as the table holds it (R36). -/
def State.fmt (s : State) (i : Nat) : Fmt := fmtOfDesc i (s.word (R.FMT_DESC i)).toNat

/-! ### Sparse layouts and chunk capacity -/

/-- Positions per group, kept positions per group and map bits of a sparse layout (Table 04-1). -/
def layG (l : Nat) : Nat := if l = 2 then 8 else 4
/-- Kept positions per group (Table 04-1). -/
def layN (l : Nat) : Nat := if l = 1 then 1 else 2

/-- Bytes of one MX block of a format (R69). -/
def mxBytes (f : Fmt) : Nat := 1 + 4 * f.width

/-- Bytes of the value section of one compressed block (R119, R120). -/
def valueBytes (f : Fmt) (mx : Bool) (l : Nat) : Nat :=
  if mx then 2 * layN l * mxBytes f else 8 * layN l * f.width

/-- Bytes of one compressed block (Table 04-4). -/
def blockBytes (f : Fmt) (mx : Bool) (l : Nat) : Nat := 8 * layG l + valueBytes f mx l

/-- Elements of the operand that one chunk of a stream carries (R266); the unit of a dispatch is a token, of a gather an
index of 4 bytes, of a scatter-add a record of an index and a value. -/
def State.perChunk (s : State) (c : Cmd) : Nat :=
  let f := s.fmt c.fmtIn
  let b := c.chunkBytes
  let n :=
    if c.op = 0x07 then b / max 1 (bits c.arg0 0 16 * f.width / 8 + bits c.arg1 0 16)
    else if c.op = 0x08 ∨ c.op = 0x09 then b / 4 / 128 * 128
    else if c.op = 0x0A then b / max 1 (4 + f.width / 8)
    else if c.sparse then b / max 1 (blockBytes f c.mx c.lay) * (64 * layG c.lay)
    else if c.mx then b / max 1 (mxBytes f) * 32 / 128 * 128
    else b * 8 / max 1 f.width / 128 * 128
  max 1 n

/-- Chunks of one member's contribution (R266). -/
def State.chunksIn (s : State) (c : Cmd) : Nat :=
  if 1 ≤ c.op ∧ c.op ≤ 0x0C ∧ c.op ≠ 0x0B then (c.elements + s.perChunk c - 1) / s.perChunk c else 0

/-- Chunks of the result stream (Table 08-5). -/
def State.chunksOut (s : State) (c : Cmd) : Nat :=
  if c.op = 0x0A then 0
  else if c.op = 0x04 then s.chunksIn c * ((s.group c.group).map (·.ranks)).getD 0
  else s.chunksIn c

/-! ### Chunk frames (Table 08-6) -/

/-- The 16-byte chunk header. -/
def chunkHeader (id chunk rank covers kind tree re fmt : Nat) : List Byte :=
  leBytes (packBits [(0, 32, id), (32, 32, chunk), (64, 16, rank), (80, 16, covers), (96, 4, kind), (100, 1, tree),
    (101, 1, re), (102, 5, fmt)]) 16

/-- Payload padded with zeros to the declared chunk size (R266). -/
def padTo (n : Nat) (b : List Byte) : List Byte := b ++ List.replicate (n - b.length) 0

/-- A framed chunk: header, padded payload, trailer with its crc (Table 08-6). -/
def frameChunk (hdr : List Byte) (chunkBytes : Nat) (data : List Byte) (pois last halted : Bool) : List Byte :=
  let body := hdr ++ padTo chunkBytes data ++
    leBytes (packBits [(0, 32, data.length), (32, 1, b2n pois), (33, 1, b2n last), (34, 1, b2n halted)]) 8
  body ++ leBytes (crc32c body) 4 ++ leBytes 0 4

/-- The ports of a mask. -/
def portsOf (m : Nat) : List Nat := bitList m 144

/-! ### Parties, contributors and receivers -/

/-- The parties of a group's collective: the direct members not fenced, then the children not fenced. -/
def Group.parties (g : Group) : List Party :=
  (g.members.filter (fun m => !m.fenced)).map (fun m => ⟨false, 0, m.rank, 1 <<< m.port, 1, none, none, 0, 0⟩) ++
    (g.kids.filter (fun k => !k.fenced)).map (fun k => ⟨true, k.tree, k.low, k.ports, k.covers, none, none, 0, 0⟩)

/-- Ranks of a group that fences have taken out, as this module's record shows them. -/
def Group.fencedRanks (g : Group) : Nat :=
  (g.members.filter (·.fenced)).length +
    max ((g.kids.filter (fun k => k.fenced && k.tree == 0)).map (·.covers)).sum ((g.kids.filter (fun k => k.fenced && k.tree == 1)).map (·.covers)).sum

/-- The parent ports in a tree; 0 at the root (Table 08-4). -/
def Group.parent (g : Group) (t : Nat) : Nat := if t = 0 then g.par0 else g.par1

/-- Does the party hold the rank? -/
def Party.has (p : Party) (r : Nat) : Bool := p.rank ≤ r && r < p.rank + p.covers

/-- The chunk state of a result index. -/
def Coll.chunk (c : Coll) (i : Nat) : ChunkSt := SMap.get (fun _ => ChunkSt.empty) c.chunks i

/-- Put a chunk state. -/
def Coll.putChunk (c : Coll) (i : Nat) (k : ChunkSt) : Coll := { c with chunks := SMap.set (fun _ => ChunkSt.empty) c.chunks i k }

/-- The rank whose data a piece of a gather or broadcast is (R264, Table 08-5). -/
def Coll.pieceRank (c : Coll) (nIn i : Nat) : Nat := if c.cmd.op = 0x04 then i / max 1 nIn else c.cmd.root

/-- Does party p (index k) contribute to result index i (R268, R277, R280)? -/
def Coll.contributes (c : Coll) (nIn i k : Nat) (p : Party) : Bool :=
  (match p.cut with
    | some b => decide (i < b)
    | none => true)
  && (if p.isKid then p.tree == i % 2 else true)
  && !((c.chunk i).excluded.contains k)
  && (if c.cmd.op = 0x04 ∨ c.cmd.op = 0x05 then p.has (c.pieceRank nIn i)
      else if c.cmd.op = 0x07 ∨ c.cmd.op = 0x08 ∨ c.cmd.op = 0x09 ∨ c.cmd.op = 0x0A ∨ c.cmd.op = 0x06 then !p.isKid
      else true)

/-- The contributors of result index i, as indices among the parties. -/
def Coll.contributors (c : Coll) (nIn i : Nat) : List Nat :=
  ((c.parties.zipIdx).filter (fun q => c.contributes nIn i q.2 q.1)).map (·.2)

/-- The one rank result chunk i goes to, where the op names one (Table 08-5). -/
def Coll.target (c : Coll) (nOut ranks i : Nat) : Option Nat :=
  if c.cmd.op = 0x02 then some (i * ranks / max 1 nOut) else if c.cmd.op = 0x03 then some c.cmd.root else none

/-- An op whose data takes no tree (Table 08-5): ALLTOALL, DISPATCH, the gathers and SCATTER_ADD. -/
def Cmd.routed (c : Cmd) : Bool := 6 ≤ c.op && c.op ≤ 0x0A

/-- The key under which a result chunk that has left is kept: its index, the party it goes to alone (plus 1; 0 for every receiver), its kind, its
header's rank. -/
def leftKey (idx : Nat) (only : Option Nat) (kind rank : Nat) : Nat := ((idx * 2 ^ 17 + only.elim 0 (· + 1)) * 16 + kind) * 2 ^ 17 + rank

/-- Does a key name result chunk i, and in it a chunk for party k? -/
def leftFor (i : Nat) (k : Option Nat) (key : Nat) : Bool :=
  key / 2 ^ 38 == i && (match k with
    | some k => key / 2 ^ 21 % 2 ^ 17 == k + 1
    | none => true)

/-- Has a copy of result chunk i ever begun to leave? -/
def Coll.hasLeft (c : Coll) (i : Nat) : Bool := c.hashes.items.any (fun e => leftFor i none e.1)

/-- Is there a result chunk i for party k alone, held or gone? -/
def Coll.hasCopy (c : Coll) (i k : Nat) : Bool :=
  c.kept.any (fun y => !y.up && y.idx == i && y.only == some k) || c.hashes.items.any (fun e => leftFor i (some k) e.1)

/-- May party p receive result chunk i (Table 08-5, R280)? -/
def Coll.feeds (c : Coll) (nOut ranks i : Nat) (p : Party) : Bool :=
  (match p.rcut with
    | some b => decide (i < b)
    | none => true)
  && (if p.isKid then p.tree == i % 2 && !c.cmd.routed else c.cmd.op != 0x0A)
  && (match c.target nOut ranks i with
    | some r => p.has r
    | none => true)

/-- Does party p, of index k, receive result chunk i: of an op without a tree, where one is addressed to it (Table 08-5)? -/
def Coll.receives (c : Coll) (nOut ranks i k : Nat) (p : Party) : Bool :=
  c.feeds nOut ranks i p && (!c.cmd.routed || c.hasCopy i k)

/-- The receivers of result chunk i at this module, as indices among the parties. -/
def Coll.receivers (c : Coll) (nOut ranks i : Nat) : List Nat :=
  ((c.parties.zipIdx).filter (fun q => c.receives nOut ranks i q.2 q.1)).map (·.2)

/-! ### Retention and sending (R274) -/

/-- Has every receiver of result chunk i acknowledged it? A fenced one's ACK is awaited for no chunk (R280). -/
def Coll.acked (c : Coll) (nOut ranks i : Nat) : Bool :=
  (c.receivers nOut ranks i).all (fun k => match c.parties[k]? with
    | some p => p.rcut.isSome || decide (i < p.next)
    | none => true)

/-- The lowest result chunk that some receiver has not acknowledged. -/
def Coll.low (c : Coll) (nOut ranks : Nat) : Nat :=
  ((List.range nOut).find? (fun i => !c.acked nOut ranks i)).getD nOut

/-- What the parent of a tree has acknowledged of this module's partials. -/
def Coll.upNext (c : Coll) (t : Nat) : Nat := if t = 0 then c.upNext0 else c.upNext1

/-- The result indices whose chunks this module sends up in a tree, in order: every chunk of a reduction, the pieces of the ranks below (R264). -/
def Coll.upStream (c : Coll) (nIn nOut t : Nat) : List Nat :=
  (List.range nOut).filter (fun i => i % 2 == t && (if c.cmd.op = 0x04 ∨ c.cmd.op = 0x05 then
      c.parties.any (fun p => (!p.isKid || p.tree == t) && p.has (c.pieceRank nIn i))
    else c.cmd.isReduce || c.cmd.op == 0x0C))

/-- The lowest chunk this module sends up in a tree that the parent has not acknowledged. -/
def Coll.upLow (c : Coll) (nIn nOut t : Nat) : Nat := ((c.upStream nIn nOut t).find? (fun i => decide (c.upNext t ≤ i))).getD nOut

/-- Is result chunk i the last of the stream to party k (R266)? -/
def Coll.lastTo (c : Coll) (nOut ranks i k : Nat) : Bool :=
  (c.parties[k]?).all (fun p => (List.range nOut).all (fun j => decide (j ≤ i) || !c.feeds nOut ranks j p))

/-- The header and frame of a kept chunk. -/
def Coll.frame (c : Coll) (k : Kept) (last : Bool) : List Byte :=
  frameChunk (chunkHeader c.cmd.collId k.idx k.rank k.covers k.kind (k.idx % 2) (b2n k.re) k.fmt) c.cmd.chunkBytes k.data
    k.pois last false

/-- What port `j` of `n` carries of a frame striped over them, 256 bytes at a time (R264). -/
def stripe (n j : Nat) (b : List Byte) : List Byte :=
  (((pieces 256 ((b.length + 255) / 256) b).zipIdx).filter (fun p => p.2 % max 1 n == j)).flatMap (·.1)

/-- Send a frame toward a parent: striped over its ports in port order (R264). -/
def State.emitUp (s : State) (ports : Nat) (fence : Bool) (b : List Byte) : State :=
  let l := portsOf ports
  if l.length ≤ 1 then s.emit (.chunk ports fence b)
  else (l.zipIdx).foldl (fun s p => s.emit (.chunk (1 <<< p.1) fence (stripe l.length p.2 b))) s

/-- May the kept chunk leave (R274)? -/
def Coll.mayLeave (c : Coll) (nIn nOut ranks : Nat) (k : Kept) : Bool :=
  !k.sent && (k.re || (if k.up then decide (k.idx < c.upLow nIn nOut (k.idx % 2) + c.cmd.window)
    else decide (k.idx < c.low nOut ranks + c.cmd.window)))

/-- Send one kept chunk to its parent ports, or to each of its receivers (R264, R274). -/
def State.leave (s : State) (x : Nat) (c : Coll) (nIn nOut ranks : Nat) (g : Group) (k : Kept) : State :=
  let s := if k.re then s.inc F.REISSUE_COUNT_sent else s
  let to_ := fun (s : State) (q : Nat) (last : Bool) => match c.parties[q]? with
    | some p => s.emit (.chunk p.ports k.fence (c.frame k last))
    | none => s
  let s := if k.up then s.emitUp (g.parent (k.idx % 2)) k.fence (c.frame k ((c.upStream nIn nOut (k.idx % 2)).getLast? == some k.idx))
    else match k.only with
      | some q => to_ s q (if c.cmd.routed then k.last else c.lastTo nOut ranks k.idx q)
      | none => (c.receivers nOut ranks k.idx).foldl (fun s q => to_ s q (c.lastTo nOut ranks k.idx q)) s
  s.putColl x { c with
    kept := c.kept.map (fun y => if y = k then { y with sent := true } else y)
    reissued := c.reissued + b2n k.re
    hashes := if k.up then c.hashes else c.hashes.put (leftKey k.idx (if c.cmd.routed then k.only else none) k.kind k.rank) (sha256 k.data) }

/-- Send every kept chunk that may leave, lowest index first. -/
def State.flush (s : State) (x : Nat) : State :=
  match s.coll x with
  | none => s
  | some c0 =>
    c0.kept.foldl (fun t k => match t.coll x with
      | none => t
      | some c =>
        let nOut := t.chunksOut c.cmd
        let g := t.groupOf c
        let nIn := t.chunksIn c.cmd
        if c.mayLeave nIn nOut g.ranks k then t.leave x c nIn nOut g.ranks g k else t) s

/-- Keep a chunk for sending, in index order; one of the same index, direction and receiver is replaced. -/
def Coll.keep (c : Coll) (k : Kept) : Coll :=
  let same := fun (y : Kept) => y.idx == k.idx && y.up == k.up && y.only == k.only && (k.up || (y.rank == k.rank && y.kind == k.kind))
  let rest := c.kept.filter (fun y => !same y)
  { c with kept := rest.filter (fun y => y.idx ≤ k.idx) ++ k :: rest.filter (fun y => y.idx > k.idx) }

/-! ### Expected counts (R268) and what a module sends of a chunk -/

/-- The ranks that have contributed to chunk i so far: 1 for each direct member, the covers of each child's chunk (R268). -/
def Coll.took (c : Coll) (i : Nat) : Nat := ((c.chunk i).got.map (fun g => g.2.1)).sum

/-- Has chunk i a whole chunk from each of its contributors? -/
def Coll.complete (c : Coll) (nIn i : Nat) : Bool :=
  (c.contributors nIn i).all (fun k => (c.chunk i).got.any (fun g => g.1 == k))

/-- The most a slot of chunk i can count: 1 for each direct contributor, the covers a child gave or its entry allows. -/
def Coll.limit (c : Coll) (nIn i : Nat) : Nat :=
  ((c.contributors nIn i).map (fun k => match (c.chunk i).got.find? (fun g => g.1 == k) with
    | some g => g.2.1
    | none => (c.parties[k]?.map (·.covers)).getD 0)).sum

/-- The lowest rank that chunk i covers. -/
def Coll.lowRank (c : Coll) (i : Nat) : Nat :=
  match (c.chunk i).got.map (fun g => g.2.2) with
  | [] => 0xFFFF
  | r :: rs => rs.foldl min r

/-- Keep result chunk i for its receivers (R274); a chunk that had left before leaves again with the reissue flag (R278). -/
def State.keepResult (s : State) (x i : Nat) (data : List Byte) (pois fence : Bool) : State :=
  match s.coll x with
  | none => s
  | some c =>
    let k := c.chunk i
    let c := c.putChunk i { k with reduced := true, reopened := false }
    s.putColl x (c.keep ⟨i, false, 2, 0xFFFF, 0, c.cmd.fmtOut, data, pois, false, false, c.hasLeft i, fence, none⟩)

/-- Keep partial chunk i for the parent in its tree. -/
def State.keepPartial (s : State) (x i fmt : Nat) (data : List Byte) (pois fence : Bool) : State :=
  match s.coll x with
  | none => s
  | some c =>
    let k := c.chunk i
    let re := k.upSent
    let c := c.putChunk i { k with reduced := true, reopened := false, upSent := true }
    s.putColl x (c.keep ⟨i, true, 1, c.lowRank i, c.took i, fmt, data, pois, false, false, re, fence, none⟩)

/-! ### Acknowledgement messages (Table 08-7) -/

/-- Send an ACK toward the lowest port of a mask (R275). -/
def State.sendAck (s : State) (ports id next : Nat) (contrib nack : Bool) (nchunk : Nat) : State :=
  s.send (catBits s.me ((portsOf ports).headD 0) 8) clsC 16
    [(0, 8, 1), (8, 1, b2n nack), (9, 1, b2n contrib), (16, 16, 0xFFFF), (32, 32, id), (64, 32, next), (96, 32, nchunk)]

/-- Send a REVOKE (type 2) or REISSUE_REQ (type 3); REISSUE_COUNT counts the REISSUE_REQs sent. -/
def State.sendRange (s : State) (ports type reason id first last : Nat) : State :=
  (if type = 3 then s.inc F.REISSUE_COUNT_requests else s).send (catBits s.me ((portsOf ports).headD 0) 8) clsS 16
    [(0, 8, type), (8, 8, reason), (16, 16, 0xFFFF), (32, 32, id), (64, 32, first), (96, 32, last)]

/-! ### Completion records (R284) -/

/-- The bytes of a change entry (Table 08-9). -/
def Change.bytes (h : Change) : List Byte :=
  leBytes (packBits [(0, 32, h.chunk), (32, 16, h.rank), (48, 16, h.covers), (64, 4, h.kind)]) 16

/-- What a completion record holds beside its head. -/
structure CplInfo where
  start     : Nat
  chunks    : Nat
  delivered : Nat
  mStart    : Nat
  mEnd      : Nat
  changes   : List Change
  revoked   : Nat
  reissued  : Nat
  spilled   : Nat
  mbr       : Nat
  shape     : List Byte
  deriving DecidableEq, Repr

/-- The record of a command that never became a collective. -/
def CplInfo.none_ : CplInfo := ⟨0, 0, 0, 0, 0, [], 0, 0, 0, 0, List.replicate 32 0⟩

/-- The 16-byte head of a completion or continuation record. -/
def cplHead (type status reason trap : Nat) (cmd : Cmd) (q seq : Nat) : List Byte :=
  leBytes (packBits [(0, 8, type), (8, 8, status), (16, 8, reason), (24, 8, trap), (32, 32, cmd.collId), (64, 8, cmd.op),
    (72, 8, q), (80, 16, cmd.group), (96, 32, seq)]) 16

/-- A completion record and its continuations, each of 128 bytes (Table 08-9). -/
def cplRecords (status reason trap : Nat) (cmd : Cmd) (q seq turn : Nat) (i : CplInfo) : List (List Byte) :=
  let two := (i.changes.take 2).flatMap Change.bytes
  let main := cplHead 1 status reason trap cmd q seq ++ leBytes i.start 8 ++ leBytes turn 8 ++ leBytes i.chunks 4 ++
    leBytes i.delivered 4 ++ leBytes i.mStart 4 ++ leBytes i.mEnd 4 ++ leBytes i.changes.length 2 ++ leBytes i.revoked 2 ++
    leBytes i.reissued 4 ++ leBytes i.spilled 4 ++ leBytes i.mbr 4 ++ i.shape.take 32 ++ padTo 32 two
  let more := pieces 7 ((i.changes.length - 2 + 6) / 7) (i.changes.drop 2)
  main :: (more.zipIdx).map (fun p =>
    cplHead 2 status reason trap cmd q (seq + 1 + p.2) ++ padTo 112 (p.1.flatMap Change.bytes))

/-- Write one record to the queue's completion ring, count it, and tell the queue's owner: cause 12 for the host, a CPL_RECORD message
for an endpoint (R284, Table 13-6, Table 17-5). -/
def State.ringPut (s : State) (q : Nat) (rec : List Byte) : State :=
  let n := s.get (F.Q_CPL_COUNT_records q)
  let s := { s with cp.rings := s.cp.rings.wr (q * 0x8000 + n % 256 * 128) rec }.inc (F.Q_CPL_COUNT_records q)
  if s.get (F.Q_CTL_owner q) = 0 then s.intEvent 12
  else s.emit (.msg (catBits s.me (s.get (F.Q_CTL_port q)) 8) clsM (leBytes (0x62 + q * 256) 8 ++ rec))

/-- Write a command's completion record and its continuations (R255, R284). -/
def State.complete (s : State) (q : Nat) (cmd : Cmd) (status reason trap : Nat) (i : CplInfo) : State :=
  let recs := cplRecords status reason trap cmd q (s.get (F.Q_CPL_COUNT_records q)) s.turn i
  recs.foldl (fun t r => t.ringPut q r) s

/-- Add to a command's signal event after its record is written (R259). -/
def State.signal (s : State) (cmd : Cmd) : State :=
  if bit cmd.sigEv 15 then s else s.evtAdd (bits cmd.sigEv 0 12) cmd.sigInc

/-! ### Ending a collective -/

/-- The key of a cistern slot: owning context, cluster, region, slot. -/
def slotKey (x cluster region slot : Nat) : Nat := ((x * 16 + cluster) * 16 + region) * 2 ^ 40 + slot

/-- Return a turn comparator to the free ones (R340). -/
def State.freeCmp (s : State) (k : Nat) : State := (s.setWord (R.CMP_CTL k) 0).setWord (R.CMP_TURN k) 0

/-! ### A queue and its head -/

/-- A queue. -/
def State.queue (s : State) (q : Nat) : Queue := SMap.get (fun _ => Queue.empty) s.cp.queues q

/-- Put a queue. -/
def State.putQueue (s : State) (q : Nat) (x : Queue) : State :=
  { s with cp.queues := SMap.set (fun _ => Queue.empty) s.cp.queues q x }

/-- Take the head off its queue. -/
def State.popHead (s : State) (q : Nat) : State := s.putQueue q { Queue.empty with cmds := (s.queue q).cmds.drop 1 }

/-- Release the engine contexts and streams bound under an owner (R144). With `halted`, its contexts' programs have halted: they are HALTED, and hold
no collective any longer (R79, R140). -/
def State.unbind (s : State) (x : Nat) (halted : Bool) : State :=
  let mine := fun (k : Nat) => (SMap.get (fun _ => Ctx.free) s.eng.ctxs k).coll == some x
  { s with
    eng.ctxs := if halted then s.eng.ctxs.map (fun e => if mine e.1 then (e.1, { e.2 with st := 5, coll := none }) else e) else SMap.erase mine s.eng.ctxs
    eng.strms := s.eng.strms.filter (fun e => match e.2 with
      | some t => t.coll != x
      | none => true) }

/-- The owner under which the streams of the accepted head of queue `q` are bound until it has a context. -/
def waitOwner (q : Nat) : Nat := 4096 + q

/-- Release what a collective holds: its engine contexts and streams, its cistern regions and slots, its turn comparators, its context
and, where it has not started, its place at the head of its queue (R144, R254, R284, R340). -/
def State.release (s : State) (x : Nat) (c : Coll) (halted : Bool) : State :=
  let s := { s.unbind x halted with
    cis.slots := SMap.erase (fun k => k / 2 ^ 40 / 256 == x) s.cis.slots
    cis.regions := SMap.erase (fun k => k / 256 == x) s.cis.regions
    cis.chunkOf := SMap.erase (fun k => k / 2 ^ 40 / 256 == x) s.cis.chunkOf
    cp.colls := s.cp.colls.drop x
    cp.ended := s.cp.ended ++ [(c.cmd.collId, c.step)] }
  let s := { s with det.locks := SMap.erase (fun k => k / 32 == x) s.det.locks }
  let s := if (s.queue c.queue).ctx = some x then s.popHead c.queue else s
  (c.cmp.toList ++ c.locks.map (·.2)).foldl State.freeCmp s

/-- The shape digest (R112): leaf counts tier by tier, by the lowest rank covered. A group record gives this module the leaf counts of its own tree
sums and, where it is the root of both trees over tier-1 children or direct members only, those of every combining module. Elsewhere the digest is a
free value (log entry 14). -/
def State.shapeOf (s : State) (c : Coll) (g : Group) : List Byte × State :=
  if !c.ordered then (List.replicate 32 0, s)
  else if g.par0 = 0 ∧ g.par1 = 0 ∧ g.tier ≤ 2 then
    let tree := fun t =>
      let kids := sortBy (fun a b => decide (a.rank ≤ b.rank)) (c.parties.filter (fun p => p.isKid && p.tree == t))
      let mine := kids.length + (c.parties.filter (fun p => !p.isKid)).length
      kids.map (·.covers) ++ [mine]
    (sha256 ((tree 0 ++ tree 1).flatMap (fun n => leBytes n 4)), s)
  else
    let r := s.free 256
    (leBytes r.1 32, r.2)

/-- The plane bytes of a copy of a dense shard, joined without padding (R321, R349). -/
def State.planeBytes (s : State) (h : Shard) (copy : Nat) : List Byte :=
  (h.planes.zipIdx).flatMap (fun p => s.mem.bytes.rd (h.record.level * 2 ^ 44 + h.record.base copy + h.planeOff p.2) p.1)

/-- The digests of 65,536-byte segments, hashed (R349). -/
def segHash (b : List Byte) : List Byte :=
  sha256 ((pieces 65536 ((b.length + 65535) / 65536) b).flatMap sha256)

/-- The state_hash of a completed update (R349). -/
def State.stateHash (s : State) (h : Shard) (f : FuseSt) : List Byte :=
  let sh := 1 - h.live
  if f.dense then segHash (s.planeBytes h sh)
  else sha256 (f.rows.flatMap (fun r =>
    leBytes r 4 ++ s.mem.bytes.rd (h.record.level * 2 ^ 44 + h.record.base (b2n (!bit
      ((s.mem.bytes.rd (h.record.level * 2 ^ 44 + h.record.base h.live + h.record.bitmapOff + r / 8) 1).headD 0).toNat (r % 8)))
      + r * h.record.rowBytes) h.record.rowBytes))

/-- What the end of a FUSED_UPDATE does to its shard (R306, R317): complete, the shard is UPDATED and noted for the step record, and a
skip is counted (R310); ended otherwise, it returns to IDLE (for the halted statuses log entry 20). -/
def State.endFuse (s : State) (c : Coll) (status : Nat) : State :=
  match c.fuse with
  | none => s
  | some f => match s.nor.shards.find f.shard with
    | none => s
    | some h =>
      if h.st ≠ 2 then s
      else if status = 0 then
        let s := { s with nor.shards := s.nor.shards.put f.shard { h with st := 3, skipped := f.skipped } }
        let s := { s with det.audit.shards := s.det.audit.shards ++ [(⟨c.step, f.shard, b2n f.skipped, c.cmd.collId, f.t0, h.ver (1 - h.live), s.stateHash h f⟩ : ShardRecd)] }
        let s := if f.skipped then (s.inc F.NOR_SKIP_COUNT_skips).bitEvent c.step 2 else s
        s.inc F.NOR_UPDATE_COUNT_updates
      else { s with nor.shards := s.nor.shards.put f.shard { h with st := 1 } }

/-- What the completion record of a collective holds beside its head (Table 08-9). -/
def Coll.info (c : Coll) (nOut delivered : Nat) (shape : List Byte) : CplInfo :=
  ⟨c.start, nOut, delivered, c.ranks, c.ranks - c.fenced, c.changes, c.revoked, c.reissued, c.spilled, c.mbr, shape⟩

/-- The entry of a collective in its step's record (R348, R349). -/
def Coll.endRec (c : Coll) (g : Group) (status trap turn : Nat) (shape : List Byte) : EndRec :=
  let hs := c.hashes.items
  ⟨c.cmd.op, status, trap, c.cmd.collId, c.queue,
    b2n c.ordered + 2 * b2n (c.reissued != 0) + 4 * b2n (!c.changes.isEmpty) + 8 * b2n c.late2, c.cmd.group, hs.length, c.start,
    turn, if hs.isEmpty then List.replicate 32 0 else sha256 (hs.flatMap (·.2)), shape, c.step, g.members.map (·.port)⟩

/-- What a status changes of a collective's result: a halt is a first-NaN event and one that changes bits, a reset an event that changes bits
(R328). -/
def State.endEvents (s : State) (step status : Nat) : State :=
  if status = 1 then (s.bitEvent step 0).bitEvent step 4 else if status = 2 then s.bitEvent step 0 else s

/-- End a collective: its completion record, the note of it the step record needs, its signal, and the release of what it
holds (R259, R284). -/
def State.endColl (s : State) (x status trap : Nat) : State :=
  match s.coll x with
  | none => s
  | some c =>
    let g := s.groupOf c
    let nOut := s.chunksOut c.cmd
    let sh := s.shapeOf c g
    let s := sh.2
    let delivered := ((List.range nOut).filter (fun i => c.hasLeft i && c.acked nOut g.ranks i)).length
    let info := c.info nOut delivered sh.1
    let e := c.endRec g status trap s.turn sh.1
    let s := ((s.complete c.queue c.cmd status 0 trap info).endFuse c status).release x c (status == 1)
    let s := { s with det.audit.ends := s.det.audit.ends ++ [e] }
    (s.endEvents c.step status).signal c.cmd

/-- The collectives accepted in a queue that have no context yet, where they satisfy `p`. -/
def State.noContext (s : State) (p : Coll → Bool) : List (Nat × Coll) :=
  s.cp.queues.filterMap (fun (e : Nat × Queue) =>
    if e.2.ctx.isSome then none else (e.2.wait.filter (fun k => k.cmd.isColl && p k)).map (fun k => (e.1, k)))

/-- End a collective that has no context yet: it has taken nothing in. Its record and its step's entry are those of any other (R284, R348). -/
def State.endWaiting (s : State) (q : Nat) (k : Coll) (status trap : Nat) : State :=
  let g := s.groupOf k
  let sh := s.shapeOf k g
  let shape := sh.1
  let s := (k.cmp.toList ++ k.locks.map (·.2)).foldl State.freeCmp ((sh.2.unbind (waitOwner q) false).popHead q)
  let s := s.complete q k.cmd status 0 trap (k.info (s.chunksOut k.cmd) 0 shape)
  let s := { s with det.audit.ends := s.det.audit.ends ++ [k.endRec g status trap s.turn shape] }
  (s.endEvents k.step status).signal k.cmd

/-- End every incomplete collective that satisfies `p`. -/
def State.endAll (s : State) (p : Coll → Bool) (status trap : Nat) : State :=
  let s := (s.cp.colls.items.filter (fun e => p e.2)).foldl (fun s e => s.endColl e.1 status trap) s
  (s.noContext p).foldl (fun s w => s.endWaiting w.1 w.2 status trap) s

/-! ### Halting (R79, R616) -/

/-- The format of what a module sends to a parent (R97, R111): the exact format of its records, binary32 or binary64 in ordered mode, fmt_in for pieces. -/
def State.upFmt (s : State) (c : Coll) : Nat :=
  let e := exactOf (s.fmt c.cmd.fmtIn)
  if !(c.cmd.isReduce || c.cmd.op = 0x0C) then c.cmd.fmtIn else if !c.ordered then e.idx else if e = .c2176 then 0 else 1

/-- The halted chunk of a stream: its index, no payload bytes, chunk_bytes of zeros. -/
def Coll.haltedChunk (c : Coll) (idx kind rank fmt : Nat) : List Byte :=
  frameChunk (chunkHeader c.cmd.collId idx rank 0 kind (idx % 2) 0 fmt) c.cmd.chunkBytes [] false true true

/-- Has a copy of result chunk i begun to leave to party k? A revoked one has not (R277). -/
def Coll.sentTo (c : Coll) (i k : Nat) : Bool :=
  c.kept.any (fun y => !y.up && y.idx == i && y.sent && (y.only.isNone || y.only == some k)) ||
    ((c.parties[k]?).map (fun p => decide (i < p.next))).getD false

/-- Has partial chunk i, or a piece, left for the parent? -/
def Coll.sentUp (c : Coll) (i : Nat) : Bool := c.kept.any (fun y => y.up && y.idx == i && y.sent) || decide (i < c.upNext (i % 2))

/-- Halt a collective (R79, R616): one halted chunk on each stream it feeds that is not yet whole, with the index of the stream's first chunk not
yet sent, then the completion record with status HALTED_NAN and trap code 0x01. -/
def State.haltColl (s : State) (x : Nat) : State :=
  match s.coll x with
  | none => s
  | some c =>
    let g := s.groupOf c
    let nOut := s.chunksOut c.cmd
    let nIn := s.chunksIn c.cmd
    let pieces_ := c.cmd.op = 0x04 ∨ c.cmd.op = 0x05
    let low := (c.parties.map (·.rank)).foldl min 0xFFFF
    let s := [0, 1].foldl (fun t i =>
      if g.parent i = 0 then t
      else match (c.upStream nIn nOut i).find? (fun j => !c.sentUp j) with
        | none => t
        | some j => t.emitUp (g.parent i) false (c.haltedChunk j (if pieces_ then 3 else 1) low (t.upFmt c))) s
    let s := (c.parties.zipIdx).foldl (fun t q => if q.1.rcut.isSome then t
      else match (List.range nOut).find? (fun j => c.feeds nOut g.ranks j q.1 && !c.sentTo j q.2) with
        | none => t
        | some j => t.emit (.chunk q.1.ports false (c.haltedChunk j (if pieces_ then 3 else 2) 0xFFFF
            (if pieces_ then c.cmd.fmtIn else c.cmd.fmtOut)))) s
    s.endColl x 1 1

/-! ### Settling -/

/-- Has party k acknowledged the result that its data of index i gives, where a gather owes it one? -/
def Coll.answered (c : Coll) (i k : Nat) : Bool :=
  !(c.cmd.op == 0x08 || c.cmd.op == 0x09) || (c.hashes.items.any (fun e => leftFor i (some k) e.1) &&
    (c.parties[k]?).any (fun p => p.rcut.isSome || decide (i < p.next)))

/-- Is result chunk i released: acknowledged by its receivers here and, below the root, its partial by the parent (Table 08-8)? A chunk
with no contributor left counts (R281). Of an op without a tree, every chunk that the contributions of index i gave has been acknowledged. -/
def Coll.released (c : Coll) (g : Group) (nIn nOut i : Nat) : Bool :=
  let k := c.chunk i
  let none_ := (c.contributors nIn i).isEmpty
  if k.reopened then false
  else if c.cmd.routed then c.complete nIn i && (none_ || c.cmd.op != 0x07 || k.reduced) &&
    (c.contributors nIn i).all (c.answered i) && !c.kept.any (fun y => y.idx == i)
  else if !(none_ && g.parent (i % 2) = 0) && !(c.receivers nOut g.ranks i).isEmpty && !c.acked nOut g.ranks i then false
  else if g.parent (i % 2) = 0 then none_ || k.reduced
  else none_ || decide (i < c.upNext (i % 2))

/-- Is the contribution of party k (its data `p`) to result index i released? Where an op has no tree and serves each sender for itself, this waits for
what this sender's data gave alone (R270). -/
def Coll.releasedTo (c : Coll) (g : Group) (nIn nOut i k : Nat) (p : Party) : Bool :=
  if c.cmd.routed && c.cmd.op != 0x07 then
    (c.chunk i).got.any (fun q => q.1 == k) && c.answered i k &&
      !c.kept.any (fun y => y.idx == i && (if c.cmd.op = 0x06 then y.rank == p.rank else y.only == some k))
  else c.released g nIn nOut i

/-- The (stream index, result index) pairs of what party p sends to this module (R264). -/
def Coll.streamOf (c : Coll) (nIn nOut : Nat) (p : Party) : List (Nat × Nat) :=
  if p.isKid then
    (((List.range nOut).filter (fun i => i % 2 == p.tree &&
      (if c.cmd.op = 0x04 ∨ c.cmd.op = 0x05 then p.has (c.pieceRank nIn i) else true))).map (fun i => (i, i)))
  else if c.cmd.op = 0x04 then (List.range nIn).map (fun j => (j, p.rank * nIn + j))
  else if c.cmd.op = 0x05 ∧ p.rank ≠ c.cmd.root then []
  else (List.range nIn).map (fun j => (j, j))

/-- Acknowledge to each contributor what is released (R275, Table 08-8). -/
def State.contribAcks (s : State) (x : Nat) : State :=
  match s.coll x with
  | none => s
  | some c0 =>
    let g := s.groupOf c0
    let nIn := s.chunksIn c0.cmd
    let nOut := max nIn (s.chunksOut c0.cmd)
    (c0.parties.zipIdx).foldl (fun t q => match t.coll x with
      | none => t
      | some c =>
        let st := c.streamOf nIn nOut q.1
        match st.getLast? with
        | none => t
        | some last =>
          if q.1.cut.isSome then t
          else
            let nxt := ((st.find? (fun e => !c.releasedTo g nIn nOut e.2 q.2 q.1)).map (·.1)).getD (last.1 + 1)
            let floor := max q.1.acked ((st.head?.map (·.1)).getD 0)
            if nxt > floor then
              (t.sendAck q.1.ports c.cmd.collId nxt true false 0).putColl x
                { c with parties := setAt c.parties q.2 { q.1 with acked := nxt } }
            else t) s

/-- Acknowledge to the parents the results they sent that every receiver here has acknowledged (Table 08-8). -/
def State.parentAcks (s : State) (x : Nat) : State :=
  match s.coll x with
  | none => s
  | some c0 =>
    let g := s.groupOf c0
    let nOut := s.chunksOut c0.cmd
    [0, 1].foldl (fun t i => match t.coll x with
      | none => t
      | some c =>
        if g.parent i = 0 ∨ c.cmd.routed then t
        else
          let st := (List.range nOut).filter (fun j => j % 2 == i && !(c.receivers nOut g.ranks j).isEmpty)
          match st.getLast? with
          | none => t
          | some last =>
            let nxt := (st.find? (fun j => !c.acked nOut g.ranks j)).getD (last + 1)
            let old := if i = 0 then c.upAck0 else c.upAck1
            if nxt > max old (st.headD 0) then
              (t.sendAck (g.parent i) c.cmd.collId nxt false false 0).putColl x
                (if i = 0 then { c with upAck0 := nxt } else { c with upAck1 := nxt })
            else t) s

/-- Add 1 to chunk_ev for each result chunk acknowledged by every receiver, in index order (R259). -/
def State.chunkEvents (s : State) (x : Nat) : Nat → State
  | 0 => s
  | n + 1 => match s.coll x with
    | none => s
    | some c =>
      let g := s.groupOf c
      let nIn := s.chunksIn c.cmd
      let nOut := s.chunksOut c.cmd
      if bit c.cmd.chunkEv 15 ∨ c.evs ≥ nOut then s
      else if c.released g nIn nOut c.evs ∨ (!(c.receivers nOut g.ranks c.evs).isEmpty ∧ c.acked nOut g.ranks c.evs) then
        State.chunkEvents ((s.putColl x { c with evs := c.evs + 1 }).evtAdd (bits c.cmd.chunkEv 0 12) 1) x n
      else s

/-- Is everything the collective sends acknowledged and everything it took in released (R284)? -/
def State.finished (s : State) (c : Coll) : Bool :=
  let g := s.groupOf c
  let nIn := s.chunksIn c.cmd
  let nOut := s.chunksOut c.cmd
  c.phase != 0 && c.cmd.op != 0x0B && c.cmd.op != 0x0D
    && (match c.fuse with
      | some f => f.ended
      | none => true)
    && (List.range (max nIn nOut)).all (fun i => c.released g nIn nOut i)

/-- Drop the kept chunks that are acknowledged (R274). -/
def State.prune (s : State) (x : Nat) : State :=
  match s.coll x with
  | none => s
  | some c =>
    let g := s.groupOf c
    let nOut := s.chunksOut c.cmd
    s.putColl x { c with kept := c.kept.filter (fun k => !k.sent ||
      (if k.up then decide (k.idx ≥ c.upNext (k.idx % 2)) else !c.acked nOut g.ranks k.idx)) }

/-- Settle a collective after a change: send what may leave, release retention, advance the chunk event, acknowledge, and complete when
nothing is owed (R259, R274, R275, R284). -/
def State.settle (s : State) (x : Nat) : State :=
  let s := (s.flush x).prune x
  let n := match s.coll x with
    | some c => s.chunksOut c.cmd
    | none => 0
  let s := ((s.chunkEvents x n).contribAcks x).parentAcks x
  match s.coll x with
  | none => s
  | some c => if s.finished c then s.endColl x 0 0 else s

/-! ### Membership events (R282, R283) -/

/-- Data that meets a condition of Table 08-10: spilled, counted, trapped. -/
def State.membership (s : State) (x : Option Nat) (id chunk rank port code group n : Nat) : State :=
  let s := (s.spill 3 n).inc F.MBR_EVENT_COUNT_events
  let s := match x with
    | some x => match s.coll x with
      | some c => s.putColl x { c with mbr := c.mbr + 1, spilled := c.spilled + 1 }
      | none => s
    | none => s
  if s.cause 6 then (s.inc F.MBR_LOST_COUNT_lost).trapNotice 9 id chunk 0 s.turn port
  else
    let s := (s.sets [(F.MBR_REC0_collective, id), (F.MBR_REC0_chunk, chunk), (F.MBR_REC1_rank, rank), (F.MBR_REC1_port, port),
      (F.MBR_REC1_cond, code), (F.MBR_REC1_group, group), (F.MBR_REC2_turn, s.turn)]).inc F.MBR_SEQ_seq
    s.trapNotice 9 id chunk (s.get F.MBR_SEQ_seq) s.turn port

end Sys2Proof.Machine
end

