-- ==== Sys2Proof/Machine/Traps.lean ====
section
/-!
DEFINITION. The traps of the numeric units: the first-NaN record (R72 to R79), cistern overflow (R91, R92), sparse groups (R133, R134),
residue events and the units they retire (R154 to R161), and uncorrectable words (R114, R139).
-/
namespace Sys2Proof.Machine
open Sys2Proof

/-- The collective identifier a trap record carries: 0xFFFF_FFFF outside a collective. -/
def State.collId (s : State) (x : Option Nat) : Nat :=
  match x with
  | some k => match s.coll k with
    | some c => c.cmd.collId
    | none => 0xFFFFFFFF
  | none => 0xFFFFFFFF

/-- The step an event belongs to: its collective's, or the step counter's. -/
def State.stepOf (s : State) (x : Option Nat) : Nat :=
  match x.bind s.coll with
  | some c => c.step
  | none => s.get F.STEP_CTR_step

/-- One first-NaN origin (Table 02-16): its cause and trap code, where it arose, and whether cause 0x04 arose while encoding. -/
structure Origin where
  cause : Nat
  code  : Nat
  enc   : Bool
  kind  : Nat
  unit  : Nat
  ctx   : Nat
  lane  : Nat
  fmt   : Nat
  op    : Nat
  port  : Nat
  chunk : Nat
  elem  : Nat
  deriving DecidableEq, Repr

/-- Does the first of two origins of one turn go first (R74)? -/
def Origin.before (a b : Origin) : Bool :=
  a.kind < b.kind || (a.kind == b.kind && (a.unit < b.unit || (a.unit == b.unit && (a.ctx < b.ctx || (a.ctx == b.ctx && a.lane ≤ b.lane)))))

/-- The counter of an origin (Table 02-17). -/
def State.countOrigin (s : State) (o : Origin) : State :=
  if o.cause = 5 then s.inc F.POISON_COUNT_poison
  else if o.cause = 3 ∨ (o.cause = 4 ∧ !o.enc) then s.inc F.NAN_IN_COUNT_in
  else s.inc F.NAN_GEN_COUNT_gen

/-- One origin: counted, and captured when the trap is armed and nothing is pending; a capture in a collective that latched
nan_action 1 halts it (R73, R75, R78, R79). -/
def State.origin (s : State) (x : Option Nat) (o : Origin) : State :=
  let s := s.countOrigin o
  if s.get F.FNT_CTL_arm = 0 || s.cause 0 then s
  else
    let id := s.collId x
    let s := (s.sets [(F.FNT_REC0_collective, id), (F.FNT_REC0_chunk, o.chunk), (F.FNT_REC1_element, o.elem),
      (F.FNT_REC1_port, o.port), (F.FNT_REC1_opcode, o.op), (F.FNT_REC1_cause, o.cause), (F.FNT_REC1_trap_code, o.code),
      (F.FNT_REC2_unit, o.unit), (F.FNT_REC2_kind, o.kind), (F.FNT_REC2_context, o.ctx), (F.FNT_REC2_lane, o.lane),
      (F.FNT_REC2_format, o.fmt), (F.FNT_REC3_turn, s.turn)]).inc F.FNT_SEQ_seq
    let s := s.trapNotice 1 id o.chunk (s.get F.FNT_SEQ_seq) s.turn o.unit
    match x with
    | some k => match s.coll k with
      | some c => if c.nanHalt then s.haltColl k else s
      | none => s
    | none => s

/-- The origins of one command, in their order of precedence (R74, log entry 51). -/
def State.origins (s : State) (x : Option Nat) (os : List Origin) : State :=
  (sortBy Origin.before os).foldl (fun t o => t.origin x o) s

/-- A new overflow of a cistern slot (R91, R92). `op` is 0 CACC, 1 CMERGE, 2 CXPORT. -/
def State.overflowTrap (s : State) (x : Option Nat) (chunk elem cluster fmtCode op : Nat) : State :=
  let id := s.collId x
  if s.cause 1 then (s.inc F.CIS_OVF_LOST_COUNT_lost).trapNotice 5 id chunk 0 s.turn cluster
  else
    let s := (s.sets [(F.CIS_OVF_REC0_collective, id), (F.CIS_OVF_REC0_chunk, chunk), (F.CIS_OVF_REC1_element, elem),
      (F.CIS_OVF_REC1_cluster, cluster), (F.CIS_OVF_REC1_format, fmtCode), (F.CIS_OVF_REC1_op, op),
      (F.CIS_OVF_REC2_turn, s.turn)]).inc F.CIS_OVF_SEQ_seq
    s.trapNotice 5 id chunk (s.get F.CIS_OVF_SEQ_seq) s.turn cluster

/-- A compressed group that failed a check of Table 04-2. -/
structure BadGroup where
  code   : Nat
  group  : Nat
  sent   : Nat
  masked : Nat
  deriving DecidableEq, Repr

/-- Trap one failed group: its counter, the record unless one is pending, the notice (R129, R133). -/
def State.sparseTrap (s : State) (x : Option Nat) (chunk port eng ctx fmt lay : Nat) (mx : Bool) (b : BadGroup) : State :=
  let id := s.collId x
  let s := if b.code = 3 then s.inc F.SPT_INDEX_COUNT_index else if b.code = 8 then s.inc F.SPT_MASK_COUNT_mask
    else s.inc F.SPT_GROUP_COUNT_group
  if s.cause 2 then (s.inc F.SPT_LOST_COUNT_lost).trapNotice b.code id chunk 0 s.turn eng
  else
    let s := (s.sets [(F.SPT_REC0_collective, id), (F.SPT_REC0_chunk, chunk), (F.SPT_REC1_group, b.group),
      (F.SPT_REC1_port, port), (F.SPT_REC1_trap_code, b.code), (F.SPT_REC1_engine, eng), (F.SPT_REC1_context, ctx),
      (F.SPT_REC2_map_sent, b.sent), (F.SPT_REC2_map_mask, b.masked), (F.SPT_REC2_format, fmt),
      (F.SPT_REC2_layout, lay), (F.SPT_REC2_mx, b2n mx), (F.SPT_REC3_turn, s.turn)]).inc F.SPT_SEQ_seq
    s.trapNotice b.code id chunk (s.get F.SPT_SEQ_seq) s.turn eng

/-- Trap failed groups in order (R133). -/
def State.sparseTraps (s : State) (x : Option Nat) (chunk port eng ctx fmt lay : Nat) (mx : Bool) (l : List BadGroup) : State :=
  l.foldl (fun t b => t.sparseTrap x chunk port eng ctx fmt lay mx b) s

/-! ### Units that fail -/

/-- The logical engine's physical engine (R26). -/
def State.physOf (s : State) (eng : Nat) : Nat := s.get (F.ENG_MAP_phys eng)

/-- The engine that runs physical engine `ph`'s instructions: the die's spare while it is attached to it (R157). -/
def State.runsOn (s : State) (ph : Nat) : Nat :=
  if s.eng.attach.find (ph / 17) = some ph then 17 * (ph / 17) + 16 else ph

/-- The sluice die's island number and its readings (Table 18-2). -/
def State.sluiceTemp (s : State) (die : Nat) : Nat := s.get (F.ISL_temp (10 + die))
/-- The island's supply in mV. -/
def State.sluiceMv (s : State) (die : Nat) : Nat := s.get (F.ISL_mv (10 + die))

/-- The field log's unit of an engine, or of a cluster's column (Table 19-6). -/
def flogUnit (kind phys cluster col : Nat) : Nat := if kind = 0 then phys else 136 + 9 * cluster + col

/-- Where the field log keeps a residue unit's 16 bytes (Table 19-6). -/
def flogAt (unit : Nat) : Nat := 0x6BE8 + 16 * unit

/-- Note a residue event in the field log and answer whether it is a third event within 24 hours of powered time on a unit
still in service (R159). -/
def State.residueNote (s : State) (unit : Nat) : Bool × State :=
  let a := flogAt unit
  let now := s.get F.FLOG_PTIME_seconds
  let n := s.flog.num a 4
  let prev := s.flog.num (a + 8) 4
  let third := decide (n ≥ 2) && decide (now ≤ prev + 86400) && s.flog.num (a + 12) 1 == 0
  let s := s.flogAdd a 4
  (third, { s with flog := (s.flog.wr (a + 8) (leBytes (s.flog.num (a + 4) 4) 4)).wr (a + 4) (leBytes (min (2 ^ 32 - 1) now) 4) })

/-- Mark a unit degraded and report it (R161). `col` is 0xF for an engine. -/
def State.degrade (s : State) (kind phys cluster col : Nat) : State :=
  let s := { s with flog := s.flog.wr (flogAt (flogUnit kind phys cluster col) + 12) [2] }
  let s := if kind = 0 then s.set (F.ENG_STATUS_degraded phys) 1
    else s.set ⟨R.COL_STATUS cluster, 2 * col, 2⟩ 2
  (s.set F.ENG_GSTATUS_degraded_any 1).faultReport 4 phys 1 (if kind = 0 then 0xF else col)

/-- Is the replacement of the unit already in use (R161): the die's spare engine substituted, promised to another engine that retires, or attached to
another engine, or the store's column 8 serving? A spare that reaches the retirement condition itself has no replacement: it is degraded and goes on
attaching (log entry 52). -/
def State.spareUsed (s : State) (kind phys cluster : Nat) : Bool :=
  let die := phys / 17
  if kind = 0 then s.get (F.ENG_STATUS_role (17 * die + 16)) != 1 || phys % 17 == 16 || s.eng.retiring.any (fun p => p / 17 == die && p != phys)
    || (match s.eng.attach.find die with
      | some p => p != phys
      | none => false)
  else s.get (F.COL_STATUS_col8 cluster) != 0

/-- A residue event (R154): record or lost count, notice, field-log entry, counts; the third in 24 hours retires the unit once its permanent
entry is durable, or degrades it (R159 to R161, R605). `logical` names the engine for the record. -/
def State.residue (s : State) (x : Option Nat) (kind phys logical cluster col outcome sig chunk : Nat) : State :=
  let die := if kind = 0 then phys / 17 else cluster / 2
  let unit := flogUnit kind phys cluster col
  let r := s.residueNote unit
  let s := r.2
  let pending := s.journal.any (fun e => e.kind == 2 && e.unit == unit) || (kind == 0 && s.eng.retiring.contains phys)
  let third := r.1 && !pending
  let retire := third && !s.spareUsed kind phys cluster
  let id := s.collId x
  let s := if kind = 0 then s.inc (F.ENG_RES_COUNT_events phys) else s
  let s :=
    if s.cause 4 then (s.inc F.RES_LOST_COUNT_lost).trapNotice 6 id chunk 0 s.turn logical
    else
      let s := (s.sets [(F.RES_REC0_phys, phys), (F.RES_REC0_logical, logical), (F.RES_REC0_kind, kind),
        (F.RES_REC0_column, if kind = 0 then 0 else col), (F.RES_REC0_outcome, outcome), (F.RES_REC0_retired, b2n retire),
        (F.RES_REC1_signature, sig), (F.RES_REC1_collective, id), (F.RES_REC2_temp, s.sluiceTemp die),
        (F.RES_REC2_mv, s.sluiceMv die), (F.RES_REC2_chunk, chunk), (F.RES_REC3_turn, s.turn)]).inc F.RES_SEQ_seq
      s.trapNotice 6 id chunk (s.get F.RES_SEQ_seq) s.turn logical
  let s := s.journalPut 1 outcome unit (s.sluiceTemp die) (s.sluiceMv die) sig 0
  let s := if outcome = 2 then ((s.inc F.RES_UNREC_COUNT_unrec).faultReport 3 phys 0 sig).bitEvent (s.stepOf x) 1
    else if outcome = 3 then s else s.pert 7
  if retire then
    let s := if kind = 0 then { s with eng.retiring := s.eng.retiring ++ [phys] } else s
    s.journalPut 2 0 unit (s.sluiceTemp die) (s.sluiceMv die) sig 0
  else if third then s.degrade kind phys cluster col
  else s

/-! ### Retirement (R160) -/

/-- A hardware context by its key (8 × logical engine + context). -/
def State.ctxOf (s : State) (key : Nat) : Ctx := SMap.get (fun _ => Ctx.free) s.eng.ctxs key

/-- Has a context reached a return point (R157): FREE or HALTED, between the chunks of a built-in program, or at an SRECV with open = 1, a WAITEV
or HALT? -/
def State.returnPoint (s : State) (eng : Nat) (c : Ctx) : Bool :=
  let w := s.eng.store.num (3145728 * eng + (c.code + 8 * c.pc)) 8
  let op := w / 2 ^ 56 % 256
  c.st == 0 || c.st == 5 || c.prog == 0xFF || (op == 0x01 && bit w 41) || op == 0x78 || op == 0x82

/-- Have all 8 contexts of a physical engine reached a return point? -/
def State.atReturn (s : State) (ph : Nat) : Bool :=
  let n := s.get (F.ENG_STATUS_logical ph)
  (List.range 8).all (fun i => s.returnPoint n (s.ctxOf (8 * n + i)))

/-- The spare takes the logical number of a retired engine, with its store, ports and contexts (R160). -/
def State.takeOver (s : State) (unit : Nat) : State :=
  let sp := 17 * (unit / 17) + 16
  let n := s.get (F.ENG_STATUS_logical unit)
  let s := { s with eng.attach := s.eng.attach.drop (unit / 17), eng.stopped := s.eng.stopped.filter (· != unit),
                    eng.retiring := s.eng.retiring.filter (· != unit) }
  (s.sets [(F.ENG_STATUS_role unit, 2), (F.ENG_STATUS_logical unit, 0x7F), (F.ENG_STATUS_attached unit, 0),
    (F.ENG_STATUS_peer unit, 0xFF), (F.ENG_STATUS_role sp, 0), (F.ENG_STATUS_logical sp, n), (F.ENG_STATUS_attached sp, 0),
    (F.ENG_STATUS_peer sp, 0xFF), (F.ENG_MAP_phys n, sp)]).pert 8

/-- Is the entry that retires an engine in the field log? -/
def State.marked (s : State) (unit : Nat) : Bool := s.flog.num (flogAt unit + 12) 1 == 1

/-- May the spare take a retiring engine over: its entry is durable, and the spare is attached to it, or is free while the engine is at its return
point (R160)? -/
def State.mayTakeOver (s : State) (unit : Nat) : Bool :=
  s.eng.retiring.contains unit && s.marked unit && (match s.eng.attach.find (unit / 17) with
    | some p => p == unit
    | none => s.atReturn unit)

/-- Carry out the retirement of a unit whose permanent entry is durable (R160, R605): the spare takes the engine over as soon as it may, column 8
takes the column's place at once. -/
def State.retireUnit (s : State) (unit : Nat) : State :=
  let s := { s with flog := s.flog.wr (flogAt unit + 12) [1] }
  if unit < 136 then
    let s := if s.eng.retiring.contains unit then s else { s with eng.retiring := s.eng.retiring ++ [unit] }
    if s.mayTakeOver unit then s.takeOver unit else s
  else
    let c := (unit - 136) / 9
    let j := (unit - 136) % 9
    (s.set ⟨R.COL_STATUS c, 2 * j, 2⟩ 1).set (F.COL_STATUS_col8 c) 3

/-- A word of a register file or an engine store that ECC found wrong (R139, R149). -/
def State.engineEcc (s : State) (eng addr : Nat) (uncorr : Bool) : State :=
  let ph := s.physOf eng
  if uncorr then (s.inc (F.ENG_ECC_COUNT_uncorr ph)).faultReport 2 ph 0 addr
  else (s.inc (F.ENG_ECC_COUNT_corr ph)).pert 1

/-- A word of a cistern store that ECC found wrong (R114): counted; an uncorrectable one is reported. The
field log has no count and no entry for it (log entry 53). -/
def State.cisternEcc (s : State) (cluster pos : Nat) (uncorr : Bool) : State :=
  if uncorr then (s.inc F.CIS_ECC_UNCORR_COUNT_uncorr).faultReport 1 cluster 0 pos
  else (s.inc F.CIS_ECC_CORR_COUNT_corr).pert 1

end Sys2Proof.Machine
end

