-- ==== Sys2Proof/Machine/MemOps.lean ====
section
/-!
DEFINITION. Operations on the memory levels (chapter 14) that engines, collectives and the noria share: bytes with their poisoned lines, the
binding sets of a command, rows of tables, slots of scatter tables, and the GATHER_INDEX trap; the latched masks (R125, R313);
the generator of a command (R335, R337).
-/
namespace Sys2Proof.Machine
open Sys2Proof

/-! ### Bytes -/

/-- The key of a byte of a level. -/
def memKey (level addr : Nat) : Nat := level * 2 ^ 44 + addr

/-- Bytes of a level (R444). -/
def levelSize (level : Nat) : Nat :=
  if level = 0 then 2 ^ 29 else if level = 1 then 384 * 2 ^ 30 else if level = 2 then 3840 * 2 ^ 30 else 0

/-- Does any 64-byte line of the range hold an uncorrectable error (R466)? -/
def State.memBad (s : State) (level addr n : Nat) : Bool :=
  let a := memKey level addr
  (List.range ((a + n + 63) / 64 - a / 64)).any (fun i => s.mem.bad.rd (a / 64 + i) == 1)

/-- Read bytes, each with the poison of its line. -/
def State.memRd (s : State) (level addr n : Nat) : List (Byte × Bool) :=
  let a := memKey level addr
  ((s.mem.bytes.rd a n).zipIdx).map (fun p => (p.1, s.mem.bad.rd ((a + p.2) / 64) == 1))

/-- Read bytes alone. -/
def State.memBytes (s : State) (level addr n : Nat) : List Byte := s.mem.bytes.rd (memKey level addr) n

/-- Write bytes; a write that replaces a whole line ends its poison (R466). -/
def State.memWr (s : State) (level addr : Nat) (bs : List Byte) : State :=
  let a := memKey level addr
  let lo := (a + 63) / 64
  let hi := (a + bs.length) / 64
  { s with mem := ⟨s.mem.bytes.wr a bs, SMap.erase (fun l => lo ≤ l && l < hi) s.mem.bad⟩ }

/-- Mark the line of an address poisoned (R466). -/
def State.memPoison (s : State) (level addr : Nat) : State :=
  { s with mem.bad := s.mem.bad.wr (memKey level addr / 64) 1 }

/-! ### Binding sets (R452, R453) -/

/-- The default binding set of a tenant. -/
def State.defaultSet (s : State) (tenant : Nat) : Option BindSet :=
  findMap? (fun (p : Nat × BindSet) => if p.2.dflt && p.2.tenant == tenant then some p.2 else none) s.binds.items

/-- The binding set of a command (R453). -/
def State.bindOf (s : State) (c : Cmd) : Option BindSet :=
  if 8 ≤ c.op ∧ c.op ≤ 0x0A then s.binds.find (bits c.arg0 0 8) else s.defaultSet c.tenant

/-- The table of a handle for a command. -/
def State.tableOf (s : State) (c : Cmd) (h : Nat) : Option TableRec := (s.bindOf c).bind (fun b => b.tables.find h)

/-! ### GATHER_INDEX (R459, R460) -/

/-- One index that is out of range or poisoned: counted, recorded unless a record is pending, and notified. -/
def State.gatherIndex (s : State) (x : Option Nat) (chunk index eng lane handle op : Nat) (pois : Bool) : State :=
  let id := s.collId x
  let s := s.inc F.GIX_COUNT_count
  if s.cause 3 then (s.inc F.GIX_LOST_COUNT_lost).trapNotice 4 id chunk 0 s.turn eng
  else
    let s := (s.sets [(F.GIX_REC0_collective, id), (F.GIX_REC0_chunk, chunk), (F.GIX_REC1_index, if pois then 0 else index),
      (F.GIX_REC1_engine, eng), (F.GIX_REC1_lane, lane), (F.GIX_REC1_handle, handle), (F.GIX_REC1_op, op),
      (F.GIX_REC1_poisoned, b2n pois), (F.GIX_REC2_turn, s.turn)]).inc F.GIX_SEQ_seq
    s.trapNotice 4 id chunk (s.get F.GIX_SEQ_seq) s.turn eng

/-! ### Where an address lies (R449 to R451) -/

/-- XOR of the low `n` groups of `w` bits of a number. -/
def foldXor (w : Nat) : Nat → Nat → Nat
  | 0, _ => 0
  | n + 1, p => p % 2 ^ w ^^^ foldXor w n (p / 2 ^ w)

/-- The stack of an HBM address (R449). -/
def hbmStack (addr : Nat) : Nat := foldXor 3 9 (addr / 4096)

/-- The logical channel of an LPDDR address (R450). -/
def lpdChan (addr : Nat) : Nat := foldXor 7 5 (addr / 4096)

/-- The channel-local page of an LPDDR address (R450). -/
def lpdPage (addr : Nat) : Nat := addr / 4096 / 128

/-- The LPDDR address of a channel's local page. -/
def lpdAddr (chan page : Nat) : Nat := (page * 128 + (chan ^^^ foldXor 7 4 page)) * 4096

/-- Local pages of one channel: 30 GiB. -/
def lpdPages : Nat := 7864320

/-- The reservoir die of a physical channel (Table 01-2). -/
def physDie (phys : Nat) : Nat := if phys < 128 then phys / 32 else (phys - 128) / 2

/-- The physical channel that serves an LPDDR address now: a page below the copy pointer of a migration is served by the spare (R451, R473). -/
def State.physServing (s : State) (addr : Nat) : Nat :=
  let c := lpdChan addr
  match s.rsv.mig with
  | some (m, spare, page) => if m = c ∧ lpdPage addr < page then spare else s.get (F.LPD_CH_phys c)
  | none => s.get (F.LPD_CH_phys c)

/-- The home die of an LPDDR line (R447). -/
def State.lpdHome (s : State) (line : Nat) : Nat := physDie (s.physServing (256 * line))

/-! ### Rows of row tables (R454, R293, R320) -/

/-- The shard of a number. -/
def State.shard (s : State) (n : Nat) : Option Shard := s.nor.shards.find n

/-- Put a shard. -/
def State.putShard (s : State) (n : Nat) (h : Shard) : State := { s with nor.shards := s.nor.shards.put n h }

/-- The copy that holds row `r` of an embedding shard, by the bitmap of copy `c` (R293). -/
def State.rowCopy (s : State) (h : Shard) (c r : Nat) : Nat :=
  let b := (s.memBytes h.record.level (h.record.base c + h.record.bitmapOff + r / 8) 1).headD 0
  b2n (bit b.toNat (r % 8))

/-- Where row `r` of a row table lies: level and address; the W part of the row record for an embedding shard (R320, R454). -/
def State.rowPlace (s : State) (t : TableRec) (r : Nat) : Nat × Nat :=
  match if t.shard = 0xFFFF then none else s.shard t.shard with
  | some h => (h.record.level, h.record.base (s.rowCopy h h.live r) + r * h.record.rowBytes)
  | none => (t.level, t.base + r * t.rowBytes)

/-- Turnout requests of one row (R457). -/
def rowRequests (t : TableRec) : Nat := t.rowBytes / 64 + (if t.rowBytes % 64 = 0 then 0 else 1)

/-- Does the row predictor serve the table (R461)? -/
def State.predicted (s : State) (t : TableRec) : Bool := bit t.predict 0 && (s.rowPlace t 0).1 == 2

/-- Is line `l` one of a range of LPDDR? -/
def lineIn (addr n l : Nat) : Bool := addr < 256 * (l + 1) && 256 * l < addr + n

/-- Did the predictor place the lines of a range of LPDDR in the cache: pinned, or fetched ahead (R461 to R463)? -/
def State.placed (s : State) (addr n : Nat) : Bool := s.rsv.ahead.contains addr || s.rsv.pins.any (fun p => lineIn addr n p.1)

/-- A request uses a range of LPDDR: its pinned lines have been used (R463), and its row is no longer ahead of its request. -/
def State.useRow (s : State) (addr n : Nat) : State :=
  { s with
    rsv.pins := s.rsv.pins.map (fun p => if lineIn addr n p.1 then (p.1, true) else p)
    rsv.ahead := s.rsv.ahead.erase addr }

/-- The predictor looks ahead (R462, log entry 71): it fetches the rows of a table that it has not placed, at most 4,096 rows ahead for each die. -/
def State.lookAhead (s : State) (t : TableRec) (rows : List Nat) : State :=
  if !s.predicted t then s
  else rows.foldl (fun s r =>
    let a := (s.rowPlace t r).2
    let die := s.lpdHome (a / 256)
    if s.placed a t.rowBytes || decide ((s.rsv.ahead.filter (fun b => s.lpdHome (b / 256) == die)).length ≥ 4096) then s
    else { s with rsv.ahead := s.rsv.ahead ++ [a] }) s

/-- The turnout's requests for one row of a table (R457, R463). -/
def State.rowRequest (s : State) (t : TableRec) (r : Nat) : State :=
  let s := s.inc F.TRN_COUNT_requests (rowRequests t)
  if s.predicted t then s.useRow (s.rowPlace t r).2 t.rowBytes else s

/-- The bytes of a row whose index is in range, with their poison. -/
def State.rowData (s : State) (t : TableRec) (r : Nat) : List (Byte × Bool) :=
  let p := s.rowPlace t r
  s.memRd p.1 p.2 t.rowBytes

/-- Pack elements of `w` bits into bytes (R41). -/
def packElems (w : Nat) (l : List Nat) : List Byte :=
  let n := (l.reverse).foldl (fun a x => a <<< w ||| x % 2 ^ w) 0
  leBytes n ((l.length * w + 7) / 8)

/-- Element `i` of `w` bits of a payload (R41). -/
def elemAt (w : Nat) (b : List Byte) (i : Nat) : Nat :=
  let lo := w * i
  bits (leNat ((b.drop (lo / 8)).take ((lo % 8 + w + 7) / 8))) (lo % 8) w

/-- The poison row: the poison value of the table's format with trap code 0x04, its lanes poisoned where the format has no NaN
(R459). -/
def State.poisonRow (s : State) (t : TableRec) : List (Byte × Bool) :=
  let f := s.fmt t.fmt
  let row := packElems f.width (List.replicate t.cols (f.canonNan 4))
  (padTo t.rowBytes row).map (fun b => (b, !f.hasNan))

/-! ### Slots of scatter tables (R224, R227, R458) -/

/-- The slot a record holds (R103). Its overflow (R91) shows as a full count with the poisoned flag. -/
def slotOfBytes (x : Exact) (b : List Byte) : Slot :=
  let v := leNat (b.take (x.homeBytes - 8))
  let tag := leNat ((b.drop (x.homeBytes - 8)).take 8)
  let f := Flags.ofNat (bits tag 48 8)
  let occ := bit tag 40
  ⟨sint x.width v, occ, bits tag 0 40, f, occ && bits tag 0 40 == 2 ^ 40 - 1 && f.poisoned, []⟩

/-- The record of a slot (R103). -/
def slotBytes (x : Exact) (s : Slot) : List Byte :=
  leBytes (uint x.width s.v) (x.homeBytes - 8) ++ leBytes (s.tag x) 8

/-- The address of slot (row, col) of a scatter table (R454). -/
def TableRec.slotAddr (t : TableRec) (row col : Nat) : Nat := t.base + (row * t.cols + col) * 64

/-- The slot whose record lies at an address; a poisoned line gives its poisoned flag (R466). -/
def State.slotAt (s : State) (level addr : Nat) (x : Exact) : Slot :=
  let k := slotOfBytes x (s.memBytes level addr x.homeBytes)
  if s.memBad level addr x.homeBytes then { k with flags := { k.flags with poisoned := true } } else k

/-- Read a slot of a scatter table. -/
def State.scatterRd (s : State) (t : TableRec) (row col : Nat) : Slot := s.slotAt t.level (t.slotAddr row col) (Exact.ofIdx t.fmt)

/-- Write a slot of a scatter table with the 16 zero bytes behind it. -/
def State.scatterWr (s : State) (t : TableRec) (row col : Nat) (k : Slot) : State :=
  s.memWr t.level (t.slotAddr row col) (padTo 64 (slotBytes (Exact.ofIdx t.fmt) k))

/-- Enter one contribution into a slot of a scatter table: a read and a write of the slot (R227, R457). -/
def State.scatterEnter (s : State) (x : Option Nat) (chunk elem cluster : Nat) (t : TableRec) (row col : Nat) (v : Val) (pz : Bool) :
    State :=
  let r := (s.scatterRd t row col).enter (Exact.ofIdx t.fmt) v pz false
  let s := ((s.scatterWr t row col r.slot).inc F.TRN_COUNT_requests 2).inc F.CIS_CONTRIB_COUNT_contrib
  let s := if r.dropped then s.inc F.CIS_OVF_DROP_COUNT_drop else s
  if r.ovfNow then s.overflowTrap x chunk elem cluster (Exact.ofIdx t.fmt).code 0 else s

/-! ### Home slots in spill levels (R103, R104) -/

/-- A range of a level: level, first byte, bytes. -/
abbrev Range := Nat × Nat × Nat

/-- The spill regions of a cluster (R103). -/
def State.spillRegions (s : State) (cl : Nat) : List Range :=
  [(0, s.get (F.CIS_SPILL_RES_base cl) * 2 ^ 20, s.get (F.CIS_SPILL_RES_size cl) * 2 ^ 20),
   (1, s.get (F.CIS_SPILL_HBM_base cl) * 4096, s.get (F.CIS_SPILL_HBM_size cl) * 4096),
   (2, s.get (F.CIS_SPILL_LPD_base cl) * 4096, s.get (F.CIS_SPILL_LPD_size cl) * 4096)]

/-- Where slot `n` of a region has its home in a spill level: the level, and the byte in the cluster's region of it; none where its home is in the
store. Slots take the homes in order (log entry 67). -/
def Region.spilled (r : Region) (n : Nat) : Option (Nat × Nat) :=
  let h := fun (v : Nat) => r.homes.getD v 0
  let at_ := fun (v k : Nat) => some (v, r.starts.getD v 0 + k * (Exact.ofIdx r.fmt).homeBytes)
  if r.homes.isEmpty ∨ n < h 0 then none
  else if n < h 0 + h 1 then at_ 0 (n - h 0)
  else if n < h 0 + h 1 + h 2 then at_ 1 (n - h 0 - h 1)
  else if n < h 0 + h 1 + h 2 + h 3 then at_ 2 (n - h 0 - h 1 - h 2) else none

/-- The level and address of slot `n`'s home in a spill level of cluster `cl`. -/
def State.spillAddr (s : State) (cl : Nat) (r : Region) (n : Nat) : Option (Nat × Nat) :=
  (r.spilled n).map (fun p => (p.1, ((s.spillRegions cl).getD p.1 (0, 0, 0)).2.1 + p.2))

/-- The group of slots that share a chunk's place in the window. -/
def Region.groupOf (r : Region) (n : Nat) : Nat := n / max 1 r.perChunk

/-! ### Masks (R125, R313) -/

/-- The map of group `g` in the mask that key `k` names: 2 × shard + copy. -/
def State.maskMap (s : State) (k g : Nat) : Nat :=
  match s.shard (k / 2) with
  | none => 0
  | some h =>
    let m := h.record.maskG
    let a := h.record.base (k % 2) + h.planeOff 5 + g * m / 8
    bits ((s.memBytes h.record.level a 1).headD 0).toNat (g * m % 8) m

/-! ### The elements of a chunk (R266, R135) -/

/-- The map of a tensor's group in the latched mask, 0 where none is latched. -/
def State.latchedMap (s : State) (k : Option Nat) (g : Nat) : Nat := (k.map (fun k => s.maskMap k g)).getD 0

/-- A map of `g` positions that start at tensor index `base`, cut at an operand of `len` elements (R123, log entry 56). -/
def cutMap (map g base len : Nat) : Nat := bits map 0 (min g (len - base))

/-- The latched mask's map of a tensor's group, cut at the operand (R123, R135). -/
def State.operandMap (s : State) (c : Cmd) (k : Option Nat) (g : Nat) : Nat :=
  cutMap (s.latchedMap k g) (layG c.lay) (layG c.lay * g) c.elements

/-- Elements of the operand in contribution chunk i. -/
def State.chunkLen (s : State) (c : Cmd) (i : Nat) : Nat := min (s.perChunk c) (c.elements - i * s.perChunk c)

/-- Blocks of a compressed chunk. -/
def State.chunkBlocks (s : State) (c : Cmd) (i : Nat) : Nat := (s.chunkLen c i + 64 * layG c.lay - 1) / (64 * layG c.lay)

/-- The places of chunk i: (slot within the chunk, position in the tensor), in element order. -/
def State.places (s : State) (c : Cmd) (mask : Option Nat) (i : Nat) : List (Nat × Nat) :=
  let first := i * s.perChunk c
  if c.sparse then
    let g := layG c.lay
    (List.range (64 * s.chunkBlocks c i)).flatMap (fun q =>
      ((bitList (s.operandMap c mask (first / g + q)) g).zipIdx).map (fun p => (layN c.lay * q + p.2, first + g * q + p.1)))
  else (List.range (s.chunkLen c i)).map (fun j => (j, first + j))

/-- The unit a chunk is shared out in: its elements and its bytes (R266). -/
def State.unitOf (s : State) (c : Cmd) : Nat × Nat :=
  let f := s.fmt c.fmtIn
  if c.op = 0x07 then (1, bits c.arg0 0 16 * f.width / 8 + bits c.arg1 0 16)
  else if c.op = 0x08 ∨ c.op = 0x09 then (1, 4)
  else if c.op = 0x0A then (1, 4 + f.width / 8)
  else if c.sparse then (64 * layG c.lay, blockBytes f c.mx c.lay)
  else if c.mx then (32, mxBytes f)
  else (128, 16 * f.width)

/-- The units of chunk i that engine `j` of `e` works on: from the first to before the last. Engines take equal consecutive shares (log entry 22). -/
def State.shareUnits (s : State) (c : Cmd) (i j e : Nat) : Nat × Nat :=
  let n := (s.chunkLen c i + (s.unitOf c).1 - 1) / (s.unitOf c).1
  (n * j / max 1 e, n * (j + 1) / max 1 e)

/-- The places of chunk i in the share of engine `j` of `e`. -/
def State.sharePlaces (s : State) (c : Cmd) (mask : Option Nat) (i j e : Nat) : Nat × Nat :=
  let r := s.shareUnits c i j e
  let first := i * s.perChunk c
  let before := fun u => ((s.places c mask i).filter (fun p => decide (p.2 < first + u * (s.unitOf c).1))).length
  (before r.1, before r.2)

/-! ### Generators (R335 to R337) -/

/-- The key of a seed-slot field: set [7:4], slot [3:0]. -/
def State.slotKeyOf (s : State) (field : Nat) : List Byte :=
  match s.det.seeds.find (field / 16 % 16) with
  | some d => seedKey (field % 16) (d.seeds.getD (field % 16) [])
  | none => []

/-- The seed set a tenant holds. -/
def State.seedSetOf (s : State) (tenant : Nat) : Option (Nat × SeedSet) :=
  s.det.seeds.items.find? (fun p => p.2.tenant == tenant)

/-- The generator's value, 0 where the mode takes none. -/
def rndOf (mode : Nat) (key : List Byte) (tau step e : Nat) : Nat := if mode = 4 then genR key tau step e else 0

end Sys2Proof.Machine
end

