-- ==== Sys2Proof/Machine/Operands.lean ====
section
/-!
DEFINITION. The registers of a context and the operand forms of the Sluice instructions: lanes and elements (R170, R171), broadcast operands
(R174), poison bits (R175), predicates (R173), scalars (R187).
-/
namespace Sys2Proof.Machine
open Sys2Proof

/-! ### Registers -/

/-- A vector register of zeros with no poison bit set (R139). -/
def zeroReg : List Lane := List.replicate 128 ⟨0, false⟩

/-- The lanes of vector register `r`. -/
def Ctx.reg (c : Ctx) (r : Nat) : List Lane := SMap.get (fun _ => zeroReg) c.v (r % 32)

/-- Write all lanes of vector register `r`. -/
def Ctx.setReg (c : Ctx) (r : Nat) (l : List Lane) : Ctx := { c with v := SMap.set (fun _ => zeroReg) c.v (r % 32) l }

/-- One lane of a vector register. -/
def Ctx.lane (c : Ctx) (r i : Nat) : Lane := (c.reg r).getD i ⟨0, false⟩

/-- Scalar register `i`. -/
def Ctx.sc (c : Ctx) (i : Nat) : Nat := c.s.rd i

/-- Write scalar register `i`; scalars hold 64 bits and no poison. -/
def Ctx.setSc (c : Ctx) (i v : Nat) : Ctx := { c with s := c.s.wr i (v % 2 ^ 64) }

/-- All 128 bits of a predicate. -/
def allOnes : Nat := 2 ^ 128 - 1

/-- Predicate register `i`; P0 reads all ones (Table 05-2). -/
def Ctx.pr (c : Ctx) (i : Nat) : Nat := if i = 0 then allOnes else c.p.rd i

/-- Write predicate register `i`; P0 ignores writes. -/
def Ctx.setPr (c : Ctx) (i v : Nat) : Ctx := if i = 0 then c else { c with p := c.p.wr i (v % 2 ^ 128) }

/-! ### Elements -/

/-- Is the format of index `i` a 64-bit format (R170)? -/
def is64 (i : Nat) : Bool := i == 0 || i == 14

/-- Elements in a register (R170). -/
def nElems (i : Nat) : Nat := if is64 i then 64 else 128

/-- Element `i` of a register in format `f` (R170, R171, R175). -/
def elemOf (f : Fmt) (l : List Lane) (i : Nat) : Lane :=
  if is64 f.idx then
    let a := l.getD (2 * i) ⟨0, false⟩
    let b := l.getD (2 * i + 1) ⟨0, false⟩
    ⟨a.bits % 2 ^ 32 + 2 ^ 32 * (b.bits % 2 ^ 32), a.pois || b.pois⟩
  else
    let a := l.getD i ⟨0, false⟩
    ⟨a.bits % 2 ^ f.width, a.pois⟩

/-- Element `i` of vector register `r` of a context. -/
def Ctx.elem (c : Ctx) (f : Fmt) (r i : Nat) : Lane := elemOf f (c.reg r) i

/-- The 32 lane bits of an element narrower than 32 bits: the sign copied for signed integers, else zeros (R171). -/
def widen (f : Fmt) (x : Nat) : Nat := if f.kind = 3 then uint 32 (sint f.width x) else x % 2 ^ f.width

/-- The lanes of a register after elements are written: `new i` is the element for place i, none where the place keeps its
lanes (R170, R171, R173). -/
def putElems (f : Fmt) (old : List Lane) (new : Nat → Option Lane) : List Lane :=
  if is64 f.idx then
    (List.range 128).map (fun j => match new (j / 2) with
      | some e => ⟨bits e.bits (32 * (j % 2)) 32, e.pois⟩
      | none => old.getD j ⟨0, false⟩)
  else
    (List.range 128).map (fun j => match new j with
      | some e => ⟨widen f e.bits, e.pois⟩
      | none => old.getD j ⟨0, false⟩)

/-- Operand b of element `i`: the register's element, or the scalar named in vb taken as one element, never poisoned
(R174). -/
def Ctx.operandB (c : Ctx) (f : Fmt) (vb bs i : Nat) : Lane :=
  if bs = 1 then ⟨c.sc (vb % 16) % 2 ^ f.width, false⟩ else c.elem f vb i

/-! ### Predication -/

/-- Is element `i` of a format enabled by a predicate's bits (R173)? -/
def enabledBy (p fmtIdx i : Nat) : Bool := if is64 fmtIdx then bit p (2 * i) else bit p i

/-- Is element `i` enabled by predicate register `pg`? -/
def Ctx.enabled (c : Ctx) (pg fmtIdx i : Nat) : Bool := enabledBy (c.pr pg) fmtIdx i

/-- The elements a predicate enables, in ascending order. -/
def Ctx.enabledList (c : Ctx) (pg fmtIdx : Nat) : List Nat :=
  (List.range (nElems fmtIdx)).filter (fun i => c.enabled pg fmtIdx i)

/-- The lane of an element: 2i for a 64-bit format. -/
def laneOf (fmtIdx i : Nat) : Nat := if is64 fmtIdx then 2 * i else i

end Sys2Proof.Machine
end

