-- ==== Sys2Proof/Machine/Flags.lean ====
section
/-!
DEFINITION. Predicates as results: the relations of VCMP (Table 06-7, R62, R182), the functions of PLOG (R186), and the test of BRP (R235).
The block has no condition flags beside the predicates (R60).
-/
namespace Sys2Proof.Machine
open Sys2Proof

/-- The order of two elements as VCMP takes it: none while unordered (R62, R182). A poisoned element makes the pair unordered. -/
def cmpElems (f : Fmt) (a b : Lane) : Option Int :=
  if a.pois || b.pois then none
  else match f.decode a.bits, f.decode b.bits with
    | .nan _, _ => none
    | _, .nan _ => none
    | x, y => some (cmpVal x y)

/-- Does relation `rel` hold (Table 06-7)? -/
def relHolds (rel : Nat) (o : Option Int) : Bool :=
  match o with
  | none => rel == 1 || rel == 6
  | some d =>
    match rel with
    | 0 => d == 0
    | 1 => d != 0
    | 2 => d < 0
    | 3 => d ≤ 0
    | 4 => d > 0
    | 5 => d ≥ 0
    | _ => false

/-- The predicate that holds bit `new i` for each element, both bits of a 64-bit element; a place with none keeps its
bits (R182). -/
def putBits (fmtIdx old : Nat) (new : Nat → Option Bool) : Nat :=
  ((List.range 128).filter (fun j => match new (if is64 fmtIdx then j / 2 else j) with
    | some b => b
    | none => bit old j)).foldl (fun a j => a ||| 1 <<< j) 0

/-- PLOG's functions: AND, OR, XOR, ANDN (Table 06-3). -/
def plogFunc (func a b : Nat) : Nat :=
  match func with
  | 0 => a &&& b
  | 1 => a ||| b
  | 2 => a ^^^ b
  | _ => a &&& (b ^^^ allOnes)

/-- BRP's test over all 128 bits: any, all, none (R235). The verifier rejects code 3. -/
def brpTest (cond p : Nat) : Bool :=
  match cond with
  | 0 => p % 2 ^ 128 != 0
  | 1 => p % 2 ^ 128 == allOnes
  | 2 => p % 2 ^ 128 == 0
  | _ => false

end Sys2Proof.Machine
end

