-- ==== Sys2Proof/Machine/Issue.lean ====
section
/-!
DEFINITION. How a Sluice instruction issues and commits (R141, R142, R152): when it may issue, the program counter with its loops (R234), a
failed check and its recovery (R152, R154, R156), and an uncorrectable word of a register file (R139). Every instruction's
meaning is `issue` over a body that reads the context and answers what commits.
-/
namespace Sys2Proof.Machine
open Sys2Proof

/-! ### Contexts -/

/-- The key of a context: 8 × logical engine + context. -/
def ctxKey (eng ctx : Nat) : Nat := 8 * eng + ctx

/-- A hardware context. -/
def State.ctxAt (s : State) (eng ctx : Nat) : Ctx := s.ctxOf (ctxKey eng ctx)

/-- Put a hardware context. -/
def State.putCtx (s : State) (eng ctx : Nat) (c : Ctx) : State :=
  { s with eng.ctxs := SMap.set (fun _ => Ctx.free) s.eng.ctxs (ctxKey eng ctx) c }

/-- The key of a byte of an engine's store (Table 05-1). -/
def storeKey (eng addr : Nat) : Nat := 3145728 * eng + addr

/-- The key of a stream of an engine. -/
def strmKey (eng n : Nat) : Nat := 16 * eng + n

/-- A stream of an engine. -/
def State.strm (s : State) (eng n : Nat) : Option Strm := s.eng.strms.find (strmKey eng n)

/-- Put a stream. -/
def State.putStrm (s : State) (eng n : Nat) (t : Strm) : State := { s with eng.strms := s.eng.strms.put (strmKey eng n) t }

/-- The instruction word a context's program counter names (R165). -/
def State.codeWord (s : State) (eng : Nat) (c : Ctx) : Nat := s.eng.store.num (storeKey eng (c.code + 8 * c.pc)) 8

/-- Is a context of a loaded program READY (Table 05-3)? -/
def State.ready? (s : State) (eng ctx : Nat) : Bool := let c := s.ctxAt eng ctx; c.st == 1 && c.prog != 0xFF

/-- The contexts of an engine that stand before a context in the order that starts after the one that issued last (R141); the order starts at
context 0 while none has issued (log entry 54). -/
def State.ahead (s : State) (eng ctx : Nat) : List Nat :=
  let first := s.eng.last.rd eng
  ((List.range 8).map (fun i => (first + i) % 8)).takeWhile (· != ctx)

/-- May the instruction with word `w` issue in a context: no earlier instruction holds the context, its engine issues, no READY context stands
before it, and the word is the context's next (R140, R141, R152)? A context that waits for an operand or a stream is READY once what it waits for
is there. -/
def State.canIssue (s : State) (a : Site) (w : BitVec 64) : Bool :=
  let c := s.ctxAt a.eng a.ctx
  (c.st == 1 || c.st == 2 || c.st == 3) && c.prog != 0xFF && !(s.eng.stopped.contains (s.physOf a.eng))
    && !(s.ahead a.eng a.ctx).any (s.ready? a.eng) && s.codeWord a.eng c == w.toNat

/-! ### The program counter -/

/-- The loops and program counter after an instruction whose successor is `pc`: past the end of the innermost body the next iteration
starts, or the loop ends (R234, R235). -/
def wrapLoops : List LoopFrame → Nat → List LoopFrame × Nat
  | [], pc => ([], pc)
  | f :: fs, pc =>
    if f.first ≤ pc ∧ pc ≤ f.last then (f :: fs, pc)
    else if f.left > 0 then ({ f with left := f.left - 1 } :: fs, f.first)
    else wrapLoops fs pc

/-! ### Commit -/

/-- Gather what the engines of a collective have closed, in engine order, and keep each chunk that every engine has closed (R274). -/
def State.collectOut (s : State) (x : Nat) : State :=
  match s.coll x with
  | none => s
  | some c =>
    let fresh := c.engs.flatMap (fun e => [4, 5].flatMap (fun k => match s.strm e k with
      | some t => if t.coll = x then t.closed.map (e, ·) else []
      | none => []))
    let s := c.engs.foldl (fun s e => [4, 5].foldl (fun s k => match s.strm e k with
      | some t => if t.coll = x then s.putStrm e k { t with closed := [] } else s
      | none => s) s) s
    let all := c.outs ++ fresh
    let idxs := (all.map (fun o => o.2.idx)).dedup
    let whole := idxs.filter (fun i => c.engs.all (fun e => all.any (fun o => o.1 == e && o.2.idx == i)))
    let s := s.putColl x { c with outs := all.filter (fun o => !whole.contains o.2.idx) }
    let s := whole.foldl (fun s i =>
      let parts := c.engs.filterMap (fun e => all.find? (fun o => o.1 == e && o.2.idx == i))
      let data := parts.flatMap (fun o => o.2.data)
      let pois := parts.any (fun o => o.2.pois)
      let fence := parts.any (fun o => o.2.fence)
      if parts.any (fun o => o.2.up) then
        let k := (s.cis.regions.items.find? (fun r => r.1 / 256 == x)).map (fun r => r.2.fmt)
        s.keepPartial x i (k.getD 16) data pois fence
      else s.keepResult x i data pois fence) s
    s.settle x

/-- What an instruction's body answers: the wait code its context keeps (Table 05-3), or the state, context and origins that commit; `send`, where
it gave data to an output port of collective x. -/
inductive Act where
  | wait (code : Nat)
  | go (s : State) (c : Ctx) (os : List Origin)
  | send (s : State) (c : Ctx) (os : List Origin) (x : Nat)

/-- Commit and go on with the next instruction. -/
def Act.next (s : State) (c : Ctx) (os : List Origin) : Act := .go s { c with pc := c.pc + 1 } os

/-- What the failing lanes of an instruction that commits unrecovered spoil (R156): `n` vector registers in a format, a scalar, a
predicate, the source registers of an instruction whose result leaves the context, or the items of one that moves items (`body` takes the failing
lanes as the failing items). -/
inductive Dest where
  | none
  | vec (r n : Nat) (f : Fmt)
  | sc (i : Nat)
  | pr (i : Nat)
  | src (rs : List Nat) (f : Fmt)
  | items (body : Nat → State → Ctx → Act)

/-- Lanes of a register with the poison value of trap code 0x06 in the failing lanes, poisoned (R52, R156). -/
def spoil (f : Fmt) (bad : Nat) (l : List Lane) : List Lane :=
  putElems f l (fun i =>
    if (if is64 f.idx then bit bad (2 * i) || bit bad (2 * i + 1) else bit bad i) then some ⟨f.canonNan 6, true⟩ else none)

/-- Spoil the failing lanes of several registers. -/
def Ctx.spoilRegs (c : Ctx) (f : Fmt) (bad : Nat) (rs : List Nat) : Ctx :=
  rs.foldl (fun c r => c.setReg r (spoil f bad (c.reg r))) c

/-- Apply the outcome of row 4 of Table 05-8 to a destination. A scalar or predicate has no poison value: the spec states no result
there, and the value is free (log entry 16). -/
def spoilDest (d : Dest) (bad : Nat) (s : State) (c : Ctx) : State × Ctx :=
  if bad = 0 then (s, c)
  else match d with
    | .vec r n f => (s, c.spoilRegs f bad ((List.range n).map (r + ·)))
    | .sc i => let v := s.free 64; (v.2, c.setSc i v.1)
    | .pr i =>
      let v := s.free 128
      (v.2, c.setPr i ((c.pr i ^^^ (c.pr i &&& bad)) ||| (v.1 &&& bad)))
    | _ => (s, c)

/-- Does a collective of state `s` still stand in state `t`? -/
def State.outlives (s t : State) (x : Option Nat) : Bool :=
  match x with
  | some x => (s.coll x).isNone || (t.coll x).isSome
  | none => true

/-- One residue event of an engine at an instruction (R154). -/
def State.engResidue (s : State) (a : Site) (c : Ctx) (outcome sig : Nat) : State :=
  s.residue c.coll 0 (s.runsOn (s.physOf a.eng)) a.eng (a.eng / 8) 0 outcome sig c.chunk

/-- The state in which an instruction of a site has committed context `c` (R142): `c.pc` is its successor, taken through the loops
(R234); the instruction is counted in the context and in ENG_ISSUE_COUNT of the engine that ran it, and its context has issued last (R141). One that
had failed its check before is one residue event of outcome 1 (R154, R156). -/
def State.commits (s : State) (a : Site) (c : Ctx) : State :=
  let w := wrapLoops c.loops c.pc
  let t := ({ s with eng.last := s.eng.last.wr a.eng (a.ctx + 1) }.putCtx a.eng a.ctx
    { c with loops := w.1, pc := w.2, issued := c.issued + 1, tries := 0, failed := 0 }).inc
      (F.ENG_ISSUE_COUNT_issued (s.runsOn (s.physOf a.eng)))
  if c.tries = 0 then t else t.engResidue a c 1 c.failed

/-- What an instruction of state `s` leaves when its body went on to state `u` with context `c`: nothing is put back into a context whose
collective has ended meanwhile (R144). -/
def State.commitsFrom (s u : State) (a : Site) (c : Ctx) : State :=
  if s.outlives u c.coll then u.commits a c else u.inc (F.ENG_ISSUE_COUNT_issued (u.runsOn (u.physOf a.eng)))

/-- Commit what a body answers (R142, R151): the context, its counters, the instruction count, the first-NaN origins, and then the chunks it
closed, which a halt by an origin of theirs holds back (R79). -/
def State.retire (s : State) (a : Site) (d : Dest) (bad : Nat) (act : Act) : State :=
  match act with
  | .wait code => s.putCtx a.eng a.ctx { s.ctxAt a.eng a.ctx with st := code }
  | .go t c os =>
    let r := spoilDest d bad t c
    (s.commitsFrom r.1 a r.2).origins c.coll os
  | .send t c os x =>
    let r := spoilDest d bad t c
    ((s.commitsFrom r.1 a r.2).origins c.coll os).collectOut x

/-! ### Failed checks -/

/-- The pattern signature of an engine's residue event (R155). -/
def signature (op fmt ctx lanes : Nat) : Nat :=
  op ||| fmt % 32 <<< 8 ||| ctx <<< 13 |||
    ((List.range 16).filter (fun g => bits lanes (8 * g) 8 != 0)).foldl (fun x g => x ||| 1 <<< (16 + g)) 0

/-- Run a body whose source lanes are spoiled, and give the source registers back (R156, row 4 of Table 05-8). -/
def runSpoiled (d : Dest) (bad : Nat) (body : State → Ctx → Act) (s : State) (c : Ctx) : Act :=
  match d with
  | .src rs f =>
    let back := fun (c2 : Ctx) => rs.foldl (fun x r => x.setReg r (c.reg r)) c2
    match body s (c.spoilRegs f bad rs) with
    | .go t c2 os => .go t (back c2) os
    | .send t c2 os x => .send t (back c2) os x
    | x => x
  | .items f => f bad s c
  | _ => body s c

/-- A failed check of Table 05-7 (R152, R156): row 1 or 2 cancels and stops the engine until the spare attaches; row 3 cancels, and the
instruction issues again, up to 2 more times; row 4 commits with poison in the failing lanes. An instruction that fails is one residue event, raised
once its outcome is known (R154). -/
def State.failCheck (s : State) (a : Site) (op fmt lanes : Nat) (d : Dest) (body : State → Ctx → Act) (c : Ctx) : State :=
  match body s c with
  | .wait code => s.retire a d 0 (.wait code)
  | _ =>
    let ph := s.physOf a.eng
    let er := s.runsOn ph
    let sp := 17 * (ph / 17) + 16
    let sig := c.failed ||| signature op fmt a.ctx lanes
    if s.get (F.ENG_STATUS_role sp) = 1 ∧ s.get (F.ENG_STATUS_degraded er) = 0 ∧ er ≠ sp then
      let t := (s.putCtx a.eng a.ctx { c with tries := 0, failed := 0 }).engResidue a c 0 sig
      { t with eng.stopped := if t.eng.stopped.contains ph then t.eng.stopped else t.eng.stopped ++ [ph] }
    else if c.tries < 2 then s.putCtx a.eng a.ctx { c with tries := c.tries + 1, failed := sig }
    else
      let c0 := { c with tries := 0, failed := 0 }
      (s.retire a d lanes (runSpoiled d lanes body s c0)).engResidue a c 2 sig

/-- What a word of a register file that ECC found wrong leaves in its context (R139): nothing when it is corrected; else the bits it held are free
(log entry 16), and the lanes of a vector word are poisoned. -/
def Hw.spoilt (h : Hw) (s : State) (c : Ctx) : State × Ctx :=
  match h with
  | .word reg lane true =>
    let v := s.free 64
    (v.2, c.setReg reg (((c.reg reg).zipIdx).map (fun p => if p.2 / 2 = lane / 2 then ⟨bits v.1 (32 * (p.2 % 2)) 32, true⟩ else p.1)))
  | .scalar i true => let v := s.free 64; (v.2, c.setSc i v.1)
  | .pred i half true =>
    let v := s.free 64
    let m := (2 ^ 64 - 1) <<< (64 * half)
    (v.2, c.setPr i ((c.pr i ^^^ (c.pr i &&& m)) ||| v.1 <<< (64 * half)))
  | _ => (s, c)

/-- The word of the register files that an error names, counted over V, S and P in that order, and whether it is uncorrectable (R139). -/
def Hw.fileWord : Hw → Option (Nat × Bool)
  | .word reg lane u => some (64 * reg + lane / 2, u)
  | .scalar i u => some (2048 + i, u)
  | .pred i half u => some (2064 + 2 * i + half, u)
  | _ => none

/-- Issue an instruction: nothing happens while it cannot; a register-file word is corrected or spoilt (R139); a failed check takes
its row of Table 05-8. Errors of the engine store and of the cistern are the body's. -/
def issue (a : Site) (w : BitVec 64) (fmt : Nat) (d : Dest) (body : State → Ctx → Act) (s : State) : State :=
  if !s.canIssue a w then s
  else
    let c := { s.ctxAt a.eng a.ctx with st := 1 }
    match Hw.fileWord a.hw with
    | some e =>
      let r := Hw.spoilt a.hw (s.engineEcc a.eng e.1 e.2) c
      let t := r.1.putCtx a.eng a.ctx r.2
      t.retire a d 0 (body t r.2)
    | none => match a.hw with
      | .check lanes => s.failCheck a (w.toNat / 2 ^ 56) fmt lanes d body c
      | _ => s.retire a d 0 (body s c)

/-- The origin of element `i`, in a lane, of an instruction that computes: unit kind 0, no port (Table 02-16). -/
def Ctx.origin (c : Ctx) (a : Site) (op fmt lane i : Nat) (r : LaneRes) : Origin :=
  ⟨r.cause, r.code, false, 0, a.eng, a.ctx, lane, fmt, op, 0xFF, c.chunk, c.elemIx + i⟩

end Sys2Proof.Machine
end

