-- ==== Sys2Proof/Machine/LockOps.lean ====
section
/-!
DEFINITION. Locks and BARRIER (R342 to R345): arrivals, combining up tree 0, the release and its comparator.
-/
namespace Sys2Proof.Machine
open Sys2Proof

/-- The key of a lock: collective context and handle, 16 for a BARRIER. -/
def lockKey (x h : Nat) : Nat := 32 * x + h

/-- A lock of an accepted command. -/
def State.lockAt (s : State) (x h : Nat) : Option LockUse := s.det.locks.find (lockKey x h)

/-- Put a lock. -/
def State.putLock (s : State) (x h : Nat) (l : LockUse) : State := { s with det.locks := s.det.locks.put (lockKey x h) l }

/-- The contexts that run a collective's program on this module (R342). -/
def State.runners (s : State) (x : Nat) : List Nat := (s.eng.ctxs.filter (fun e => e.2.coll == some x && e.2.st != 0)).map (·.1)

/-- The local participants of a lock (R342, R345): the direct members not fenced, or the contexts that run the program. -/
def State.lockLocals (s : State) (x h : Nat) (g : Group) : List Nat :=
  if h = 16 then (g.members.filter (fun m => !m.fenced)).map (·.rank) else s.runners x

/-- The tree-0 children of a lock, by lowest rank, with their covers. -/
def lockKids (g : Group) : List Kid := g.kids.filter (fun k => k.tree == 0 && !k.fenced)

/-- A lock message (Table 10-8). -/
def State.lockMsg (s : State) (ports type h group count seq id tRel : Nat) : State :=
  s.send (catBits s.me ((portsOf ports).headD 0) 8) clsS 32
    [(0, 8, type), (8, 4, h), (16, 16, s.me), (32, 16, group), (48, 16, count), (64, 32, seq), (96, 32, id), (128, 64, tRel)]

/-- The handle a message carries: 0 for a BARRIER. -/
def lockHandle (h : Nat) : Nat := if h = 16 then 0 else h

/-- Arm a lock's comparator for turn `t` (R344). -/
def State.armLock (s : State) (x h : Nat) (group : Nat) (l : LockUse) (t : Nat) : State :=
  let s := s.putLock x h { l with tRel := some t, passed := true }
  (s.sets [(F.CMP_CTL_kind l.cmp, if h = 16 then 2 else 3), (F.CMP_CTL_armed l.cmp, 1), (F.CMP_CTL_coll_ctx l.cmp, x),
    (F.CMP_CTL_group l.cmp, group), (F.CMP_CTL_seq l.cmp, l.seq)]).setWord (R.CMP_TURN l.cmp) (BitVec.ofNat 64 t)

/-- Send LOCK_RELEASE down tree 0. -/
def State.releaseDown (s : State) (h : Nat) (c : Coll) (g : Group) (seq t : Nat) : State :=
  (lockKids g).foldl (fun s k => s.lockMsg k.ports 0x49 (lockHandle h) c.cmd.group 0 seq c.cmd.collId t) s

/-- Combine what has arrived (R343, R344): complete, the total goes to the parent, or the root sets t_rel. -/
def State.lockCombine (s : State) (x h : Nat) : State :=
  match s.coll x, s.lockAt x h with
  | some c, some l =>
    let g := s.groupOf c
    let locals := s.lockLocals x h g
    let kids := lockKids g
    let all := locals.all (fun p => l.locals.contains p) &&
      kids.all (fun k => l.kids.any (fun q => q.1 == k.low && (h != 16 || q.2 == k.covers)))
    let total := (l.locals.filter (fun p => locals.contains p)).length + (l.kids.map (·.2)).sum
    if l.passed ∨ !all then s
    else if c.cmd.op = 0x0D ∨ c.cmd.group = 0xFFFF then s.armLock x h 0 l (s.turn + s.get F.LOCK_HOP_turns)
    else if g.par0 = 0 then
      let t := s.turn + g.tier * s.get F.LOCK_HOP_turns
      (s.armLock x h c.cmd.group l t).releaseDown h c g l.seq t
    else
      (s.putLock x h { l with passed := true }).lockMsg g.par0 0x48 (lockHandle h) c.cmd.group total l.seq c.cmd.collId 0
  | _, _ => s

/-- One arrival (R344): a local participant, or a child with its count; an arrival for a later use waits. -/
def State.lockArrive (s : State) (x h seq who count : Nat) (kid : Bool) : State :=
  match s.lockAt x h with
  | none => s
  | some l =>
    if seq > l.seq ∨ (seq = l.seq ∧ l.tRel.isSome) then
      s.putLock x h { l with later := l.later ++ [(max seq (l.seq + b2n l.tRel.isSome), b2n kid, who, count)] }
    else if seq < l.seq then s
    else
      let l := if kid then { l with kids := if l.kids.any (·.1 == who) then l.kids else l.kids ++ [(who, count)] }
        else { l with locals := if l.locals.contains who then l.locals else l.locals ++ [who] }
      (s.putLock x h l).lockCombine x h

/-- The lock releases at t_rel (R344): the contexts' LOCKs complete, release frames leave the direct-member ports, a BARRIER ends, and the next
use opens with the arrivals that waited for it. -/
def State.lockFire (s : State) (x h : Nat) : State :=
  match s.coll x, s.lockAt x h with
  | some c, some l =>
    match l.tRel with
    | none => s
    | some t =>
      let g := s.groupOf c
      let s := (s.runners x).foldl (fun s k =>
        let q := SMap.get (fun _ => Ctx.free) s.eng.ctxs k
        match q.wait with
        | .lock hh wc sd =>
          if hh = h then
            s.putCtx (k / 8) (k % 8) (if wc then { q with st := 1, wait := .none }.setSc sd t else { q with st := 1, wait := .none })
          else s
        | _ => s) s
      let s := g.members.foldl (fun s m => if m.fenced then s
        else s.lockMsg (1 <<< m.port) 0x49 (lockHandle h) c.cmd.group 0 l.seq c.cmd.collId t) s
      let s := s.sets [(F.CMP_CTL_armed l.cmp, 0)]
      if h = 16 then s.endColl x 0 0
      else
        let now := l.later.filter (fun e => e.1 == l.seq + 1)
        let l2 : LockUse := { l with seq := l.seq + 1, locals := (now.filter (fun e => e.2.1 == 0)).map (·.2.2.1), kids := (now.filter (fun e => e.2.1 == 1)).map (fun e => (e.2.2.1, e.2.2.2)), later := l.later.filter (fun e => e.1 != l.seq + 1), passed := false, tRel := none, reported := [] }
        (s.putLock x h l2).lockCombine x h
  | _, _ => s

end Sys2Proof.Machine
end

