-- ==== Sys2Proof/Machine/VArith.lean ====
section
/-!
DEFINITION. The arithmetic, conversion and compare instructions on vector registers (R177 to R182).
-/
namespace Sys2Proof.Machine
open Sys2Proof

/-- The generator's value for element `i` of a layout V instruction (R176): the SR element index is S[sx] + i. -/
def State.rndV (s : State) (c : Ctx) (f : LV) (i : Nat) : Nat :=
  rndOf f.rnd.toNat c.rngKey c.tau (s.stepOf c.coll) (c.sc f.sx.toNat + i)

/-- The result of each enabled element of an arithmetic instruction (R178). -/
def arithRes (s : State) (c : Ctx) (f : LV) (fn : Fmt → Nat → Nat → Lane → Lane → Lane → LaneRes) (i : Nat) : Option LaneRes :=
  let k := f.fmt.toNat
  let fm := s.fmt k
  if c.enabled f.pg.toNat k i then
    some (fn fm f.rnd.toNat (s.rndV c f i) (c.elem fm f.va.toNat i) (c.operandB fm f.vb.toNat f.bs.toNat i)
      (c.elem fm f.vc.toNat i))
  else none

/-- The lane an element's result leaves. -/
def LaneRes.lane (r : LaneRes) : Lane := ⟨r.bits, r.pois⟩

/-- The origins of the elements' results, lanes rising (R74). -/
def originsOf (c : Ctx) (a : Site) (op fmt : Nat) (res : Nat → Option LaneRes) : List Origin :=
  (List.range (nElems fmt)).filterMap (fun i => match res i with
    | some r => if r.cause = 0 then none else some (c.origin a op fmt (laneOf fmt i) i r)
    | none => none)

/-- An elementwise arithmetic instruction (R178). -/
def arithBody (a : Site) (op : Nat) (f : LV) (fn : Fmt → Nat → Nat → Lane → Lane → Lane → LaneRes) (s : State) (c : Ctx) : Act :=
  let res := arithRes s c f fn
  .next s (c.setReg f.vd.toNat (putElems (s.fmt f.fmt.toNat) (c.reg f.vd.toNat) (fun i => (res i).map LaneRes.lane)))
    (originsOf c a op f.fmt.toNat res)

/-- Issue an elementwise arithmetic instruction. -/
def arith (a : Site) (op : BitVec 8) (f : LV) (fn : Fmt → Nat → Nat → Lane → Lane → Lane → LaneRes) (s : State) : State :=
  issue a (f.word op) f.fmt.toNat (.vec f.vd.toNat 1 (s.fmt f.fmt.toNat)) (arithBody a op.toNat f fn) s

/-- VADD (R178): a + b. -/
def execVadd (a : Site) (f : LV) (s : State) : Host.Outcome State Fault Refusal :=
  done (arith a 0x10 f (fun fm m r x y _ => laneAdd fm m r x y) s)

/-- VSUB (R178): a + (−b). -/
def execVsub (a : Site) (f : LV) (s : State) : Host.Outcome State Fault Refusal :=
  done (arith a 0x11 f (fun fm m r x y _ => laneSub fm m r x y) s)

/-- VMUL (R178): a × b. -/
def execVmul (a : Site) (f : LV) (s : State) : Host.Outcome State Fault Refusal :=
  done (arith a 0x12 f (fun fm m r x y _ => laneMul fm m r x y) s)

/-- VFMA (R178): a × b + c, exact and then one rounding. -/
def execVfma (a : Site) (f : LV) (s : State) : Host.Outcome State Fault Refusal :=
  done (arith a 0x13 f (fun fm m r x y z => laneFma fm m r x y z) s)

/-- VMAX (R178, R179). -/
def execVmax (a : Site) (f : LV) (s : State) : Host.Outcome State Fault Refusal :=
  done (arith a 0x14 f (fun fm _ _ x y _ => laneMaxMin fm true x y) s)

/-- VMIN (R178, R179). -/
def execVmin (a : Site) (f : LV) (s : State) : Host.Outcome State Fault Refusal :=
  done (arith a 0x15 f (fun fm _ _ x y _ => laneMaxMin fm false x y) s)

/-- VABS (R178). -/
def execVabs (a : Site) (f : LV) (s : State) : Host.Outcome State Fault Refusal :=
  done (arith a 0x16 f (fun fm _ _ x _ _ => laneAbs fm x) s)

/-! ### Conversion -/

/-- VCVT's ext fields (Table 06-3). -/
def cvtDst (f : LV) : Nat := bits f.ext.toNat 15 5
/-- The half of the 32-bit-lane register. -/
def cvtHalf (f : LV) : Nat := bits f.ext.toNat 14 1

/-- The source element of destination element `j`, none where the destination keeps its lanes (R181). -/
def cvtSrc (src dst half j : Nat) : Option Nat :=
  if is64 src = is64 dst then some j
  else if is64 dst then some (64 * half + j)
  else if 64 * half ≤ j ∧ j < 64 * half + 64 then some (j - 64 * half) else none

/-- The result of each destination element of VCVT (R180, R181): predication follows the destination's layout. The SR index of a lane of the
destination is its lane number, half included (log entry 55). -/
def cvtRes (s : State) (c : Ctx) (f : LV) (j : Nat) : Option LaneRes :=
  let src := f.fmt.toNat
  let dst := cvtDst f
  if c.enabled f.pg.toNat dst j then
    (cvtSrc src dst (cvtHalf f) j).map (fun i =>
      laneCvt (s.fmt src) (s.fmt dst) f.rnd.toNat (s.rndV c f j) (c.elem (s.fmt src) f.va.toNat i))
  else none

/-- VCVT's body. -/
def cvtBody (a : Site) (f : LV) (s : State) (c : Ctx) : Act :=
  let dst := cvtDst f
  let res := cvtRes s c f
  .next s (c.setReg f.vd.toNat (putElems (s.fmt dst) (c.reg f.vd.toNat) (fun i => (res i).map LaneRes.lane)))
    (originsOf c a 0x17 dst res)

/-- VCVT (R180, R181). -/
def execVcvt (a : Site) (f : LV) (s : State) : Host.Outcome State Fault Refusal :=
  done (issue a (f.word 0x17) f.fmt.toNat (.vec f.vd.toNat 1 (s.fmt (cvtDst f))) (cvtBody a f) s)

/-! ### Compare -/

/-- VCMP's bits: the relation on each enabled element (R182). -/
def cmpBits (s : State) (c : Ctx) (f : LV) (i : Nat) : Option Bool :=
  let k := f.fmt.toNat
  let fm := s.fmt k
  if c.enabled f.pg.toNat k i then
    some (relHolds (bits f.ext.toNat 17 3) (cmpElems fm (c.elem fm f.va.toNat i) (c.operandB fm f.vb.toNat f.bs.toNat i)))
  else none

/-- VCMP's body. -/
def cmpBody (f : LV) (s : State) (c : Ctx) : Act :=
  let d := f.vd.toNat % 8
  .next s (c.setPr d (putBits f.fmt.toNat (c.pr d) (cmpBits s c f))) []

/-- VCMP (R182). -/
def execVcmp (a : Site) (f : LV) (s : State) : Host.Outcome State Fault Refusal :=
  done (issue a (f.word 0x18) f.fmt.toNat (.pr (f.vd.toNat % 8)) (cmpBody f) s)

end Sys2Proof.Machine
end

