-- ==== Sys2Proof/Machine/StreamOps.lean ====
section
/-!
DEFINITION. The data of streams: taking bytes from a fabric port, a store region or a flume queue (R201 to R204, R210), decoding a register's
worth in each mode (R205, R206), encoding it (R208, R209), and placing it on an output port or channel.
-/
namespace Sys2Proof.Machine
open Sys2Proof

/-! ### Taking data -/

/-- What a read of a stream delivers: its bytes with their poison, the chunk's poison flag, the member's rank and port (none from a local channel
or a chunk with no data left), the chunk and the offset within the member's chunk. -/
structure Got where
  bytes : List (Byte × Bool)
  pois  : Bool
  from_ : Option (Nat × Nat)
  chunk : Nat
  off   : Nat

/-- The next chunk of an input port, and the unconsumed segments of the earlier ones (R204). -/
def Strm.openNext (t : Strm) : Strm × List Seg :=
  let k := match t.chunk with
    | some k => k + t.hop
    | none => t.first
  ({ t with chunk := some k, done := [], segs := t.segs.filter (fun g => k ≤ g.chunk) }, t.segs.filter (fun g => g.chunk < k))

/-! ### The FIFO of an input port (R146) -/

/-- Does a segment hold data of the chunk that stands at the port? -/
def Strm.current (t : Strm) (g : Seg) : Bool := some g.chunk == t.chunk

/-- Units of 256 bytes in the FIFO: of each segment those that entered and are not wholly consumed. -/
def Strm.unitsIn (t : Strm) : Nat := ((t.segs.filter t.current).map (fun g => (g.got + 255) / 256 - g.off / 256)).sum

/-- The segment whose next unit enters the FIFO (R145): in rank order that of the lowest rank not done, once those before it are in; else that of the
lowest ingress port that holds one, each segment entering whole before the next. -/
def Strm.nextIn (t : Strm) : Option Seg :=
  let l := t.segs.filter t.current
  let waits := l.filter (fun g => g.got < g.data.length)
  if t.mode = 1 then
    (t.ranks.filter (fun r => !t.done.contains r)).find? (fun r => !l.any (fun g => g.rank == r && g.got == g.data.length))
      |>.bind (fun r => waits.find? (fun g => g.rank == r))
  else match waits.find? (fun g => 0 < g.got) with
    | some g => some g
    | none => waits.foldl (fun b g => match b with
      | none => some g
      | some h => some (if g.port < h.port then g else h)) none

/-- Move units from the furrows into the FIFO while it has credit: 64 units of 256 bytes, 16 KiB. -/
def Strm.fill (t : Strm) : Nat → Strm
  | 0 => t
  | n + 1 =>
    if t.unitsIn ≥ 64 then t
    else match t.nextIn with
      | none => t
      | some g => Strm.fill { t with segs := t.segs.map (fun h => if h.chunk = g.chunk ∧ h.rank = g.rank
          then { h with got := min h.data.length (h.got + 256) } else h) } n

/-- The stream after what its port has credit for has come in. -/
def Strm.refill (t : Strm) : Strm := t.fill 64

/-- Have all members of the current chunk been consumed? -/
def Strm.exhausted (t : Strm) : Bool := t.ranks.all (fun r => t.done.contains r)

/-- The segment to deliver `n` bytes from, or what its member has left (R145, R203): the lowest port that holds them, or the next rank's. -/
def Strm.pick (t : Strm) (n : Nat) : Option Seg :=
  let l := t.segs.filter (fun g => t.current g && decide (min g.data.length (g.off + n) ≤ g.got))
  if t.mode = 1 then (t.ranks.find? (fun r => !t.done.contains r)).bind (fun r => l.find? (fun g => g.rank == r))
  else l.foldl (fun b g => match b with
    | none => some g
    | some h => some (if g.port < h.port then g else h)) none

/-- The stream after `m` bytes of a segment are consumed; a segment at its end leaves, and its member is done. The units consumed return their credit,
and more come in (R146, R202). -/
def Strm.consume (t : Strm) (g : Seg) (m : Nat) (finish : Bool) : Strm :=
  Strm.refill (if finish || g.off + m ≥ g.data.length then
    { t with segs := t.segs.filter (fun h => !(h.chunk == g.chunk && h.rank == g.rank)), done := t.done ++ [g.rank] }
  else { t with segs := t.segs.map (fun h => if h.chunk = g.chunk ∧ h.rank = g.rank then { h with off := h.off + m } else h) })

/-- The stream after a partial chunk's segment is consumed up to byte `off` with `items` records to be taken (R613); what came free is filled. -/
def Strm.setItems (t : Strm) (g : Seg) (off items : Nat) : Strm :=
  Strm.refill { t with segs := t.segs.map (fun h => if h.chunk = g.chunk ∧ h.rank = g.rank
    then { h with off := off, got := max h.got off, items := items } else h) }

/-- Count the bytes that SRECV with open = 1 leaves unconsumed (R204). -/
def State.skipSegs (s : State) (l : List Seg) : State :=
  l.foldl (fun t g =>
    let n := g.data.length - g.off
    if n = 0 then t else (t.inc F.STR_SKIP_COUNT_bytes n).spill 8 n) s

/-- Bytes of a store region from position `p` (R210): a linear region ends, a ring wraps. A word the read found uncorrectable is
poisoned (R149). -/
def State.regionRd (s : State) (eng : Nat) (t : Strm) (p n : Nat) (badWord : Option Nat) : List (Byte × Bool) :=
  let m := if t.ring then n else min n (t.size - p)
  (List.range m).map (fun i =>
    let a := t.base + (if t.ring then (p + i) % max 1 t.size else p + i)
    ((s.eng.store.rd (storeKey eng a) 1).headD 0, badWord == some (a / 8)))

/-- Will a flume queue deliver more: bytes of its sequence not yet landed, or gathered rows due? -/
def Strm.more (t : Strm) : Bool :=
  t.rowsDue != 0 || (match t.chan with
    | some r => r.dir == 0 && decide (t.seqDone < r.total)
    | none => false)

/-- The bytes at the front of a landing buffer, which lies in the engine store from the channel's base as a ring; a word the read found uncorrectable
is poisoned (R147, R149). -/
def Strm.landed (t : Strm) (p n : Nat) (badWord : Option Nat) : List (Byte × Bool) :=
  ((t.land.take n).zipIdx).map (fun b => (b.1.1, b.1.2 || badWord == some ((t.base + (p + b.2) % max 1 t.cap) / 8)))

/-- Take up to `n` bytes from stream `k` of an engine; none while the data is not present (R202 to R204, R210). The answer
holds the stream and the segments skipped. -/
def State.take (s : State) (eng : Nat) (c : Ctx) (k n : Nat) (opn : Bool) (badWord : Option Nat) : Option (Got × Strm × List Seg) :=
  match s.strm eng k with
  | none => none
  | some t0 =>
    if k < 4 then
      let (t, skipped) := if opn then (t0.openNext.1.refill, t0.openNext.2) else (t0, [])
      if t.exhausted then some (⟨[], false, none, t.chunk.getD 0, 0⟩, t, skipped)
      else match t.pick n with
        | none => none
        | some g =>
          let d := (g.data.drop g.off).take n
          some (⟨d.map (·, false), g.pois, some (g.rank, g.port), g.chunk, g.lead + g.off⟩, t.consume g n false, skipped)
    else if t0.mode = 2 then some (⟨s.regionRd eng t0 (c.pos.rd k) n badWord, false, none, 0, c.pos.rd k⟩, t0, [])
    else if t0.land.length < n ∧ t0.more then none
    else some (⟨t0.landed (c.pos.rd k) n badWord, false, none, 0, c.pos.rd k⟩, { t0 with land := t0.land.drop n }, [])

/-! ### Decoding (R205, R206) -/

/-- A decoded register's worth: the registers, the elements delivered, the origins (element, cause, code), the MX infinities, the failed
groups. -/
structure Decoded where
  regs  : List (List Lane)
  count : Nat
  os    : List (Nat × Nat × Nat)
  inf   : Nat
  bad   : List BadGroup

/-- Is any byte that holds bits `[lo + w - 1 : lo]` poisoned? -/
def anyBad (b : List (Byte × Bool)) (lo w : Nat) : Bool := ((b.drop (lo / 8)).take ((lo % 8 + w + 7) / 8)).any (·.2)

/-- Decode one stream element: a NaN becomes canonical and is an origin; without NaN the chunk's poison flag poisons it (R49,
R53). -/
def decodeElem (f : Fmt) (x : Nat) (pois : Bool) : LaneRes :=
  match f.decode x with
  | .nan t => ⟨f.canonNan t, false, if f.isScale then 4 else 3, t⟩
  | _ => ⟨x % 2 ^ f.width, pois && !f.hasNan, 0, 0⟩

/-- Elements decoded from a bit string, in element order. -/
def decodeElems (f : Fmt) (b : List (Byte × Bool)) (pois : Bool) (count : Nat) : List LaneRes :=
  let n := leNat (b.map (·.1))
  (List.range count).map (fun i =>
    let r := decodeElem f (bits n (f.width * i) f.width) pois
    { r with pois := r.pois || anyBad b (f.width * i) f.width })

/-- The origins of decoded elements, by element. -/
def elemOrigins (l : List LaneRes) : List (Nat × Nat × Nat) :=
  (l.zipIdx).filterMap (fun p => if p.1.cause = 0 then none else some (p.2, p.1.cause, p.1.code))

/-- Put elements from place 0 up; the other places are +0 (R203). -/
def fillElems (f : Fmt) (l : List LaneRes) : List Lane :=
  putElems f zeroReg (fun i => some ((l[i]?.map LaneRes.lane).getD ⟨0, false⟩))

/-- MX elements of `blocks` blocks as binary32 (R69, R70): each with its first-NaN cause and whether it counts in MX_INF_COUNT. -/
def decodeMx (f : Fmt) (b : List (Byte × Bool)) (pois : Bool) (blocks : Nat) : List (LaneRes × Bool) :=
  (List.range blocks).flatMap (fun j =>
    let blk := (b.drop (j * mxBytes f)).take (mxBytes f)
    let n := leNat (blk.map (·.1))
    (List.range 32).map (fun i =>
      let d := mxDecode f (n % 256) (bits n (8 + f.width * i) f.width)
      let p := (pois && !f.hasNan) || anyBad blk (8 + f.width * i) f.width || anyBad blk 0 8
      (⟨((builtinFmt 1).store 0 0 d.1 0).bits, p, d.2.1, 1⟩, d.2.2)))

/-- The lowest N positions of a group that lie below n, from index `base` (R209). -/
def lowMap (g n base len : Nat) : Nat :=
  (((List.range g).filter (fun i => base + i < len)).take n).foldl (fun a i => a ||| 1 <<< i) 0

/-- The map a poisoned group carries when no mask is bound (R130, R209): its own if it passes both checks, else the lowest N
positions. -/
def badMap (lay map base len : Nat) : Nat :=
  let g := layG lay
  if (bitList map g).all (fun i => base + i < len) && popCount map g ≤ layN lay then map else lowMap g (layN lay) base len

/-- The check of Table 04-2 that a group fails first: 3 index, 2 group, 8 mask; 0 for none. -/
def groupCheck (lay map base len : Nat) (mask : Option Nat) : Nat :=
  if (bitList map (layG lay)).any (fun i => base + i ≥ len) then 3
  else if popCount map (layG lay) > layN lay then 2
  else match mask with
    | some m => if m ≠ map then 8 else 0
    | none => 0

/-- A metadata register (R219): the maps in its low lanes, the poisoned-group bitmap in lanes 16 and 17. -/
def metaReg (lay : Nat) (maps : List Nat) (bad : List Bool) : List Lane :=
  let g := layG lay
  let n := (maps.reverse).foldl (fun a m => a <<< g ||| m) 0
  let b := (bad.reverse).foldl (fun a x => 2 * a + b2n x) 0
  (List.range 128).map (fun i =>
    ⟨if i < 2 * g then bits n (32 * i) 32 else if i = 16 then bits b 0 32 else if i = 17 then bits b 32 32 else 0, false⟩)

/-- The map of group `g` in a metadata register. -/
def metaMap (lay : Nat) (l : List Lane) (g : Nat) : Nat :=
  let w := layG lay
  bits (l.getD (g * w / 32) ⟨0, false⟩).bits (g * w % 32) w

/-- The poisoned-group bit of group `g` in a metadata register. -/
def metaBad (l : List Lane) (g : Nat) : Bool := bit (l.getD (16 + g / 32) ⟨0, false⟩).bits (g % 32)

/-- The poison value of a compressed stream's slot in a register with trap code `t`: binary32 for an MX stream. -/
def slotPoison (f : Fmt) (mx : Bool) (t : Nat) : LaneRes :=
  if mx then ⟨if f.hasNan then (builtinFmt 1).canonNan t else 0, !f.hasNan, 5, t⟩ else ⟨f.canonNan t, !f.hasNan, 5, t⟩

/-- Is value slot `j` of a block a used slot: does its group's map have a `j mod N`-th set bit (R118)? -/
def slotUsed (lay : Nat) (maps : List Nat) (j : Nat) : Bool :=
  decide (j % layN lay < popCount (maps.getD (j / layN lay) 0) (layG lay))

/-- Decode one compressed block (R206, R129, R130): an unused slot of a well-formed group is ignored (R118): it originates nothing. `base` is the tensor index of its first position, `len` the operand's length, `mask` the
latched mask's map of a group of the block, `first` the block's first group within its chunk. -/
def decodeBlock (f : Fmt) (mx : Bool) (lay : Nat) (b : List (Byte × Bool)) (pois : Bool) (base len first : Nat)
    (mask : Nat → Option Nat) : Decoded :=
  let g := layG lay
  let n := layN lay
  let md := leNat ((b.take (8 * g)).map (·.1))
  let vals := b.drop (8 * g)
  let raw : List (LaneRes × Bool) :=
    if mx then decodeMx f vals pois (2 * n) else (decodeElems f vals pois (64 * n)).map (·, false)
  let maps := (List.range 64).map (fun i => bits md (g * i) g)
  let codes := (maps.zipIdx).map (fun p => groupCheck lay p.1 (base + g * p.2) len (mask p.2))
  let lanes := (List.range (64 * n)).map (fun j =>
    let t := codes.getD (j / n) 0
    if t = 0 then
      let r := (raw.getD j (⟨0, false, 0, 0⟩, false)).1
      if slotUsed lay maps j then r else { r with cause := 0 }
    else { slotPoison f mx t with cause := if t = 8 then 0 else 5 })
  let kept := (maps.zipIdx).map (fun p =>
    if codes.getD p.2 0 = 0 then p.1
    else match mask p.2 with
      | some m => m
      | none => badMap lay p.1 (base + g * p.2) len)
  ⟨[fillElems (if mx then builtinFmt 1 else f) lanes, metaReg lay kept (codes.map (· != 0))], 64 * n,
    elemOrigins lanes,
    ((raw.zipIdx).filter (fun p => p.1.2 && codes.getD (p.2 / n) 0 == 0 && slotUsed lay maps p.2)).length,
    (codes.zipIdx).filterMap (fun p => if p.1 = 0 then none
      else some ⟨p.1, first + p.2, maps.getD p.2 0, (mask p.2).getD 0⟩)⟩

/-- Bytes of one register's worth (Table 07-3). -/
def modeBytes (f : Fmt) (mode lay : Nat) (mx : Bool) : Nat :=
  match mode with
  | 0 => 512
  | 1 => if is64 f.idx then 512 else 16 * f.width
  | 2 => 4 * mxBytes f
  | _ => blockBytes f mx lay

/-- Decode what a read delivered in a stream's mode (R203, R205). -/
def decodeGot (f : Fmt) (t : Strm) (g : Got) (base len : Nat) (mask : Nat → Option Nat) : Decoded :=
  let b := g.bytes
  match t.smode with
  | 0 =>
    let n := leNat (b.map (·.1))
    let k := (b.length + 3) / 4
    ⟨[(List.range 128).map (fun i =>
      if i < k then ⟨bits n (32 * i) 32, g.pois || anyBad b (32 * i) (min 32 (8 * b.length - 32 * i))⟩ else ⟨0, false⟩)], k, [], 0, []⟩
  | 1 =>
    let k := min (nElems f.idx) (8 * b.length / max 1 f.width)
    let l := decodeElems f b g.pois k
    ⟨[fillElems f l], k, elemOrigins l, 0, []⟩
  | 2 =>
    let k := min 4 (b.length / max 1 (mxBytes f))
    let l := decodeMx f b g.pois k
    ⟨[fillElems (builtinFmt 1) (l.map (·.1))], 32 * k, elemOrigins (l.map (·.1)), (l.filter (·.2)).length, []⟩
  | _ =>
    if b.isEmpty then ⟨[zeroReg, zeroReg], 0, [], 0, []⟩
    else decodeBlock f t.mx t.lay b g.pois base len (g.off / max 1 (blockBytes f t.mx t.lay) * 64) mask

/-! ### Encoding (R208, R209) -/

/-- An encoded register's worth: its bytes, whether it carries poison, the origins by element, the failed groups. -/
structure Encoded where
  data : List Byte
  pois : Bool
  os   : List (Nat × Nat × Nat)
  bad  : List BadGroup

/-- One element as it is sent: a NaN leaves as the canonical NaN (R48). -/
def sendElem (f : Fmt) (x : Nat) : Nat :=
  match f.decode x with
  | .nan t => f.canonNan t
  | _ => x % 2 ^ f.width

/-- Encode values as MX blocks of 32 (R71), each with its poison. A poisoned one counts as non-finite; only an unpoisoned one makes its block an
origin of cause 0x04, at its first such value. `rs` are the generator's values for SR. -/
def encodeMxVals (f : Fmt) (mode : Nat) (rs : List Nat) (l : List (Val × Bool)) : List Byte × List (Nat × Nat × Nat) :=
  let one := fun (j : Nat) =>
    let ls := (l.drop (32 * j)).take 32
    let e := mxEncode f mode ((rs.drop (32 * j)).take 32) (ls.map (fun x => if x.2 then Val.nan 1 else x.1))
    let o := (ls.zipIdx).find? (fun p => !p.1.2 && (p.1.1.isNan || p.1.1.isInf))
    (BitVec.ofNat 8 e.1 :: packElems f.width e.2.1, o.map (fun p => (32 * j + p.2, 4, 1)))
  let bs := (List.range ((l.length + 31) / 32)).map one
  (bs.flatMap (·.1), bs.filterMap (·.2))

/-- Encode binary32 lanes as MX blocks (R71, R208). -/
def encodeMx (f : Fmt) (mode : Nat) (rs : List Nat) (l : List Lane) : List Byte × List (Nat × Nat × Nat) :=
  encodeMxVals f mode rs (l.map (fun x => ((builtinFmt 1).decode (x.bits % 2 ^ 32), x.pois)))

/-- The value slots and maps of a block as it is sent: failed and marked groups poisoned, unused slots +0 (R209, R123). The third answer lists
the failed groups. -/
def blockOut (f : Fmt) (mx : Bool) (lay base len : Nat) (vals meta_ : List Lane) : List Lane × List Nat × List BadGroup :=
  let g := layG lay
  let n := layN lay
  let st := (List.range 64).map (fun i =>
    let map := metaMap lay meta_ i
    let c := groupCheck lay map (base + g * i) len none
    (map, c, c != 0 || metaBad meta_ i))
  let e := if mx then builtinFmt 1 else f
  let slots := (List.range (64 * n)).map (fun j =>
    let p := st.getD (j / n) (0, 0, false)
    let own := elemOf e vals j
    if p.2.2 then
      let t := if p.2.1 ≠ 0 then p.2.1 else nanCode ((elemOf e vals (j / n * n)).bits % 2 ^ e.trapBits)
      let r := slotPoison f mx t
      (⟨r.bits, r.pois⟩ : Lane)
    else if j % n < popCount p.1 g then own else ⟨0, false⟩)
  let maps := (st.zipIdx).map (fun p => if p.1.2.2 then badMap lay p.1.1 (base + g * p.2) len else p.1.1)
  (slots, maps, (st.zipIdx).filterMap (fun p => if p.1.2.1 = 0 then none else some ⟨p.1.2.1, p.2, p.1.1, 0⟩))

/-- Encode a register's worth in a stream's mode (R208, R209). -/
def encodeRegs (f : Fmt) (t : Strm) (rnd : Nat) (rs : List Nat) (base len first : Nat) (v m : List Lane) : Encoded :=
  match t.smode with
  | 0 => ⟨v.flatMap (fun x => leBytes x.bits 4), v.any (·.pois), [], []⟩
  | 1 =>
    let l := (List.range (nElems f.idx)).map (elemOf f v)
    ⟨packElems f.width (l.map (fun x => sendElem f x.bits)), l.any (·.pois), [], []⟩
  | 2 =>
    let e := encodeMx f rnd rs v
    ⟨e.1, v.any (·.pois), e.2, []⟩
  | _ =>
    let o := blockOut f t.mx t.lay base len v m
    let md := packElems (layG t.lay) o.2.1
    let poisLane := o.1.any (·.pois)
    let bad := o.2.2.map (fun b => { b with group := first + b.group })
    let gs := o.2.2.flatMap (fun b => (List.range (layN t.lay)).map (fun j => (b.group * layN t.lay + j, 5, b.code)))
    if t.mx then
      let e := encodeMx f rnd rs o.1
      let nanLanes := e.2.filter (fun p => !(gs.any (fun q => q.1 / 32 == p.1 / 32)))
      ⟨md ++ e.1, poisLane, nanLanes ++ gs, bad⟩
    else ⟨md ++ packElems f.width (o.1.map (fun x => sendElem f x.bits)), poisLane, gs, bad⟩

/-! ### Placing output -/

/-- Close the open chunk of an output port (R208). The context's FENCE flag rides on the first packet it sends after the FENCE
(R232). -/
def Strm.close (t : Strm) (fence : Bool) : Strm :=
  { t with closed := t.closed ++ [⟨t.outIdx, t.outUp, t.outPois, fence, t.out⟩], out := [], outPois := false, outRecs := 0,
           outIdx := t.outIdx + t.hop }

/-- Bytes as FIFO credit units of 256 bytes (R146). -/
def credit (n : Nat) : Nat := (n + 255) / 256 * 256

/-- Write bytes to a store region at position `p`: past the end of a linear region nothing is written (R210). -/
def State.regionWr (s : State) (eng : Nat) (t : Strm) (p : Nat) (bs : List Byte) : State :=
  (bs.zipIdx).foldl (fun s b =>
    let o := p + b.2
    if t.ring then { s with eng.store := s.eng.store.wr (storeKey eng (t.base + o % max 1 t.size)) [b.1] }
    else if o < t.size then { s with eng.store := s.eng.store.wr (storeKey eng (t.base + o)) [b.1] }
    else s) s

end Sys2Proof.Machine
end

