-- ==== Sys2Proof/Machine/StreamIns.lean ====
section
/-!
DEFINITION. SRECV, SPEEK and SSEND (R201 to R210).
-/
namespace Sys2Proof.Machine
open Sys2Proof

/-- The word of the engine store that a read found uncorrectable (R149). -/
def Hw.badWord : Hw → Option Nat
  | .store addr true => some (addr / 8)
  | _ => none

/-- Count an ECC event of the engine store that a read met (R149). -/
def State.storeEcc (s : State) (a : Site) : State :=
  match a.hw with
  | .store addr u => s.engineEcc a.eng addr u
  | _ => s

/-- The latched mask's maps for the groups of a block that starts at tensor index `base`; none while no mask is bound or the stream is
no fabric input (R206). -/
def State.maskOf (s : State) (x : Option Nat) (k lay base : Nat) (g : Nat) : Option Nat :=
  if k ≥ 4 then none
  else match x.bind s.coll with
    | some c => c.mask.map (fun m => cutMap (s.maskMap m (base / layG lay + g)) (layG lay) (base + layG lay * g) c.cmd.elements)
    | none => none

/-- The status scalar of SRECV (R202): the count, the rank (0xFFFF on a local channel), the chunk (0 on a local channel). With no data left in
a chunk there is no member: the spec states no rank, and it is free (log entry 17). -/
def recvStatus (s : State) (k : Nat) (count : Nat) (g : Got) : Nat × State :=
  if k ≥ 8 then (count ||| 0xFFFF <<< 16, s)
  else match g.from_ with
    | some p => (count ||| p.1 % 2 ^ 16 <<< 16 ||| g.chunk <<< 32, s)
    | none =>
      let r := s.free 16
      (count ||| r.1 <<< 16 ||| g.chunk <<< 32, r.2)

/-- Write the registers a stream read delivers. -/
def Ctx.setRegs (c : Ctx) (v : Nat) (l : List (List Lane)) : Ctx :=
  (l.zipIdx).foldl (fun c p => c.setReg (v + p.2) p.1) c

/-- The origins of decoded or encoded elements as records (Table 02-16). -/
def laneOrigins (a : Site) (op fmt port chunk elem : Nat) (enc : Bool) (os : List (Nat × Nat × Nat)) : List Origin :=
  os.map (fun o => ⟨o.2.1, o.2.2, enc, 0, a.eng, a.ctx, laneOf fmt o.1, fmt, op, port, chunk, elem + o.1⟩)

/-- The element that starts at a byte offset of a chunk: a value slot in a compressed stream. -/
def elemAtOff (f : Fmt) (t : Strm) (off : Nat) : Nat :=
  match t.smode with
  | 0 => off / 4
  | 1 => off * 8 / max 1 f.width
  | 2 => off / max 1 (mxBytes f) * 32
  | _ => off / max 1 (blockBytes f t.mx t.lay) * (64 * layN t.lay)

/-- The key of a region: owning collective context, cluster, region. -/
def regionKey (x cluster region : Nat) : Nat := (x * 16 + cluster) * 16 + region

/-- The collective context that owns a context's regions; 4,096 outside one. -/
def Ctx.owner (c : Ctx) : Nat := c.coll.getD 4096

/-- Does every window of an exact region of the context's collective in its cluster hold a chunk (R35)? A window is the slots of one chunk. -/
def State.windowFull (s : State) (a : Site) (c : Ctx) : Bool :=
  (s.cis.regions.items).any (fun e => e.1 / 16 == c.owner * 16 + a.eng / 8 && !e.2.ordered && e.2.window != 0 && e.2.perChunk != 0 &&
    (List.range e.2.window).all (fun w => (s.cis.slots).any (fun z =>
      z.2.occ && decide (slotKey c.owner (a.eng / 8) (e.1 % 16) (w * e.2.perChunk) ≤ z.1)
        && decide (z.1 < slotKey c.owner (a.eng / 8) (e.1 % 16) ((w + 1) * e.2.perChunk)))))

/-- The body of SRECV and SPEEK (R202 to R207): SPEEK leaves the stream where it stands and raises nothing. -/
def recvBody (a : Site) (f : LT) (peek : Bool) (s : State) (c : Ctx) : Act :=
  let k := f.stream.toNat
  let fm := s.fmt f.fmt.toNat
  match s.strm a.eng k with
  | none => .wait 3
  | some t0 =>
    let n := modeBytes fm t0.smode t0.lay t0.mx
    let opn := !peek && f.edge == 1
    match if opn && s.windowFull a c then none else s.take a.eng c k n opn (Hw.badWord a.hw) with
    | none => .wait 3
    | some (g, t, skipped) =>
      let base := c.sc f.sBase.toNat
      let d := decodeGot fm t0 g base (c.sc f.sN.toNat) (s.maskOf c.coll k t0.lay base)
      let st := recvStatus s k d.count g
      let c1 := c.setRegs f.v.toNat d.regs
      let c1 := if f.wc = 1 then c1.setSc f.sd.toNat st.1 else c1
      let s := if f.wc = 1 then st.2 else s
      if peek then .next s c1 []
      else
        let port := (g.from_.map (·.2)).getD 0xFF
        let elem := elemAtOff fm t0 g.off
        let c1 := { c1 with pos := c1.pos.wr k (c1.pos.rd k + g.bytes.length) }
        let c1 := if k < 4 then { c1 with chunk := g.chunk, elemIx := elem } else c1
        let s := ((s.storeEcc a).putStrm a.eng k t).skipSegs skipped
        let s := s.inc F.MX_INF_COUNT_mxinf d.inf
        let s := if t0.smode = 3 ∧ d.count > 0 then s.inc F.SPT_BLOCK_COUNT_blocks else s
        let s := s.sparseTraps c.coll g.chunk port a.eng a.ctx f.fmt.toNat t0.lay t0.mx d.bad
        .next s c1 (laneOrigins a 0x01 f.fmt.toNat port g.chunk elem false d.os)

/-- The registers a stream instruction names: one, or two in block mode. -/
def recvRegs (f : LT) : Nat := if f.mode = 3 then 2 else 1

/-- SRECV (R202). -/
def execSrecv (a : Site) (f : LT) (s : State) : Host.Outcome State Fault Refusal :=
  done (issue a (f.word 0x01) f.fmt.toNat (.vec f.v.toNat (recvRegs f) (s.fmt f.fmt.toNat)) (recvBody a f false) s)

/-- SPEEK (R207). -/
def execSpeek (a : Site) (f : LT) (s : State) : Host.Outcome State Fault Refusal :=
  done (issue a (f.word 0x03) f.fmt.toNat (.vec f.v.toNat (recvRegs f) (s.fmt f.fmt.toNat)) (recvBody a f true) s)

/-! ### SSEND -/

/-- The generator's values for SR of an SSEND: the layout names no element base, so the spec states no index and the values are free
(log entry 18). -/
def sendRs (s : State) (f : LT) : List Nat × State :=
  if f.rnd = 4 then
    (List.range 128).foldl (fun p _ => let r := p.2.free 16; (p.1 ++ [r.1], r.2)) ([], s)
  else ([], s)

/-- Does the open chunk lack the room for `n` bytes, so that it is closed before they are sent (R208)? -/
def Strm.lacks (t : Strm) (n : Nat) : Bool := !t.out.isEmpty && decide (t.out.length + n > t.chunkB)

/-- The FENCE flag of output port k of a context, and the context with it used (R232). -/
def Ctx.fenced (c : Ctx) (k : Nat) : Bool := bit c.fab (k - 4)
/-- A context whose FENCE flag for output port k has left with a chunk. -/
def Ctx.unfence (c : Ctx) (k : Nat) : Ctx := { c with fab := c.fab ^^^ (c.fab &&& 1 <<< (k - 4)) }

/-- The state of an SSEND of `n` bytes to an output port once the open chunk is closed where it lacks their room (R208): that chunk leaves with
what it holds. -/
def State.closeFull (s : State) (a : Site) (k n : Nat) (t : Strm) (c : Ctx) : State × Ctx :=
  if t.lacks n then ((s.putStrm a.eng k (t.close (c.fenced k))).collectOut t.coll, c.unfence k) else (s, c)

/-- The body of SSEND (R208 to R210). -/
def sendBody (a : Site) (f : LT) (s : State) (c : Ctx) : Act :=
  let k := f.stream.toNat
  let fm := s.fmt f.fmt.toNat
  match s.strm a.eng k with
  | none => .wait 3
  | some t0 =>
    let n := modeBytes fm t0.smode t0.lay t0.mx
    let port := k = 4 ∨ k = 5
    if port ∧ t0.level + credit n > 16384 then .wait 3
    else if !(k = 4 ∨ k = 5) ∧ t0.mode ≠ 2 ∧ t0.out.length + n > t0.cap then .wait 3
    else
      let p := if k = 4 ∨ k = 5 then s.closeFull a k n t0 c else (s, c)
      let c := p.2
      match p.1.strm a.eng k with
      | none => .next p.1 c []
      | some t =>
        let rs := sendRs p.1 f
        let first := t.out.length / max 1 (blockBytes fm t.mx t.lay) * 64
        let e := encodeRegs fm t f.rnd.toNat rs.1 (c.sc f.sBase.toNat) (c.sc f.sN.toNat) first (c.reg f.v.toNat) (c.reg (f.v.toNat + 1))
        let chunk := if k < 8 then t.outIdx else 0
        let os := laneOrigins a 0x02 f.fmt.toNat 0xFF chunk (elemAtOff fm t t.out.length) true e.os
        let s := rs.2.sparseTraps c.coll chunk 0xFF a.eng a.ctx f.fmt.toNat t.lay t.mx e.bad
        let c := { c with pos := c.pos.wr k (c.pos.rd k + e.data.length), pc := c.pc + 1 }
        if k = 4 ∨ k = 5 then
          let t := { t with out := t.out ++ e.data, outPois := t.outPois || e.pois, level := t.level + credit e.data.length }
          if f.edge = 1 then .send (s.putStrm a.eng k (t.close (c.fenced k))) (c.unfence k) os t.coll
          else .go (s.putStrm a.eng k t) c os
        else if t.mode = 2 then .go (s.regionWr a.eng t (c.pos.rd k - e.data.length) e.data) c os
        else .go (s.putStrm a.eng k { t with out := t.out ++ e.data, wops := t.wops ++ [(c.issued, e.data.length)] })
          { c with open_ := c.open_ ++ [c.issued] } os

/-- SSEND (R208). -/
def execSsend (a : Site) (f : LT) (s : State) : Host.Outcome State Fault Refusal :=
  done (issue a (f.word 0x02) f.fmt.toNat (.src (if f.mode = 3 then [f.v.toNat, f.v.toNat + 1] else [f.v.toNat]) (s.fmt f.fmt.toNat))
    (sendBody a f) s)

end Sys2Proof.Machine
end

