-- ==== Sys2Proof/Machine/CisIns.lean ====
section
/-!
DEFINITION. The cistern instructions CACC, CMERGE, CRND, CXPORT and CCLR (R188 to R197), with the errors of the cistern's columns and store
(R114, R156) and the expected counts of a collective's slots (R99, R196).
-/
namespace Sys2Proof.Machine
open Sys2Proof

/-! ### Slots and regions -/

/-- The region an instruction names; an undeclared one is an exact C320 region of no slots, which the verifier excludes (R188). -/
def State.region (s : State) (x cluster region : Nat) : Region :=
  (s.cis.regions.find (regionKey x cluster region)).getD ⟨16, false, false, 0, 0, 0, [], [], []⟩

/-- Read a slot. -/
def State.slotRd (s : State) (key : Nat) : Slot := SMap.get (fun _ => Slot.empty) s.cis.slots key

/-- Write a slot. -/
def State.slotWr (s : State) (key : Nat) (k : Slot) : State :=
  { s with cis.slots := SMap.set (fun _ => Slot.empty) s.cis.slots key k }

/-- A slot took data of a context's chunk: noted, for a reopening of the chunk (R277). -/
def State.slotTook (s : State) (key chunk : Nat) : State := { s with cis.chunkOf := s.cis.chunkOf.wr key (chunk + 1) }

/-- A slot of a context's region. -/
def slotOf (a : Site) (c : Ctx) (region slot : Nat) : Nat := slotKey c.owner (a.eng / 8) region slot

/-- Move the slots of group `g` of a region, whose key is `reg`, that have their homes in a spill level (R104): in, where an uncorrectable line of the
level sets the poisoned flag (R114, R466), or out. A visit changes no other bit of a slot. -/
def State.moveGroup (s : State) (reg : Nat) (r : Region) (g : Nat) (out : Bool) : State :=
  let x := Exact.ofIdx r.fmt
  (List.range (max 1 r.perChunk)).foldl (fun s i =>
    let n := g * max 1 r.perChunk + i
    match s.spillAddr (reg / 16 % 16) r n with
    | none => s
    | some p =>
      let key := reg * 2 ^ 40 + n
      let z := s.slotRd key
      if out then s.memWr p.1 p.2 (slotBytes x z)
      else if s.memBad p.1 p.2 x.homeBytes then s.slotWr key { z with flags := { z.flags with poisoned := true } } else s) s

/-- The chunk that a slot belongs to opens, where its home slots lie in a spill level; the oldest open one closes when the window is full (R104). -/
def State.visit (s : State) (reg n : Nat) : State :=
  match s.cis.regions.find reg with
  | none => s
  | some r =>
    let g := r.groupOf n
    if (r.spilled n).isNone ∨ r.opened.contains g then s
    else
      let full := decide (r.window ≤ r.opened.length)
      let s := if full then s.moveGroup reg r (r.opened.headD 0) true else s
      { s with cis.regions := s.cis.regions.put reg { r with opened := (if full then r.opened.drop 1 else r.opened) ++ [g] } }.moveGroup reg r g false

/-- The chunks open that the `n` slots from `base` up belong to (R104). -/
def State.visits (s : State) (a : Site) (c : Ctx) (region base n : Nat) : State :=
  (List.range n).foldl (fun s i => s.visit (regionKey c.owner (a.eng / 8) region) (base + i)) s

/-- Is the region bound to a collective that has parties (R196)? -/
def State.boundColl (s : State) (c : Ctx) : Option Coll :=
  match c.coll.bind s.coll with
  | some k => if k.cmd.isColl && k.cmd.group != 0xFFFF && !k.parties.isEmpty then some k else none
  | none => none

/-- Does every named slot hold its expected count (R99, R196, R268)? -/
def State.slotsReady (s : State) (a : Site) (c : Ctx) (r : Region) (region : Nat) (slots : List Nat) : Bool :=
  match s.boundColl c with
  | none => true
  | some k =>
    let nIn := s.chunksIn k.cmd
    k.complete nIn c.chunk && slots.all (fun i =>
      let z := s.slotRd (slotOf a c region i)
      if r.ordered then stackLeaves z.stack == (k.chunk c.chunk).got.length else z.count == k.took c.chunk)

/-- Would a contribution or merge of `n` pass the slot's expected count (R99)? -/
def State.passes (s : State) (c : Ctx) (held n : Nat) : Bool :=
  match s.boundColl c with
  | none => false
  | some k => decide (held + n > k.limit (s.chunksIn k.cmd) c.chunk)

/-- A contribution or merge that would pass the expected count is a membership event of code 0x04 (R99, R282). -/
def State.overCount (s : State) (c : Ctx) (n : Nat) : State :=
  match c.coll.bind s.coll with
  | some k => s.membership c.coll k.cmd.collId c.chunk 0xFFFF 0xFF 4 k.cmd.group n
  | none => s

/-- What follows a slot operation: the slot, its drop count and its overflow trap (R91, R92). -/
def State.slotDone (s : State) (a : Site) (c : Ctx) (x : Exact) (key elem op : Nat) (r : SlotRes) : State :=
  let s := (s.slotWr key r.slot).slotTook key c.chunk
  let s := if r.dropped then s.inc F.CIS_OVF_DROP_COUNT_drop else s
  if r.ovfNow then s.overflowTrap c.coll c.chunk elem (a.eng / 8) x.code op else s

/-- Push a leaf of a chunk on a slot's stack (R109); the answer counts the NaNs its additions generated. -/
def State.leafPush (s : State) (key chunk : Nat) (wide : Bool) (x : Nat) : Nat × State :=
  let k := s.slotRd key
  let p := pushLeaf wide k.stack 1 x
  (p.2, (s.slotWr key { k with stack := p.1 }).slotTook key chunk)

/-! ### Errors of the store and its columns -/

/-- The column that serves an engine: its own position, or column 8 in its place (R138, R160). -/
def State.column (s : State) (eng : Nat) : Nat :=
  if bits (s.word (R.COL_STATUS (eng / 8))).toNat (2 * (eng % 8)) 2 = 1 then 8 else eng % 8

/-- A column mismatch (R156): replayed on column 8 while it is in service, else, and on a degraded column (R161), reissued; a third failure enters
the failing lanes as poisoned. The answer is those lanes. -/
def State.columnCheck (s : State) (a : Site) (c : Ctx) (fmt : Nat) : Nat × State :=
  match a.hw with
  | .column lanes fails =>
    let j := s.column a.eng
    let degraded := bits (s.word (R.COL_STATUS (a.eng / 8))).toNat (2 * j) 2 = 2
    let outcome := if s.get (F.COL_STATUS_col8 (a.eng / 8)) = 0 ∧ j ≠ 8 ∧ !degraded then 0 else if fails < 3 then 1 else 2
    let t := s.residue c.coll 1 (homePhys (a.eng / 8 * 8)) a.eng (a.eng / 8) j outcome (signature 0xFF fmt a.ctx lanes) c.chunk
    (if outcome = 2 then lanes else 0, t)
  | _ => (0, s)

/-- A slot word that ECC found wrong (R114): an uncorrectable one sets the slot's poisoned flag. `base` is the instruction's first slot. -/
def State.slotEcc (s : State) (a : Site) (c : Ctx) (region base : Nat) : State :=
  match a.hw with
  | .cistern slot u =>
    let key := slotOf a c region (base + slot)
    let t := s.cisternEcc (a.eng / 8) (base + slot) u
    let k := t.slotRd key
    if u then t.slotWr key { k with flags := { k.flags with poisoned := true } } else t
  | _ => s

/-! ### CACC -/

/-- One element of CACC (R190 to R192): its value or product enters the slot, or becomes a leaf. -/
def accOne (a : Site) (c : Ctx) (f : LC) (bad : Nat) (st : State × List Origin) (e : Nat) : State × List Origin :=
  let s := st.1
  let k := f.fmt.toNat
  let fm := s.fmt k
  let r := s.region c.owner (a.eng / 8) f.region.toNat
  let x := Exact.ofIdx r.fmt
  let va := c.elem fm f.v.toNat e
  let vb := c.elem fm f.vb.toNat e
  let lane := laneOf k e
  let pz := va.pois || (f.prod == 1 && vb.pois) || bit bad lane || (is64 k && bit bad (lane + 1))
  let p := if f.prod = 1 then productVal x fm va.bits vb.bits else (fm.decode va.bits, false, false)
  let slot := if f.fold = 1 then c.sc f.sSlot.toNat else c.sc f.sSlot.toNat + e
  let key := slotOf a c f.region.toNat slot
  let o := fun (n : Nat) => List.replicate n (c.origin a 0x40 k lane e ⟨0, false, 1, 1⟩)
  let gen := if p.2.2 && !pz then o 1 else []
  let z := s.slotRd key
  if r.ordered then
    if s.passes c (stackLeaves z.stack) 1 then (s.overCount c (fm.width / 8), st.2)
    else
      let q := s.leafPush key c.chunk (x == .c2176) (leafBits (x == .c2176) p.1 pz)
      (q.2, st.2 ++ gen ++ o q.1)
  else if s.passes c z.count 1 then (s.overCount c (fm.width / 8), st.2)
  else
    let q := z.enter x p.1 pz p.2.1
    let s := if q.dropped || q.ovfNow then s else s.inc F.CIS_CONTRIB_COUNT_contrib
    (s.slotDone a c x key (c.elemIx + e) 0 q, st.2 ++ gen)

/-- CACC's body. -/
def accBody (a : Site) (f : LC) (s : State) (c : Ctx) : Act :=
  let h := s.columnCheck a c f.fmt.toNat
  let s := (h.2.visits a c f.region.toNat (c.sc f.sSlot.toNat) (if f.fold = 1 then 1 else nElems f.fmt.toNat)).slotEcc a c
    f.region.toNat (c.sc f.sSlot.toNat)
  let r := (c.enabledList f.pg.toNat f.fmt.toNat).foldl (accOne a c f h.1) (s, [])
  .next r.1 c r.2

/-- CACC (R190). -/
def execCacc (a : Site) (f : LC) (s : State) : Host.Outcome State Fault Refusal :=
  done (issue a (f.word 0x40) f.fmt.toNat (.src (if f.prod = 1 then [f.v.toNat, f.vb.toNat] else [f.v.toNat]) (s.fmt f.fmt.toNat))
    (accBody a f) s)

/-! ### CMERGE -/

/-- One item at the front of a byte string: the record with the bytes it takes, or none where it cannot be delimited (R613). -/
def nextRec (x : Exact) (b : List (Byte × Bool)) : Option (Rec × Nat) :=
  if b.length < 8 then none
  else
    let len := leNat ((b.drop 3).take 1 |>.map (·.1))
    if (len = 3 ∨ (len = x.fullLen ∧ x ≠ .i128)) ∧ 8 * len ≤ b.length then
      let r := Rec.ofNat len (leNat ((b.take (8 * len)).map (·.1)))
      some (if (b.take (8 * len)).any (·.2) then Rec.poison r.cnt else r, 8 * len)
    else none

/-- Read `n` records of a partial chunk: (record, is it missing or malformed), and the bytes taken. Once one cannot be delimited every later
one is malformed with count `cnt` (R613); on a channel each takes 8 bytes (`skip`). -/
def readRecs (x : Exact) (cnt skip : Nat) : Nat → List (Byte × Bool) → Bool → List (Rec × Bool) × Nat
  | 0, _, _ => ([], 0)
  | n + 1, b, dead =>
    match if dead then none else nextRec x b with
    | some (r, m) =>
      let q := readRecs x cnt skip n (b.drop m) false
      let bad := r.malformed x
      ((if bad then Rec.poison r.cnt else r, bad) :: q.1, m + q.2)
    | none =>
      let q := readRecs x cnt skip n [] true
      ((Rec.poison cnt, true) :: q.1, (if skip = 0 then b.length else skip) + q.2)

/-- Merge one record into a slot (R96, R97, R99). -/
def mergeOne (a : Site) (c : Ctx) (x : Exact) (region : Nat) (s : State) (slot elem : Nat) (r : Rec) (bad : Bool) : State :=
  let key := slotOf a c region slot
  let z := s.slotRd key
  let s := if bad then s.inc F.CIS_BAD_RECORD_COUNT_bad else s
  if s.passes c z.count r.cnt then s.overCount c (8 * r.len)
  else s.slotDone a c x key elem 1 (z.merge x r)

/-- Do the bytes at the front of a channel hold `n` complete items, `w` bytes each in an ordered region (R193)? A record that cannot be delimited,
and each item after it, takes 8 bytes (R613). -/
def holdsItems (x : Exact) (ordered : Bool) (w : Nat) : Nat → List (Byte × Bool) → Bool
  | 0, _ => true
  | n + 1, b =>
    let len := leNat ((b.drop 3).take 1 |>.map (·.1))
    if ordered then decide (w * (n + 1) ≤ b.length)
    else if b.length < 8 then false
    else if len = 3 ∨ (len = x.fullLen ∧ x ≠ .i128) then decide (8 * len ≤ b.length) && holdsItems x ordered w n (b.drop (8 * len))
    else decide (8 * (n + 1) ≤ b.length)

/-- What CMERGE reads: the items of the stream with the stream after it; none while it must wait (R193, R613). `n` items; `w` bytes each in
an ordered region. A fabric port whose current chunk holds nothing more goes on to the next chunk. -/
def State.mergeItems (s : State) (a : Site) (c : Ctx) (k : Nat) (x : Exact) (ordered : Bool) (n w : Nat) :
    Option (List (Rec × Bool) × Strm × Nat × Nat) :=
  match s.strm a.eng k with
  | none => none
  | some t0 =>
    let read := fun (b : List (Byte × Bool)) (cnt skip : Nat) =>
      if ordered then
        ((List.range n).map (fun i =>
          let v := (b.drop (w * i)).take w
          (⟨0, 0, 0, 0, if v.length = w ∧ !v.any (·.2) then leNat (v.map (·.1)) else (builtinFmt (if w = 8 then 0 else 1)).canonNan 1⟩,
            false)), min b.length (w * n))
      else readRecs x cnt skip n b false
    if k < 4 then
      let t := if t0.chunk.isNone ∨ t0.exhausted then t0.openNext.1 else t0
      if t.exhausted then none
      else match t.refill.pick ((if ordered then w else 8 * x.fullLen) * n) with
        | none => none
        | some g =>
          let r := read ((g.data.drop g.off).map (·, false)) g.covers 0
          let t := if g.items ≤ n then t.refill.consume g 0 true
            else (t.refill.consume g 0 false).setItems g (min g.data.length (g.off + r.2)) (g.items - n)
          some (r.1, t, r.2, g.chunk)
    else
      let most := (if ordered then w else 8 * x.fullLen) * n
      let b := if t0.mode = 2 then s.regionRd a.eng t0 (c.pos.rd k) most (Hw.badWord a.hw)
        else t0.landed (c.pos.rd k) most (Hw.badWord a.hw)
      if !holdsItems x ordered w n b then none
      else
        let r := read b 1 8
        some (r.1, if t0.mode = 2 then t0 else { t0 with land := t0.land.drop r.2 }, r.2, 0)

/-- CMERGE's body (R193). The items in the failing lanes of `bad` enter as poisoned (R156). -/
def mergeBody (a : Site) (f : LC) (bad : Nat) (s : State) (c : Ctx) : Act :=
  let k := f.stream.toNat
  let r := s.region c.owner (a.eng / 8) f.region.toNat
  let x := Exact.ofIdx r.fmt
  let wide := x == .c2176
  let base := c.sc f.sSlot.toNat
  match s.mergeItems a c k x r.ordered (f.cnt.toNat + 1) (if wide then 8 else 4) with
  | none => .wait 3
  | some (items, t, n, chunk) =>
    let c := { c with pos := c.pos.wr k (c.pos.rd k + n), chunk := if k < 4 then chunk else c.chunk, elemIx := if k < 4 then 0 else c.elemIx }
    let h := s.columnCheck a c 0
    let s := (((h.2.visits a c f.region.toNat base (f.cnt.toNat + 1)).slotEcc a c f.region.toNat base).storeEcc a).putStrm a.eng k t
    let r := (items.zipIdx).foldl (fun st p =>
      let spoiled := bit h.1 p.2 || bit bad p.2
      if r.ordered then
        let key := slotOf a c f.region.toNat (base + p.2)
        if st.1.passes c (stackLeaves (st.1.slotRd key).stack) 1 then (st.1.overCount c 4, st.2)
        else
          let v := if spoiled then (builtinFmt (if wide then 0 else 1)).canonNan 1 else p.1.1.val
          let q := st.1.leafPush key c.chunk wide v
          (q.2, st.2 ++ List.replicate q.1 (c.origin a 0x41 r.fmt p.2 p.2 ⟨0, false, 1, 1⟩))
      else
        (mergeOne a c x f.region.toNat st.1 (base + p.2) p.2 (if spoiled then Rec.poison p.1.1.cnt else p.1.1) p.1.2, st.2)) (s, [])
    .next r.1 c r.2

/-- CMERGE (R193). -/
def execCmerge (a : Site) (f : LC) (s : State) : Host.Outcome State Fault Refusal :=
  done (issue a (f.word 0x41) f.fmt.toNat (.items (mergeBody a f)) (mergeBody a f 0) s)

/-! ### CRND -/

/-- The origin of the round-out of element `i`, in a lane: unit kind 2, the cluster (R614). -/
def roundOrigin (a : Site) (c : Ctx) (op fmt lane i : Nat) (r : LaneRes) : Origin :=
  ⟨r.cause, r.code, false, 2, a.eng / 8, 0, lane, fmt, op, 0xFF, c.chunk, c.elemIx + i⟩

/-- Round one slot out (R195): an exact slot by R98, an ordered one by its tree sum, unless an error of the store has poisoned it (R114). The second
answer counts NaNs the tree's last additions generated (R113). -/
def slotOut (r : Region) (z : Slot) (t : Fmt) (mode rnd : Nat) : LaneRes × Nat :=
  let x := Exact.ofIdx r.fmt
  if r.ordered && !z.flags.poisoned then
    let w := stackSum (x == .c2176) z.stack
    (laneCvt (builtinFmt (if x = .c2176 then 0 else 1)) t mode rnd ⟨w.1, false⟩, w.2)
  else (z.roundOut x t mode rnd, 0)

/-- CRND's body (R195, R196). -/
def rndBody (a : Site) (f : LC) (s : State) (c : Ctx) : Act :=
  let k := f.fmt.toNat
  let t := s.fmt k
  let base := c.sc f.sSlot.toNat
  let r := s.region c.owner (a.eng / 8) f.region.toNat
  let on := c.enabledList f.pg.toNat k
  if !s.slotsReady a c r f.region.toNat (on.map (base + ·)) then .wait 2
  else
    let s := (s.visits a c f.region.toNat base (nElems k)).slotEcc a c f.region.toNat base
    let step := s.stepOf c.coll
    let res := on.map (fun i => (i, slotOut r (s.slotRd (slotOf a c f.region.toNat (base + i))) t f.rnd.toNat
      (rndOf f.rnd.toNat c.rngKey c.tau step (c.sc f.sAux.toNat + i))))
    let find := fun (i : Nat) => (res.find? (fun p => p.1 == i)).map (fun p => p.2.1.lane)
    let os := res.flatMap (fun p =>
      List.replicate p.2.2 (roundOrigin a c 0x42 r.fmt (laneOf k p.1) p.1 ⟨0, false, 1, 1⟩) ++
        (if p.2.1.cause = 0 then [] else [roundOrigin a c 0x42 k (laneOf k p.1) p.1 p.2.1]))
    let s := if f.clr = 1 then on.foldl (fun s i => s.slotWr (slotOf a c f.region.toNat (base + i)) Slot.empty) s else s
    .next s (c.setReg f.v.toNat (putElems t (c.reg f.v.toNat) find)) os

/-- CRND (R195). -/
def execCrnd (a : Site) (f : LC) (s : State) : Host.Outcome State Fault Refusal :=
  done (issue a (f.word 0x42) f.fmt.toNat (.vec f.v.toNat 1 (s.fmt f.fmt.toNat)) (rndBody a f) s)

/-! ### CXPORT -/

/-- Encode one slot for CXPORT (R194, R95): the item, and the state with the slot's overflow and the record counted. An item in a failing lane of
`bad` is poisoned (R156), and so is the leaf of a slot the store's ECC has poisoned (R114). -/
def exportOne (a : Site) (c : Ctx) (f : LC) (r : Region) (clr : Bool) (bad : Nat) (st : State × List Byte × List Origin) (i : Nat) :
    State × List Byte × List Origin :=
  let s := st.1
  let x := Exact.ofIdx r.fmt
  let one := builtinFmt (if x = .c2176 then 0 else 1)
  let key := slotOf a c f.region.toNat (c.sc f.sSlot.toNat + i)
  let z := s.slotRd key
  if r.ordered then
    let w := stackSum (x == .c2176) z.stack
    let s := if clr then s.slotWr key Slot.empty else s
    let leaf := if z.flags.poisoned then (z.roundOut x one 0 0).bits else if bit bad i then one.canonNan 6 else w.1
    (s, st.2.1 ++ leBytes leaf (if x = .c2176 then 8 else 4),
      st.2.2 ++ List.replicate w.2 (roundOrigin a c 0x43 r.fmt i i ⟨0, false, 1, 1⟩))
  else
    let e := z.encode x
    let s := if e.1.len = 3 then s.inc F.CIS_PART_COUNT_compact else s.inc F.CIS_PART_COUNT_full
    let s := s.slotWr key (if clr then Slot.empty else e.2.1)
    let s := if e.2.2 then s.overflowTrap c.coll c.chunk (c.elemIx + i) (a.eng / 8) x.code 2 else s
    (s, st.2.1 ++ (if bit bad i then Rec.poison e.1.cnt else e.1).bytes, st.2.2)

/-- The records of chunk i that an engine's share holds. -/
def State.shareOf (s : State) (c : Coll) (eng i : Nat) : Nat :=
  let r := s.sharePlaces c.cmd c.mask i (c.engs.findIdx (· == eng)) c.engs.length
  r.2 - r.1

/-- CXPORT's body (R194, R196). The items in the failing lanes of `bad` are poisoned (R156). -/
def exportBody (a : Site) (f : LC) (bad : Nat) (s : State) (c : Ctx) : Act :=
  let k := f.stream.toNat
  let base := c.sc f.sSlot.toNat
  let r := s.region c.owner (a.eng / 8) f.region.toNat
  let x := Exact.ofIdx r.fmt
  let n := f.cnt.toNat + 1
  let most := n * (if r.ordered then (if x = .c2176 then 8 else 4) else 8 * x.fullLen)
  match s.strm a.eng k with
  | none => .wait 3
  | some t =>
    if !s.slotsReady a c r f.region.toNat ((List.range n).map (base + ·)) then .wait 2
    else if k < 8 ∧ t.level + credit most > 16384 then .wait 3
    else if k ≥ 8 ∧ t.mode = 3 ∧ t.out.length + most > t.cap then .wait 3
    else
      let s := (s.visits a c f.region.toNat base n).slotEcc a c f.region.toNat base
      let e := (List.range n).foldl (exportOne a c f r (f.clr == 1) bad) (s, [], [])
      let c1 := { c with pos := c.pos.wr k (c.pos.rd k + e.2.1.length) }
      if k < 8 then
        let t := { t with out := t.out ++ e.2.1, outUp := true, outRecs := t.outRecs + n, level := t.level + credit e.2.1.length }
        let s := e.1
        let full := match c.coll.bind s.coll with
          | some q => decide (t.outRecs ≥ s.shareOf q a.eng t.outIdx)
          | none => false
        if full then .send (s.putStrm a.eng k (t.close (c.fenced k))) { c1.unfence k with pc := c1.pc + 1 } e.2.2 t.coll
        else .next (s.putStrm a.eng k t) c1 e.2.2
      else if t.mode = 2 then .next (e.1.regionWr a.eng t (c.pos.rd k) e.2.1) c1 e.2.2
      else
        .next (e.1.putStrm a.eng k { t with out := t.out ++ e.2.1, wops := t.wops ++ [(c.issued, e.2.1.length)] })
          { c1 with open_ := c1.open_ ++ [c.issued] } e.2.2

/-- CXPORT (R194). -/
def execCxport (a : Site) (f : LC) (s : State) : Host.Outcome State Fault Refusal :=
  done (issue a (f.word 0x43) f.fmt.toNat (.items (exportBody a f)) (exportBody a f 0) s)

/-! ### CCLR -/

/-- CCLR's body (R197): clears the slots, or empties their stacks. -/
def clrBody (a : Site) (f : LC) (s : State) (c : Ctx) : Act :=
  .next ((List.range (f.cnt.toNat + 1)).foldl
    (fun s i => s.slotWr (slotOf a c f.region.toNat (c.sc f.sSlot.toNat + i)) Slot.empty)
    ((s.visits a c f.region.toNat (c.sc f.sSlot.toNat) (f.cnt.toNat + 1)).slotEcc a c f.region.toNat (c.sc f.sSlot.toNat))) c []

/-- CCLR (R197). -/
def execCclr (a : Site) (f : LC) (s : State) : Host.Outcome State Fault Refusal :=
  done (issue a (f.word 0x44) f.fmt.toNat .none (clrBody a f) s)

end Sys2Proof.Machine
end

