-- ==== Sys2Proof/Machine/SparseIns.lean ====
section
/-!
DEFINITION. The sparse instructions SPDEC, SPENC and PRUNE (R219 to R223), and the maps PRUNE shares with the noria's pruning unit (R222, R314).
-/
namespace Sys2Proof.Machine
open Sys2Proof

/-- lay, s_base, s_n and msk of SPDEC, SPENC and PRUNE (Table 07-2). -/
def spLay (f : LV) : Nat := bits f.ext.toNat 18 2
/-- The scalar with the tensor index of the block's first position. -/
def spBase (f : LV) : Nat := bits f.ext.toNat 14 4
/-- The scalar with the operand's length. -/
def spLen (f : LV) : Nat := bits f.ext.toNat 10 4
/-- 1: the maps come from V[vb]. -/
def spMsk (f : LV) : Bool := bit f.ext.toNat 9

/-- The place of set position `i` among the set positions of a map. -/
def rankIn (map i : Nat) : Nat := popCount map i

/-- Dense registers of a block: 2 for 2:4 and 1:4, 4 for 2:8 (R220). -/
def denseRegs (lay : Nat) : Nat := layG lay / 2

/-- The traps and origins of failed groups: SPARSE_INDEX and SPARSE_GROUP with their poisoned lanes (R133, R134). `lanes` names the lanes a
group's positions or slots take. -/
def State.blockTraps (s : State) (a : Site) (c : Ctx) (op : Nat) (f : LV) (bad : List BadGroup) (lanes : Nat → List Nat) : State × List Origin :=
  let first := c.elemIx / layN (spLay f)
  (s.sparseTraps c.coll c.chunk 0xFF a.eng a.ctx f.fmt.toNat (spLay f) false
      (bad.map (fun b => { b with group := first + b.group })),
    bad.flatMap (fun b => (lanes b.group).map (fun j =>
      c.origin a op f.fmt.toNat (j % 128) j ⟨0, false, 5, b.code⟩)))

/-! ### SPDEC -/

/-- Dense position `i` of a group (R220): its slot, +0, or the group's poison. -/
def decPos (f : Fmt) (n map code : Nat) (marked : Bool) (slot : Nat → Lane) (g i : Nat) : Lane :=
  if marked then slot (n * g)
  else if code ≠ 0 then let r := slotPoison f false code; ⟨r.bits, r.pois⟩
  else if bit map i then slot (n * g + rankIn map i) else ⟨0, false⟩

/-- SPDEC's body (R220). -/
def spdecBody (a : Site) (f : LV) (s : State) (c : Ctx) : Act :=
  let fm := s.fmt f.fmt.toNat
  let lay := spLay f
  let g := layG lay
  let m := c.reg (f.va.toNat + 1)
  let base := c.sc (spBase f)
  let info := (List.range 64).map (fun q =>
    (metaMap lay m q, if metaBad m q then 0 else groupCheck lay (metaMap lay m q) (base + g * q) (c.sc (spLen f)) none, metaBad m q))
  let dense := fun (j : Nat) =>
    let p := info.getD (j / g) (0, 0, false)
    decPos fm (layN lay) p.1 p.2.1 p.2.2 (c.elem fm f.va.toNat) (j / g) (j % g)
  let c1 := (List.range (denseRegs lay)).foldl (fun c1 r =>
    c1.setReg (f.vd.toNat + r) (putElems fm zeroReg (fun i => some (dense (128 * r + i))))) c
  let bad := (info.zipIdx).filterMap (fun p => if p.1.2.1 = 0 then none else some (⟨p.1.2.1, p.2, p.1.1, 0⟩ : BadGroup))
  let t := s.blockTraps a c 0x60 f bad (fun q => (List.range g).map (g * q + ·))
  .next t.1 c1 t.2

/-- SPDEC (R220). -/
def execSpdec (a : Site) (f : LV) (s : State) : Host.Outcome State Fault Refusal :=
  done (issue a (f.word 0x60) f.fmt.toNat (.vec f.vd.toNat (denseRegs (spLay f)) (s.fmt f.fmt.toNat)) (spdecBody a f) s)

/-! ### SPENC -/

/-- Does a lane count as nonzero (R124): a NaN, an infinity and −0 do, and a poisoned lane whatever its bits (log entry 72)? -/
def nonzero (f : Fmt) (x : Lane) : Bool := x.pois || x.bits % 2 ^ f.width != 0

/-- The map of a group without a mask: its nonzero positions below the operand's length. -/
def nonzeroMap (f : Fmt) (g base len : Nat) (v : Nat → Lane) : Nat :=
  ((List.range g).filter (fun i => base + i < len && nonzero f (v i))).foldl (fun a i => a ||| 1 <<< i) 0

/-- The positions of a map in rising order. -/
def mapPos (map g : Nat) : List Nat := bitList map g

/-- Encode one group (R221): its map as it is kept, its trap code, its N slots. -/
def encGroup (f : Fmt) (lay map base len : Nat) (v : Nat → Lane) : Nat × Nat × List Lane :=
  let code := groupCheck lay map base len none
  if code ≠ 0 then
    let r := slotPoison f false code
    (badMap lay map base len, code, List.replicate (layN lay) ⟨r.bits, r.pois⟩)
  else
    (map, 0, (List.range (layN lay)).map (fun j => ((mapPos map (layG lay))[j]?.map v).getD ⟨0, false⟩))

/-- SPENC's body (R221). -/
def spencBody (a : Site) (f : LV) (s : State) (c : Ctx) : Act :=
  let fm := s.fmt f.fmt.toNat
  let lay := spLay f
  let g := layG lay
  let base := c.sc (spBase f)
  let len := c.sc (spLen f)
  let dense := fun (j : Nat) => c.elem fm (f.va.toNat + j / 128) (j % 128)
  let groups := (List.range 64).map (fun q =>
    let v := fun i => dense (g * q + i)
    let map := if spMsk f then metaMap lay (c.reg f.vb.toNat) q else nonzeroMap fm g (base + g * q) len v
    (map, encGroup fm lay map (base + g * q) len v))
  let slots := groups.flatMap (fun p => p.2.2.2)
  let c1 := (c.setReg f.vd.toNat (fillLanes fm slots)).setReg (f.vd.toNat + 1)
    (metaReg lay (groups.map (fun p => p.2.1)) (groups.map (fun p => p.2.2.1 != 0)))
  let bad := (groups.zipIdx).filterMap (fun p => if p.1.2.2.1 = 0 then none else some (⟨p.1.2.2.1, p.2, p.1.1, 0⟩ : BadGroup))
  let t := s.blockTraps a c 0x61 f bad (fun q => (List.range (layN lay)).map (layN lay * q + ·))
  .next t.1 c1 t.2
where
  /-- Lanes from place 0 up, +0 behind them. -/
  fillLanes (fm : Fmt) (l : List Lane) : List Lane := putElems fm zeroReg (fun i => some ((l[i]?).getD ⟨0, false⟩))

/-- SPENC (R221). -/
def execSpenc (a : Site) (f : LV) (s : State) : Host.Outcome State Fault Refusal :=
  done (issue a (f.word 0x61) f.fmt.toNat (.vec f.vd.toNat 2 (s.fmt f.fmt.toNat)) (spencBody a f) s)

/-! ### PRUNE -/

/-- The magnitude a position prunes by; none for a NaN or a poisoned lane, which rank below every number (R222). -/
def pruneMag (f : Fmt) (x : Lane) : Option Val :=
  if x.pois then none
  else match f.decode x.bits with
    | .nan _ => none
    | v => some (v.withSign false)

/-- Does position `j` of magnitude `b` go before position `i` of magnitude `a` (R222)? -/
def pruneBeats (a b : Option Val) (i j : Nat) : Bool :=
  match b, a with
  | some y, some x => let d := cmpVal y x; decide (d > 0) || (d == 0 && decide (j < i))
  | some _, none => true
  | none, some _ => false
  | none, none => decide (j < i)

/-- The map that keeps the N positions of largest magnitude among the first `m` of a group (R222). -/
def pruneMap (n m : Nat) (mag : Nat → Option Val) : Nat :=
  ((List.range m).filter (fun i =>
    ((List.range m).filter (fun j => pruneBeats (mag i) (mag j) i j)).length < n)).foldl (fun a i => a ||| 1 <<< i) 0

/-- PRUNE's body (R222). -/
def pruneBody (f : LV) (s : State) (c : Ctx) : Act :=
  let fm := s.fmt f.fmt.toNat
  let lay := spLay f
  let g := layG lay
  let base := c.sc (spBase f)
  let maps := (List.range 64).map (fun q =>
    pruneMap (layN lay) (min g (c.sc (spLen f) - (base + g * q))) (fun i =>
      pruneMag fm (c.elem fm (f.va.toNat + (g * q + i) / 128) ((g * q + i) % 128))))
  .next s (c.setReg f.vd.toNat (metaReg lay maps [])) []

/-- PRUNE (R222). -/
def execPrune (a : Site) (f : LV) (s : State) : Host.Outcome State Fault Refusal :=
  done (issue a (f.word 0x62) f.fmt.toNat (.vec f.vd.toNat 1 (builtinFmt 13)) (pruneBody f) s)

end Sys2Proof.Machine
end

