-- ==== Sys2Proof/Machine/NorRules.lean ====
section
/-!
DEFINITION. The update-rule table (R296 to R301): entries, micro-steps and their operations (R300), the templates (R312), and the validity of
an entry (R301).
-/
namespace Sys2Proof.Machine
open Sys2Proof

/-! ### Micro-steps -/

/-- A micro-step word (Table 09-5). -/
structure MStep where
  w : Nat
  deriving DecidableEq, Repr

namespace MStep
/-- The operation. -/
def op (m : MStep) : Nat := bits m.w 56 8
/-- The destination. -/
def d (m : MStep) : Nat := bits m.w 50 6
/-- Operand a. -/
def a (m : MStep) : Nat := bits m.w 44 6
/-- Operand b. -/
def b (m : MStep) : Nat := bits m.w 38 6
/-- Operand c. -/
def c (m : MStep) : Nat := bits m.w 22 6
/-- The format, 1 binary32 or 0 binary64. -/
def fmt (m : MStep) : Nat := bits m.w 31 5
/-- The rounding mode. -/
def rnd (m : MStep) : Nat := bits m.w 28 3
end MStep

/-- The code of the first NaN among operands (R50). -/
def nanAmong : List Val → Option Nat
  | [] => none
  | .nan t :: _ => some t
  | _ :: l => nanAmong l

/-- Is the product one of zero and infinity, which gives N with any c (Table 02-7)? -/
def zeroByInf (a b : Val) : Bool := (a.isZero && b.isInf) || (a.isInf && b.isZero)

/-- a × b + c as exact values; none where a NaN is generated. -/
def fmaVal (a b c : Val) : Option Val := (mulVal a b).bind (fun p => addVal p c)

/-- 1 / √a (Table 09-7), enough digits and a sticky bit for one rounding. -/
def rsqrtVal : Val → Option Val
  | .inf s => if s then none else some (.fin false 0 0)
  | .fin s a e =>
    if a = 0 then some (.inf s)
    else if s then none
    else
      let o : Nat := if e % 2 = 0 then 0 else 1
      let n := a <<< o
      let p := 160 + Nat.log2 n
      let m := 2 ^ (2 * p) / n
      let q := isqrt m (Nat.log2 m / 2 + 1) 0
      some (.fin false (2 * q + (if q * q * n = 2 ^ (2 * p) then 0 else 1)) (-((e - (o : Int)) / 2) - p - 1))
  | .nan _ => none

/-- The integer a value is, where it is one from 0 to 2^53. -/
def natOf : Val → Option Nat
  | .fin s a e =>
    if a = 0 then some 0
    else if s then none
    else if 0 ≤ e then (if e ≤ 53 ∧ a * 2 ^ e.toNat ≤ 2 ^ 53 then some (a * 2 ^ e.toNat) else none)
    else
      let k := (-e).toNat
      if k ≤ Nat.log2 a ∧ a % 2 ^ k = 0 ∧ a / 2 ^ k ≤ 2 ^ 53 then some (a / 2 ^ k) else none
  | _ => none

/-- a^b for operands that are no NaN (Table 09-7). -/
def powVal (a b : Val) : Option Val :=
  match natOf b with
  | none => none
  | some 0 => some (.fin false 1 0)
  | some n => match a with
    | .fin s m e => some (.fin (s && n % 2 == 1) (m ^ n) (e * n))
    | .inf s => some (.inf (s && n % 2 == 1))
    | .nan t => some (.nan t)

/-- maximumNumber and minimumNumber on values, −0 below +0. -/
def extremum (mx : Bool) : Val → Val → Val
  | .nan t, .nan _ => .nan t
  | .nan _, y => y
  | x, .nan _ => x
  | x, y =>
    let d := cmpVal x y
    let low := d < 0 || (d = 0 && x.neg? && !y.neg?)
    if low = mx then y else x

/-- Is a value above 0? -/
def aboveZero : Val → Bool
  | .fin s a _ => !s && a != 0
  | .inf s => !s
  | .nan _ => false

/-- The rounded result of a computing micro-step (R300). SEL rounds nothing: `runStep` moves its operand. -/
def mstepRes (f : Fmt) (op rnd : Nat) (a b c : Val) : LaneRes :=
  let go := fun (l : List Val) (r : Option Val) => match nanAmong l with
    | some t => f.nanRes t 0
    | none => f.finish rnd 0 r
  match op with
  | 0x01 => go [a, b] (addVal a b)
  | 0x02 => go [a, b] (addVal a b.negate)
  | 0x03 => go [a, b] (mulVal a b)
  | 0x04 => if zeroByInf a b then f.nanRes 1 1 else go [a, b, c] (fmaVal a b c)
  | 0x05 => if zeroByInf a b then f.nanRes 1 1 else go [a, b, c] (fmaVal a.negate b c)
  | 0x06 => go [a, b] (divVal a b)
  | 0x07 => go [a] (sqrtVal a)
  | 0x08 => go [a] (rsqrtVal a)
  | 0x09 => f.store rnd 0 (extremum true a b) 0
  | 0x0A => f.store rnd 0 (extremum false a b) 0
  | 0x0B => f.store rnd 0 (a.withSign false) 0
  | 0x0C => go [a, b] (powVal a b)
  | _ => f.store rnd 0 a 0

/-! ### Rule entries -/

/-- A rule entry (Table 09-4) with the lists it runs: for each pass its scalar, row, column and element list. -/
structure Rule where
  kind     : Nat
  template : Nat
  wfmt     : Nat
  sfmt     : Nat
  nstate   : Nat
  passes   : Nat
  flags    : Nat
  ks       : List Nat
  lists    : List (List (List MStep))
  deriving DecidableEq, Repr

namespace Rule
/-- The clip flag. -/
def clip (r : Rule) : Bool := bit r.flags 0
/-- The nf_skip flag. -/
def nfSkip (r : Rule) : Bool := bit r.flags 1
/-- The factored flag. -/
def factored (r : Rule) : Bool := bit r.flags 2
/-- List `k` of pass `p` (1–3): 0 scalar, 1 row, 2 column, 3 element. -/
def list (r : Rule) (p k : Nat) : List MStep := (r.lists.getD (p - 1) []).getD k []
end Rule

/-! ### Templates (R312) -/

/-- A micro-step with RNE: op, d, a, b, c, fmt. -/
def ms (op d a b c fmt : Nat) : MStep :=
  ⟨op <<< 56 ||| d <<< 50 ||| a <<< 44 ||| b <<< 38 ||| fmt <<< 31 ||| c <<< 22⟩

/-- Scalar steps of templates 2, 3 and 5: Q0 to Q3. -/
def adamScalars : List MStep :=
  [ms 0x02 16 24 9 0 0, ms 0x02 17 24 10 0 0, ms 0x0C 18 9 48 0 0, ms 0x02 18 24 18 0 0, ms 0x0C 19 10 48 0 0, ms 0x02 19 24 19 0 0]

/-- The moments of AdamW: E1, S1′, E2, S2′ from `g`. -/
def adamMoments (w s g : Nat) : List MStep :=
  [ms 0x03 1 16 g 0 w, ms 0x04 37 9 34 1 s, ms 0x03 2 g g 0 w, ms 0x03 2 17 2 0 w, ms 0x04 38 10 35 2 s]

/-- The direction from the moments: E3 to E6. -/
def adamDirection (w : Nat) : List MStep :=
  [ms 0x06 3 37 18 0 w, ms 0x06 4 38 19 0 w, ms 0x07 5 4 0 0 w, ms 0x01 5 5 11 0 w, ms 0x06 6 3 5 0 w]

/-- The lists of a template (Table 09-8) for formats w and s. -/
def templateLists (t w s : Nat) : List (List (List MStep)) :=
  match t with
  | 1 => [[[], [], [], [ms 0x04 0 10 33 32 w, ms 0x04 37 9 34 0 s, ms 0x05 36 8 37 33 w]]]
  | 2 => [[adamScalars, [], [], [ms 0x04 0 12 33 32 w] ++ adamMoments w s 0 ++ adamDirection w ++ [ms 0x05 36 8 6 33 w]]]
  | 3 => [[adamScalars, [], [], adamMoments w s 32 ++ adamDirection w ++ [ms 0x04 7 12 33 6 w, ms 0x05 36 8 7 33 w]]]
  | 4 => [[[], [], [], [ms 0x04 0 32 32 10 w, ms 0x10 62 0 0 0 w, ms 0x10 63 0 0 0 w]],
      [[ms 0x02 16 24 9 0 0, ms 0x06 17 16 54 0 0, ms 0x06 18 16 53 0 0],
        [ms 0x03 0 17 56 0 0, ms 0x04 58 9 57 0 s, ms 0x10 59 58 0 0 0], [ms 0x03 0 18 56 0 0, ms 0x04 58 9 57 0 s], []],
      [[ms 0x06 19 24 50 0 0], [], [], [ms 0x03 0 39 40 0 w, ms 0x03 1 0 19 0 w, ms 0x08 2 1 0 0 w, ms 0x03 3 32 2 0 w,
        ms 0x04 4 11 33 3 w, ms 0x05 36 8 4 33 w]]]
  | _ => [[adamScalars, [], [], adamMoments w s 32 ++ adamDirection w ++ [ms 0x04 7 12 33 6 w, ms 0x11 59 33 0 0 w, ms 0x11 60 7 0 0 w]],
      [[ms 0x07 20 50 0 0 0, ms 0x07 21 51 0 0 0, ms 0x06 22 20 21 0 0, ms 0x0D 22 21 22 24 0, ms 0x0D 22 20 22 24 0,
        ms 0x03 23 8 22 0 0], [], [], adamDirection w ++ [ms 0x04 7 12 33 6 w, ms 0x05 36 23 7 33 w]]]

/-- Passes, factored flag and moment planes of a template (Table 09-8). -/
def templateShape (t : Nat) : Nat × Bool × Nat :=
  match t with
  | 1 => (1, false, 1)
  | 2 => (1, false, 2)
  | 3 => (1, false, 2)
  | 4 => (3, true, 0)
  | _ => (2, false, 2)

/-! ### Reading the table -/

/-- The list lengths of an entry, four per pass. -/
def ruleLengths (e : List Byte) : List Nat := (List.range 12).map (fun i => fieldOf' e (8 + i) 1)
where
  /-- A little-endian field. -/
  fieldOf' (b : List Byte) (off n : Nat) : Nat := leNat ((b.drop off).take n)

/-- Split words into lists of the given lengths. -/
def splitLens : List Nat → List MStep → List (List MStep)
  | [], _ => []
  | n :: ns, l => l.take n :: splitLens ns (l.drop n)

/-- The entry in 1,024 bytes. -/
def ruleOf (e : List Byte) : Rule :=
  let at_ := fun (o n : Nat) => leNat ((e.drop o).take n)
  let kind := at_ 0 1
  let t := at_ 1 1
  let lens := ruleLengths e
  let steps := (List.range 116).map (fun i => (⟨at_ (0x60 + 8 * i) 8⟩ : MStep))
  let ls := splitLens lens steps
  { kind := kind, template := t, wfmt := at_ 2 1, sfmt := at_ 3 1, nstate := at_ 4 1, passes := at_ 5 1, flags := at_ 6 1,
    ks := (List.range 8).map (fun i => at_ (0x20 + 8 * i) 8),
    lists := if kind = 1 then templateLists t (at_ 2 1) (at_ 3 1) else [ls.take 4, (ls.drop 4).take 4, ls.drop 8] }

/-- The 1,024 bytes of entry `r`. -/
def ruleBytes (tbl : Bytes) (r : Nat) : List Byte := tbl.rd (1024 * r) 1024

/-- Is an entry empty (R297)? -/
def ruleEmpty (e : List Byte) : Bool := e.all (· == 0)

/-! ### Validity (R301) -/

/-- May selector `x` be read in a list of kind `k` (0 scalar, 1 row, 2 column, 3 element)? -/
def selReads (k x : Nat) : Bool :=
  x ≤ 25 || (k == 3 && (decide (32 ≤ x) && decide (x ≤ 40))) || (k == 0 && decide (48 ≤ x) && decide (x ≤ 55))
    || ((k == 1 || k == 2) && decide (56 ≤ x) && decide (x ≤ 58))

/-- May a computing step of a list of kind `k` write selector `x`? -/
def selWrites (k x : Nat) : Bool :=
  x ≤ 7 || (k == 0 && decide (16 ≤ x) && decide (x ≤ 23)) || (k == 3 && decide (36 ≤ x) && decide (x ≤ 38))
    || ((k == 1 || k == 2) && x == 58)

/-- May ACC and SQACC of a list of kind `k` name target `x`? -/
def selTargets (k x : Nat) : Bool := (k == 3 && decide (59 ≤ x) && decide (x ≤ 63)) || (k == 1 && decide (59 ≤ x) && decide (x ≤ 61))

/-- The operands an op reads: a, b, c. -/
def opReads (op : Nat) : Nat :=
  match op with
  | 0x04 => 3
  | 0x05 => 3
  | 0x0D => 3
  | 0x07 => 1
  | 0x08 => 1
  | 0x0B => 1
  | 0x0E => 1
  | 0x10 => 1
  | 0x11 => 1
  | _ => 2

/-- The selectors a step reads. -/
def MStep.reads (m : MStep) : List Nat := [m.a, m.b, m.c].take (opReads m.op)

/-- Is the op defined? -/
def opDefined (op : Nat) : Bool := (decide (1 ≤ op) && decide (op ≤ 0x0E)) || op == 0x10 || op == 0x11

/-- Does a step enter a reduction? -/
def MStep.acc (m : MStep) : Bool := m.op == 0x10 || m.op == 0x11

/-- A step as R301 judges it by itself, in a list of kind `k`: every selector it carries, whether its op reads it or not. -/
def stepOk (r : Rule) (k : Nat) (m : MStep) : Bool :=
  let sel := [m.a, m.b, m.c] ++ (if m.acc then [] else [m.d])
  opDefined m.op && m.rnd ≤ 3 && m.fmt ≤ 1 && bits m.w 36 2 == 0 && bits m.w 0 22 == 0
    && [m.a, m.b, m.c].all (selReads k) && (if m.acc then selTargets k m.d else selWrites k m.d)
    && (if !m.acc && m.d == 36 then m.fmt == r.wfmt else true)
    && (if !m.acc && (m.d == 37 || m.d == 38 || m.d == 58) then m.fmt == r.sfmt else true)
    && (r.factored || !(sel.any (fun x => x == 39 || x == 40 || (decide (54 ≤ x) && decide (x ≤ 58))) || (m.acc && decide (m.d ≥ 62))))
    && (decide (r.nstate ≥ 1) || !sel.any (fun x => x == 34 || x == 37)) && (r.nstate == 2 || !sel.any (fun x => x == 35 || x == 38))
    && (r.clip || !sel.contains 49)

/-- The steps of a rule with their pass and list kind, in order. -/
def Rule.steps (r : Rule) : List (Nat × Nat × MStep) :=
  (List.range r.passes).flatMap (fun p => (List.range 4).flatMap (fun k => (r.list (p + 1) k).map (fun m => (p + 1, k, m))))

/-- What a step writes, as a place: 36–38 for W′, S1′, S2′; 39 and 40 for SR′ and SC′; 59–63 for the targets. -/
def writesOf (k : Nat) (m : MStep) : Option Nat :=
  if m.acc then some m.d
  else if 36 ≤ m.d ∧ m.d ≤ 38 then some m.d
  else if m.d = 58 then some (38 + k) else none

/-- The shadow and reduction rules of R301: each plane once, W′ once in the last pass; reads only after writes. -/
def orderOk (r : Rule) : Bool :=
  let st := r.steps.zipIdx
  let writes := fun (x : Nat) => st.filter (fun e => writesOf e.1.2.1 e.1.2.2 == some x)
  let planes := [36, 37, 38, 39, 40].all (fun x => (writes x).length ≤ 1)
  let last := (writes 36).length == 1 && (writes 36).all (fun e => e.1.1 == r.passes)
  let before := fun (x i : Nat) => (writes x).any (fun e => e.2 < i)
  let earlier := fun (x p : Nat) => !(writes x).isEmpty && (writes x).all (fun e => e.1.1 < p)
  let reads := st.all (fun e => e.1.2.2.reads.all (fun x =>
    if 36 ≤ x ∧ x ≤ 38 then before x e.2
    else if x = 58 then before (38 + e.1.2.1) e.2
    else if x = 39 ∨ x = 40 then before x e.2
    else if 50 ≤ x ∧ x ≤ 52 then earlier (x + 9) e.1.1
    else if x = 56 then earlier (if e.1.2.1 = 1 then 62 else 63) e.1.1
    else true))
  planes && last && reads

/-- Is an entry that is not empty valid (R301)? -/
def ruleValid (e : List Byte) : Bool :=
  let r := ruleOf e
  let lens := ruleLengths e
  let used := lens.sum
  let sized := (lens.zipIdx).all (fun p => decide (p.1 ≤ (if p.2 % 4 = 3 then 32 else 16)))
  let head := (r.kind == 1 || r.kind == 2) && decide (1 ≤ r.passes) && decide (r.passes ≤ 3) && decide (r.flags < 8) &&
    r.wfmt ≤ 1 && r.sfmt ≤ 1 && (r.wfmt == 0 || r.sfmt == 1) && decide (r.nstate ≤ 2) && (!r.nfSkip || r.clip) &&
    ((e.drop 7).take 1).all (· == 0) && ((e.drop 0x14).take 12).all (· == 0) && decide (used ≤ 116) &&
    (e.drop (0x60 + 8 * used)).all (· == 0) && (lens.drop (4 * r.passes)).all (· == 0) &&
    r.ks.all (fun k => match (builtinFmt 0).decode k with
      | .fin _ _ _ => true
      | _ => false)
  let body :=
    if r.kind = 1 then
      used == 0 && decide (1 ≤ r.template) && decide (r.template ≤ 5) && r.passes == (templateShape r.template).1 &&
        r.factored == (templateShape r.template).2.1
    else r.template == 0
  head && sized && body && r.steps.all (fun p => stepOk r p.2.1 p.2.2) && orderOk r

end Sys2Proof.Machine
end

