-- ==== Sys2Proof/Machine/Reduce.lean ====
section
/-!
DEFINITION. The built-in reduction of a chunk (R87 to R113, R128, R264, R268): which elements a chunk holds, decoding a contribution, entering it, the
records of a partial, and the result payload in the output format.
-/
namespace Sys2Proof.Machine
open Sys2Proof

/-! ### The elements of a chunk -/

/-! ### Decoding a contribution -/

/-- What a contribution decodes to: lanes by slot, the format they are in, the origins (slot, result), failed groups, MX infinities. -/
structure Contrib where
  lanes : List Lane
  fmt   : Fmt
  os    : List (Nat × Nat × Nat)
  bad   : List BadGroup
  inf   : Nat

/-- Decode the payload of contribution chunk i (R49, R53, R70, R128 to R130). -/
def State.decodeContrib (s : State) (c : Cmd) (mask : Option Nat) (i : Nat) (data : List Byte) (pois : Bool) : Contrib :=
  let f := s.fmt c.fmtIn
  let e := if c.mx then builtinFmt 1 else f
  let b := data.map (·, false)
  let n := s.chunkLen c i
  if c.sparse then
    let bb := blockBytes f c.mx c.lay
    let g := layG c.lay
    let ds := (List.range (s.chunkBlocks c i)).map (fun k =>
      let base := i * s.perChunk c + k * 64 * g
      (k, decodeBlock f c.mx c.lay ((b.drop (k * bb)).take bb) pois base c.elements (64 * k)
        (fun q => mask.map (fun m => s.maskMap m (base / g + q)))))
    let w := 64 * layN c.lay
    { lanes := ds.flatMap (fun d => (List.range w).map (elemOf e (d.2.regs.headD []))), fmt := e,
      os := ds.flatMap (fun d => d.2.os.map (fun o => (w * d.1 + o.1, o.2))),
      bad := ds.flatMap (fun d => d.2.bad), inf := (ds.map (fun d => d.2.inf)).sum }
  else if c.mx then
    let l := (decodeMx f b pois ((n + 31) / 32)).take n
    { lanes := l.map (·.1.lane), fmt := e, os := elemOrigins (l.map (·.1)), bad := [], inf := (l.filter (·.2)).length }
  else
    let l := decodeElems f b pois n
    { lanes := l.map LaneRes.lane, fmt := e, bad := [], inf := 0,
      os := (l.zipIdx).filterMap (fun p => if p.1.cause = 0 then none else some (p.2, p.1.cause, p.1.code)) }

/-! ### Entering -/

/-- The engine and lane on which a built-in program works on position q of a chunk (log entry 22): equal consecutive shares of the chunk's
positions in engine order, the lanes of a share in order from its first position. -/
def State.builtinUnit (s : State) (c : Coll) (q : Nat) : Nat × Nat :=
  let p := max 1 (s.perChunk c.cmd)
  let e := max 1 c.engs.length
  let j := min (e - 1) (q * e / p)
  (c.engs.getD j 0, (q - (j * p + e - 1) / e) % 128)

/-- An origin at position q of chunk i in a built-in program: in an engine (kind 0), or in its cluster's cistern (kind 2). -/
def State.builtinOrigin (s : State) (c : Coll) (i q kind cause code fmt op port : Nat) (enc : Bool) : Origin :=
  let u := s.builtinUnit c q
  ⟨cause, code, enc, kind, if kind = 0 then u.1 else u.1 / 8, 0, u.2, fmt, op, port, i, q⟩

/-- The position within the chunk of a slot; one that the mask gives no position is taken as its group's. -/
def slotPos (c : Cmd) (places : List (Nat × Nat)) (first slot : Nat) : Nat :=
  match places.find? (fun p => p.1 == slot) with
  | some p => p.2 - first
  | none => if c.sparse then slot / layN c.lay * layG c.lay + slot % layN c.lay else slot

/-- Enter one value in a chunk's slot, with what it does to the counters and traps. `elem` is its position within the chunk. -/
def State.enterSlot (s : State) (x : Nat) (c : Coll) (i elem : Nat) (e : Exact) (z : Slot) (r : SlotRes) (merge : Bool) : State × Slot :=
  let s := if r.dropped then s.inc F.CIS_OVF_DROP_COUNT_drop
    else if merge || r.ovfNow || z == r.slot then s else s.inc F.CIS_CONTRIB_COUNT_contrib
  (if r.ovfNow then s.overflowTrap (some x) i elem ((s.builtinUnit c elem).1 / 8) e.code (b2n merge) else s, r.slot)

/-- The cluster of the first engine of a collective. -/
def Coll.cluster (c : Coll) : Nat := c.engs.headD 0 / 8

/-- The failed groups of a contribution to chunk i, each with the logical engine that decoded it, by engine and then by group (R133). -/
def State.badByEngine (s : State) (c : Coll) (bad : List BadGroup) : List (Nat × BadGroup) :=
  sortBy (fun a b => decide (a.1 < b.1 ∨ (a.1 = b.1 ∧ a.2.group ≤ b.2.group)))
    (bad.map (fun b => ((s.builtinUnit c (b.group * layG c.cmd.lay)).1, b)))

/-- The words of chunk i's slots that ECC found wrong (R114): each counted in its cluster; an uncorrectable one sets the slot's poisoned flag, in
ordered mode too. -/
def State.contribEcc (s : State) (x i : Nat) (l : List (Nat × Bool)) : State :=
  l.foldl (fun s e => match s.coll x with
    | none => s
    | some c =>
      let q := slotPos c.cmd (s.places c.cmd c.mask i) (i * s.perChunk c.cmd) e.1
      let t := s.cisternEcc ((s.builtinUnit c q).1 / 8) e.1 e.2
      if e.2 then
        let k := c.chunk i
        let z := SMap.get (fun _ => Slot.empty) k.slots e.1
        t.putColl x (c.putChunk i { k with slots := SMap.set (fun _ => Slot.empty) k.slots e.1 { z with flags := { z.flags with poisoned := true } } })
      else t) s

/-- A chunk of which some contribution or merge would pass the expected count: those are not added, and the chunk that held them is one membership
event of code 0x04 (R99, R268, R282, log entry 49). -/
def State.overChunk (s : State) (x i rank port wire : Nat) (hit : Bool) : State :=
  match s.coll x with
  | none => s
  | some c => if hit then s.membership (some x) c.cmd.collId i rank port 4 c.cmd.group wire else s

/-- Enter the contribution of party `k`, which came on a port, into chunk i (R87, R109); `wire` are the chunk's bytes on the link. -/
def State.enterContrib (s : State) (x i k port wire : Nat) (data : List Byte) (pois : Bool) : State :=
  match s.coll x with
  | none => s
  | some c =>
    let cmd := c.cmd
    let d := s.decodeContrib cmd c.mask i data pois
    let e := exactOf (s.fmt cmd.fmtIn)
    let first := i * s.perChunk cmd
    let lim := c.limit (s.chunksIn cmd) i
    let places := s.places cmd c.mask i
    let s := s.inc F.MX_INF_COUNT_mxinf d.inf
    let s := if cmd.sparse then s.inc F.SPT_BLOCK_COUNT_blocks (s.chunkBlocks cmd i) else s
    let s := (s.badByEngine c d.bad).foldl (fun t b => t.sparseTraps (some x) i port b.1 0 cmd.fmtIn cmd.lay cmd.mx [b.2]) s
    let kst := c.chunk i
    let r := if c.ordered then
        (s, { kst with leaves := kst.leaves ++ [(k, places.map (fun p =>
          let l := d.lanes.getD p.1 ⟨0, false⟩
          leafBits (e == .c2176) (d.fmt.decode l.bits) l.pois))] }, false)
      else
        let q := places.foldl (fun (st : State × SMap Slot × Bool) p =>
          let l := d.lanes.getD p.1 ⟨0, false⟩
          let z := SMap.get (fun _ => Slot.empty) st.2.1 p.1
          if z.count + 1 > lim then (st.1, st.2.1, true)
          else
            let t := st.1.enterSlot x c i (p.2 - first) e z (z.enter e (d.fmt.decode l.bits) l.pois false) false
            (t.1, SMap.set (fun _ => Slot.empty) st.2.1 p.1 t.2, st.2.2)) (s, kst.slots, false)
        (q.1, { kst with slots := q.2.1 }, q.2.2)
    let s := match r.1.coll x with
      | some c => r.1.putColl x (c.putChunk i r.2.1)
      | none => r.1
    let s := s.overChunk x i ((c.parties[k]?.map (·.rank)).getD 0xFFFF) port wire r.2.2
    s.origins (some x) (d.os.map (fun o => s.builtinOrigin c i (slotPos cmd places first o.1) 0 o.2.1 o.2.2 cmd.fmtIn 0x01 port false))

/-- Enter a child's partial into chunk i (R96, R97, R613): its records, or in ordered mode its sums, which an SRECV decodes. -/
def State.enterPartial (s : State) (x i k rank port wire covers : Nat) (data : List Byte) : State :=
  match s.coll x with
  | none => s
  | some c =>
    let e := exactOf (s.fmt c.cmd.fmtIn)
    let first := i * s.perChunk c.cmd
    let places := s.places c.cmd c.mask i
    let kst := c.chunk i
    let w := if e = .c2176 then 8 else 4
    if c.ordered then
      let f := builtinFmt (if e = .c2176 then 0 else 1)
      let ls := (List.range places.length).map (fun j =>
        let v := (data.drop (w * j)).take w
        if v.length = w then decodeElem f (leNat v) false else ⟨f.canonNan 1, false, 0, 0⟩)
      let s := s.putColl x (c.putChunk i { kst with leaves := kst.leaves ++ [(k, ls.map (·.bits))] })
      s.origins (some x) ((places.zip ls).filterMap (fun p => if p.2.cause = 0 then none
        else some (s.builtinOrigin c i (p.1.2 - first) 0 p.2.cause p.2.code f.idx 0x01 port false)))
    else
      let recs := (readRecs e covers 0 places.length (data.map (·, false)) false).1
      let lim := c.limit (s.chunksIn c.cmd) i
      let q := (places.zip recs).foldl (fun (st : State × SMap Slot × Bool) p =>
        let z := SMap.get (fun _ => Slot.empty) st.2.1 p.1.1
        let s := if p.2.2 then st.1.inc F.CIS_BAD_RECORD_COUNT_bad else st.1
        if z.count + p.2.1.cnt > lim then (s, st.2.1, true)
        else
          let t := s.enterSlot x c i (p.1.2 - first) e z (z.merge e p.2.1) true
          (t.1, SMap.set (fun _ => Slot.empty) st.2.1 p.1.1 t.2, st.2.2)) (s, kst.slots, false)
      (q.1.putColl x (c.putChunk i { kst with slots := q.2.1 })).overChunk x i rank port wire q.2.2

/-- Has chunk i a whole chunk from each of its contributors, and does every slot of a built-in reduction hold the expected count (R99, R268)? -/
def State.filled (s : State) (c : Coll) (i : Nat) : Bool :=
  c.complete (s.chunksIn c.cmd) i && (c.ordered || !(c.cmd.isReduce || c.cmd.op = 0x0C) ||
    (s.places c.cmd c.mask i).all (fun p => (SMap.get (fun _ => Slot.empty) (c.chunk i).slots p.1).count == c.took i))

/-! ### Rounding out -/

/-- The lowest rank party `k` gave for chunk i. -/
def ChunkSt.rankOf (k : ChunkSt) (party : Nat) : Nat := ((k.got.find? (fun g => g.1 == party)).map (·.2.2)).getD 0

/-- The tree sum of place `j` of an ordered chunk (R108 to R111): its leaves in rank order; the second answer counts NaNs generated. -/
def ChunkSt.treeSum (k : ChunkSt) (wide : Bool) (j : Nat) : Nat × Nat :=
  let ls := sortBy (fun a b => decide (k.rankOf a.1 ≤ k.rankOf b.1)) k.leaves
  orderedSum wide (ls.map (fun l => l.2.getD j 0))

/-- The slot of a chunk. -/
def ChunkSt.slot (k : ChunkSt) (n : Nat) : Slot := SMap.get (fun _ => Slot.empty) k.slots n

/-- Does place `j` (slot `slot`) round out by its slot: in exact mode, and in ordered mode where an error of the store has poisoned it (R114)? -/
def Coll.bySlot (c : Coll) (k : ChunkSt) (slot : Nat) : Bool := !c.ordered || (k.slot slot).flags.poisoned

/-- Round place `j` (slot `slot`) of a chunk out to a format (R98, R113). -/
def Coll.roundPlace (c : Coll) (k : ChunkSt) (e : Exact) (j slot : Nat) (t : Fmt) (mode r : Nat) : LaneRes × Nat :=
  if c.bySlot k slot then ((k.slot slot).roundOut e t mode r, 0)
  else
    let w := k.treeSum (e == .c2176) j
    (laneCvt (builtinFmt (if e = .c2176 then 0 else 1)) t mode r ⟨w.1, false⟩, w.2)

/-- The exact value of place `j` (slot `slot`), which an MX block is encoded from in one rounding (R55, R71), with the cause its slot originates as a
NaN (R614) and the NaNs its tree generated. -/
def Coll.placeVal (c : Coll) (k : ChunkSt) (e : Exact) (j slot : Nat) : Val × LaneRes × Nat :=
  if c.bySlot k slot then
    let z := k.slot slot
    let v := z.value e
    (v, ⟨0, false, if v.isNan then z.nanCause false else 0, 1⟩, 0)
  else
    let w := k.treeSum (e == .c2176) j
    ((builtinFmt (if e = .c2176 then 0 else 1)).decode w.1, ⟨0, false, 0, 0⟩, w.2)

/-- The records or sums of chunk i for the parent (R94, R95, R111), with the records counted. -/
def State.partialData (s : State) (x i : Nat) : List Byte × State :=
  match s.coll x with
  | none => ([], s)
  | some c =>
    let e := exactOf (s.fmt c.cmd.fmtIn)
    let k := c.chunk i
    let places := s.places c.cmd c.mask i
    let w := if e = .c2176 then 8 else 4
    let first := i * s.perChunk c.cmd
    if c.ordered then
      let f := builtinFmt (if e = .c2176 then 0 else 1)
      let sums := (places.zipIdx).map (fun p =>
        if c.bySlot k p.1.1 then (((k.slot p.1.1).roundOut e f 0 0).bits, 0) else k.treeSum (e == .c2176) p.2)
      (sums.flatMap (fun v => leBytes v.1 w), s.origins (some x) ((places.zip sums).flatMap (fun p =>
        List.replicate p.2.2 (s.builtinOrigin c i (p.1.2 - first) 0 1 1 (if e = .c2176 then 0 else 1) 0x40 0xFF false))))
    else places.foldl (fun (st : List Byte × State) p =>
      let z := (SMap.get (fun _ => Slot.empty) k.slots p.1).encode e
      let t := if z.1.len = 3 then st.2.inc F.CIS_PART_COUNT_compact else st.2.inc F.CIS_PART_COUNT_full
      (st.1 ++ z.1.bytes, if z.2.2 then t.overflowTrap (some x) i (p.2 - first) ((t.builtinUnit c (p.2 - first)).1 / 8) e.code 2 else t)) ([], s)

/-! ### Result payloads -/

/-- Does a command's result stream carry MX blocks (R68)? With an output format that is no MX element format it is a plain stream (log entry 58). -/
def Cmd.mxOut (c : Cmd) : Bool := c.mx && 4 ≤ c.fmtOut && c.fmtOut ≤ 8

/-- What a slot of a result payload holds: the lane a plain stream sends, or the exact value an MX block is encoded from. -/
inductive OutVal where
  | lane (l : Lane)
  | exact (v : Val)

/-- The lane of a slot; an MX stream has none. -/
def OutVal.toLane : OutVal → Lane
  | .lane l => l
  | .exact _ => ⟨0, false⟩

/-- The exact value of a slot; a plain stream has none. -/
def OutVal.toVal : OutVal → Val
  | .exact v => v
  | .lane _ => .fin false 0 0

/-- A slot that holds +0 (R123). -/
def OutVal.none_ (mx : Bool) : OutVal := if mx then .exact (.fin false 0 0) else .lane ⟨0, false⟩

/-- A result payload: its values in slot order; for a compressed stream the maps of its groups. An MX result is encoded from the exact values, in
one rounding (R55, R71). The third answer is the MX encoder's origins. -/
def State.packResult (s : State) (c : Cmd) (maps : List Nat) (rs : List Nat) (lanes : List OutVal) : List Byte × Bool × List (Nat × Nat × Nat) :=
  let f := s.fmt c.fmtOut
  let pois := lanes.any (fun l => l.toLane.pois)
  let vals := fun (l : List OutVal) (rs : List Nat) =>
    if c.mxOut then encodeMxVals f c.rnd rs (l.map (fun x => (x.toVal, false)))
    else (packElems f.width (l.map (fun x => sendElem f x.toLane.bits)), [])
  if c.sparse then
    let w := 64 * layN c.lay
    let bs := (pieces 64 ((maps.length + 63) / 64) maps).zipIdx
    let es := bs.map (fun b => (b, vals ((lanes.drop (w * b.2)).take w) ((rs.drop (w * b.2)).take w)))
    (es.flatMap (fun e => packElems (layG c.lay) (padMaps e.1.1) ++ e.2.1), pois,
      es.flatMap (fun e => e.2.2.map (fun o => (w * e.1.2 + o.1, o.2))))
  else
    let e := vals lanes rs
    (e.1, pois, e.2)
where
  /-- The 64 maps of a block. -/
  padMaps (l : List Nat) : List Nat := l ++ List.replicate (64 - l.length) 0

/-- Values in slot order from those at some slots; the others hold `d`. -/
def atSlots {α : Type} (n : Nat) (d : α) (l : List (Nat × α)) : List α :=
  (List.range n).map (fun j => ((l.find? (fun p => p.1 == j)).map (·.2)).getD d)

/-- Slots of chunk i. -/
def State.slotsOf (s : State) (c : Cmd) (i : Nat) : Nat :=
  if c.sparse then 64 * layN c.lay * s.chunkBlocks c i else s.chunkLen c i

/-- The origins of one rounded place (R113, R197): the additions of an ordered sum are CACC's, the round-out is the cistern's. -/
def State.roundOrigins (s : State) (c : Coll) (i q : Nat) (e : Exact) (fmt : Nat) (r : LaneRes × Nat) : List Origin :=
  List.replicate r.2 (s.builtinOrigin c i q 0 1 1 (if e = .c2176 then 0 else 1) 0x40 0xFF false) ++
    (if r.1.cause = 0 then [] else [s.builtinOrigin c i q 2 r.1.cause r.1.code fmt 0x42 0xFF false])

/-- Round chunk i of a reduction out at its root: the payload, whether it carries poison, the origins (R98, R195, R336). -/
def State.roundChunk (s : State) (x i : Nat) : List Byte × Bool × State :=
  match s.coll x with
  | none => ([], false, s)
  | some c =>
    let cmd := c.cmd
    let e := exactOf (s.fmt cmd.fmtIn)
    let k := c.chunk i
    let places := s.places cmd c.mask i
    let t := s.fmt cmd.fmtOut
    let key := s.slotKeyOf (bits cmd.arg1 16 8)
    let gen := fun (pos : Nat) => rndOf cmd.rnd key cmd.arg0 c.step pos
    let res := (places.zipIdx).map (fun p =>
      if cmd.mxOut then
        let v := c.placeVal k e p.2 p.1.1
        (p.1, OutVal.exact v.1, v.2)
      else
        let r := c.roundPlace k e p.2 p.1.1 t cmd.rnd (gen p.1.2)
        (p.1, OutVal.lane r.1.lane, r))
    let g := layG cmd.lay
    let maps := if cmd.sparse then (List.range (64 * s.chunkBlocks cmd i)).map (fun q =>
      s.operandMap cmd c.mask (i * s.perChunk cmd / g + q)) else []
    let n := s.slotsOf cmd i
    let rs := atSlots n 0 (res.map (fun r => (r.1.1, gen r.1.2)))
    let out := s.packResult cmd maps rs (atSlots n (OutVal.none_ cmd.mxOut) (res.map (fun r => (r.1.1, r.2.1))))
    let first := i * s.perChunk cmd
    let os := res.flatMap (fun r => s.roundOrigins c i (r.1.2 - first) e cmd.fmtOut r.2.2)
    (out.1, out.2.1, s.origins (some x) (os ++ out.2.2.map (fun o => s.builtinOrigin c i (slotPos cmd places first o.1) 2 o.2.1 o.2.2 cmd.fmtOut
      0x42 0xFF true)))

end Sys2Proof.Machine
end

