-- ==== Sys2Proof/Machine/NorUpdate.lean ====
section
/-!
DEFINITION. The noria update (R302 to R313, R319): running the lists of a rule over the elements of a shard, the reductions, clipping, pruning, the
output weights, and embedding updates.
-/
namespace Sys2Proof.Machine
open Sys2Proof

/-! ### Running a list (R299, R300) -/

/-- What a list run holds: the temporaries, the scalars, the planes written (36–38, 58), the entries into reductions (target, value, inexact), the
origins (op, format, result). -/
structure Run where
  e    : List Val
  q    : List Val
  out  : List (Nat × Val)
  accs : List (Nat × Val × Bool)
  os   : List (Nat × Nat × LaneRes)

/-- Zero. -/
def zeroVal : Val := .fin false 0 0

/-- A natural number as a value. -/
def ofNatVal (n : Nat) : Val := .fin false n 0

/-- Read a selector: `fixed` gives those the list does not write. -/
def Run.rd (fixed : Nat → Val) (ks : List Nat) (r : Run) (x : Nat) : Val :=
  if x < 8 then r.e.getD x zeroVal
  else if x < 16 then (builtinFmt 0).decode (ks.getD (x - 8) 0)
  else if x < 24 then r.q.getD (x - 16) zeroVal
  else if x = 24 then .fin false 1 0
  else if x = 25 then zeroVal
  else match r.out.find? (fun p => p.1 == x) with
    | some p => p.2
    | none => fixed x

/-- Write a selector. -/
def Run.wr (r : Run) (x : Nat) (v : Val) : Run :=
  if x < 8 then { r with e := r.e.set x v }
  else if x < 24 then { r with q := r.q.set (x - 16) v }
  else { r with out := (x, v) :: r.out.filter (fun p => p.1 != x) }

/-- a × a rounded once to binary64 with its inexact mark (R191). -/
def sqVal (a : Val) : Val × Bool :=
  match mulVal a a with
  | some (.fin n m e) =>
    let v := (builtinFmt 0).decode ((builtinFmt 0).roundFloat 0 0 n m e).bits
    (v, decide (cmpVal v (.fin n m e) ≠ 0))
  | some v => (v, false)
  | none => (.nan 1, false)

/-- The table index of a micro-step's format: 1 binary32, 0 binary64. -/
def mfmt (m : MStep) : Fmt := builtinFmt (if m.fmt = 1 then 1 else 0)

/-- One micro-step. SEL moves its operand with no rounding (Table 09-7); one that a plane's format cannot hold is rounded as the plane is written
(log entry 59). -/
def runStep (fixed : Nat → Val) (ks : List Nat) (r : Run) (m : MStep) : Run :=
  let a := r.rd fixed ks m.a
  if m.op = 0x10 then { r with accs := r.accs ++ [(m.d, a, false)] }
  else if m.op = 0x11 then { r with accs := r.accs ++ [(m.d, sqVal a)] }
  else
    let b := r.rd fixed ks m.b
    let c := r.rd fixed ks m.c
    if m.op = 0x0D then r.wr m.d (if aboveZero a then b else c)
    else
      let res := mstepRes (mfmt m) m.op m.rnd a b c
      let r := r.wr m.d ((mfmt m).decode res.bits)
      if res.cause = 0 then r else { r with os := r.os ++ [(m.op, m.fmt, res)] }

/-- Run a list from temporaries `e` and scalars `q`. -/
def runList (fixed : Nat → Val) (ks : List Nat) (e q : List Val) (l : List MStep) : Run :=
  l.foldl (runStep fixed ks) ⟨e, q, [], [], []⟩

/-- What the temporaries of run `n` of a pass hold before a step writes them: the spec gives no value (log entry 21). -/
def freshTemps (base n : Nat) : List Val :=
  (List.range 8).map (fun j => (builtinFmt 0).decode (Config.freeValue (base + 8 * n + j) % 2 ^ 64))

/-! ### Planes -/

/-- The format of plane `p` of a shard. -/
def Shard.planeFmt (h : Shard) (p : Nat) : Fmt := builtinFmt (if p = 0 then h.record.wfmt else h.record.sfmt)

/-- The place of entry `i` of plane `p` in a copy. -/
def Shard.entryAddr (h : Shard) (copy p i : Nat) : Nat := h.record.base copy + h.planeOff p + i * ((h.planeFmt p).width / 8)

/-- Read an entry of a memory level in a format; a poisoned line reads as the poison value (R466). -/
def State.valAt (s : State) (level addr : Nat) (f : Fmt) : Val :=
  let b := s.memRd level addr (f.width / 8)
  if b.any (·.2) then .nan 1 else f.decode (leNat (b.map (·.1)))

/-- The trap code of a NaN that an entry of a memory level holds; none for a poisoned line, whose NaN is the error's (R466). -/
def State.nanAt (s : State) (level addr : Nat) (f : Fmt) : Option Nat :=
  let b := s.memRd level addr (f.width / 8)
  if b.any (·.2) then none else nanAmong [f.decode (leNat (b.map (·.1)))]

/-- Read entry `i` of plane `p` of a copy. -/
def State.planeVal (s : State) (h : Shard) (copy p i : Nat) : Val := s.valAt h.record.level (h.entryAddr copy p i) (h.planeFmt p)

/-- The bits of a value the format holds. -/
def bitsOf (f : Fmt) (v : Val) : Nat := (f.store 0 0 v 0).bits

/-- Write entry `i` of plane `p` of a copy. -/
def State.putPlane (s : State) (h : Shard) (copy p i : Nat) (v : Val) : State :=
  s.memWr h.record.level (h.entryAddr copy p i) (leBytes (bitsOf (h.planeFmt p) v) ((h.planeFmt p).width / 8))

/-- Copy a whole plane from the live copy to the shadow. -/
def State.copyPlane (s : State) (h : Shard) (p : Nat) : State :=
  s.memWr h.record.level (h.record.base (1 - h.live) + h.planeOff p)
    (s.memBytes h.record.level (h.record.base h.live + h.planeOff p) ((h.planes).getD p 0))

/-- The mask key of a shard's live copy; none where it has no mask. -/
def Shard.liveMask (h : Shard) : Option Nat := if h.record.hasMask then some (2 * h.record.shard + h.live) else none

/-- Does a mask keep a position (R305)? An update that latched none takes its shard's own live mask (log entry 60); without one every position is
kept. -/
def State.keeps (s : State) (h : Shard) (mask : Option Nat) (pos : Nat) : Bool :=
  match mask <|> h.liveMask with
  | none => true
  | some k => bit (s.maskMap k (pos / h.record.maskG)) (pos % h.record.maskG)

/-- The index of a position in planes W, S1 and S2: with the sparse store the kept positions are counted (R292). -/
def State.planeIndex (s : State) (h : Shard) (pos : Nat) : Nat :=
  if h.record.sparse then ((List.range pos).filter (s.keeps h (some (2 * h.record.shard + h.live)))).length else pos

/-! ### Reductions -/

/-- The reduction slot of a target 59–63 (T0–T2, ROW, COL) for an element's row and column. -/
def redKey (target row col : Nat) : Nat :=
  if target = 62 then 3 + 2 * row else if target = 63 then 4 + 2 * col else target - 59

/-- A reduction rounded once to binary64 (R64), with what the round-out originates (R614). -/
def redOut (m : SMap Slot) (key : Nat) : LaneRes := (SMap.get (fun _ => Slot.empty) m key).roundOut .c2176 (builtinFmt 0) 0 0

/-- The value of a reduction rounded once to binary64. -/
def redVal (m : SMap Slot) (key : Nat) : Val := (builtinFmt 0).decode (redOut m key).bits

/-- Enter a run's accumulations in the reduction slots. -/
def State.enterAccs (s : State) (x : Nat) (m : SMap Slot) (row col cluster : Nat) (accs : List (Nat × Val × Bool)) : State × SMap Slot :=
  accs.foldl (fun st a =>
    let key := redKey a.1 row col
    let r := (SMap.get (fun _ => Slot.empty) st.2 key).enter .c2176 a.2.1 false a.2.2
    (if r.ovfNow then st.1.overflowTrap (some x) 0 0 cluster Exact.c2176.code 0 else st.1,
      SMap.set (fun _ => Slot.empty) st.2 key r.slot)) (s, m)

/-! ### Origins and mismatches (R290) -/

/-- The origins of a run at a pipeline (Table 02-16). -/
def runOrigins (pipe chunk elem : Nat) (os : List (Nat × Nat × LaneRes)) : List Origin :=
  os.map (fun o => ⟨o.2.2.cause, o.2.2.code, false, 1, pipe, 0, elem % 8, o.2.1, o.1, 0xFF, chunk, elem⟩)

/-- The origins of round-outs to a format at a cluster (R614). -/
def outOrigins (cluster chunk elem fmt : Nat) (l : List LaneRes) : List Origin :=
  l.filterMap (fun r => if r.cause = 0 then none
    else some ⟨r.cause, r.code, false, 2, cluster, 0, elem % 128, fmt, 0x42, 0xFF, chunk, elem⟩)

/-- The origins of NaNs a list decodes from live planes (R49, R72, log entry 61), each once, under the first micro-step that reads its selector:
(selector, format, trap code where it holds a NaN). -/
def inputOrigins (pipe chunk elem : Nat) (l : List MStep) (ins : List (Nat × Nat × Option Nat)) : List Origin :=
  ins.filterMap (fun i => match i.2.2, l.find? (fun m => m.reads.contains i.1) with
    | some t, some m => some ⟨3, t, false, 1, pipe, 0, elem % 8, i.2.1, m.op, 0xFF, chunk, elem⟩
    | _, _ => none)

/-- Does a list read a selector? -/
def listReads (l : List MStep) (x : Nat) : Bool := l.any (fun m => m.reads.contains x)

/-! ### Passes -/

/-- What a pass works on: its context, command, fuse state, shard and rule, the mismatches it meets, and the origins it has had so far. -/
structure Job where
  x    : Nat
  c    : Coll
  f    : FuseSt
  h    : Shard
  r    : Rule
  miss : List Miss
  os   : List Origin

namespace Job
/-- The columns of a factored shard, at least 1. -/
def cols (j : Job) : Nat := max 1 j.h.record.cols
/-- The pipeline of the scalar, row and column lists: that of the first engine's cluster (log entry 22). -/
def pipe (j : Job) : Nat := j.c.cluster
/-- Element `i` of list `k` of a batch that failed three times (R290): is it a failing one? -/
def lost (j : Job) (k i : Nat) : Bool :=
  j.miss.any (fun m => m.list == k && m.batch == i / 8 && decide (m.fails ≥ 3) && bit m.bad (i % 8))
/-- The job with further origins. -/
def note (j : Job) (l : List Origin) : Job := { j with os := j.os ++ l }
/-- The scalars. -/
def qs (j : Job) : List Val := j.f.qs.map (builtinFmt 0).decode
end Job

/-- The pipeline of a position: that of the cluster whose engine rounds it out (R289). -/
def State.pipeAt (s : State) (j : Job) (pos : Nat) : Nat := (s.builtinUnit j.c (pos % s.perChunk j.c.cmd)).1 / 8

/-- Count, log and report the mismatches of a pass (R290): a batch that fails up to twice has as many recovered mismatches; of one that fails three
times the third is unrecovered. -/
def State.norMisses (s : State) (j : Job) : State :=
  j.miss.foldl (fun s m =>
    let pipe := if m.list = 3 then s.pipeAt j (8 * m.batch) else j.pipe
    let n := min 3 m.fails
    let s := (List.range n).foldl (fun s k =>
      let s := (s.inc F.NOR_RES_COUNT_mismatch).journalPut 1 (if k = 2 then 2 else 1) (136 + 9 * pipe) (s.sluiceTemp (pipe / 2))
        (s.sluiceMv (pipe / 2)) m.sig 0
      if n = 3 then s else s.pert 11) s
    if n = 3 then ((s.inc F.NOR_RES_COUNT_unrec).faultReport 5 pipe 0 (8 * m.batch)).bitEvent (s.stepOf (some j.x)) 1 else s) s

/-- The sum of squares S of a norm set's total slot (R309). -/
def Norm.total (n : Norm) : Slot :=
  let own := n.sent.getD Slot.empty
  n.parts.foldl (fun z p => (z.merge .c2176 p.2).slot) own

/-- S as the scalar list reads it, with what its round-out originates. -/
def State.normOut (s : State) (h : Shard) : LaneRes :=
  match s.nor.norms.find h.record.nset with
  | some n => n.total.roundOut .c2176 (builtinFmt 0) 0 0
  | none => ⟨0, false, 0, 0⟩

/-- The selectors a scalar, row or column list reads beside its own: `red`, `v` for a row or column. -/
def State.listEnv (s : State) (j : Job) (red v : Val) (x : Nat) : Val :=
  if x = 48 then (builtinFmt 0).decode (bitsOf (builtinFmt 0) (ofNatVal (j.h.t + 1)))
  else if x = 49 then (builtinFmt 0).decode (s.normOut j.h).bits
  else if 50 ≤ x ∧ x ≤ 52 then redVal j.f.slots (x - 50)
  else if x = 53 then ofNatVal j.h.record.rows
  else if x = 54 then ofNatVal j.h.record.cols
  else if x = 55 then ofNatVal j.h.record.n
  else if x = 56 then red
  else if x = 57 then v
  else zeroVal

/-- Put the fuse state of a job back. -/
def State.putFuse (s : State) (x : Nat) (f : FuseSt) : State :=
  match s.coll x with
  | some c => s.putColl x { c with fuse := some f }
  | none => s

/-- The round-outs a scalar list reads: S and T0 to T2. -/
def State.scalarOuts (s : State) (j : Job) (l : List MStep) : List LaneRes :=
  (if listReads l 49 then [s.normOut j.h] else []) ++
    (([0, 1, 2].filter (fun k => listReads l (50 + k))).map (redOut j.f.slots))

/-- The scalar, row and column lists of a pass (R305), once each row and column. A failing element of a batch that failed three times leaves the
poison value in what its list writes (R290). -/
def State.runHeads (s : State) (j : Job) (p : Nat) : State × Job :=
  let base := s.fresh
  let s := { s with fresh := s.fresh + 8 * (1 + j.h.record.rows + j.h.record.cols) }
  let l := j.r.list p 0
  let r := runList (s.listEnv j zeroVal zeroVal) j.r.ks (freshTemps base 0) j.qs l
  let j := j.note (outOrigins j.pipe 0 0 0 (s.scalarOuts j l) ++ runOrigins j.pipe 0 0 r.os)
  let a := s.enterAccs j.x j.f.slots 0 0 j.pipe r.accs
  let q := (r.q.zipIdx).map (fun v => if j.lost 0 0 && l.any (fun m => m.d == 16 + v.2) then (Val.nan 6) else v.1)
  let j := { j with f := { j.f with qs := q.map (bitsOf (builtinFmt 0)), slots := a.2 } }
  let side := fun (st : State × Job) (kind i : Nat) =>
    let s := st.1
    let j := st.2
    let plane := 2 + kind
    let l := j.r.list p kind
    if l.isEmpty then st
    else
      let key := redKey (61 + kind) i i
      let r := runList (s.listEnv j (redVal j.f.slots key) (s.planeVal j.h j.h.live plane i)) j.r.ks
        (freshTemps base (1 + i + (if kind = 2 then j.h.record.rows else 0))) j.qs l
      let f := j.h.planeFmt plane
      let j := j.note (outOrigins j.pipe 0 i 0 (if listReads l 56 then [redOut j.f.slots key] else []) ++
        inputOrigins j.pipe 0 i l [(57, f.idx, s.nanAt j.h.record.level (j.h.entryAddr j.h.live plane i) f)] ++ runOrigins j.pipe 0 i r.os)
      let s := match r.out.find? (fun q => q.1 == 58) with
        | some q => s.putPlane j.h (1 - j.h.live) plane i (if j.lost kind i then .nan 6 else q.2)
        | none => s
      let a := s.enterAccs j.x j.f.slots i i j.pipe r.accs
      (a.1, { j with f := { j.f with slots := a.2 } })
  let st := (List.range j.h.record.rows).foldl (fun st i => side st 1 i) (a.1, j)
  (List.range j.h.record.cols).foldl (fun st i => side st 2 i) st

/-- G of an element (R305, R309). -/
def clipG (f : Fmt) (clip : Bool) (k : Nat) (g : Val) : Val :=
  if clip then
    match nanAmong [g] with
    | some t => .nan t
    | none => f.decode (f.finish 0 0 (mulVal g ((builtinFmt 0).decode k))).bits
  else g

/-- The element list of a pass at one kept position: the shadow planes it writes and the reductions it enters. -/
def State.runElem (p base : Nat) (st : State × Job) (e : Nat × Val) : State × Job :=
  let s := st.1
  let j := st.2
  let pos := e.1
  let i := s.planeIndex j.h pos
  let live := j.h.live
  let row := pos / j.cols
  let col := pos % j.cols
  let wf := builtinFmt j.h.record.wfmt
  let pipe := s.pipeAt j pos
  let l := j.r.list p 3
  let fixed := fun (x : Nat) =>
    if x = 32 then clipG wf j.r.clip j.f.k e.2
    else if 33 ≤ x ∧ x ≤ 35 then s.planeVal j.h live (x - 33) i
    else if 36 ≤ x ∧ x ≤ 38 then s.planeVal j.h (1 - live) (x - 36) i
    else if x = 39 then s.planeVal j.h (1 - live) 3 row
    else if x = 40 then s.planeVal j.h (1 - live) 4 col
    else zeroVal
  let r := runList fixed j.r.ks (freshTemps base pos) j.qs l
  let ins := (List.range (1 + j.h.record.nstate)).map (fun k => (33 + k, (j.h.planeFmt k).idx,
    s.nanAt j.h.record.level (j.h.entryAddr live k i) (j.h.planeFmt k)))
  let chunk := pos / s.perChunk j.c.cmd
  let elem := pos % s.perChunk j.c.cmd
  let j := j.note (inputOrigins pipe chunk elem l ins ++ runOrigins pipe chunk elem r.os)
  let s := r.out.foldl (fun s q =>
    if 36 ≤ q.1 ∧ q.1 ≤ 38 then s.putPlane j.h (1 - live) (q.1 - 36) i (if j.lost 3 pos then .nan 6 else q.2) else s) s
  let a := s.enterAccs j.x j.f.slots row col pipe r.accs
  (a.1, { j with f := { j.f with slots := a.2 } })

/-- The element list of pass `p` over elements with their gradients. -/
def State.runElems (s : State) (j : Job) (p : Nat) (l : List (Nat × Val)) : State × Job :=
  let base := s.fresh
  let s := { s with fresh := s.fresh + 8 * (j.h.record.n + 1) }
  (l.filter (fun e => s.keeps j.h j.f.mask e.1)).foldl (State.runElem p base) (s, j)

/-! ### After the last element list (R306, R313) -/

/-- A position the element lists skip keeps its planes (R306); with the sparse store it has none. -/
def State.keepOld (s : State) (h : Shard) (pos : Nat) : State :=
  if h.record.sparse then s
  else (List.range (1 + h.record.nstate)).foldl (fun s p => s.putPlane h (1 - h.live) p pos (s.planeVal h h.live p pos)) s

/-- Set the map of a group in the shadow's mask plane. -/
def State.putMap (s : State) (h : Shard) (g map : Nat) : State :=
  let m := h.record.maskG
  let a := h.record.base (1 - h.live) + h.planeOff 5 + g * m / 8
  let old := ((s.memBytes h.record.level a 1).headD 0).toNat
  let lo := g * m % 8
  s.memWr h.record.level a [BitVec.ofNat 8 (old - bits old lo m <<< lo + (map % 2 ^ m) <<< lo)]

/-- The pruning unit on one group (R313, R222): its new map, and +0 moments where the old map did not keep. -/
def State.pruneGroup (s : State) (j : Job) (g : Nat) : State :=
  let h := j.h
  let m := h.record.maskG
  let wf := h.planeFmt 0
  let n := min m (h.record.n - g * m)
  let map := pruneMap (layN h.record.layout) n (fun i =>
    pruneMag wf ⟨bitsOf wf (s.planeVal h (1 - h.live) 0 (g * m + i)), false⟩)
  let old := s.latchedMap h.liveMask g
  let s := s.putMap h g map
  ((List.range n).filter (fun i => bit map i && !bit old i)).foldl (fun s i =>
    (List.range h.record.nstate).foldl (fun s p => s.putPlane h (1 - h.live) (1 + p) (g * m + i) zeroVal) s) s

/-- Does the update refresh the mask (R302)? -/
def Cmd.refresh (c : Cmd) : Bool := bit c.arg1 24

/-- The output weights of chunk i (R306): its positions' W′ in fmt_out, compressed when flags.sparse is 1, under the new maps where the update refreshes
them and else under the live ones (R313). -/
def State.fuseOutput (s : State) (j : Job) (copy i : Nat) : State :=
  let cmd := j.c.cmd
  let h := j.h
  let per := s.perChunk cmd
  let first := i * per
  let t := s.fmt cmd.fmtOut
  let key := s.slotKeyOf h.record.seed
  let gen := fun pos => rndOf cmd.rnd key h.record.tensorId j.c.step pos
  let mk := 2 * h.record.shard + (if cmd.refresh then copy else h.live)
  let g := layG cmd.lay
  let weight := fun pos => if h.record.sparse && !s.keeps h (some mk) pos then zeroVal else s.planeVal h copy 0 (s.planeIndex h pos)
  let wf := h.planeFmt 0
  let conv := fun pos => if cmd.mxOut then (⟨0, false, 0, 0⟩, OutVal.exact (weight pos))
    else
      let r := laneCvt wf t cmd.rnd (gen pos) ⟨bitsOf wf (weight pos), false⟩
      (r, OutVal.lane r.lane)
  let places := if cmd.sparse then s.places cmd (some mk) i else (List.range (s.chunkLen cmd i)).map (fun k => (k, first + k))
  let res := places.map (fun p => (p, conv p.2))
  let maps := if cmd.sparse then (List.range (64 * s.chunkBlocks cmd i)).map (fun q => s.operandMap cmd (some mk) (first / g + q)) else []
  let n := s.slotsOf cmd i
  let rs := atSlots n 0 (res.map (fun r => (r.1.1, gen r.1.2)))
  let out := s.packResult cmd maps rs (atSlots n (OutVal.none_ cmd.mxOut) (res.map (fun r => (r.1.1, r.2.2))))
  let og := fun (slot cause code : Nat) (enc : Bool) =>
    let q := slotPos cmd places first slot
    (⟨cause, code, enc, 1, s.pipeAt j (first + q), 0, q % 8, cmd.fmtOut, 0, 0xFF, i, q⟩ : Origin)
  let s := s.origins (some j.x) (res.filterMap (fun r => if r.2.1.cause = 0 then none else some (og r.1.1 r.2.1.cause r.2.1.code false)) ++
    out.2.2.map (fun o => og o.1 o.2.1 o.2.2 true))
  s.keepResult j.x i out.1 out.2.1 false

/-- What follows the last element list for the positions of chunk i: skipped positions keep their state, the pruning unit acts, and the output
weights leave. -/
def State.finishChunk (s : State) (j : Job) (i : Nat) : State :=
  let per := s.perChunk j.c.cmd
  let ps := (List.range (s.chunkLen j.c.cmd i)).map (i * per + ·)
  let s := (ps.filter (fun p => !s.keeps j.h j.f.mask p)).foldl (fun s p => s.keepOld j.h p) s
  let m := j.h.record.maskG
  let s := if j.c.cmd.refresh then
      ((ps.filter (fun p => p % m == 0)).map (· / m)).foldl (fun s g => s.pruneGroup j g) s
    else s
  s.fuseOutput j (1 - j.h.live) i

/-- The mask version the shadow holds after the update, and the live plane copied into it where refresh is 0 and the versions differ (R313). -/
def State.shadowMask (s : State) (j : Job) : State :=
  let h := j.h
  if !h.record.hasMask then s
  else
    let v := if j.c.cmd.refresh then (h.ver h.live + 1) % 2 ^ 32 else h.ver h.live
    let s := if !j.c.cmd.refresh ∧ h.ver (1 - h.live) ≠ h.ver h.live then s.copyPlane h 5 else s
    match s.shard h.record.shard with
    | some h1 => s.putShard h.record.shard (if h.live = 0 then { h1 with ver1 := v } else { h1 with ver0 := v })
    | none => s

/-! ### The jobs of a collective -/

/-- The chunks whose tree has its root here: the update takes its gradients from them. -/
def State.rootChunks (s : State) (c : Coll) : List Nat :=
  (List.range (s.chunksIn c.cmd)).filter (fun i => (s.groupOf c).parent (i % 2) == 0)

/-- The job of a collective's update. -/
def State.job (s : State) (x : Nat) (miss : List Miss) : Option Job :=
  match s.coll x with
  | none => none
  | some c => match c.fuse with
    | none => none
    | some f => match s.shard f.shard with
      | none => none
      | some h => some ⟨x, c, f, h, ruleOf (ruleBytes s.nor.rules f.rule), miss, []⟩

/-- Is the update streamed (R305)? -/
def Job.streamed (j : Job) : Bool := j.r.passes == 1 && !j.r.clip

/-- Stage the gradient of a position (R305). -/
def State.stage (s : State) (h : Shard) (pos g : Nat) : State :=
  s.memWr h.record.stageLevel (h.record.stageBase + pos * h.record.wBytes) (leBytes g h.record.wBytes)

/-- The staged gradient of a position. -/
def State.staged (s : State) (h : Shard) (pos : Nat) : Val :=
  s.valAt h.record.stageLevel (h.record.stageBase + pos * h.record.wBytes) (builtinFmt h.record.wfmt)

/-- Enter the squares of chunk i in its norm slot, in place of what the slot held (R308, R311). -/
def State.enterSquares (s : State) (j : Job) (i : Nat) (l : List (Nat × Nat)) : State :=
  let h := j.h
  match s.nor.norms.find h.record.nset with
  | none => s
  | some n =>
    let key := h.record.shard * 2 ^ 32 + i
    let z := l.foldl (fun z e =>
      let q := sqVal ((builtinFmt h.record.wfmt).decode e.2)
      (z.enter .c2176 q.1 false q.2).slot) Slot.empty
    { s with nor.norms := s.nor.norms.put h.record.nset { n with squares := SMap.set (fun _ => Slot.empty) n.squares key z } }

/-! ### Norm sets (R307, R308) -/

/-- The contexts of the pending clipped updates of a norm set in its step. -/
def State.normMembers (s : State) (set : Nat) : List (Nat × Coll × FuseSt × Shard) :=
  (s.cp.colls.items).filterMap (fun p => match p.2.fuse with
    | some f => match s.shard f.shard with
      | some h => if h.record.nset = set && (ruleOf (ruleBytes s.nor.rules f.rule)).clip then some (p.1, p.2, f, h) else none
      | none => none
    | none => none)

/-- The member shards of a norm set on this module. -/
def State.normShards (s : State) (set : Nat) : List (Nat × Shard) := s.nor.shards.items.filter (fun p => p.2.record.nset == set)

/-- Have all members an accepted clipped update of the step with every gradient chunk entered (R308)? A member UPDATED by one in the step has. -/
def State.normReady (s : State) (set step : Nat) : Bool :=
  (s.normShards set).all (fun p => (p.2.st == 3 && p.2.step == step && p.2.clip) || (s.normMembers set).any (fun m =>
    m.2.2.1.shard == p.1 && m.2.1.step == step && (s.rootChunks m.2.1).all (fun i => m.2.2.1.fed.contains i)))

/-- The members' squares merged in one local slot. -/
def Norm.local_ (n : Norm) : Slot :=
  n.squares.foldl (fun z p => (z.merge .c2176 (p.2.encode .c2176).1).slot) Slot.empty

/-- Send NORM_PART to every peer (Table 09-9); `re` marks a replacement (R311). -/
def State.normSend (s : State) (set : Nat) (n : Norm) (z : Slot) (re : Bool) : State :=
  n.peers.foldl (fun s m => s.emit (.msg (moduleAddr m) clsC (leBytes (packBits [(0, 8, if re then 0xA0 else 0x20), (8, 8, set), (16, 16, s.me),
    (64, 64, n.step)]) 16 ++ (z.encode .c2176).1.bytes))) s

/-- Is the norm complete: the local slot sent, not to be sent again, and every peer's record merged? -/
def Norm.complete (n : Norm) : Bool := n.sent.isSome && !n.stale && n.peers.all (fun m => n.parts.any (fun p => p.1 == m))

/-- Is a slot's norm non-finite (R310)? -/
def Slot.nonFinite (z : Slot) : Bool := z.flags.pinf || z.flags.ninf || z.flags.nan || z.flags.poisoned

/-- The clip factor k as binary64 bits (R309, R310). -/
def Norm.factor (n : Norm) : Nat :=
  let b := builtinFmt 0
  let one := bitsOf b (.fin false 1 0)
  if n.total.nonFinite then one
  else
    let sum := b.decode (n.total.roundOut .c2176 b 0 0).bits
    let r := b.decode (b.finish 0 0 (sqrtVal sum)).bits
    let q := b.decode (b.finish 0 0 (divVal (b.decode n.thr) r)).bits
    bitsOf b (extremum false (.fin false 1 0) q)

/-- The shards of a set already updated in a step take outcome 2 in its step record (R311). -/
def State.normOutcome (s : State) (set step : Nat) : State :=
  let l := (s.normShards set).map (·.1)
  { s with det.audit.shards := s.det.audit.shards.map (fun e => if e.step = step ∧ l.contains e.shard then { e with outcome := 2 } else e) }

/-- A norm complete again with another factor than the one its updates used (R311). -/
def State.normMoved (s : State) (set : Nat) : State :=
  match s.nor.norms.find set with
  | none => s
  | some n => if n.complete ∧ n.used.isSome ∧ n.used ≠ some n.factor then s.normOutcome set n.step else s

/-- Send the local slot once every member's gradients are entered (R308), and again where one was reopened since (R311). -/
def State.normCheck (s : State) (set : Nat) : State :=
  match s.nor.norms.find set with
  | none => s
  | some n =>
    if !s.normReady set n.step ∨ (s.normShards set).isEmpty ∨ (n.sent.isSome ∧ n.stale = false) then s
    else
      let z := n.local_
      let m := { n with sent := some z, stale := false }
      let m := if n.sent.isSome then m else { m with since := s.turn }
      (({ s with nor.norms := s.nor.norms.put set m }).normSend set n z n.sent.isSome).normMoved set

/-! ### Feeding and running -/

/-- Mark the update's last pass done: the shadow's mask, and the end of the collective's own work. -/
def State.fuseEnd (s : State) (j : Job) : State :=
  let s := s.shadowMask j
  match s.coll j.x with
  | some c => match c.fuse with
    | some f => s.putColl j.x { c with fuse := some { f with ended := true } }
    | none => s
  | none => s

/-- A streamed update's share of chunk i (R305). -/
def State.streamChunk (s : State) (j : Job) (i : Nat) (l : List (Nat × Nat)) : State :=
  let s := s.norMisses j
  let wf := builtinFmt j.h.record.wfmt
  let r := s.runElems j 1 (l.map (fun e => (e.1, wf.decode e.2)))
  let r := (r.1.origins (some j.x) r.2.os, r.2)
  let f := { r.2.f with fed := if r.2.f.fed.contains i then r.2.f.fed else r.2.f.fed ++ [i] }
  let s := (r.1.putFuse j.x f).finishChunk { r.2 with f := f } i
  match s.coll j.x with
  | some c => if (s.rootChunks c).all f.fed.contains then s.fuseEnd { r.2 with f := f } else s
  | none => s

/-- Reduced gradients of chunk i reach the update (R304, R305): (position, bits in wfmt). -/
def State.fuseFeed (s : State) (x i : Nat) (l : List (Nat × Nat)) (miss : List Miss) : State :=
  match s.job x miss with
  | none => s
  | some j =>
    if j.streamed then s.streamChunk j i l
    else
      let s := l.foldl (fun s e => s.stage j.h e.1 e.2) s
      let s := s.putFuse x { j.f with fed := if j.f.fed.contains i then j.f.fed else j.f.fed ++ [i] }
      if j.r.clip then (s.enterSquares j i l).normCheck j.h.record.nset else s

/-- The whole of a skipped update (R310): the shadow is a copy of the live copy and the live weights leave. -/
def State.skipUpdate (s : State) (j : Job) : State :=
  let h := j.h
  let s := (List.range 6).foldl (fun s p => s.copyPlane h p) s
  let s := match s.shard h.record.shard with
    | some h1 => s.putShard h.record.shard (if h.live = 0 then { h1 with ver1 := h.ver0, skipped := true } else { h1 with ver0 := h.ver1, skipped := true })
    | none => s
  let s := (s.rootChunks j.c).foldl (fun s i => s.fuseOutput j h.live i) s
  s.putFuse j.x { j.f with pass := j.r.passes, skipped := true, ended := true }

/-- The kept gradient elements of a job, in index order. -/
def State.jobElems (s : State) (j : Job) : List (Nat × Val) :=
  let per := s.perChunk j.c.cmd
  (s.rootChunks j.c).flatMap (fun i => (List.range (s.chunkLen j.c.cmd i)).map (fun k => (i * per + k, s.staged j.h (i * per + k))))

/-- Pass `p` of an update that is not streamed. -/
def State.runPass (s : State) (j : Job) (p : Nat) : State :=
  let s := s.norMisses j
  let a := s.runHeads j p
  let b := a.1.runElems a.2 p (a.1.jobElems a.2)
  let b := (b.1.origins (some j.x) b.2.os, b.2)
  let j := { b.2 with f := { b.2.f with pass := p } }
  let s := b.1.putFuse j.x j.f
  if p < j.r.passes then s
  else ((s.rootChunks j.c).foldl (fun s i => s.finishChunk j i) s).fuseEnd j

/-! ### Embedding updates (R319) -/

/-- The scatter table of an embedding shard. -/
def State.scatterOf (s : State) (h : Shard) : Option TableRec :=
  if h.record.scatter = 0xFFFF then none
  else (s.binds.find (h.record.scatter % 256)).bind (fun b => b.tables.find (h.record.scatter / 256 % 16))

/-- Where a row record holds column `c` of plane `p`: planes W, S1, S2 one after the other (R293). -/
def Shard.rowAddr (h : Shard) (copy row p c : Nat) : Nat :=
  let off := h.record.cols * (if p = 0 then 0 else h.record.wBytes + (p - 1) * h.record.sBytes)
  h.record.base copy + row * h.record.rowBytes + off + c * ((h.planeFmt p).width / 8)

/-- Read an entry of a row record. -/
def State.rowVal (s : State) (h : Shard) (copy row p c : Nat) : Val := s.valAt h.record.level (h.rowAddr copy row p c) (h.planeFmt p)

/-- Write an entry of a row record. -/
def State.putRowVal (s : State) (h : Shard) (copy row p c : Nat) (v : Val) : State :=
  s.memWr h.record.level (h.rowAddr copy row p c) (leBytes (bitsOf (h.planeFmt p) v) ((h.planeFmt p).width / 8))

/-- One touched row: its slots rounded out and cleared, its elements updated against its live version into the other copy, its bit inverted in the
shadow bitmap. A round-out's NaN is the cistern's origin (R98, R614). -/
def State.updateRow (st : State × Job) (t : TableRec) (base row : Nat) : State × Job :=
  let s := st.1
  let h := st.2.h
  let wf := builtinFmt h.record.wfmt
  let from_ := s.rowCopy h h.live row
  let to_ := 1 - from_
  let r := (List.range h.record.cols).foldl (fun (st : State × Job) c =>
    let s := st.1
    let j := st.2
    let z := (s.scatterRd t row c).roundOut (Exact.ofIdx t.fmt) wf 0 0
    let g := if c < t.cols then wf.decode z.bits else zeroVal
    let s := if c < t.cols then s.scatterWr t row c Slot.empty else s
    let pos := row * h.record.cols + c
    let fixed := fun (x : Nat) => if x = 32 then g else if 33 ≤ x ∧ x ≤ 35 then s.rowVal h from_ row (x - 33) c else zeroVal
    let l := j.r.list 1 3
    let r := runList fixed j.r.ks (freshTemps base pos) j.qs l
    let ins := (List.range (1 + h.record.nstate)).map (fun k => (33 + k, (h.planeFmt k).idx,
      s.nanAt h.record.level (h.rowAddr from_ row k c) (h.planeFmt k)))
    let j := j.note ((if c < t.cols then outOrigins j.pipe 0 pos wf.idx [z] else []) ++ inputOrigins j.pipe 0 pos l ins ++
      runOrigins j.pipe 0 pos r.os)
    let s := (List.range (1 + h.record.nstate)).foldl (fun s p =>
      let v := match r.out.find? (fun q => q.1 == 36 + p) with
        | some q => if j.lost 3 pos then Val.nan 6 else q.2
        | none => s.rowVal h from_ row p c
      s.putRowVal h to_ row p c v) s
    let a := s.enterAccs j.x j.f.slots 0 0 j.pipe r.accs
    (a.1, { j with f := { j.f with slots := a.2 } })) st
  let s := r.1
  let a := h.record.base (1 - h.live) + h.record.bitmapOff + row / 8
  let b := ((s.memBytes h.record.level a 1).headD 0).toNat
  (s.memWr h.record.level a [BitVec.ofNat 8 (b ^^^ 1 <<< (row % 8))], r.2)

/-- A whole embedding update (R319). -/
def State.embedUpdate (s : State) (j : Job) : State :=
  let h := j.h
  let s := s.memWr h.record.level (h.record.base (1 - h.live) + h.record.bitmapOff)
      (s.memBytes h.record.level (h.record.base h.live + h.record.bitmapOff) ((h.record.rows + 7) / 8))
  match s.scatterOf h with
  | none => s.putFuse j.x { j.f with pass := 1, ended := true }
  | some t =>
    let s := s.norMisses j
    let a := s.runHeads j 1
    let s := a.1
    let j := a.2
    let base := s.fresh
    let s := { s with fresh := s.fresh + 8 * (h.record.n + 1) }
    let rows := (List.range h.record.rows).filter (fun r => (List.range (min t.cols h.record.cols)).any (fun c => (s.scatterRd t r c).occ))
    let r := rows.foldl (fun st r => State.updateRow st t base r) (s, j)
    (r.1.origins (some j.x) r.2.os).putFuse j.x { r.2.f with pass := 1, ended := true, rows := rows }

/-- A shard whose refresh begins: until the refresh ends its shadow holds no mask version, so that one halted midway leaves none behind (R126, R313). -/
def Shard.loseShadowMask (h : Shard) (refresh : Bool) : Shard :=
  if !refresh then h else if h.live = 0 then { h with ver1 := 2 ^ 32 } else { h with ver0 := 2 ^ 32 }

/-- A dense update begins (R303, R305): its shard is UPDATING in the command's step, and a streamed update runs the lists ahead of its elements. -/
def State.fuseBegin (s : State) (x : Nat) : State :=
  match s.job x [] with
  | none => s
  | some j =>
    let s := s.putShard j.f.shard { j.h.loseShadowMask j.c.cmd.refresh with st := 2, step := j.c.step, skipped := false, clip := j.r.clip }
    match s.job x [] with
    | none => s
    | some j =>
      if j.streamed && j.f.dense then
        let r := s.runHeads j 1
        (r.1.origins (some x) r.2.os).putFuse x r.2.f
      else s

/-! ### UPDATE_PASS_START -/

/-- The next pass of an update starts (R305) once its gradients are in and, for a clipped rule, its norm is complete (R308). -/
def passStart (x : Nat) (miss : List Miss) (s : State) : State :=
  match s.job x miss with
  | none => s
  | some j =>
    if j.c.phase = 0 ∨ j.f.ended then s
    else if !j.f.dense then (s.embedUpdate j).settle x
    else if j.streamed ∨ !(s.rootChunks j.c).all j.f.fed.contains ∨ j.f.pass ≥ j.r.passes then s
    else if !j.r.clip then (s.runPass j (j.f.pass + 1)).settle x
    else match s.nor.norms.find j.h.record.nset with
      | none => s
      | some n =>
        if !n.complete ∨ n.step ≠ j.c.step then s
        else if n.total.nonFinite ∧ j.r.nfSkip then (s.skipUpdate j).settle x
        else
          let s := { s with nor.norms := s.nor.norms.put j.h.record.nset { n with used := some n.factor } }
          let j := { j with f := { j.f with k := n.factor } }
          (s.runPass j (j.f.pass + 1)).settle x

/-- UPDATE_PASS_START: `miss` lists the batches of 8 elements a check failed in. -/
def execUpdatePassStart (x : Fin 4096) (miss : List Miss) (s : State) : Host.Outcome State Fault Refusal :=
  done (passStart x miss s)

end Sys2Proof.Machine
end

