-- ==== Sys2Proof/Machine/VLogic.lean ====
section
/-!
DEFINITION. The logical, shift, move and predicate instructions (R183 to R186).
-/
namespace Sys2Proof.Machine
open Sys2Proof

/-- A register operand as raw bits: a whole lane of a lane format or a whole 64-bit element, with its poison (R183). -/
def rawElem (k : Nat) (l : List Lane) (i : Nat) : Lane :=
  if is64 k then elemOf (builtinFmt 14) l i else l.getD i ⟨0, false⟩

/-- The shift and logic width of a format (R183, R184). -/
def rawWidth (k : Nat) : Nat := if is64 k then 64 else 32

/-- Operand b as raw bits; a broadcast scalar is one element of the format (R174), and the bits of the lane above it are 0 (log entry 55). -/
def Ctx.rawB (c : Ctx) (fm : Fmt) (vb bs i : Nat) : Lane :=
  if bs = 1 then ⟨c.sc (vb % 16) % 2 ^ fm.width, false⟩ else rawElem fm.idx (c.reg vb) i

/-- Write raw elements: every bit of the lane or element, no widening (R183). -/
def putRaw (k : Nat) (old : List Lane) (new : Nat → Option Lane) : List Lane :=
  putElems (builtinFmt (if is64 k then 14 else 13)) old new

/-- A bitwise or shift instruction over the enabled elements (R183, R184): the result's poison bit is the OR of its operands'. -/
def rawBody (f : LV) (two : Bool) (fn : Nat → Nat → Nat → Nat) (s : State) (c : Ctx) : Act :=
  let k := f.fmt.toNat
  let fm := s.fmt k
  let res := fun i =>
    if c.enabled f.pg.toNat k i then
      let x := rawElem k (c.reg f.va.toNat) i
      let y := c.rawB fm f.vb.toNat f.bs.toNat i
      some (⟨fn (rawWidth k) (x.bits % 2 ^ rawWidth k) y.bits % 2 ^ rawWidth k, x.pois || (two && y.pois)⟩ : Lane)
    else none
  .next s (c.setReg f.vd.toNat (putRaw k (c.reg f.vd.toNat) res)) []

/-- Issue a bitwise instruction. -/
def raw (a : Site) (op : BitVec 8) (f : LV) (two : Bool) (fn : Nat → Nat → Nat → Nat) (s : State) : State :=
  issue a (f.word op) f.fmt.toNat (.vec f.vd.toNat 1 (s.fmt f.fmt.toNat)) (rawBody f two fn) s

/-- VAND (R183). -/
def execVand (a : Site) (f : LV) (s : State) : Host.Outcome State Fault Refusal :=
  done (raw a 0x20 f true (fun _ x y => x &&& y) s)

/-- VOR (R183). -/
def execVor (a : Site) (f : LV) (s : State) : Host.Outcome State Fault Refusal :=
  done (raw a 0x21 f true (fun _ x y => x ||| y) s)

/-- VXOR (R183). -/
def execVxor (a : Site) (f : LV) (s : State) : Host.Outcome State Fault Refusal :=
  done (raw a 0x22 f true (fun _ x y => x ^^^ y) s)

/-- VANDN (R183): a AND NOT b. -/
def execVandn (a : Site) (f : LV) (s : State) : Host.Outcome State Fault Refusal :=
  done (raw a 0x23 f true (fun w x y => x &&& (y % 2 ^ w ^^^ (2 ^ w - 1))) s)

/-! ### Shifts -/

/-- Does the shift take its amount from the word (Table 06-3)? -/
def shiftImm (f : LV) : Bool := bit f.ext.toNat 6

/-- A shift instruction: the amount is imm, or bits [7:0] of the element of operand b (R184). -/
def shift (a : Site) (op : BitVec 8) (f : LV) (fn : Nat → Nat → Nat → Nat) (s : State) : State :=
  raw a op f (!shiftImm f) (fun w x y => fn w x (if shiftImm f then bits f.ext.toNat 0 6 else y % 256)) s

/-- Shift left, zeros from the right; W or more gives 0 (R184, R18). -/
def shl (w x n : Nat) : Nat := if n ≥ w then 0 else x <<< n % 2 ^ w
/-- Shift right, zeros from the left. -/
def shr (w x n : Nat) : Nat := if n ≥ w then 0 else x >>> n
/-- Shift right, copies of the top bit from the left. -/
def sra (w x n : Nat) : Nat := uint w (sint w x >>> min n w)

/-- VSHL (R184). -/
def execVshl (a : Site) (f : LV) (s : State) : Host.Outcome State Fault Refusal := done (shift a 0x24 f shl s)

/-- VSHR (R184). -/
def execVshr (a : Site) (f : LV) (s : State) : Host.Outcome State Fault Refusal := done (shift a 0x25 f shr s)

/-- VSRA (R184). -/
def execVsra (a : Site) (f : LV) (s : State) : Host.Outcome State Fault Refusal := done (shift a 0x26 f sra s)

/-! ### Moves -/

/-- An instruction that moves elements: element `i` of vd is what `new` names, written by R171; a place with none keeps its lanes. -/
def moveBody (f : LV) (new : State → Ctx → Nat → Option Lane) (s : State) (c : Ctx) : Act :=
  .next s (c.setReg f.vd.toNat (putElems (s.fmt f.fmt.toNat) (c.reg f.vd.toNat) (new s c))) []

/-- VMOV (R185): the enabled elements with their poison bits. -/
def execVmov (a : Site) (f : LV) (s : State) : Host.Outcome State Fault Refusal :=
  done (issue a (f.word 0x27) f.fmt.toNat (.vec f.vd.toNat 1 (s.fmt f.fmt.toNat)) (moveBody f (fun s c i =>
    if c.enabled f.pg.toNat f.fmt.toNat i then some (c.elem (s.fmt f.fmt.toNat) f.va.toNat i) else none)) s)

/-- VBCAST's body: the scalar as one element, poison 0 (R174, R185). -/
def bcastBody (f : LV) (s : State) (c : Ctx) : Act :=
  let k := f.fmt.toNat
  let fm := s.fmt k
  .next s (c.setReg f.vd.toNat (putElems fm (c.reg f.vd.toNat) (fun i =>
    if c.enabled f.pg.toNat k i then some ⟨c.sc (f.va.toNat % 16) % 2 ^ fm.width, false⟩ else none))) []

/-- VBCAST (R185). -/
def execVbcast (a : Site) (f : LV) (s : State) : Host.Outcome State Fault Refusal :=
  done (issue a (f.word 0x28) f.fmt.toNat (.vec f.vd.toNat 1 (s.fmt f.fmt.toNat)) (bcastBody f) s)

/-- An element moved to a scalar: sign-extended for the signed integers, else zero-extended; 0 from a poisoned element (R53, R185). -/
def laneToScalar (fm : Fmt) (x : Lane) : Nat :=
  if x.pois then 0 else if fm.kind = 3 then uint 64 (sint fm.width x.bits) else x.bits

/-- VLANE's body. -/
def vlaneBody (f : LV) (s : State) (c : Ctx) : Act :=
  let fm := s.fmt f.fmt.toNat
  .next s (c.setSc (f.vd.toNat % 16) (laneToScalar fm (c.elem fm f.va.toNat (bits f.ext.toNat 0 7)))) []

/-- VLANE (R185). -/
def execVlane (a : Site) (f : LV) (s : State) : Host.Outcome State Fault Refusal :=
  done (issue a (f.word 0x29) f.fmt.toNat (.sc (f.vd.toNat % 16)) (vlaneBody f) s)

/-- VIOTA's body: S[31:0] + i × stride modulo 2^32, poison 0 (R185). -/
def iotaBody (f : LV) (s : State) (c : Ctx) : Act :=
  let base : Int := (c.sc (f.va.toNat % 16) % 2 ^ 32 : Nat)
  .next s (c.setReg f.vd.toNat (putElems (builtinFmt 13) (c.reg f.vd.toNat) (fun i =>
    if c.enabled f.pg.toNat 13 i then some ⟨uint 32 (base + (i : Int) * sint 16 (bits f.ext.toNat 0 16)), false⟩ else none))) []

/-- VIOTA (R185). -/
def execViota (a : Site) (f : LV) (s : State) : Host.Outcome State Fault Refusal :=
  done (issue a (f.word 0x2A) f.fmt.toNat (.vec f.vd.toNat 1 (builtinFmt 13)) (iotaBody f) s)

/-- PLOG's body: func over all 128 bits of two predicates (R186). -/
def plogBody (f : LV) (s : State) (c : Ctx) : Act :=
  .next s (c.setPr (f.vd.toNat % 8) (plogFunc (bits f.ext.toNat 0 2) (c.pr (f.va.toNat % 8)) (c.pr (f.vb.toNat % 8)))) []

/-- PLOG (R186). -/
def execPlog (a : Site) (f : LV) (s : State) : Host.Outcome State Fault Refusal :=
  done (issue a (f.word 0x2B) f.fmt.toNat (.pr (f.vd.toNat % 8)) (plogBody f) s)

end Sys2Proof.Machine
end

