-- ==== Sys2Proof/Machine/SortIns.lean ====
section
/-!
DEFINITION. Key order, sort, top-k and merge (R211 to R214), and the filter instructions (R216 to R218).
-/
namespace Sys2Proof.Machine
open Sys2Proof

/-! ### Key order -/

/-- The rank of a key (R211); none for a NaN, an E8M0 0xFF and a poisoned lane. -/
def keyRank (f : Fmt) (x : Lane) : Option Val :=
  if x.pois then none
  else match f.decode x.bits with
    | .nan _ => none
    | v => some v

/-- The order of two ranks: by value, with −0 below +0. -/
def rankCmp (a b : Val) : Int :=
  let d := cmpVal a b
  if d = 0 ∧ a.isZero then (b2n b.neg? : Int) - b2n a.neg? else d

/-- An entry: its key, its payload of 32 raw bits with its poison bit. -/
structure Entry where
  key : Lane
  pay : Lane
  deriving DecidableEq, Repr

/-- The payload's 32 bits. -/
def Entry.payload (e : Entry) : Nat := e.pay.bits % 2 ^ 32

/-- The payload of an empty entry (R213). -/
def emptyPay : Nat := 0xFFFFFFFF

/-- An empty entry: key 0, payload 0xFFFF_FFFF, poison bits 0. -/
def Entry.empty : Entry := ⟨⟨0, false⟩, ⟨emptyPay, false⟩⟩

/-- Entry `i` of the register pair that starts at `r`. -/
def Ctx.entry (c : Ctx) (f : Fmt) (r i : Nat) : Entry := ⟨c.elem f r i, c.lane (r + 1) i⟩

/-- Write 128 entries to the register pair that starts at `r`. -/
def Ctx.setEntries (c : Ctx) (f : Fmt) (r : Nat) (l : List Entry) : Ctx :=
  let e := fun (i : Nat) => (l[i]?).getD Entry.empty
  (c.setReg r (putElems f (c.reg r) (fun i => some (e i).key))).setReg (r + 1)
    ((List.range 128).map (fun i => ⟨(e i).payload, (e i).pay.pois⟩))

/-! ### VSORT -/

/-- Does entry `a` come before `b` in T (R212): ranked keys by rank, then unranked keys; ties by payload ascending? -/
def sortBefore (f : Fmt) (a b : Entry) : Bool :=
  match keyRank f a.key, keyRank f b.key with
  | some x, some y =>
    let d := rankCmp x y
    if d = 0 then decide (a.payload < b.payload) else decide (d < 0)
  | some _, none => true
  | none, some _ => false
  | none, none => decide (a.payload < b.payload)

/-- One place of a compare-exchange stage (R212): `k` the stage, `j` the distance exponent, `desc` the direction. Of two entries that T does
not order the lower lane's counts as the lesser. -/
def sortStage (f : Fmt) (k j desc : Nat) (e : Nat → Entry) (i : Nat) : Entry :=
  let low := if bit i j then i - 2 ^ j else i
  let hi := low + 2 ^ j
  let up := ((low >>> k) % 2 == 0) != (desc == 1)
  let swap := sortBefore f (e hi) (e low)
  let lo := if swap then e hi else e low
  let top := if swap then e low else e hi
  if bit i j == up then top else lo

/-- VSORT's body (R212). -/
def sortBody (f : LV) (s : State) (c : Ctx) : Act :=
  let fm := s.fmt f.fmt.toNat
  let e := sortStage fm (bits f.ext.toNat 17 3) (bits f.ext.toNat 14 3) (bits f.ext.toNat 13 1) (c.entry fm f.va.toNat)
  .next s (c.setEntries fm f.vd.toNat ((List.range 128).map e)) []

/-- VSORT (R212). -/
def execVsort (a : Site) (f : LV) (s : State) : Host.Outcome State Fault Refusal :=
  done (issue a (f.word 0x50) f.fmt.toNat (.vec f.vd.toNat 2 (s.fmt f.fmt.toNat)) (sortBody f) s)

/-! ### TOPK and MERGEK -/

/-- Is entry `a` better than `b` (R213)? With tie = 1 no entry is better than one of its rank, and the earlier one stays ahead. -/
def better (f : Fmt) (desc tie : Nat) (a b : Entry) : Bool :=
  let payWins := tie == 0 && decide (a.payload < b.payload)
  match keyRank f a.key, keyRank f b.key with
  | some x, some y =>
    let d := rankCmp x y
    if d = 0 then payWins else if desc = 1 then decide (d > 0) else decide (d < 0)
  | some _, none => true
  | none, some _ => false
  | none, none => payWins

/-- Insert an entry behind every entry that it does not beat. -/
def insertBest (f : Fmt) (desc tie : Nat) (x : Entry) : List Entry → List Entry
  | [] => [x]
  | y :: ys => if better f desc tie x y then x :: y :: ys else y :: insertBest f desc tie x ys

/-- The best `k` of entries given in the order they entered, best first; empty entries take no part (R213). -/
def bestOf (f : Fmt) (desc tie k : Nat) (l : List Entry) : List Entry :=
  ((l.filter (fun e => e.payload != emptyPay)).foldl (fun b e => insertBest f desc tie e b) []).take k

/-- kcnt + 1, desc and tie of TOPK and MERGEK (Table 07-2). -/
def topK (f : LV) : Nat := bits f.ext.toNat 13 7 + 1
/-- 1: largest keys are best. -/
def topDesc (f : LV) : Nat := bits f.ext.toNat 12 1
/-- 0 payload, 1 entry. -/
def topTie (f : LV) : Nat := bits f.ext.toNat 11 1

/-- TOPK's body (R213). -/
def topkBody (f : LV) (s : State) (c : Ctx) : Act :=
  let k := f.fmt.toNat
  let fm := s.fmt k
  let run := if bit f.ext.toNat 10 then [] else (List.range (topK f)).map (c.entry fm f.vd.toNat)
  let new := (c.enabledList f.pg.toNat k).map (c.entry fm f.va.toNat)
  .next s (c.setEntries fm f.vd.toNat (bestOf fm (topDesc f) (topTie f) (topK f) (run ++ new))) []

/-- TOPK (R213). -/
def execTopk (a : Site) (f : LV) (s : State) : Host.Outcome State Fault Refusal :=
  done (issue a (f.word 0x51) f.fmt.toNat (.vec f.vd.toNat 2 (s.fmt f.fmt.toNat)) (topkBody f) s)

/-- MERGEK's body (R214): list a, then list b. -/
def mergekBody (f : LV) (s : State) (c : Ctx) : Act :=
  let fm := s.fmt f.fmt.toNat
  let l := (List.range 128).map (c.entry fm f.va.toNat) ++ (List.range 128).map (c.entry fm f.vb.toNat)
  .next s (c.setEntries fm f.vd.toNat (bestOf fm (topDesc f) (topTie f) (topK f) l)) []

/-- MERGEK (R214). -/
def execMergek (a : Site) (f : LV) (s : State) : Host.Outcome State Fault Refusal :=
  done (issue a (f.word 0x52) f.fmt.toNat (.vec f.vd.toNat 2 (s.fmt f.fmt.toNat)) (mergekBody f) s)

/-! ### Filter -/

/-- The scalar that receives the element count (Table 07-2). -/
def filterSd (f : LV) : Nat := bits f.ext.toNat 16 4

/-- VCOMPRESS's body (R216). -/
def compressBody (f : LV) (s : State) (c : Ctx) : Act :=
  let k := f.fmt.toNat
  let fm := s.fmt k
  let on := c.enabledList f.pg.toNat k
  let c1 := c.setReg f.vd.toNat (putElems fm (c.reg f.vd.toNat) (fun i =>
    some (((on[i]?).map (c.elem fm f.va.toNat)).getD ⟨0, false⟩)))
  .next s (c1.setSc (filterSd f) on.length) []

/-- VCOMPRESS (R216). -/
def execVcompress (a : Site) (f : LV) (s : State) : Host.Outcome State Fault Refusal :=
  done (issue a (f.word 0x58) f.fmt.toNat (.vec f.vd.toNat 1 (s.fmt f.fmt.toNat)) (compressBody f) s)

/-- VEXPAND's body (R217). -/
def expandBody (f : LV) (s : State) (c : Ctx) : Act :=
  let k := f.fmt.toNat
  let fm := s.fmt k
  let on := c.enabledList f.pg.toNat k
  let c1 := c.setReg f.vd.toNat (putElems fm (c.reg f.vd.toNat) (fun i =>
    if c.enabled f.pg.toNat k i then some (c.elem fm f.va.toNat (on.findIdx (· == i))) else none))
  .next s (c1.setSc (filterSd f) on.length) []

/-- VEXPAND (R217). -/
def execVexpand (a : Site) (f : LV) (s : State) : Host.Outcome State Fault Refusal :=
  done (issue a (f.word 0x59) f.fmt.toNat (.vec f.vd.toNat 1 (s.fmt f.fmt.toNat)) (expandBody f) s)

/-- VSELECT (R218): the element of va where pg enables it, else that of operand b. -/
def execVselect (a : Site) (f : LV) (s : State) : Host.Outcome State Fault Refusal :=
  done (issue a (f.word 0x5A) f.fmt.toNat (.vec f.vd.toNat 1 (s.fmt f.fmt.toNat)) (moveBody f (fun s c i =>
    some (if c.enabled f.pg.toNat f.fmt.toNat i then c.elem (s.fmt f.fmt.toNat) f.va.toNat i
      else c.operandB (s.fmt f.fmt.toNat) f.vb.toNat f.bs.toNat i))) s)

end Sys2Proof.Machine
end

