-- ==== Sys2Proof/Machine/ChunkOps.lean ====
section
/-!
DEFINITION. What a module does with a chunk once it is whole at every contributor (R264, R265, R269, R270), how a chunk reaches the engines of a
loaded program (R143 to R146), and how chunks are revoked and reopened (R277, R278).
-/
namespace Sys2Proof.Machine
open Sys2Proof

/-! ### Reductions -/

/-- The gradients of chunk i rounded out to wfmt with RNE, by position (R304). -/
def State.roundGrads (s : State) (x i : Nat) : List (Nat × Nat) × State :=
  match s.coll x, s.job x [] with
  | some c, some j =>
    let e := exactOf (s.fmt c.cmd.fmtIn)
    let k := c.chunk i
    let wf := builtinFmt j.h.record.wfmt
    let res := ((s.places c.cmd c.mask i).zipIdx).map (fun p => (p.1, c.roundPlace k e p.2 p.1.1 wf 0 0))
    let first := i * s.perChunk c.cmd
    (res.map (fun r => (r.1.2, r.2.1.bits)),
      s.origins (some x) (res.flatMap (fun r => s.roundOrigins c i (r.1.2 - first) e j.h.record.wfmt r.2)))
  | _, _ => ([], s)

/-- A chunk of a reduction is complete: its root rounds it out or feeds the update, another module sends its partial up (R264). -/
def State.reduceChunk (s : State) (x i : Nat) (miss : List Miss) : State :=
  match s.coll x with
  | none => s
  | some c =>
    let up := (s.groupOf c).parent (i % 2) != 0
    if up then
      let p := s.partialData x i
      p.2.keepPartial x i (s.upFmt c) p.1 false false
    else if c.cmd.op = 0x0C then
      let p := s.roundGrads x i
      let s := match p.2.coll x with
        | some c => p.2.putColl x (c.putChunk i { c.chunk i with reduced := true, reopened := false })
        | none => p.2
      s.fuseFeed x i p.1 miss
    else
      let p := s.roundChunk x i
      p.2.2.keepResult x i p.1 p.2.1 false

/-! ### Pieces, gathers, dispatch -/

/-- Mark result chunk i as done here. -/
def State.markReduced (s : State) (x i : Nat) : State :=
  match s.coll x with
  | some c => s.putColl x (c.putChunk i { c.chunk i with reduced := true, reopened := false })
  | none => s

/-- Keep a chunk that goes to the parent, to every receiver, or to party `only`; one that had left before leaves again with the reissue flag
(R278). -/
def State.keepChunk (s : State) (x i : Nat) (up : Bool) (kind rank covers fmt : Nat) (data : List Byte) (pois last : Bool) (only : Option Nat) : State :=
  match s.coll x with
  | none => s
  | some c =>
    let re := if up then (c.chunk i).upSent
      else if c.cmd.routed then (c.hashes.find (leftKey i only kind rank)).isSome else c.hasLeft i
    let c := if up then c.putChunk i { c.chunk i with upSent := true } else c
    s.putColl x (c.keep ⟨i, up, kind, rank, covers, fmt, data, pois, last, false, re, false, only⟩)

/-- The table of a built-in gather or scatter: handle 0 of the command's binding set (log entry 23). -/
def State.builtinTable (s : State) (c : Cmd) : Option TableRec := s.tableOf c 0

/-- An index of an index block. -/
def indexAt (w : Nat) (data : List Byte) (i : Nat) : Nat := leNat ((data.drop (w * i)).take 4)

/-- The cluster that serves position q of a chunk in a built-in program (log entry 22). -/
def State.builtinCluster (s : State) (c : Coll) (q : Nat) : Nat := (s.builtinUnit c q).1 / 8

/-- The row of an index at position q of chunk i (R225, R459): its bytes, or the poison row with GATHER_INDEX. -/
def State.gatherRow (s : State) (x : Nat) (c : Coll) (i q op : Nat) (t : TableRec) (index : Nat) (pois : Bool) : List (Byte × Bool) × State :=
  if pois ∨ index ≥ t.rows then
    (s.poisonRow t, s.gatherIndex (some x) i index (s.builtinCluster c q) (s.builtinUnit c q).2 0 op pois)
  else (s.rowData t index, s.rowRequest t index)

/-- The origin of a poison row (R75). -/
def State.rowOrigin (s : State) (c : Coll) (i q fmt : Nat) : Origin := s.builtinOrigin c i q 0 5 4 fmt 0x68 0xFF false

/-- IDX_GATHER of one index block (R270): the rows, in index order. -/
def State.idxGather (s : State) (x i : Nat) (t : TableRec) (n : Nat) (data : List Byte) (pois : Bool) : List Byte × Bool × State :=
  match s.coll x with
  | none => ([], false, s)
  | some c =>
    let r := (List.range n).foldl (fun (st : List (Byte × Bool) × List Nat × State) k =>
      let ix := indexAt 4 data k
      let q := st.2.2.gatherRow x c i k 0 t ix pois
      (st.1 ++ q.1, if pois ∨ ix ≥ t.rows then st.2.1 ++ [k] else st.2.1, q.2)) ([], [], s)
    (r.1.map (·.1), r.1.any (·.2), r.2.2.origins (some x) (r.2.1.map (fun k => s.rowOrigin c i k t.fmt)))

/-- The blocks of a sender that a bag is read from: (chunk, poison flag, bytes). -/
abbrev Blocks := List (Nat × Bool × List Byte)

/-- The index at place `j` of a sender's whole index stream, with its chunk, its position there and its poison. -/
def State.streamIndex (s : State) (c : Cmd) (bs : Blocks) (j : Nat) : Nat × Nat × Nat × Bool :=
  let p := s.perChunk c
  let b := (bs.find? (fun b => b.1 == j / p)).getD (0, true, [])
  (indexAt 4 b.2.2 (j % p), j / p, j % p, b.2.1)

/-- The bags of POOL_GATHER whose last index lies in chunk i, as first and past-the-last: a bag may begin in the chunk before, and the stream's last
bag holds what is left (R270, log entry 62). -/
def State.bagsIn (s : State) (c : Cmd) (i : Nat) : Nat × Nat :=
  let bag := max 1 (bits c.arg1 0 11)
  let first := i * s.perChunk c
  let stop := first + s.chunkLen c i
  (first / bag, if stop ≥ c.elements then (c.elements + bag - 1) / bag else stop / bag)

/-- One bag (R270): the exact sum of its rows by column, the state, and the origins of its poison rows and of the NaN its rows hold (R75). -/
def State.poolBag (s : State) (x : Nat) (c : Coll) (t : TableRec) (bs : Blocks) (b : Nat) : List Slot × State × List Origin :=
  let f := s.fmt t.fmt
  let e := exactOf f
  let bag := max 1 (bits c.cmd.arg1 0 11)
  (List.range (min bag (c.cmd.elements - b * bag))).foldl (fun (a : List Slot × State × List Origin) k =>
    let ix := s.streamIndex c.cmd bs (b * bag + k)
    let bad := ix.2.2.2 || decide (ix.1 ≥ t.rows)
    let q := a.2.1.gatherRow x c ix.2.1 ix.2.2.1 1 t ix.1 ix.2.2.2
    let ls := decodeElems f q.1 false t.cols
    let r := (List.range t.cols).foldl (fun (z : List Slot × State) col =>
      let l := ls.getD col ⟨0, false, 0, 0⟩
      let old := a.1.getD col Slot.empty
      let w := z.2.enterSlot x c ix.2.1 (b * t.cols + col) e old (old.enter e (f.decode l.bits) l.pois false) false
      (z.1 ++ [w.2], w.1)) ([], q.2)
    let os := if bad then [s.rowOrigin c ix.2.1 ix.2.2.1 t.fmt]
      else ls.filterMap (fun l => if l.cause = 0 then none else some (s.builtinOrigin c ix.2.1 ix.2.2.1 0 l.cause l.code t.fmt 0x01 0xFF false))
    (r.1, r.2, a.2.2 ++ os)) (List.replicate t.cols Slot.empty, s, [])

/-- POOL_GATHER of one sender's bags of chunk i (R270): one exact sum per bag, rounded once to fmt_out. -/
def State.poolGather (s : State) (x i : Nat) (t : TableRec) (bs : Blocks) : List Byte × Bool × State :=
  match s.coll x with
  | none => ([], false, s)
  | some c =>
    let e := exactOf (s.fmt t.fmt)
    let out := s.fmt c.cmd.fmtOut
    let bags := s.bagsIn c.cmd i
    let r := (List.range (bags.2 - bags.1)).foldl (fun (st : List LaneRes × State) b =>
      let r := st.2.poolBag x c t bs (bags.1 + b)
      (st.1 ++ r.1.map (fun z => z.roundOut e out c.cmd.rnd 0), r.2.1.origins (some x) r.2.2)) ([], s)
    let os := (r.1.zipIdx).filterMap (fun p => if p.1.cause = 0 then none
      else some (s.builtinOrigin c i p.2 2 p.1.cause p.1.code c.cmd.fmtOut 0x42 0xFF false))
    (packElems out.width (r.1.map (fun l => sendElem out l.bits)), r.1.any (·.pois), r.2.origins (some x) os)

/-- Enter the records of one chunk of SCATTER_ADD (R270, R226): each value enters its slot, a flat index over the table's rows (log entry 23). -/
def State.scatterAdd (s : State) (x i port : Nat) (t : TableRec) (n : Nat) (data : List Byte) (pois : Bool) : State :=
  match s.coll x with
  | none => s
  | some c =>
    let f := s.fmt c.cmd.fmtIn
    let w := 4 + f.width / 8
    let r := (List.range n).foldl (fun (st : State × List Origin) k =>
      let ix := indexAt w data k
      let cl := s.builtinCluster c k
      let bad := pois && !f.hasNan
      if bad ∨ ix ≥ t.rows * t.cols then
        (st.1.gatherIndex (some x) i ix cl (s.builtinUnit c k).2 0 2 bad, st.2)
      else
        let r := decodeElem f (leNat ((data.drop (w * k + 4)).take (f.width / 8))) pois
        (st.1.scatterEnter (some x) i k cl t (ix / t.cols) (ix % t.cols) (f.decode r.bits) r.pois,
          if r.cause = 0 then st.2 else st.2 ++ [s.builtinOrigin c i k 0 r.cause r.code c.cmd.fmtIn 0x01 port false])) (s, [])
    r.1.origins (some x) r.2

/-- The block party k has given for chunk i: its poison flag and bytes. -/
def Coll.block (c : Coll) (i k : Nat) : Option (Bool × List Byte) := ((c.chunk i).parts.find? (fun b => b.1 == k)).map (·.2.2)

/-- Enter party k's chunks of SCATTER_ADD that stand next in its stream, up to `n` of them: in stream order, so that a chunk it may still revoke has
not been entered (R275, R277). -/
def State.scatterNext (s : State) (x k port : Nat) (t : TableRec) : Nat → Nat → State
  | 0, _ => s
  | n + 1, i => match s.coll x with
    | none => s
    | some c => match c.block i k with
      | none => s
      | some b => ((s.scatterAdd x i port t (s.chunkLen c.cmd i) b.2 b.1)).scatterNext x k port t n (i + 1)

/-- The experts of a token in rank order (R269): TOPK with desc = 1 and tie = 0; a token whose keys are all unranked takes its experts in ascending
index. -/
def tokenExperts (f : Fmt) (e k : Nat) (token : List Byte) : List Nat :=
  let n := leNat (token.take ((e * f.width + 7) / 8))
  let es := (List.range e).map (fun j => (⟨⟨bits n (f.width * j) f.width, false⟩, ⟨j, false⟩⟩ : Entry))
  (bestOf f 1 0 k es).map (·.payload)

/-- Allocate one token to its experts (R269): the pairs (expert, position), 0xFFFF where the expert is full. `used` counts the tokens of each expert. -/
def offerToken (cap : Nat) (used : NMap) : List Nat → List (Nat × Nat) × NMap
  | [] => ([], used)
  | e :: es =>
    let u := used.rd e
    let r := offerToken cap (if u < cap then used.wr e (u + 1) else used) es
    ((if u < cap then (e, u) else (0xFFFF, 0xFFFF)) :: r.1, r.2)

/-- The ports toward a rank that is no direct member here: those of the child that covers it in a tree, else of the parent in that tree or the other
(Table 08-5, log entry 63). -/
def State.toward (s : State) (c : Coll) (t r : Nat) : Nat :=
  let g := s.groupOf c
  match c.parties.find? (fun p => p.isKid && p.tree == t && p.has r) with
  | some p => p.ports
  | none => if g.parent t = 0 then g.parent (1 - t) else g.parent t

/-- Send a chunk of an op without a tree to a rank: kept for a direct member (R274); for a rank elsewhere it goes on along the forwarding path, which
keeps nothing (log entry 63). -/
def State.sendRank (s : State) (x i r kind rank covers fmt : Nat) (data : List Byte) (pois last : Bool) : State :=
  match s.coll x with
  | none => s
  | some c => match (c.parties.zipIdx).find? (fun q => !q.1.isKid && q.1.rank == r) with
    | some q => if q.1.rcut.isSome then s else s.keepChunk x i false kind rank covers fmt data pois last (some q.2)
    | none =>
      let m := s.toward c (i % 2) r
      if m = 0 then s
      else s.emit (.chunk m false (frameChunk (chunkHeader c.cmd.collId i rank covers kind (i % 2) 0 fmt) c.cmd.chunkBytes data pois last false))

/-- What a chunk of DISPATCH comes to (R269): the tokens each expert accepts, as (expert, position, bytes), and the assignment records of each party.
`blocks` are (party, bytes) in the order of allocation. -/
def dispatchBlocks (f : Fmt) (c : Cmd) (blocks : List (Nat × List Byte)) : List (Nat × Nat × List Byte) × List (Nat × List Byte) :=
  let e := bits c.arg0 0 16
  let k := bits c.arg0 16 3 + 1
  let kb := e * f.width / 8
  let size := kb + bits c.arg1 0 16
  let r := blocks.foldl (fun (st : NMap × List (Nat × Nat × List Byte) × List (Nat × List Byte)) b =>
    let q := (List.range (b.2.length / max 1 size)).foldl (fun (q : NMap × List (Nat × Nat × List Byte) × List Byte) j =>
      let tok := (b.2.drop (j * size)).take size
      let o := offerToken (bits c.arg1 16 16) q.1 (tokenExperts f e k tok)
      let pairs := o.1 ++ List.replicate (k - o.1.length) (0xFFFF, 0xFFFF)
      (o.2, q.2.1 ++ o.1.filterMap (fun p => if p.1 = 0xFFFF then none else some (p.1, p.2, tok.drop kb)),
        q.2.2 ++ pairs.flatMap (fun p => leBytes p.1 2 ++ leBytes p.2 2))) (st.1, st.2.1, [])
    (q.1, q.2.1, st.2.2 ++ [(b.1, q.2.2)])) (([] : NMap), [], [])
  r.2

/-- Allocate the tokens of chunk i of DISPATCH (R269): blocks in order of source rank, or of arrival when flags.arrival is 1. Each accepted token goes to
the rank that serves its expert; each source rank is returned its assignment records. -/
def State.dispatchChunk (s : State) (x i : Nat) : State :=
  match s.coll x with
  | none => s
  | some c =>
    let cmd := c.cmd
    let parts := (c.chunk i).parts
    let blocks := if cmd.arrival then parts else sortBy (fun a b => decide (a.2.1 ≤ b.2.1)) parts
    let r := dispatchBlocks (s.fmt cmd.fmtIn) cmd (blocks.map (fun b => (b.1, b.2.2.2)))
    let last := i + 1 == s.chunksOut cmd
    let s := r.2.foldl (fun s a => s.keepChunk x i false 2 0xFFFF 0 cmd.fmtIn a.2 false last (some a.1)) s
    let n := (s.groupOf c).ranks
    let owner := fun (t : Nat × Nat × List Byte) => t.1 * n / max 1 (bits cmd.arg0 0 16)
    (r.1.map owner).dedup.foldl (fun s q =>
      s.sendRank x i q 4 0xFFFF 0 cmd.fmtIn ((r.1.filter (fun t => owner t == q)).flatMap (·.2.2)) false last) s

/-! ### Delivery to a loaded program -/

/-- The input port of an engine that takes data of direct members (`kid` = false) or of children: the lowest or the highest one bound (log entry
24). -/
def State.inPort (s : State) (x eng : Nat) (kid : Bool) : Option Nat :=
  let l := [0, 1, 2, 3].filter (fun k => match s.strm eng k with
    | some t => t.coll == x
    | none => false)
  if kid then l.getLast? else l.head?

/-- Byte offsets of the records of a partial payload. -/
def recBytes (x : Exact) (covers : Nat) (n : Nat) (data : List Byte) : Nat := (readRecs x covers 0 n (data.map (·, false)) false).2

/-- Put party `k`'s data of chunk i at the input ports of the collective's engines, each its share (log entry 22). -/
def State.deliver (s : State) (x i k covers kind : Nat) (data : List Byte) (pois : Bool) : State :=
  match s.coll x with
  | none => s
  | some c => match c.parties[k]? with
    | none => s
    | some p =>
      let e := exactOf (s.fmt c.cmd.fmtIn)
      let n := c.engs.length
      (c.engs.zipIdx).foldl (fun s q => match s.inPort x q.1 p.isKid with
        | none => s
        | some port => match s.strm q.1 port with
          | none => s
          | some t =>
            let r := s.sharePlaces c.cmd c.mask i q.2 n
            let u := s.shareUnits c.cmd i q.2 n
            let b := (s.unitOf c.cmd).2
            let w := if e = .c2176 then 8 else 4
            let range := if kind = 1 then
                (if c.ordered then (w * r.1, w * r.2) else (recBytes e covers r.1 data, recBytes e covers r.2 data))
              else (min data.length (b * u.1), if q.2 + 1 = n then data.length else min data.length (b * u.2))
            let seg : Seg := ⟨i, p.rank, (portsOf p.ports).headD 0, pois, covers, r.2 - r.1, (data.take range.2).drop range.1, range.1, 0, 0⟩
            s.putStrm q.1 port (Strm.refill { t with segs := t.segs ++ [seg] })) s

/-- Deliver an empty share where a party contributes nothing to chunk i. -/
def State.deliverNone (s : State) (x i k : Nat) : State := s.deliver x i k 0 0 [] false

/-! ### Entry of a chunk -/

/-- Does a loaded program run the collective? -/
def Coll.loaded (c : Coll) : Bool := c.cmd.loadedProg

/-- What follows when chunk i has one whole chunk from each of its contributors and no program handles it. -/
def State.chunkWhole (s : State) (x i : Nat) (miss : List Miss) : State :=
  match s.coll x with
  | none => s
  | some c =>
    if c.cmd.isReduce ∨ c.cmd.op = 0x0C then s.reduceChunk x i miss
    else if c.cmd.op = 0x07 then (s.markReduced x i).dispatchChunk x i
    else s.markReduced x i

/-- What the header and trailer of a chunk taken in say beside its index: kind, rank, covers, format, payload, poison and last flags. -/
structure Taken where
  kind   : Nat
  rank   : Nat
  covers : Nat
  fmt    : Nat
  data   : List Byte
  pois   : Bool
  last   : Bool

/-- Pass a piece on: up to the parent, or at the root down to every receiver (R264). -/
def State.passPiece (s : State) (x i : Nat) (h : Taken) : State :=
  match s.coll x with
  | none => s
  | some c =>
    (s.keepChunk x i ((s.groupOf c).parent (i % 2) != 0) 3 h.rank 1 h.fmt h.data h.pois h.last none).markReduced x i

/-- The blocks of party k that the bags of chunk i are read from, where all of them are in. -/
def State.poolBlocks (s : State) (c : Coll) (i k : Nat) : Option Blocks :=
  let b := (s.bagsIn c.cmd i).1 * max 1 (bits c.cmd.arg1 0 11) / s.perChunk c.cmd
  ((List.range (i + 1 - b)).foldr (fun j (l : Option Blocks) => l.bind (fun l =>
    (c.block (b + j) k).map (fun d => (b + j, d.1, d.2) :: l))) (some []))

/-- Answer party k's bags of chunk i, if what they are read from is in (R270). -/
def State.poolAnswer (s : State) (x i k : Nat) (t : TableRec) : State :=
  match s.coll x with
  | none => s
  | some c => match s.poolBlocks c i k with
    | none => s
    | some bs =>
      let r := s.poolGather x i t bs
      r.2.2.keepChunk x i false 2 0xFFFF 0 c.cmd.fmtOut r.1 r.2.1 (i + 1 == s.chunksOut c.cmd) (some k)

/-- Does a bag of POOL_GATHER cross from chunk i into the next (R270)? -/
def State.bagCrosses (s : State) (c : Cmd) (i : Nat) : Bool :=
  decide (c.op = 0x09) && decide ((i + 1) * s.perChunk c < c.elements) && (i + 1) * s.perChunk c % max 1 (bits c.arg1 0 11) != 0

/-- An index block of `n` indices arrives: the predictor looks ahead (R462). -/
def State.lookAt (s : State) (t : TableRec) (n : Nat) (h : Taken) : State :=
  if h.pois then s else s.lookAhead t (((List.range n).map (indexAt 4 h.data)).filter (fun r => decide (r < t.rows)))

/-- Work of a built-in program on the chunk that party k gave for index i (Table 08-5). -/
def State.takeBuiltin (s : State) (x i k port wire : Nat) (h : Taken) (dsts : List Nat) : State :=
  match s.coll x with
  | none => s
  | some c => match c.cmd.op with
    | 0x04 => s.passPiece x i h
    | 0x05 => s.passPiece x i h
    | 0x06 => dsts.foldl (fun s r => s.sendRank x i r 0 h.rank 1 h.fmt h.data h.pois h.last) s
    | 0x07 => s
    | 0x08 => (match s.builtinTable c.cmd with
        | some t =>
          let r := (s.lookAt t (s.chunkLen c.cmd i) h).idxGather x i t (s.chunkLen c.cmd i) h.data h.pois
          r.2.2.keepChunk x i false 2 0xFFFF 0 t.fmt r.1 r.2.1 (i + 1 == s.chunksOut c.cmd) (some k)
        | none => s)
    | 0x09 => (match s.builtinTable c.cmd with
        | some t =>
          let s := (s.lookAt t (s.chunkLen c.cmd i) h).poolAnswer x i k t
          if s.bagCrosses c.cmd i then s.poolAnswer x (i + 1) k t else s
        | none => s)
    | 0x0A => (match s.builtinTable c.cmd with
        | some t => s.scatterNext x k port t (s.chunksIn c.cmd) ((c.parties[k]?.map (·.acked)).getD 0)
        | none => s)
    | _ => if h.kind = 1 then s.enterPartial x i k h.rank port wire h.covers h.data else s.enterContrib x i k port wire h.data h.pois

/-- Take the data of party `k` into chunk i, from a port with its bytes there; `dsts` are the ranks an ALLTOALL chunk is addressed to, `ecc` the slot
words found wrong (R114). -/
def State.takeIn (s : State) (x i k port wire : Nat) (h : Taken) (dsts : List Nat) (ecc : List (Nat × Bool)) (miss : List Miss) : State :=
  match s.coll x with
  | none => s
  | some c =>
    let st := c.chunk i
    let whole := 7 ≤ c.cmd.op && c.cmd.op ≤ 0x0A && !c.loaded
    let s := s.putColl x (c.putChunk i { st with
      got := st.got ++ [(k, h.covers, h.rank)]
      parts := if whole then st.parts ++ [(k, h.rank, h.pois, h.data)] else st.parts })
    let s := if c.loaded then s.deliver x i k h.covers h.kind h.data h.pois
      else (s.takeBuiltin x i k port wire h dsts).contribEcc x i ecc
    match s.coll x with
    | none => s
    | some c => if !c.loaded && s.filled c i then s.chunkWhole x i miss else s

/-- A chunk of an op without a tree that comes along the forwarding path on a tree port: its data goes on to the ranks it is addressed to; an index
block is served here and answered on the port it came on (Table 08-5, log entry 63). -/
def State.takeRemote (s : State) (x i port : Nat) (h : Taken) (dsts : List Nat) : State :=
  match s.coll x with
  | none => s
  | some c =>
    let answer := fun (fmt : Nat) (r : List Byte × Bool × State) =>
      r.2.2.emit (.chunk (1 <<< port) false (frameChunk (chunkHeader c.cmd.collId i 0xFFFF 0 2 (i % 2) 0 fmt) c.cmd.chunkBytes r.1 r.2.1
        (i + 1 == s.chunksOut c.cmd) false))
    if c.cmd.op = 0x06 ∨ c.cmd.op = 0x07 then dsts.foldl (fun s r => s.sendRank x i r h.kind h.rank h.covers h.fmt h.data h.pois h.last) s
    else match s.builtinTable c.cmd with
      | none => s
      | some t =>
        let s := if c.cmd.op = 0x0A then s else s.lookAt t (s.chunkLen c.cmd i) h
        if c.cmd.op = 0x08 then answer t.fmt (s.idxGather x i t (s.chunkLen c.cmd i) h.data h.pois)
        else if c.cmd.op = 0x09 then answer c.cmd.fmtOut (s.poolGather x i t [(i, h.pois, h.data)])
        else s.scatterAdd x i port t (s.chunkLen c.cmd i) h.data h.pois

/-! ### Revocation (R277, R278) -/

/-- The ports of party `k`. -/
def Coll.partyPorts (c : Coll) (k : Nat) : Nat := (c.parties[k]?.map (·.ports)).getD 0

/-- Has chunk i taken any data? -/
def Coll.entered? (c : Coll) (i : Nat) : Bool := !(c.chunk i).got.isEmpty || (c.chunk i).reduced

/-- Is what party k gave for chunk i beyond recall: a record of SCATTER_ADD, once its contrib ACK covers it, stands in the table and its sender has let
it go (R270, R275)? -/
def Coll.settled (c : Coll) (i k : Nat) : Bool := c.cmd.op == 0x0A && (c.parties[k]?).any (fun p => decide (i < p.acked))

/-- Result chunk i is withdrawn: a REVOKE to each receiver to which a copy has begun to leave, which acknowledges it again. With `tell` false no REVOKE is
sent (R280). -/
def State.revokeResult (s : State) (x i reason : Nat) (tell : Bool := true) : State :=
  match s.coll x with
  | none => s
  | some c =>
    let to_ := if tell then (c.receivers (s.chunksOut c.cmd) (s.groupOf c).ranks i).filter (c.sentTo i) else []
    let s := to_.foldl (fun s k => s.sendRange (c.partyPorts k) 2 reason c.cmd.collId i i) s
    s.putColl x { c with
      kept := c.kept.filter (fun k => k.up || k.idx != i)
      parties := (c.parties.zipIdx).map (fun q => if to_.contains q.2 then { q.1 with next := min q.1.next i } else q.1) }

/-- An update goes back to its first pass against the live copy: its result chunks that have begun to leave are revoked, but for chunk `but` (R311). -/
def State.restart (s : State) (j : Job) (but : Nat) : State :=
  let s := (s.putFuse j.x { j.f with pass := 0, slots := [], ended := false, skipped := false }).putShard j.f.shard { j.h with skipped := false }
  (s.rootChunks j.c).foldl (fun s q => if q = but then s else s.revokeResult j.x q 1) s

/-- The member updates of a norm set that are not complete and have begun pass 1 start again (R311), and those complete show a factor that moved. -/
def State.normRestart (s : State) (set : Nat) : State :=
  match s.nor.norms.find set with
  | none => s
  | some n => ((s.normMembers set).foldl (fun s m => match s.job m.1 [] with
      | some j => if m.2.1.step ≠ n.step ∨ j.f.pass = 0 then s else s.restart j (s.chunksOut j.c.cmd)
      | none => s) s).normMoved set

/-- The update of a collective forgets chunk i. Where a pass has begun on staged gradients it starts again (R318); a clipped update also clears the
chunk's square slot, and the other members of its norm set start again with it (R311). -/
def State.unfeed (s : State) (x i : Nat) : State :=
  match s.job x [] with
  | none => s
  | some j =>
    let had := j.f.fed.contains i
    let f := { j.f with fed := j.f.fed.filter (· != i), ended := false }
    let s := if j.streamed ∨ f.pass = 0 then s.putFuse x f else s.restart { j with f := f } i
    if j.r.clip && had then match s.nor.norms.find j.h.record.nset with
      | some n => ({ s with nor.norms := s.nor.norms.put j.h.record.nset { n with
          squares := SMap.erase (fun k => k == j.h.record.shard * 2 ^ 32 + i) n.squares
          stale := n.stale || n.sent.isSome } }).normRestart j.h.record.nset
      | none => s
    else s

/-- The index that result index i has in party k's own stream (R264). -/
def Coll.ownIndex (c : Coll) (nIn i k : Nat) : Nat :=
  match c.parties[k]? with
  | some p => if c.cmd.op = 0x04 ∧ !p.isKid then i - p.rank * nIn else i
  | none => i

/-- Ask party k for its chunk of result index i again; its acknowledged point falls back to it (Table 08-8). -/
def State.askAgain (s : State) (x i reason k : Nat) : State :=
  match s.coll x with
  | none => s
  | some c =>
    let j := c.ownIndex (s.chunksIn c.cmd) i k
    let s := s.putColl x { c with parties := (c.parties.zipIdx).map (fun q => if q.2 = k then { q.1 with acked := min q.1.acked j } else q.1) }
    s.sendRange (c.partyPorts k) 3 reason c.cmd.collId j j

/-- Discard the slots that a program's contexts filled with data of chunk i (R277). -/
def State.dropSlots (s : State) (x i : Nat) : State :=
  let ks := s.cis.chunkOf.filter (fun e => e.1 / 2 ^ 40 / 256 == x && e.2 == i + 1)
  { s with
    cis.slots := SMap.erase (fun k => ks.any (fun e => e.1 == k)) s.cis.slots
    cis.chunkOf := SMap.erase (fun k => ks.any (fun e => e.1 == k)) s.cis.chunkOf }

/-- Discard the shares of result chunk i that some engines of a program have closed while others have not. -/
def State.dropOuts (s : State) (x i : Nat) : State :=
  match s.coll x with
  | some c => s.putColl x { c with outs := c.outs.filter (fun o => o.2.idx != i) }
  | none => s

/-- Reopen chunk i: its slots and retained result go, those a loaded program took of it too, every contributor is asked to reissue, and, unless only steps 1 and 2 of R277 apply (`full`
false: R278, R280), receivers and the parent are told. A module below the root keeps a result it relays where it tells nobody. -/
def State.reopen (s : State) (x i reason : Nat) (full : Bool) : State :=
  match s.coll x with
  | none => s
  | some c =>
    let st := c.chunk i
    if !c.entered? i ∨ (!st.got.isEmpty ∧ st.got.all (fun q => c.settled i q.1)) then s
    else
      let t := i % 2
      let par := (s.groupOf c).parent t
      let gone := st.upSent && c.sentUp i
      let from_ := (c.contributors (s.chunksIn c.cmd) i).filter (fun k => !c.settled i k)
      let s : State := from_.foldl (fun s k => s.askAgain x i reason k) s
      let s := (if full ∨ par = 0 then s.revokeResult x i reason full else s).unfeed x i
      let s := match s.coll x with
        | some c =>
          let c := if gone then (if t = 0 then { c with upNext0 := min c.upNext0 i } else { c with upNext1 := min c.upNext1 i }) else c
          let st := { ChunkSt.empty with
            got := st.got.filter (fun q => c.settled i q.1)
            excluded := st.excluded
            reopened := true
            upSent := gone
            sums := st.sums }
          s.putColl x { c.putChunk i st with
            revoked := c.revoked + 1, kept := c.kept.filter (fun k => k.idx != i || !k.up) }
        | none => s
      let s := (s.dropSlots x i).dropOuts x i
      let s := if s.bagCrosses c.cmd i then s.revokeResult x (i + 1) reason full else s
      let s : State := c.engs.foldl (fun (s : State) e => [0, 1, 2, 3].foldl (fun (s : State) k => match s.strm e k with
        | some t => if t.coll = x then s.putStrm e k { t with segs := t.segs.filter (fun g => g.chunk != i) } else s
        | none => s) s) s
      let s := if full ∧ par ≠ 0 ∧ gone then s.sendRange par 2 reason c.cmd.collId i i else s
      s.inc F.REVOKE_COUNT_reopened

/-- Reopen every entered chunk of a range of result indices (a watermaster's order). -/
def State.reopenRange (s : State) (x first last reason : Nat) : State :=
  match s.coll x with
  | none => s
  | some c =>
    ((List.range (max (s.chunksIn c.cmd) (s.chunksOut c.cmd))).filter (fun i => first ≤ i && i ≤ last)).foldl
      (fun s i => s.reopen x i reason true) s

end Sys2Proof.Machine
end

