-- ==== Sys2Proof/Machine/Chunks.lean ====
section
/-!
DEFINITION. The chunk protocol (R264 to R283, R616): chunks, halted chunks, acknowledgements, revocation and reissue, timeouts, quorum.
-/
namespace Sys2Proof.Machine
open Sys2Proof

/-! ### Judging a chunk -/

/-- The parties of a collective on a port, with their indices: one member, or a child in one tree or in both. -/
def Coll.partiesAt (c : Coll) (port : Nat) : List (Party × Nat) := (c.parties.zipIdx).filter (fun q => bit q.1.ports port)

/-- The party on a port that sends a chunk: of a child in both trees, its entry in the tree that carries the chunk (R264). -/
def Coll.partyAt (c : Coll) (port chunk : Nat) : Option (Party × Nat) :=
  match (c.partiesAt port).find? (fun q => !q.1.isKid || q.1.tree == chunk % 2) with
  | some q => some q
  | none => (c.partiesAt port).head?

/-- The tree whose parent a port leads to. -/
def Group.parentTree (g : Group) (port : Nat) : Option Nat := [0, 1].find? (fun t => bit (g.parent t) port)

/-- May a chunk of this kind come from a party (Table 08-10, code 0x01)? -/
def Coll.kindOk (c : Coll) (kid : Bool) (kind : Nat) : Bool :=
  match c.cmd.op with
  | 0x04 => kind == 3
  | 0x05 => kind == 3
  | 0x06 => kind == 0 && !kid
  | 0x07 => kind == 4 && !kid
  | 0x08 => kind == 5 && !kid
  | 0x09 => kind == 5 && !kid
  | 0x0A => kind == 5 && !kid
  | _ => if kid then kind == 1 else kind == 0

/-- May a chunk of this kind pass along the forwarding path of an op without a tree (Table 08-5)? -/
def Cmd.remoteKind (c : Cmd) (kind : Nat) : Bool :=
  match c.op with
  | 0x06 => kind == 0
  | 0x07 => kind == 4
  | 0x08 => kind == 5
  | 0x09 => kind == 5
  | 0x0A => kind == 5
  | _ => false

/-- A chunk on a tree port of a collective without a tree (Table 08-5, log entry 63): carried on or served here, or refused by Table 08-10. -/
def State.remoteChunk (s : State) (x port : Nat) (c : Coll) (h : ChunkIn) (dsts : List Nat) : State :=
  let ev := fun (code : Nat) => s.membership (some x) h.id h.chunk h.rank port code c.cmd.group h.wire
  let mine := c.parties.any (fun p => !p.isKid && p.rank == h.rank)
  if !c.cmd.remoteKind h.kind ∨ (c.cmd.op ≠ 0x07 ∧ (mine ∨ h.rank ≥ (s.groupOf c).ranks)) then ev 1
  else if h.chunk ≥ max (s.chunksIn c.cmd) (s.chunksOut c.cmd) then ev 3
  else if !h.crc then s
  else s.takeRemote x h.chunk port ⟨h.kind, h.rank, h.covers, h.fmt, h.data, h.pois, h.last⟩ dsts

/-- What is done with a chunk of a party. -/
inductive Judged where
  | event (code : Nat)
  | spill (reason : Nat)
  | bad (i : Nat)
  | take (i : Nat)
  deriving DecidableEq, Repr

/-- Judge a chunk of party `k` on its port (Table 08-10, R272, R277, R280). -/
def State.judge (s : State) (c : Coll) (p : Party) (k : Nat) (h : ChunkIn) : Judged :=
  let nIn := s.chunksIn c.cmd
  let nOut := s.chunksOut c.cmd
  let count := if p.isKid then max nIn nOut else nIn
  let i := if c.cmd.op = 0x04 ∧ !p.isKid then p.rank * nIn + h.chunk else h.chunk
  let st := c.chunk i
  if !c.kindOk p.isKid h.kind ∨ !p.has h.rank ∨ (p.isKid ∧ p.tree ≠ h.chunk % 2) ∨ (c.cmd.op = 0x05 ∧ !p.has c.cmd.root) then .event 1
  else if h.chunk ≥ count then .event 3
  else if p.isKid ∧ h.covers > p.covers then .event 6
  else if (match p.cut with
    | some b => decide (b ≤ i)
    | none => false) then .spill 1
  else if st.excluded.contains k then .spill 2
  else if h.re ∧ !st.reopened then .event 5
  else if st.got.any (fun g => g.1 == k) then .event (if h.re then 4 else 2)
  else if !h.crc then .bad i
  else .take i

/-- Reissued data is taken: with changed data an event of R328 of the collective's step, otherwise one that changes only time (R330, code 12). -/
def State.noteReissue (s : State) (c : Coll) (old : Option (List Byte)) (sum : List Byte) : State :=
  match old with
  | some d => if d = sum then s.pert 12 else s.bitEvent c.step 4
  | none => s.pert 12

/-- Party k's data for chunk i is whole: what it gave is remembered, and a reissue noted. -/
def State.noteSum (s : State) (x i k : Nat) (h : ChunkIn) : State :=
  match s.coll x with
  | none => s
  | some c =>
    let st := c.chunk i
    let sum := sha256 h.data
    let s := if h.re then s.noteReissue c ((st.sums.find? (fun q => q.1 == k)).map (·.2)) sum else s
    s.putColl x (c.putChunk i { st with sums := st.sums.filter (fun q => q.1 != k) ++ [(k, sum)] })

/-- A result chunk from the parent (R264, R278): relayed to the receivers here, or refused. -/
def State.parentChunk (s : State) (x t port : Nat) (h : ChunkIn) : State :=
  match s.coll x with
  | none => s
  | some c =>
    let i := h.chunk
    let kind := if c.cmd.op = 0x04 ∨ c.cmd.op = 0x05 then 3 else 2
    let had := c.hasLeft i || c.kept.any (fun k => !k.up && k.idx == i)
    let ev := fun code => s.membership (some x) h.id i h.rank port code c.cmd.group h.wire
    if h.kind ≠ kind ∨ i % 2 ≠ t then ev 1
    else if i ≥ s.chunksOut c.cmd then ev 3
    else if h.re ∧ !c.relay.contains i then ev 5
    else if had ∧ !h.re then ev 2
    else if !h.crc then
      (s.sendAck ((s.groupOf c).parent t) c.cmd.collId (if t = 0 then c.upAck0 else c.upAck1) false true i).putColl x
        { c with relay := if c.relay.contains i then c.relay else c.relay ++ [i] }
    else
      let s := if h.re then s.noteReissue c ((c.hashes.items.find? (fun e => leftFor i none e.1)).map (·.2)) (sha256 h.data) else s
      let c := { c with relay := c.relay.filter (· != i) }
      (s.putColl x (c.keep ⟨i, false, h.kind, h.rank, h.covers, h.fmt, h.data, h.pois, h.last, false, c.hasLeft i, false, none⟩)).settle x

/-! ### Arrival lags (R497) -/

/-- The bin of a lag. -/
def lagBin (lag : Nat) : Nat := min 15 (max 1 (Nat.log2 (lag ||| 1) - 5))

/-- A contribution chunk of a direct member on a port is whole: its lag behind the first member's, and the window that may end with it. -/
def State.noteLag (s : State) (x chunk port id : Nat) : State :=
  let key := x * 2 ^ 32 + chunk
  let fresh := !((s.coll x).any (fun c => (c.chunk chunk).got.any (fun g => (c.parties[g.1]?).any (fun p => !p.isKid))))
  let s := if fresh then { s with flt.first := s.flt.first.wr key (s.turn + 1) } else s
  let b := lagBin (s.turn + 1 - s.flt.first.rd key)
  let s := s.inc (F.STG_HIST_lags (port / 32) (port % 32) b)
  let w := s.flt.win
  let n := w.rd (4 * port) + 1
  let hit := decide (b ≥ s.get F.STG_CTL_bin)
  let over_ := w.rd (4 * port + 1) + b2n hit
  let worst := max (w.rd (4 * port + 2)) b
  let last := if hit then id * 2 ^ 32 + chunk else w.rd (4 * port + 3)
  if n < s.get F.STG_CTL_window then
    { s with flt.win := (((w.wr (4 * port) n).wr (4 * port + 1) over_).wr (4 * port + 2) worst).wr (4 * port + 3) last }
  else
    let s := { s with flt.win := SMap.erase (fun k => k / 4 == port) w }
    if over_ < s.get F.STG_CTL_count then s
    else s.sendWm 0x82 32 [(8, 8, port), (32, 8, worst), (48, 16, over_), (64, 64, s.turn), (128, 32, last / 2 ^ 32), (160, 32, last)]

/-! ### CHUNK_RECEIVE -/

/-- A chunk of party k whose crc fails (R277): once its entry, or that of another contributor's data, has begun, chunk i is reopened; before that
nothing of it is kept, and its sender alone is asked again (log entry 49). -/
def State.badChunk (s : State) (x i k : Nat) (h : ChunkIn) : State :=
  match s.coll x with
  | none => s
  | some c =>
    if h.begun ∨ c.entered? i then
      (s.putColl x (c.putChunk i { c.chunk i with got := (c.chunk i).got ++ [(k, 0, h.rank)] })).reopen x i 2 true
    else (s.putColl x (c.putChunk i { c.chunk i with reopened := true })).askAgain x i 2 k

/-- Does an accepted collective of this identifier wait for a context (R254)? It is incomplete: its data is no membership event (R282), and stays in its
sender's window. -/
def State.waitsFor (s : State) (id : Nat) : Bool := s.accepted.any (fun k => k.cmd.isColl && k.cmd.collId == id)

/-- Chunks of a built-in reduction that are open: they hold data and have not been rounded out (R35). -/
def Coll.openChunks (c : Coll) : Nat := (c.chunks.filter (fun e => !e.2.got.isEmpty && !e.2.reduced)).length

/-- May no engine open chunk i now: while class C work is paused (R476), or while a built-in program's open-chunk window is full (R35)? Its port then
grants no credit, and the chunk waits at its sender. -/
def State.mayNotOpen (s : State) (c : Coll) (i : Nat) : Bool :=
  (c.chunk i).got.isEmpty && ((s.classCPaused && c.cmd.op != 0x04 && c.cmd.op != 0x05) ||
    ((c.cmd.isReduce || c.cmd.op == 0x0C) && !c.loaded && decide (c.openChunks ≥ c.cmd.openWindow)))

/-- Note, or with `whole` note no longer, that chunk i of party k has come in part (R272, R280). -/
def Coll.noteBegun (c : Coll) (k i : Nat) (whole : Bool) : Coll :=
  let rest := c.begun.filter (· != (k, i))
  { c with begun := if whole then rest else rest ++ [(k, i)] }

/-- A framed chunk arrives on a port, whole or in part (R266). `dsts` are the ranks an ALLTOALL chunk is addressed to; `miss` the batches in which a noria check
failed while it was processed (R290). -/
def takeChunk (port : Fin 144) (h : ChunkIn) (dsts : List Nat) (miss : List Miss) (s : State) : State :=
  match s.collOf h.id with
  | none => if s.waitsFor h.id then s else s.membership none h.id h.chunk h.rank port 7 0xFFFF h.wire
  | some (x, c) =>
    if c.phase = 0 then s
    else match (s.groupOf c).parentTree port with
      | some t => if c.cmd.routed then s.remoteChunk x port c h dsts else s.parentChunk x t port h
      | none => match c.partyAt port h.chunk with
        | none => s.membership (some x) h.id h.chunk h.rank port 1 c.cmd.group h.wire
        | some (p, k) => if p.isKid && c.cmd.routed then s.remoteChunk x port c h dsts else match s.judge c p k h with
          | .event code => s.membership (some x) h.id h.chunk h.rank port code c.cmd.group h.wire
          | .spill r => (s.spill r h.wire).putColl x { c with spilled := c.spilled + 1 }
          | .bad i => ((s.putColl x (c.noteBegun k i true)).badChunk x i k h).settle x
          | .take i =>
            if s.mayNotOpen c i then s
            else if h.part then s.putColl x (c.noteBegun k i false)
            else
              let s := s.putColl x (c.noteBegun k i true)
              let s := if p.isKid then s else s.noteLag x i port h.id
              ((s.noteSum x i k h).takeIn x i k port h.wire ⟨h.kind, h.rank, if p.isKid then h.covers else 1, h.fmt, h.data, h.pois, h.last⟩ dsts h.ecc
                miss).settle x

/-- The crossings of a chunk that arrives: the ingress of its port, and the engine input of each cluster that its collective runs on. -/
def State.chunkPath (s : State) (port id : Nat) : List Nat :=
  ingressOf port :: (match s.collOf id with
    | some (_, c) => (clustersOf c.engs).map (inputOf (homeDie port))
    | none => [])

/-- A framed chunk crosses from its port, or waits for credit (R29). -/
def chunkReceive (port : Fin 144) (h : ChunkIn) (dsts : List Nat) (miss : List Miss) (s : State) : State :=
  s.through (s.chunkPath port h.id) (.chunkReceive port h dsts miss) (takeChunk port h dsts miss)

/-- CHUNK_RECEIVE. -/
def execChunkReceive (port : Fin 144) (h : ChunkIn) (dsts : List Nat) (miss : List Miss) (s : State) :
    Host.Outcome State Fault Refusal :=
  done (chunkReceive port h dsts miss s)

/-- A halted chunk halts the module's part of its collective (R616). -/
def haltedChunk (port : Fin 144) (h : ChunkIn) (s : State) : State :=
  match s.collOf h.id with
  | none => if s.waitsFor h.id then s else s.membership none h.id h.chunk h.rank port 7 0xFFFF h.wire
  | some (x, c) =>
    if !h.crc then s
    else if ((s.groupOf c).parentTree port).isSome || !(c.partiesAt port).isEmpty then s.haltColl x
    else s.membership (some x) h.id h.chunk h.rank port 1 c.cmd.group h.wire

/-- HALTED_CHUNK_RECEIVE. -/
def execHaltedChunkReceive (port : Fin 144) (h : ChunkIn) (s : State) : Host.Outcome State Fault Refusal :=
  done (s.through (s.chunkPath port h.id) (.haltedChunkReceive port h) (haltedChunk port h))

/-! ### Acknowledgement (R275) -/

/-- Deliver a chunk again to the party that refused it, with the reissue flag (Table 08-8). -/
def State.redeliver (s : State) (x k i : Nat) : State :=
  match s.coll x with
  | none => s
  | some c => match c.kept.find? (fun y => !y.up && y.sent && y.idx == i && (y.only.isNone || y.only == some k)) with
    | none => s
    | some y => (s.putColl x { c with kept := c.kept ++ [{ y with sent := false, re := true, only := some k }] }).pert 12

/-- How many compact and full records a partial payload holds; `fuel` bounds them. -/
def recordsIn : Nat → List Byte → Nat × Nat
  | 0, _ => (0, 0)
  | fuel + 1, b =>
    if b.length < 8 then (0, 0)
    else
      let len := leNat ((b.drop 3).take 1)
      let r := recordsIn fuel (b.drop (8 * max len 1))
      if len = 3 then (r.1 + 1, r.2) else (r.1, r.2 + 1)

/-- Count the records of a partial chunk that leaves again: CIS_PART_COUNT counts records sent (Table 03-11). -/
def State.partsAgain (s : State) (c : Coll) (y : Kept) : State :=
  if c.ordered ∨ y.kind ≠ 1 then s
  else
    let n := recordsIn y.data.length y.data
    (s.inc F.CIS_PART_COUNT_compact n.1).inc F.CIS_PART_COUNT_full n.2

/-- Send a retained partial again (Table 08-8, R278), with the reissue flag. -/
def State.resendUp (s : State) (x i : Nat) : State :=
  match s.coll x with
  | none => s
  | some c =>
    if c.kept.any (fun y => y.up && y.idx == i && y.sent) then
      let s := (c.kept.filter (fun y => y.up && y.idx == i)).foldl (fun s y => s.partsAgain c y) s
      (s.putColl x { c with kept := c.kept.map (fun y => if y.up ∧ y.idx = i then { y with sent := false, re := true } else y) }).pert 12
    else s

/-- An ACK arrives (R275). -/
def ackReceive (port : Fin 144) (a : AckIn) (s : State) : State :=
  match s.collOf a.id with
  | none => s
  | some (x, c) =>
    if a.contrib then
      match (s.groupOf c).parentTree port with
      | none => s
      | some t =>
        let s := s.putColl x (if t = 0 then { c with upNext0 := max c.upNext0 a.next } else { c with upNext1 := max c.upNext1 a.next })
        let s := if a.nack ∧ a.nchunk % 2 = t then s.resendUp x a.nchunk else s
        s.settle x
    else
      let l := c.partiesAt port
      let to_ := l.find? (fun q => c.receives (s.chunksOut c.cmd) (s.groupOf c).ranks a.nchunk q.2 q.1)
      let s := s.putColl x (l.foldl (fun c q => { c with parties := setAt c.parties q.2 { q.1 with next := max q.1.next (min a.next (s.chunksOut c.cmd)) } }) c)
      match to_ with
      | some q => (if a.nack then s.redeliver x q.2 a.nchunk else s).settle x
      | none => if l.isEmpty then s else s.settle x

/-- ACK_RECEIVE. -/
def execAckReceive (port : Fin 144) (a : AckIn) (s : State) : Host.Outcome State Fault Refusal :=
  done (s.through [ingressOf port] (.ackReceive port a) (ackReceive port a))

/-! ### REVOKE and REISSUE_REQ (R277, R278) -/

/-- A REVOKE arrives: from a contributor the chunks reopen, from the parent the results count as not received. -/
def revokeReceive (port : Fin 144) (id : BitVec 32) (first last : BitVec 32) (reason : BitVec 8) (s : State) : State :=
  match s.collOf id.toNat with
  | none => s
  | some (x, c) =>
    let s := s.inc F.REVOKE_COUNT_received
    match (s.groupOf c).parentTree port with
    | some t =>
      let l := (List.range (s.chunksOut c.cmd)).filter (fun i => i % 2 == t && first.toNat ≤ i && i ≤ last.toNat)
      let s := l.foldl (fun s i => match s.coll x with
        | none => s
        | some c =>
          let s := s.revokeResult x i reason.toNat
          match s.coll x with
          | some d =>
            let d := if t = 0 then { d with upAck0 := min d.upAck0 i } else { d with upAck1 := min d.upAck1 i }
            s.putColl x { d with relay := if c.relay.contains i then d.relay else d.relay ++ [i] }
          | none => s) s
      s.settle x
    | none =>
      let own := (c.partiesAt port).flatMap (fun q => ((c.streamOf (s.chunksIn c.cmd) (max (s.chunksIn c.cmd) (s.chunksOut c.cmd)) q.1).filter
        (fun e => first.toNat ≤ e.1 && e.1 ≤ last.toNat)).map (·.2))
      if (c.partiesAt port).isEmpty then s
      else ((sortBy (· ≤ ·) own.eraseDups).foldl (fun s i => s.reopen x i 1 true) s).settle x

/-- REVOKE_RECEIVE. -/
def execRevokeReceive (port : Fin 144) (id first last : BitVec 32) (reason : BitVec 8) (s : State) : Host.Outcome State Fault Refusal :=
  done (s.through [ingressOf port] (.revokeReceive port id first last reason) (revokeReceive port id first last reason))

/-- A parent asks for partial chunks again (R278): one still held leaves again, another reopens here and is asked for below. -/
def reissueReceive (port : Fin 144) (id first last : BitVec 32) (reason : BitVec 8) (s : State) : State :=
  match s.collOf id.toNat with
  | none => s
  | some (x, c) =>
    match (s.groupOf c).parentTree port with
    | none => s
    | some t =>
      let l := (List.range (s.chunksOut c.cmd)).filter (fun i => i % 2 == t && first.toNat ≤ i && i ≤ last.toNat)
      let s := l.foldl (fun s i => match s.coll x with
        | none => s
        | some c =>
          if (c.chunk i).reopened then s
          else if c.kept.any (fun y => y.up && y.idx == i) then s.resendUp x i
          else s.reopen x i reason.toNat false) s
      s.settle x

/-- REISSUE_REQ_RECEIVE. -/
def execReissueReqReceive (port : Fin 144) (id first last : BitVec 32) (reason : BitVec 8) (s : State) : Host.Outcome State Fault Refusal :=
  done (s.through [ingressOf port] (.reissueReqReceive port id first last reason) (reissueReceive port id first last reason))

/-! ### Timeouts and quorum -/

/-- Does party `k` owe an acknowledgement of a chunk sent to it, or a chunk others wait for (R276)? -/
def State.owes (s : State) (c : Coll) (k : Nat) (p : Party) : Bool :=
  let nOut := s.chunksOut c.cmd
  let g := s.groupOf c
  c.kept.any (fun y => !y.up && y.sent && (c.receivers nOut g.ranks y.idx).contains k && decide (p.next ≤ y.idx)) ||
    (List.range nOut).any (fun i => (c.contributors (s.chunksIn c.cmd) i).contains k && !(c.chunk i).got.any (fun q => q.1 == k))

/-- Does the parent of a tree owe an acknowledgement of a partial or piece sent to it (R276)? -/
def Coll.parentOwes (c : Coll) (t : Nat) : Bool := c.kept.any (fun y => y.up && y.sent && y.idx % 2 == t && decide (c.upNext t ≤ y.idx))

/-- ACK_TIMEOUT turns pass without an acknowledgement or a contribution of a port of a collective (R276): reported once. -/
def ackTimeout (x : Fin 4096) (port : Fin 144) (s : State) : State :=
  match s.coll x with
  | none => s
  | some c =>
    if c.phase = 0 ∨ c.late.contains port.val then s
    else
      let l := c.partiesAt port
      let rank := (l.head?.map (·.1.rank)).getD 0xFFFF
      let due := if l.isEmpty then ((s.groupOf c).parentTree port).any (fun t => c.parentOwes t) else l.any (fun q => s.owes c q.2 q.1)
      if !due then s
      else
        ((s.putColl x { c with late := c.late ++ [port.val] }).faultReport 0x0A port 0 (catBits rank c.cmd.collId 32)).pert 15

/-- ACK_TIMEOUT. -/
def execAckTimeout (x : Fin 4096) (port : Fin 144) (s : State) : Host.Outcome State Fault Refusal := done (ackTimeout x port s)

/-- QUORUM_WAIT turns after the quorum-th member delivered chunk i (R272): members that have sent no byte of it are left out; `begun` are the ranks that
have begun to send. -/
def quorumWait (x : Fin 4096) (i : Nat) (begun : List Nat) (miss : List Miss) (s : State) : State :=
  match s.coll x with
  | none => s
  | some c =>
    let st := c.chunk i
    let nIn := s.chunksIn c.cmd
    if !c.cmd.isQuorum ∨ c.phase = 0 ∨ i ≥ nIn ∨ (s.groupOf c).tier ≠ 1 ∨ st.reduced ∨ st.got.length < c.cmd.quorum then s
    else
      let out := (c.contributors nIn i).filter (fun k => !st.got.any (fun g => g.1 == k) &&
        (match c.parties[k]? with
          | some p => !p.isKid && !begun.contains p.rank && !c.begun.contains (k, i)
          | none => false))
      let c1 := { c.putChunk i { st with excluded := st.excluded ++ out } with
        changes := c.changes ++ out.map (fun k => (⟨i, ((c.parties[k]?).map (·.rank)).getD 0, 1, 2⟩ : Change)) }
      let s := s.putColl x c1
      let s := out.foldl (fun s k => (if c.loaded then s.deliverNone x i k else s).bitEvent c.step 3) s
      match s.coll x with
      | none => s
      | some c => if !c.loaded && s.filled c i then (s.chunkWhole x i miss).settle x else s.settle x

/-- QUORUM_WAIT. -/
def execQuorumWait (x : Fin 4096) (i : Nat) (begun : List Nat) (miss : List Miss) (s : State) : Host.Outcome State Fault Refusal :=
  done (quorumWait x i begun miss s)

end Sys2Proof.Machine
end

