-- ==== Sys2Proof/Machine/Secure.lean ====
section
/-!
DEFINITION. What the other chapters need of the secure core: the SIGNATURE trap (R534), envelopes (R519 to R521), memory ownership (R522, R523),
who may command (R524), and the identity the device signs with (R511).
-/
namespace Sys2Proof.Machine
open Sys2Proof

/-! ### The SIGNATURE trap -/

/-- Where a failing check arose (SIG_REC0, SIG_REC1): the source, the request or coll_id, the port. -/
structure SigAt where
  source  : Nat
  request : Nat
  port    : Nat
  deriving DecidableEq, Repr

/-- The mailbox as a source. -/
def SigAt.mailbox : SigAt := ⟨0, 0xFFFFFFFF, 0xFF⟩

/-- Raise SIGNATURE (R534). -/
def State.sigTrap (s : State) (cause kind key : Nat) (at_ : SigAt) : State :=
  let s := s.inc F.SIG_COUNT_failed
  if s.cause 10 then (s.inc F.SIG_LOST_COUNT_lost).trapNotice 0x0D at_.request 0 0 s.turn at_.port
  else
    let s := (s.sets [(F.SIG_REC0_cause, cause), (F.SIG_REC0_kind, kind), (F.SIG_REC0_key, key), (F.SIG_REC0_source, at_.source),
      (F.SIG_REC1_request, at_.request), (F.SIG_REC1_port, at_.port), (F.SIG_REC2_turn, s.turn)]).inc F.SIG_SEQ_seq
    s.trapNotice 0x0D at_.request 0 (s.get F.SIG_SEQ_seq) s.turn at_.port

/-! ### Tenants -/

/-- The enrolled tenant of an id, with its slot. -/
def State.tenant (s : State) (id : Nat) : Option (Nat × Tenant) := s.sec.tenants.items.find? (fun p => p.2.id == id)

/-- The tenant that holds a signing key. -/
def State.keyOwner (s : State) (key : Nat) : Option (Nat × Tenant × TenKey) :=
  findMap? (fun (p : Nat × Tenant) => (p.2.keys.find? (fun k => k.id == key)).map (fun k => (p.1, p.2, k))) s.sec.tenants.items

/-- The device identifier as SEC_ID0 and SEC_ID1 hold it (R512). -/
def State.dev (s : State) : List Byte := leBytes (s.word R.SEC_ID0).toNat 8 ++ leBytes (s.word R.SEC_ID1).toNat 8

/-- K_env_t (Table 16-2). -/
def State.envKey (s : State) (t : Tenant) : List Byte := hkdf384 [] t.trs (ascii "KZ4810-ENV" ++ s.dev) 32

/-- K_snap of a tenant and object (Table 16-2). -/
def snapKey (t : Tenant) (object : Nat) : List Byte := hkdf384 [] t.trs (ascii "KZ4810-SNAP" ++ leBytes object 8) 32

/-- Does a tenant have permission bit `b` (Table 16-5)? -/
def Tenant.may (t : Tenant) (b : Nat) : Bool := bit t.perm b

/-! ### Envelopes -/

/-- A field of an object's bytes, little-endian. -/
def fieldOf (b : List Byte) (off n : Nat) : Nat := leNat ((b.drop off).take n)

/-- Bytes of an envelope before its body (Table 07-9). -/
def envHead : Nat := 0x12C0

/-- Is the kind encrypted (Table 16-6)? -/
def encKind (k : Nat) : Bool := k == 4 || k == 6

/-- The permission a kind needs of a tenant (Table 16-6); none where it needs none. -/
def kindPerm (k : Nat) : Option Nat :=
  match k with
  | 1 => some 0
  | 2 => some 1
  | 3 => some 1
  | 4 => some 2
  | 7 => some 4
  | _ => none

/-- All bytes 0? -/
def zeros (b : List Byte) : Bool := b.all (· == 0)

/-- Check 1 of Table 16-7. -/
def envShape (e : List Byte) (kind : Nat) : Bool :=
  let body := e.drop envHead
  decide (e.length ≥ envHead) && fieldOf e 0 4 == 0x45565A4B && fieldOf e 4 2 == 1 && fieldOf e 6 2 == kind
    && fieldOf e 0x0C 4 == body.length && zeros ((e.drop 0x12B3).take 13)
    && (!encKind kind || (decide (body.length ≥ 32) && zeros ((body.drop 8).take 8) && zeros ((e.drop 0x40).take (96 + 4627))))

/-- The keys an envelope names (check 2 of Table 16-7): the tenant's slot and record where one does, the ECDSA and ML-DSA keys. -/
def State.envSigner (s : State) (e : List Byte) (kind : Nat) (tenant : Option Nat) : Option (Option (Nat × Tenant) × List Byte × List Byte) :=
  let key := fieldOf e 8 4
  if key = 0 then (if kind = 5 ∨ kind = 7 then some (none, Config.hubodaEc, Config.hubodaPq) else none)
  else match s.keyOwner key with
    | none => none
    | some (k, t, tk) =>
      let perm := match kindPerm kind with
        | some b => t.may b
        | none => kind != 5
      if perm && (tenant.isNone || tenant == some t.id) then some (some (k, t), tk.ec, tk.pq) else none

/-- The additional authenticated data of an encrypted envelope (R519). -/
def envAad (e : List Byte) : List Byte := e.take 0x10 ++ List.replicate 0x30 0

/-- The checks of Table 16-7 in order: the first cause that fails, or the object with the tenant whose counter it advances. -/
def State.envCheck (s : State) (e : List Byte) (kind : Nat) (tenant : Option Nat) : Except Nat (List Byte × Option (Nat × Tenant × Nat)) :=
  let body := e.drop envHead
  if !envShape e kind then .error 1
  else match s.envSigner e kind tenant with
    | none => .error 2
    | some (who, ec, pq) =>
      if sha384 body ≠ (e.drop 0x10).take 48 then .error 3
      else if !encKind kind then
        if !Config.ecdsaOk ec (e.take 0x40) ((e.drop 0x40).take 96) then .error 4
        else if !Config.mldsaOk pq (e.take 0x40) ((e.drop 0xA0).take 4627) then .error 5
        else .ok (body, none)
      else match who with
        | none => .error 2
        | some (k, t) =>
          let ctr := fieldOf body 0 8
          let iv := body.take 12
          let ct := body.drop 32
          if ctr < t.last ∨ ctr < t.envBase then .error 7
          else if t.trs = [] ∨ gcmTag (s.envKey t) iv (envAad e) ct ≠ (body.drop 16).take 16 then .error 6
          else .ok (gcmCrypt (s.envKey t) iv ct, some (k, t, ctr))

/-- Take an envelope (R520, R521): its object with the state that has counted it, or the state with SIGNATURE raised. -/
def State.takeEnvelope (s : State) (e : List Byte) (kind : Nat) (tenant : Option Nat) (at_ : SigAt) : Except State (List Byte × State) :=
  match s.envCheck e kind tenant with
  | .error c => .error (s.sigTrap c kind (fieldOf e 8 4) at_)
  | .ok (b, adv) =>
    let s := s.inc F.SIG_COUNT_passed
    .ok (b, match adv with
      | some (k, t, ctr) => { s with sec.tenants := s.sec.tenants.put k { t with last := ctr + 1 } }
      | none => s)

/-- An encrypted envelope of kind 6 that the device writes under a tenant's key (R526). -/
def State.sealEnvelope (s : State) (t : Tenant) (key : Nat) (plain : List Byte) : List Byte :=
  let iv := leBytes t.outCtr 8 ++ leBytes 0 4
  let ct := gcmCrypt (s.envKey t) iv plain
  let head := leBytes 0x45565A4B 4 ++ leBytes 1 2 ++ leBytes 6 2 ++ leBytes key 4 ++ leBytes (32 + plain.length) 4
  let tag := gcmTag (s.envKey t) iv (head ++ List.replicate 0x30 0) ct
  let body := iv ++ leBytes 0 4 ++ tag ++ ct
  head ++ sha384 body ++ List.replicate (96 + 4627 + 13) 0 ++ body

/-! ### Memory ownership (R522, R523) -/

/-- The granule of an address: 1 GiB of HBM or LPDDR, a 1 MiB region of the reservoir. -/
def granuleOf (level addr : Nat) : Nat := level * 65536 + addr / (if level = 0 then 2 ^ 20 else 2 ^ 30)

/-- The tenant that owns an address; unassigned memory belongs to tenant 0. -/
def State.ownerOf (s : State) (level addr : Nat) : Nat := s.sec.owners.rd (granuleOf level addr)

/-- Does a tenant own a whole range? -/
def State.owns (s : State) (tenant level addr n : Nat) : Bool :=
  let g := granuleOf level addr
  (List.range (granuleOf level (addr + (n - 1)) - g + 1)).all (fun i => s.sec.owners.rd (g + i) == tenant)

/-! ### Who may command (R524) -/

/-- The permission an op needs: fabric for LOAD_ROUTES and LOAD_PROFILE. -/
def opFabric (op : Nat) : Bool := op == 0x30 || op == 0x33

/-- Check 4 of Table 08-1 without the envelope: the tenant is enrolled, and its policy admits the queue. -/
def State.mayCommand (s : State) (q : Nat) (c : Cmd) : Bool :=
  match s.tenant c.tenant with
  | none => false
  | some (_, t) =>
    (if s.get (F.Q_CTL_owner q) = 0 then t.may 3 else bit t.ports (s.get (F.Q_CTL_port q))) && (!opFabric c.op || t.may 5)

/-! ### Identity (R511) -/

/-- The image of a slot and stage, with its svn. -/
def State.image (s : State) (slot stage : Nat) : Nat × List Byte :=
  let f := s.sec.fw.find slot
  match if stage = 1 then f.bind (·.s1) else f.bind (·.s2) with
  | some p => p
  | none => (0, Config.factoryImage slot stage)

/-- The image of a stage that runs: one that a RECOVER booted, else that of the slot that booted. -/
def State.runImage (s : State) (stage : Nat) : Nat × List Byte :=
  match if stage = 1 then s.sec.live.s1 else s.sec.live.s2 with
  | some p => p
  | none => s.image (s.get F.SEC_STATUS_boot_slot) stage

/-- The unique device secret: erased in RMA and SCRAP (Table 16-3). -/
def State.uds (s : State) : List Byte := if 2 ≤ s.get F.SEC_STATUS_lifecycle then [] else Config.uds.toList

/-- CDI_2 of the firmware that runs (R511). -/
def State.cdi2 (s : State) : List Byte :=
  let c1 := hkdf384 [] s.uds (sha384 (s.runImage 1).2 ++ [BitVec.ofNat 8 (s.get F.SEC_STATUS_lifecycle), BitVec.ofNat 8 (s.get F.SEC_STATUS_debug)]) 48
  hkdf384 [] c1 (sha384 (s.runImage 2).2) 48

/-- The alias pair's signatures over a message: ECDSA, then ML-DSA-87 (R350). -/
def State.aliasSign (s : State) (m : List Byte) : List Byte := (Config.aliasEc s.cdi2 m).toList ++ (Config.aliasPq s.cdi2 m).toList

end Sys2Proof.Machine
end

