-- ==== Sys2Proof/Machine/NorCommit.lean ====
section
/-!
DEFINITION. Norm partials (R308 to R311), COMMIT and DISCARD (R315 to R317), snapshots and restores (R321 to R324).
-/
namespace Sys2Proof.Machine
open Sys2Proof

/-! ### NORM_PART (R308, R311) -/

/-- Put a norm set. -/
def State.putNorm (s : State) (set : Nat) (n : Norm) : State := { s with nor.norms := s.nor.norms.put set n }

/-- Is the norm of a step pending on a set: has a member shard an accepted clipped update of the step, or one complete that waits for COMMIT or
DISCARD (Table 09-3, log entry 26)? -/
def State.normPending (s : State) (set step : Nat) : Bool :=
  s.accepted.any (fun k => k.cmd.op == 0x0C && k.step == step && (ruleOf (ruleBytes s.nor.rules (bits k.cmd.arg1 0 8))).clip
      && (s.shard (bits k.cmd.arg0 0 10)).any (fun h => h.record.nset == set))
    || (s.normShards set).any (fun p => p.2.st == 3 && p.2.step == step)

/-- Open the norm of a step once that of the earlier one is no longer pending: its squares, parts and reports go (log entry 26). -/
def State.normRoll (s : State) (set step : Nat) : State :=
  match s.nor.norms.find set with
  | none => s
  | some n =>
    if s.normPending set n.step then s
    else s.putNorm set { n with step := step, squares := [], sent := none, parts := [], reported := [], since := s.turn, used := none, stale := false }

/-- The record a NORM_PART carries: malformed, cut short or not delimited, it is one poisoned record of its own count or 1. -/
def normRec (b : List Byte) : Rec × Bool :=
  let own := if b.length ≥ 8 ∧ leNat ((b.drop 4).take 4) ≠ 0 then leNat ((b.drop 4).take 4) else 1
  match nextRec .c2176 (b.map (·, false)) with
  | some (r, _) => if r.malformed .c2176 then (Rec.poison own, true) else (r, false)
  | none => (Rec.poison own, true)

/-- A NORM_PART that is a membership event (R308, R282). A NORM_PART has no coll_id, chunk index and header rank, and for codes other than 7 no group:
what the record holds of them is free. -/
def State.normEvent (s : State) (port code n : Nat) : State :=
  let id := s.free 32
  let chunk := id.2.free 32
  let rank := chunk.2.free 16
  let group := if code = 7 then (0xFFFF, rank.2) else rank.2.free 16
  group.2.membership none id.1 chunk.1 rank.1 port code group.1 n

/-- A peer's norm partial arrives on a port (R308). -/
def normPart (re : Bool) (port : Fin 144) (set : Fin 16) (sender : BitVec 16) (step : BitVec 64) (record : List Byte) (s : State) : State :=
  let s := if s.normPending set step.toNat then s.normRoll set step.toNat else s
  let ev := fun (code : Nat) => s.normEvent port code (16 + record.length)
  match s.nor.norms.find set with
  | none => ev 7
  | some n =>
    if n.step ≠ step.toNat ∨ s.normPending set n.step = false then ev 7
    else if !n.peers.contains sender.toNat then ev 1
    else if !re ∧ n.parts.any (fun p => p.1 == sender.toNat) then ev 2
    else
      let r := normRec record
      let s := if r.2 then s.inc F.CIS_BAD_RECORD_COUNT_bad else s
      (s.putNorm set { n with parts := n.parts.filter (fun p => p.1 != sender.toNat) ++ [(sender.toNat, r.1)] }).normRestart set

/-- NORM_PART. -/
def execNormPart (re : Bool) (port : Fin 144) (set : Fin 16) (sender : BitVec 16) (step : BitVec 64) (record : List Byte) (s : State) :
    Host.Outcome State Fault Refusal :=
  done (s.through [ingressOf port] (.normPart re port set sender step record) (normPart re port set sender step record))

/-- A peer's record has not come within ACK_TIMEOUT of the local slot's leaving: reported once (R308). -/
def normTimeout (set : Fin 16) (peer : BitVec 16) (s : State) : State :=
  match s.nor.norms.find set with
  | none => s
  | some n =>
    let p := peer.toNat
    if n.sent.isNone ∨ !n.peers.contains p ∨ n.parts.any (fun q => q.1 == p) ∨ n.reported.contains p then s
    else ((s.putNorm set { n with reported := n.reported ++ [p] }).faultReport 0x0B set 0 p).pert 15

/-- NORM_PEER_TIMEOUT. -/
def execNormPeerTimeout (set : Fin 16) (peer : BitVec 16) (s : State) : Host.Outcome State Fault Refusal := done (normTimeout set peer s)

/-! ### Snapshots (R321 to R323) -/

/-- The image bytes of a copy: the planes, or every row's live version (R321). -/
def State.snapImage (s : State) (h : Shard) : List Byte :=
  if h.record.skind = 0 then s.planeBytes h h.live
  else (List.range h.record.rows).flatMap (fun r =>
    s.memBytes h.record.level (h.record.base (s.rowCopy h h.live r) + r * h.record.rowBytes) h.record.rowBytes)

/-- The manifest (Table 09-15). -/
def manifest (h : Shard) (image : List Byte) : List Byte :=
  leBytes h.record.w 128 ++ leBytes h.t 8 ++ leBytes (if h.record.hasMask then h.ver h.live else 0) 4 ++ leBytes 0 4 ++
    (h.planes.flatMap (fun n => leBytes n 8)) ++ sha256 image ++ List.replicate 32 0

/-- The image cut in segments: the manifest, then pieces of at most 65,536 bytes. -/
def snapSegs (m image : List Byte) : List (List Byte) := m :: pieces 65536 ((image.length + 65535) / 65536) image

/-- The nonce of a segment (R322). -/
def segNonce (shard t seg : Nat) : List Byte := leBytes seg 4 ++ leBytes t 6 ++ leBytes shard 2

/-- The header of a SNAP_SEG (Table 09-12). -/
def segHeader (last : Bool) (shard seg t object n : Nat) : List Byte :=
  leBytes (packBits [(0, 8, 0x30), (8, 1, b2n last), (16, 10, shard), (32, 32, seg), (64, 64, t), (128, 64, object), (192, 32, n)]) 32

/-- The snapshot key of a tenant and object. -/
def State.snapKeyOf (s : State) (tenant object : Nat) : List Byte :=
  match s.tenant tenant with
  | some (_, t) => snapKey t object
  | none => []

/-- The storage endpoint on a port. -/
def State.endpoint (s : State) (port : Nat) : Nat := catBits s.me port 8

/-- Send a snapshot of a shard's live copy (R321, R322). -/
def State.snapStart (s : State) (n : Nat) (h : Shard) : State :=
  let image := s.snapImage h
  let segs := snapSegs (manifest h image) image
  let object := h.record.snapObject
  let key := s.snapKeyOf h.record.tenant object
  let s := (segs.zipIdx).foldl (fun s p =>
    let head := segHeader (p.2 + 1 == segs.length) n p.2 h.t object p.1.length
    let iv := segNonce n h.t p.2
    let ct := gcmCrypt key iv p.1
    s.emit (.msg (s.endpoint h.record.snapPort) clsD (head ++ ct ++ gcmTag key iv head ct))) s
  s.putShard n { h with snap := some ⟨h.t, h.live, segs.length, List.range segs.length, s.turn⟩, wanted := false, due := false }

/-- The snapshot of a shard has ended: one that came due meanwhile begins (R321). -/
def State.snapNext (s : State) (n : Nat) : State :=
  match s.shard n with
  | some h => if h.due && h.snap.isNone then s.snapStart n h else s
  | none => s

/-- End a snapshot as failed (R323). -/
def State.snapFail (s : State) (n : Nat) (h : Shard) (p : Snap) : State :=
  (((s.putShard n { h with snap := none }).inc F.SNAP_COUNT_failed).faultReport 0x0D n 0 p.t).snapNext n

/-- The snapshot notice to the watermaster names shard and t; the spec gives it no type code (log entry 25). -/
def State.snapNotice (s : State) (n t : Nat) : State :=
  let r := s.free 8
  r.2.sendWm r.1 32 [(32, 10, n), (64, 64, t)]

/-- The shard whose running snapshot has an object and a count. -/
def State.snapOf (s : State) (object t : Nat) : Option (Nat × Shard × Snap) :=
  findMap? (fun (p : Nat × Shard) => match p.2.snap with
    | some q => if p.2.record.snapObject = object ∧ q.t = t then some (p.1, p.2, q) else none
    | none => none) s.nor.shards.items

/-- A storage acknowledgement (R323). -/
def snapAck (status : BitVec 8) (seg : BitVec 32) (t object : BitVec 64) (s : State) : State :=
  match s.snapOf object.toNat t.toNat with
  | none => s
  | some (n, h, p) =>
    if status ≠ 0 then s.snapFail n h p
    else
      let owed := p.owed.filter (· != seg.toNat)
      if owed.isEmpty then (((s.putShard n { h with snap := none }).inc F.SNAP_COUNT_done).snapNotice n p.t).snapNext n
      else s.putShard n { h with snap := some { p with owed := owed } }

/-- SNAP_ACK. -/
def execSnapAck (status : BitVec 8) (seg : BitVec 32) (t object : BitVec 64) (s : State) : Host.Outcome State Fault Refusal :=
  done (snapAck status seg t object s)

/-- No acknowledgement of a segment within ACK_TIMEOUT (R323). -/
def snapTimeout (n : Fin 1024) (s : State) : State :=
  match s.shard n with
  | some h => match h.snap with
    | some p => s.snapFail n h p
    | none => s
  | none => s

/-- SNAPSHOT_TIMEOUT. -/
def execSnapshotTimeout (n : Fin 1024) (s : State) : Host.Outcome State Fault Refusal := done (snapTimeout n s)

/-- A write of SNAP_REQ (Table 09-14). -/
def snapReq (n : Fin 1024) (s : State) : State :=
  match s.shard n with
  | some h => s.putShard n { h with wanted := true }
  | none => s

/-- SNAP_REQ. -/
def execSnapReq (n : Fin 1024) (s : State) : Host.Outcome State Fault Refusal := done (s.bar (snapReq n))

/-! ### Restore (R324) -/

/-- A write of NOR_RESTORE. -/
def norRestore (n : Fin 1024) (port : BitVec 8) (s : State) : State :=
  let reject := (s.inc F.NOR_REJ_COUNT_rej).set F.NOR_REJ_ADDR_addr R.NOR_RESTORE
  match s.shard n with
  | none => reject
  | some h =>
    if h.st ≠ 0 ∧ h.st ≠ 5 then reject
    else
      let object := s.get F.NOR_RESTORE_OBJ_object
      (s.putShard n { h with st := 4, restore := some ⟨port.toNat, object, [], none, 0⟩ }).emit
        (.msg (s.endpoint port.toNat) clsD (leBytes (packBits [(0, 8, 0x32), (128, 64, object)]) 32))

/-- NOR_RESTORE. -/
def execNorRestore (n : Fin 1024) (port : BitVec 8) (s : State) : Host.Outcome State Fault Refusal := done (s.bar (norRestore n port))

/-- The kept positions a mask plane marks below `n`. -/
def keptOf (r : ShardRec) (plane : List Byte) : Nat :=
  ((List.range r.n).filter (fun p => bit (elemAt r.maskG plane (p / r.maskG)) (p % r.maskG))).length

/-- Cut an image in planes. -/
def cutPlanes : List Nat → List Byte → List (List Byte)
  | [], _ => []
  | n :: ns, b => b.take n :: cutPlanes ns (b.drop n)

/-- The planes of a whole image, with the kept count it implies, when every check of R324 holds. -/
def imagePlanes (h : Shard) (m image : List Byte) : Option (Shard × List (List Byte)) :=
  let lens := (List.range 6).map (fun i => fieldOf m (0x90 + 8 * i) 8)
  let planes := cutPlanes lens image
  let r := h.record
  let h1 := { h with kept := if r.sparse then keptOf r (planes.getD 5 []) else 0 }
  if m.length = 256 ∧ leNat (m.take 128) = r.w ∧ lens = h1.planes ∧ lens.sum = image.length ∧ (m.drop 0xC0).take 32 = sha256 image then
    some (h1, planes)
  else none

/-- Write the planes of an image to copy A (R324). -/
def State.putImage (s : State) (h : Shard) (planes : List (List Byte)) : State :=
  let r := h.record
  let s := (planes.zipIdx).foldl (fun s p => s.memWr r.level (r.base 0 + h.planeOff p.2) p.1) s
  if r.skind = 0 then s
  else [0, 1].foldl (fun s c => s.memWr r.level (r.base c + r.bitmapOff) (List.replicate ((r.rows + 7) / 8) 0)) s

/-- A returned segment: verified, kept, and with the last one in, the image checked and written (R324). -/
def restoreSegment (n : Fin 1024) (last : Bool) (seg : BitVec 32) (t : BitVec 64) (object : BitVec 64) (ct tag : List Byte) (s : State) : State :=
  match s.shard n with
  | none => s
  | some h => match h.restore with
    | none => s
    | some r =>
      if r.object ≠ object.toNat then s
      else
        let key := s.snapKeyOf h.record.tenant r.object
        let head := segHeader last n seg.toNat t.toNat r.object ct.length
        let iv := segNonce n t.toNat seg.toNat
        if gcmTag key iv head ct ≠ tag then
          ((s.putShard n { h with st := 0, restore := none }).inc F.SNAP_COUNT_failed).sigTrap 0x0B 0 0 ⟨4, 0xFFFFFFFF, r.port⟩
        else
          let r := { r with segs := r.segs.put seg.toNat (gcmCrypt key iv ct), last := if last then some seg.toNat else r.last, t := t.toNat }
          match r.last with
          | none => s.putShard n { h with restore := some r }
          | some k =>
            if !(List.range (k + 1)).all (fun i => (r.segs.find i).isSome) then s.putShard n { h with restore := some r }
            else
              let m := (r.segs.find 0).getD []
              let image := ((List.range k).map (fun i => (r.segs.find (i + 1)).getD [])).flatten
              match imagePlanes h m image with
              | none => (s.putShard n { h with st := 0, restore := none }).inc F.SNAP_COUNT_failed
              | some (h1, planes) =>
                (s.putImage h1 planes).putShard n { h1 with
                  st := 1, live := 0, t := fieldOf m 0x80 8, ver0 := fieldOf m 0x88 4, ver1 := 2 ^ 32, restore := none, skipped := false }

/-- RESTORE_SEGMENT. -/
def execRestoreSegment (n : Fin 1024) (last : Bool) (seg : BitVec 32) (t object : BitVec 64) (ct tag : List Byte) (s : State) :
    Host.Outcome State Fault Refusal :=
  done (restoreSegment n last seg t object ct tag s)

/-! ### COMMIT and DISCARD (R315 to R317) -/

/-- An answer to COMMIT or DISCARD (Table 09-10). -/
def State.commitAnswer (s : State) (type reason step shard : Nat) : State :=
  s.sendWm type 32 [(8, 8, reason), (64, 64, step), (128, 64, s.turn), (192, 16, shard)]

/-- COMMIT_NACK. -/
def State.commitNack (s : State) (reason step shard : Nat) : State :=
  (s.inc F.NOR_COMMIT_COUNT_nacks).commitAnswer 0x13 reason step shard

/-- A COMMIT arrives (R316): refused, or armed for its turn. The standby holds it, takes its step as decided, and acknowledges its arrival (R481, log entry 33). -/
def commit (step turn : BitVec 64) (s : State) : State :=
  if s.get F.NOR_CTL_en = 0 then s.commitNack 3 step.toNat 0xFFFF
  else if turn.toNat < s.turn then s.commitNack 2 step.toNat 0xFFFF
  else
    let s := { s with nor.armed := s.nor.armed ++ [(step.toNat, turn.toNat)] }
    if s.get F.WM_CTL_role ≠ 2 then s
    else { s with flt.held := some (0x10, step.toNat, turn.toNat), flt.settled := s.flt.settled ++ [step.toNat] }.commitAnswer 0x12 0 step.toNat 0xFFFF

/-- COMMIT. -/
def execCommit (step turn : BitVec 64) (s : State) : Host.Outcome State Fault Refusal := done (commit step turn s)

/-- The ports of the endpoints that hold a rank in a group of a collective of the step (R353). -/
def State.stepPorts (s : State) (step : Nat) : List Nat :=
  ((s.det.audit.ends.filter (fun e => e.step == step)).flatMap (·.ports) ++
    ((s.cp.colls.items).filter (fun p => p.2.step == step)).flatMap (fun p => (s.groupOf p.2).members.map (·.port))).dedup

/-- COMMIT_NOTICE or DISCARD_NOTICE to the endpoints of a step (R353). -/
def State.notices (s : State) (type step turn : Nat) : State :=
  (s.stepPorts step).foldl (fun s p => s.send (s.endpoint p) clsS 32 [(0, 8, type), (16, 16, s.me), (64, 64, step), (128, 64, turn)]) s

/-- Flip one updated shard (R316). -/
def Shard.flip (h : Shard) : Shard :=
  { h with st := 1, live := 1 - h.live, t := if h.skipped then h.t else h.t + 1, skipped := false }

/-- Flip every shard of the step at once, and start the snapshots that are due (R316, R321), each once an earlier one of its shard has ended. -/
def State.flipStep (s : State) (step : Nat) : State :=
  let l := s.nor.shards.items.filter (fun p => p.2.st == 3 && p.2.step == step)
  let s := l.foldl (fun s p => s.putShard p.1 p.2.flip) s
  l.foldl (fun s p =>
    let h := p.2.flip
    let due := !p.2.skipped && h.record.snapEvery != 0 && h.t % h.record.snapEvery == 0
    if !(due || h.wanted) then s
    else if h.snap.isNone then s.snapStart p.1 h else s.putShard p.1 { h with wanted := false, due := true }) s

/-- The commit turn of one COMMIT (R316); another COMMIT of the step stays armed for its own turn. The answer is whether the commit took effect. -/
def State.commitApply (s : State) (step turn : Nat) : Bool × State :=
  let s := { s with nor.armed := s.nor.armed.erase (step, turn) }
  match s.nor.shards.items.find? (fun p => p.2.st == 2 && p.2.step == step) with
  | some (n, _) => (false, s.commitNack 1 step n)
  | none =>
    let s := s.flipStep step
    let s := ((s.inc F.NOR_COMMIT_COUNT_acks).set F.NOR_LAST_COMMIT_step step).commitAnswer 0x12 0 step 0xFFFF
    let s := s.notices 0x42 step turn
    (true, { s with det.audit.prev := (step, 1, turn), det.audit.ends := s.det.audit.ends.filter (fun e => e.step != step) })

/-- The counts of Table 10-2 as they stand, unbounded. -/
def State.pertCounts (s : State) : NMap := s.det.audit.perts

/-- No event of R328 is noted for the steps that satisfy `p`. -/
def State.clearBitEvents (s : State) (p : Nat → Bool) : State := { s with bitev := SMap.erase (fun k => p (k / 8)) s.bitev }

/-- Begin step `step` anew, open at the present turn, with no event noted for it; the profile asked for takes effect (R577). -/
def State.openStep (s : State) (step : Nat) : State :=
  let s := (s.clearBitEvents (· == step)).takeProfile.sets [(F.STEP_CTR_step, step), (F.STEP_STATUS_strict, s.get F.GCTL_strict), (F.STEP_STATUS_accepted, 0)]
  { s with det.audit.steps := s.det.audit.steps.filter (fun i => i.step != step) ++
      [(⟨step, s.turn, none, s.get F.GCTL_strict, s.get F.PWR_STATUS_profile, s.pertCounts, [], [], 0⟩ : StepInfo)] }

/-- Are all collectives accepted in the step complete (R347)? -/
def State.stepDone (s : State) (step : Nat) : Bool :=
  !(s.cp.colls.items.any (fun p => p.2.step == step)) && !(s.cp.queues.any (fun q => match q.2.wait with
    | some c => c.step == step && c.cmd.isColl
    | none => false))

/-- Does a STEP_CLOSE wait on collectives (R347)? -/
def State.closing (s : State) : Bool := s.det.audit.steps.any (fun i => i.closed.isSome && !s.stepDone i.step)

/-- DISCARD's effect (R317, R333): collectives of later steps end ABORTED, updated shards of the step and later go back to IDLE, and the step
counter returns. -/
def State.discardStep (s : State) (step : Nat) : State :=
  let s := s.endAll (fun c => decide (c.step > step)) 4 0
  let s := (s.nor.shards.items.filter (fun p => p.2.st == 3 && p.2.step ≥ step)).foldl (fun s p =>
    s.putShard p.1 { p.2 with st := 1, skipped := false }) s
  let s := s.clearBitEvents (step ≤ ·)
  let s := ((s.inc F.NOR_DISCARD_COUNT_discards).commitAnswer 0x14 0 step 0xFFFF).notices 0x43 step s.turn
  let s := { s with det.audit.prev := (step, 2, s.turn), det.audit.ends := s.det.audit.ends.filter (fun e => e.step < step),
                    det.audit.shards := s.det.audit.shards.filter (fun e => e.step < step),
                    det.audit.steps := s.det.audit.steps.filter (fun i => i.step < step) }
  s.openStep step

end Sys2Proof.Machine
end

