-- ==== Sys2Proof/Machine/GatherIns.lean ====
section
/-!
DEFINITION. GATH, SCADD (R224 to R227, R457 to R460) and RNGK (R228).
-/
namespace Sys2Proof.Machine
open Sys2Proof

/-- The table a handle names for a context's program; none outside a command. -/
def State.tableAt (s : State) (c : Ctx) (h : Nat) : Option TableRec :=
  match c.coll.bind s.coll with
  | some q => s.tableOf q.cmd h
  | none => none

/-- An index lane as u32 (R225). -/
def Ctx.index (c : Ctx) (r i : Nat) : Nat × Bool := ((c.lane r i).bits % 2 ^ 32, (c.lane r i).pois)

/-! ### GATH -/

/-- Request the row of one lane (R225, R459): its bytes behind those of the lanes before it, and the lanes whose rows are poison. The table's
live copy is read when the request is made. -/
def gathOne (a : Site) (c : Ctx) (f : LG) (t : TableRec) (st : State × List (Byte × Bool) × List Nat) (i : Nat) :
    State × List (Byte × Bool) × List Nat :=
  let s := st.1
  let ix := c.index f.va.toNat i
  if ix.2 ∨ ix.1 ≥ t.rows then
    (s.gatherIndex c.coll c.chunk ix.1 a.eng i f.tbl.toNat 0 ix.2, st.2.1 ++ s.poisonRow t, st.2.2 ++ [i])
  else (s.inc F.TRN_COUNT_requests (rowRequests t), st.2.1 ++ s.rowData t ix.1, st.2.2)

/-- Requests of a cluster that wait in the turnout's queue. -/
def State.turnoutQueue (s : State) (cluster : Nat) : Nat := (s.eng.reqs.filter (fun r => r.eng / 8 == cluster)).length

/-- GATH's body (R225). Behind other requests of its cluster, the predictor fetches its rows ahead (R462). -/
def gathBody (a : Site) (f : LG) (s : State) (c : Ctx) : Act :=
  let k := f.stream.toNat
  match s.strm a.eng k, s.tableAt c f.tbl.toNat with
  | some t, some tb =>
    let on := c.enabledList f.pg.toNat 13
    let n := on.length * tb.rowBytes
    if t.land.length + t.rowsDue + n > t.cap then .wait 3
    else
      let r := on.foldl (gathOne a c f tb) (s, [], [])
      let good := (on.filter (fun i => !r.2.2.contains i)).map (fun i => (c.index f.va.toNat i).1)
      let s := if s.turnoutQueue (a.eng / 8) = 0 then r.1 else r.1.lookAhead tb good
      let served := if s.predicted tb then good.map (fun i => (s.rowPlace tb i).2) else []
      let s := s.putStrm a.eng k { t with rowsDue := t.rowsDue + n }
      .next { s with eng.reqs := s.eng.reqs ++ [⟨a.eng, a.ctx, c.issued, .rows k r.2.1 r.2.2 tb.fmt served tb.rowBytes⟩] }
        { c with open_ := c.open_ ++ [c.issued] } []
  | _, _ => .wait 3

/-- GATH (R225). -/
def execGath (a : Site) (f : LG) (s : State) : Host.Outcome State Fault Refusal :=
  done (issue a (f.word 0x68) f.fmt.toNat .none (gathBody a f) s)

/-! ### SCADD -/

/-- One lane of SCADD (R226, R459): a request to its slot, or GATHER_INDEX. -/
def scaddOne (a : Site) (c : Ctx) (f : LG) (t : TableRec) (st : State × List Req) (i : Nat) : State × List Req :=
  let ix := if f.shape = 0 then c.index f.va.toNat i else (c.sc f.sRow.toNat, false)
  let col := c.sc f.sCol.toNat + (if f.shape = 0 then 0 else i)
  if ix.2 ∨ ix.1 ≥ t.rows ∨ col ≥ t.cols then
    (st.1.gatherIndex c.coll c.chunk ix.1 a.eng i f.tbl.toNat 2 ix.2, st.2)
  else
    let v := c.elem (st.1.fmt f.fmt.toNat) f.vb.toNat i
    (st.1, st.2 ++ [⟨a.eng, a.ctx, c.issued, .add t ix.1 col f.fmt.toNat v.bits v.pois⟩])

/-- Has the cluster's turnout queue room for 128 requests (R226)? An empty one has; how many it holds else is open (log entry 19). -/
def State.turnoutRoom (s : State) (cluster : Nat) : Bool := s.turnoutQueue cluster == 0 || Config.turnoutRoom (s.turnoutQueue cluster)

/-- SCADD's body (R226). -/
def scaddBody (a : Site) (f : LG) (s : State) (c : Ctx) : Act :=
  match s.tableAt c f.tbl.toNat with
  | none => .wait 3
  | some t =>
    if !s.turnoutRoom (a.eng / 8) then .wait 3 else
    let r := (c.enabledList f.pg.toNat f.fmt.toNat).foldl (scaddOne a c f t) (s, [])
    .next { r.1 with eng.reqs := r.1.eng.reqs ++ r.2 }
      { c with open_ := if r.2.isEmpty then c.open_ else c.open_ ++ [c.issued] } []

/-- SCADD (R226). -/
def execScadd (a : Site) (f : LG) (s : State) : Host.Outcome State Fault Refusal :=
  done (issue a (f.word 0x69) f.fmt.toNat (.src [f.vb.toNat] (s.fmt f.fmt.toNat)) (scaddBody a f) s)

/-! ### RNGK -/

/-- The tenant of a context's command. -/
def State.tenantOf (s : State) (c : Ctx) : Nat := ((c.coll.bind s.coll).map (fun q => q.cmd.tenant)).getD 0

/-- The generator key of seed slot `j` of the seed set bound to a program: its tenant's (R228, R334). -/
def State.seedKeyOf (s : State) (c : Ctx) (j : Nat) : List Byte :=
  match s.seedSetOf (s.tenantOf c) with
  | some p => seedKey j (p.2.seeds.getD j [])
  | none => []

/-- RNGK's body (R228): gen 0 sets the key and the tensor identifier, gen 1 writes the generator's values. -/
def rngkBody (f : LV) (s : State) (c : Ctx) : Act :=
  if bit f.ext.toNat 19 then
    .next s (c.setReg f.vd.toNat (putElems (builtinFmt 13) (c.reg f.vd.toNat) (fun i =>
      if c.enabled f.pg.toNat 13 i then
        some ⟨rndOf 4 c.rngKey c.tau (s.stepOf c.coll) (c.sc f.sx.toNat + i), false⟩
      else none))) []
  else .next s { c with rngKey := s.seedKeyOf c (bits f.ext.toNat 15 4), tau := c.sc (f.va.toNat % 16) % 2 ^ 32 } []

/-- RNGK (R228). -/
def execRngk (a : Site) (f : LV) (s : State) : Host.Outcome State Fault Refusal :=
  done (issue a (f.word 0x70) 0 (if bit f.ext.toNat 19 then .vec f.vd.toNat 1 (builtinFmt 13) else .none) (rngkBody f) s)

end Sys2Proof.Machine
end

