-- ==== Sys2Proof/Machine/SyncIns.lean ====
section
/-!
DEFINITION. WAITEV, SIGEV, FENCE, LOCK, LOOP, BRP and HALT (R229 to R236).
-/
namespace Sys2Proof.Machine
open Sys2Proof

/-- The event counter bound to handle `h`: evbase + h (Table 08-2, R240). -/
def State.eventOf (s : State) (c : Ctx) (h : Nat) : Nat :=
  (((c.coll.bind s.coll).map (fun q => q.cmd.evbase)).getD 0 + h) % 4096

/-- WAITEV's body (R230): done at once when the counter has reached the threshold, else the context waits. -/
def waitevBody (f : LK) (s : State) (c : Ctx) : Act :=
  let n := s.eventOf c f.h.toNat
  let t := (c.sc f.sa.toNat + f.imm.toNat) % 2 ^ 32
  if s.evtMet n t then .next s c [] else .next s { c with st := 4, wait := .event n t } []

/-- WAITEV (R230). -/
def execWaitev (a : Site) (f : LK) (s : State) : Host.Outcome State Fault Refusal :=
  done (issue a (f.word 0x78) 0 .none (waitevBody f) s)

/-- SIGEV's body (R231): added once every earlier operation of the context has taken effect. -/
def sigevBody (f : LK) (s : State) (c : Ctx) : Act :=
  let n := s.eventOf c f.h.toNat
  if c.open_.isEmpty then .next (s.evtAdd n f.imm.toNat) c []
  else .next s { c with sigs := c.sigs ++ [⟨n, f.imm.toNat, c.issued⟩] } []

/-- SIGEV (R231). -/
def execSigev (a : Site) (f : LK) (s : State) : Host.Outcome State Fault Refusal :=
  done (issue a (f.word 0x79) 0 .none (sigevBody f) s)

/-- FENCE's body (R232): waits for the earlier operations; with fab = 1 the next packet on each output port is flagged. -/
def fenceBody (f : LK) (s : State) (c : Ctx) : Act :=
  let c := if f.fab = 1 then { c with fab := 3 } else c
  if c.open_.isEmpty then .next s c [] else .next s { c with st := 4, wait := .fence (f.fab == 1) } []

/-- FENCE (R232). -/
def execFence (a : Site) (f : LK) (s : State) : Host.Outcome State Fault Refusal :=
  done (issue a (f.word 0x7A) 0 .none (fenceBody f) s)

/-- LOCK's body (R233): the context waits until the lock completes. -/
def lockBody (f : LK) (s : State) (c : Ctx) : Act :=
  .next s { c with st := 4, wait := .lock f.h.toNat (f.wc == 1) f.sd.toNat } []

/-- The arrival of a context at its lock, once its LOCK has issued (R343). -/
def State.lockEnter (s : State) (a : Site) (f : LK) : State :=
  let c := s.ctxAt a.eng a.ctx
  match c.coll, c.wait with
  | some x, .lock h _ _ =>
    if h = f.h.toNat then
      match s.lockAt x h with
      | some l => s.lockArrive x h l.seq (ctxKey a.eng a.ctx) 1 false
      | none => s
    else s
  | _, _ => s

/-- LOCK (R233, R343). -/
def execLock (a : Site) (f : LK) (s : State) : Host.Outcome State Fault Refusal :=
  let t := issue a (f.word 0x7B) 0 .none (lockBody f) s
  done (if (s.ctxAt a.eng a.ctx).st ≠ 4 ∧ (t.ctxAt a.eng a.ctx).st = 4 then t.lockEnter a f else t)

/-- LOOP's body (R234): the body of `imm` instructions runs trips + 1 times. -/
def loopBody (f : LL) (s : State) (c : Ctx) : Act :=
  .next s { c with loops := ⟨c.pc + 1, c.pc + f.imm.toNat % 2 ^ 12, f.trips.toNat⟩ :: c.loops } []

/-- LOOP (R234). -/
def execLoop (a : Site) (f : LL) (s : State) : Host.Outcome State Fault Refusal :=
  done (issue a (f.word 0x80) 0 .none (loopBody f) s)

/-- BRP's body (R235). -/
def brpBody (f : LK) (s : State) (c : Ctx) : Act :=
  .go s { c with pc := c.pc + 1 + (if brpTest f.cond.toNat (c.pr f.p.toNat) then f.imm.toNat else 0) } []

/-- BRP (R235). -/
def execBrp (a : Site) (f : LK) (s : State) : Host.Outcome State Fault Refusal :=
  done (issue a (f.word 0x81) 0 .none (brpBody f) s)

/-- HALT's body (R236). -/
def haltBody (s : State) (c : Ctx) : Act := .next s { c with st := 5 } []

/-- A RUN ends when every context of its program has halted and every operation of theirs has taken effect (R256, R284). -/
def State.runDone (s : State) (x : Nat) : State :=
  match s.coll x with
  | some q =>
    let cs := (s.eng.ctxs.filter (fun e => e.2.coll == some x)).map (·.2)
    if q.cmd.op = 0x0D ∧ cs.all (fun c => c.st == 5 && c.open_.isEmpty) then s.endColl x 0 0 else s
  | none => s

/-- HALT (R236). -/
def execHalt (a : Site) (f : LK) (s : State) : Host.Outcome State Fault Refusal :=
  let t := issue a (f.word 0x82) 0 .none haltBody s
  done (match (t.ctxAt a.eng a.ctx).coll with
    | some x => if (t.ctxAt a.eng a.ctx).st = 5 then t.runDone x else t
    | none => t)

end Sys2Proof.Machine
end

