-- ==== Sys2Proof/Machine/Verify.lean ====
section
/-!
DEFINITION. Program images (R238, R239) and the verifier (R244 to R247): the checks of Table 07-11, each giving the places where it fails.
-/
namespace Sys2Proof.Machine
open Sys2Proof

/-! ### Images -/

/-- A field of an image, little-endian. -/
def imgAt (b : List Byte) (off n : Nat) : Nat := leNat ((b.drop off).take n)

/-- One declaration record: its index and its 32 bytes. -/
structure Decl where
  ix : Nat
  b  : List Byte
  deriving DecidableEq, Repr

namespace Decl
/-- Field at a byte offset, `n` bytes. -/
def at_ (d : Decl) (o n : Nat) : Nat := imgAt d.b o n
/-- The kind. -/
def kind (d : Decl) : Nat := d.at_ 0 1
/-- The number or handle. -/
def num (d : Decl) : Nat := d.at_ 1 1
end Decl

/-- A program image (Tables 07-7 and 07-8). -/
structure Image where
  b : List Byte
  deriving DecidableEq, Repr

namespace Image
/-- A header field. -/
def at_ (i : Image) (o n : Nat) : Nat := imgAt i.b o n
/-- Declarations. -/
def ndecl (i : Image) : Nat := i.at_ 0x18 2
/-- Bytes of code. -/
def codeBytes (i : Image) : Nat := i.at_ 0x0C 4
/-- Bytes of initial data. -/
def dataBytes (i : Image) : Nat := i.at_ 0x2C 4
/-- The context mask. -/
def contexts (i : Image) : Nat := i.at_ 0x1A 1
/-- Where context c starts. -/
def entry (i : Image) (c : Nat) : Nat := i.at_ (0x1C + 2 * c) 2
/-- The declaration records. -/
def decls (i : Image) : List Decl := (List.range i.ndecl).map (fun k => ⟨k, (i.b.drop (64 + 32 * k)).take 32⟩)
/-- The code bytes. -/
def code (i : Image) : List Byte := (i.b.drop (64 + 32 * i.ndecl)).take i.codeBytes
/-- The initial data. -/
def data (i : Image) : List Byte := (i.b.drop (64 + 32 * i.ndecl + i.codeBytes)).take i.dataBytes
/-- The instruction words. -/
def words (i : Image) : List Nat := (List.range (i.codeBytes / 8)).map (fun k => imgAt i.code (8 * k) 8)
/-- The declaration of a kind and number. -/
def decl (i : Image) (kind num : Nat) : Option Decl := i.decls.find? (fun d => d.kind == kind && d.num == num)
/-- The declarations of a kind. -/
def ofKind (i : Image) (kind : Nat) : List Decl := i.decls.filter (fun d => d.kind == kind)
/-- The contexts used. -/
def used (i : Image) : List Nat := bitList i.contexts 8
end Image

/-- The opcode of an instruction word. -/
def opc (w : Nat) : Nat := bits w 56 8

/-! ### The fields an instruction uses (R168, Tables 06-1 to 06-3, 07-1 to 07-3) -/

/-- A mask of bits. -/
def mk (lo n : Nat) : Nat := (2 ^ n - 1) <<< lo

/-- The OR of masks. -/
def ors (l : List Nat) : Nat := l.foldl (· ||| ·) 0

/-- Bits of vd, va, vb in layout V. -/
def mVd : Nat := mk 51 5
/-- Bits of va. -/
def mVa : Nat := mk 46 5
/-- Bits of vb. -/
def mVb : Nat := mk 41 5
/-- Bits of fmt. -/
def mFmt : Nat := mk 31 5
/-- Bits of rnd. -/
def mRnd : Nat := mk 28 3
/-- Bits of pg. -/
def mPg : Nat := mk 25 3
/-- The bit bs. -/
def mBs : Nat := mk 24 1
/-- Bits of sx. -/
def mSx : Nat := mk 20 4

/-- The rounding field of a word. -/
def rndF (w : Nat) : Nat := bits w 28 3
/-- The format field of a word. -/
def fmtF (w : Nat) : Nat := bits w 31 5
/-- sx counts as used under SR alone. -/
def srSx (w : Nat) : Nat := if rndF w = 4 then mSx else 0

/-- The bits below the opcode that an instruction uses; none for a reserved opcode. The fields fmt, bs and rnd of Table 06-4's instructions
belong to check 0x05. `ord` says whether a layout C instruction's region is ordered, `mx` whether a stream is MX-scaled. -/
def usedBits (w : Nat) (ord mx : Bool) : Option Nat :=
  let o := opc w
  let v := mFmt ||| mRnd ||| mPg ||| mBs
  let blk := mk 20 4 ||| mk 16 4
  let isBlk := bits w 44 3 == 3
  if o = 0x10 ∨ o = 0x11 ∨ o = 0x12 then some (ors [mVd, mVa, mVb, v, srSx w])
  else if o = 0x13 then some (ors [mVd, mVa, mVb, mk 36 5, v, srSx w])
  else if o = 0x14 ∨ o = 0x15 then some (ors [mVd, mVa, mVb, v])
  else if o = 0x16 then some (ors [mVd, mVa, v])
  else if o = 0x17 then some (ors [mVd, mVa, v, srSx w, mk 14 6])
  else if o = 0x18 then some (ors [mk 51 3, mVa, mVb, v, mk 17 3])
  else if 0x20 ≤ o ∧ o ≤ 0x23 then some (ors [mVd, mVa, mVb, v])
  else if 0x24 ≤ o ∧ o ≤ 0x26 then some (if bit w 6 then ors [mVd, mVa, v, mk 0 7] else ors [mVd, mVa, mVb, v])
  else if o = 0x27 then some (ors [mVd, mVa, v])
  else if o = 0x28 then some (ors [mVd, mk 46 4, v])
  else if o = 0x29 then some (ors [mk 51 4, mVa, mFmt, mRnd, mBs, mk 0 7])
  else if o = 0x2A then some (ors [mVd, mk 46 4, v, mk 0 16])
  else if o = 0x2B then some (ors [mk 51 3, mk 46 3, mk 41 3, mFmt, mRnd, mBs, mk 0 2])
  else if o = 0x30 ∨ o = 0x31 then some (mk 52 4 ||| mk 0 32)
  else if o = 0x32 ∨ (0x34 ≤ o ∧ o ≤ 0x38) then some (ors [mk 52 4, mk 48 4, mk 44 4])
  else if o = 0x33 then some (ors [mk 52 4, mk 48 4, mk 0 32])
  else if o = 0x39 ∨ o = 0x3A then some (ors [mk 52 4, mk 48 4, mk 0 6])
  else if o = 0x40 then some (ors [mVd, if bit w 24 then mVa else 0, mk 37 4, mFmt, mPg, mBs, mSx, if ord then mk 16 4 else 0, mk 11 1])
  else if o = 0x41 then some (ors [mk 37 4, mSx, if ord then mk 16 4 else 0, mk 12 4, mk 0 10])
  else if o = 0x42 then some (ors [mVd, mk 37 4, mFmt, mRnd, mPg, mSx, if rndF w = 4 then mk 16 4 else 0, mk 10 1])
  else if o = 0x43 then some (ors [mk 37 4, mSx, mk 12 4, mk 10 1, mk 0 10])
  else if o = 0x44 then some (ors [mk 37 4, mSx, mk 0 10])
  else if o = 0x50 then some (ors [mVd, mVa, mFmt, mk 13 7])
  else if o = 0x51 then some (ors [mVd, mVa, mFmt, mPg, mk 10 10])
  else if o = 0x52 then some (ors [mVd, mVa, mVb, mFmt, mk 11 9])
  else if o = 0x58 ∨ o = 0x59 then some (ors [mVd, mVa, mFmt, mPg, mk 16 4])
  else if o = 0x5A then some (ors [mVd, mVa, mVb, mFmt, mPg, mBs])
  else if o = 0x60 ∨ o = 0x62 then some (ors [mVd, mVa, mFmt, mk 10 10])
  else if o = 0x61 then some (ors [mVd, mVa, if bit w 9 then mVb else 0, mFmt, mk 9 11])
  else if o = 0x70 then some (if bit w 19 then ors [mVd, mSx, mPg, mk 19 1] else ors [mk 46 4, mk 15 5])
  else if o = 1 then some (ors [mVd, mk 47 4, mk 44 3, if isBlk then mk 42 2 ||| blk else 0, mk 41 1, mk 40 1, if bit w 40 then mk 36 4 else 0, mFmt])
  else if o = 2 then some (ors [mVd, mk 47 4, mk 44 3, if isBlk then mk 42 2 ||| blk else 0, mk 41 1, mFmt,
    if bits w 44 3 = 2 ∨ (isBlk ∧ mx) then mRnd else 0])
  else if o = 3 then some (ors [mVd, mk 47 4, mk 44 3, if isBlk then mk 42 2 ||| blk else 0, mk 40 1, if bit w 40 then mk 36 4 else 0, mFmt])
  else if o = 0x68 then some (ors [mVa, mk 37 4, mPg, mk 12 4])
  else if o = 0x69 then some (ors [if bit w 36 then 0 else mVa, mVb, mk 37 4, mk 36 1, mFmt, mPg, if bit w 36 then mk 20 4 else 0, mk 16 4])
  else if o = 0x78 then some (ors [mk 48 4, mk 44 4, mk 0 24])
  else if o = 0x79 then some (ors [mk 44 4, mk 0 24])
  else if o = 0x7A then some (mk 42 1)
  else if o = 0x7B then some (ors [if bit w 43 then mk 52 4 else 0, mk 44 4, mk 43 1])
  else if o = 0x80 then some (mk 36 20 ||| mk 0 12)
  else if o = 0x81 then some (ors [mk 40 2, mPg, mk 0 24])
  else if o = 0x82 then some 0
  else none

/-- Dense registers of a block of a layout (R220). -/
def blockRegs (w : Nat) : Nat := if bits w 18 2 = 2 then 4 else 2

/-- Register numbers, ranges of field values and groups past V31 (R168, R193, R197, R200, R212, R235; the ranges of Tables 06-3, 07-1 and 07-2). -/
def fieldsInRange (w : Nat) (x2176 : Bool) : Bool :=
  let o := opc w
  let vd := bits w 51 5
  let va := bits w 46 5
  let vb := bits w 41 5
  let st := bits w 47 4
  let cs := bits w 12 4
  let most := if x2176 then 32 else 128
  (!(bit w 24 && (o = 0x5A || (0x10 ≤ o && o ≤ 0x26 && o != 0x16 && o != 0x17))) || vb < 16)
  && (if o = 0x18 ∨ o = 0x2B then bits w 51 3 != 0 else true)
  && (if o = 0x18 then bits w 17 3 != 7 else true)
  && (if o = 0x29 ∧ (fmtF w = 0 ∨ fmtF w = 14) then bits w 0 7 < 64 else true)
  && (if o = 0x17 ∧ ((fmtF w = 0 ∨ fmtF w = 14) ↔ (bits w 15 5 = 0 ∨ bits w 15 5 = 14)) then !bit w 14 else true)
  && (if 1 ≤ o ∧ o ≤ 3 then bits w 44 3 ≤ 3 && (bits w 44 3 != 3 || (vd + 1 ≤ 31 && bits w 42 2 != 3)) &&
        (if o = 2 then st == 4 || st == 5 || 8 ≤ st else st ≤ 3 || 8 ≤ st) && (o != 2 || rndF w ≤ 4) else true)
  && (if o = 0x41 then (cs ≤ 3 || 8 ≤ cs) && bits w 0 10 + 1 ≤ most else true)
  && (if o = 0x43 then (cs == 4 || cs == 5 || 8 ≤ cs) && bits w 0 10 + 1 ≤ most else true)
  && (if o = 0x42 then rndF w ≤ 4 else true)
  && (if o = 0x50 then 1 ≤ bits w 17 3 && bits w 14 3 < bits w 17 3 && vd + 1 ≤ 31 && va + 1 ≤ 31 else true)
  && (if o = 0x51 then vd + 1 ≤ 31 && va + 1 ≤ 31 else true)
  && (if o = 0x52 then vd + 1 ≤ 31 && va + 1 ≤ 31 && vb + 1 ≤ 31 else true)
  && (if o = 0x60 then bits w 18 2 != 3 && va + 1 ≤ 31 && vd + blockRegs w ≤ 32 else true)
  && (if o = 0x61 then bits w 18 2 != 3 && vd + 1 ≤ 31 && va + blockRegs w ≤ 32 else true)
  && (if o = 0x62 then bits w 18 2 != 3 && va + blockRegs w ≤ 32 else true)
  && (if o = 0x68 then 8 ≤ cs else true)
  && (if o = 0x79 then 1 ≤ bits w 0 24 && bits w 0 24 ≤ 65535 else true)
  && (if o = 0x80 then 1 ≤ bits w 0 12 else true)
  && (if o = 0x81 then bits w 40 2 != 3 && 1 ≤ bits w 0 24 && bits w 0 24 ≤ 4095 else true)

/-- Does the word pass check 0x04? -/
def wordShape (w : Nat) (ord mx x2176 : Bool) : Bool :=
  match usedBits w ord mx with
  | none => false
  | some m => bits w 0 56 &&& m == bits w 0 56 && fieldsInRange w x2176

/-! ### Formats (check 0x05) -/

/-- Is the index a format a program may name: built in, or a user slot that holds a descriptor (R46)? -/
def State.namedFmt (s : State) (f : Nat) : Bool := f ≤ 18 || (24 ≤ f && f ≤ 31 && userDescValid (s.word (R.FMT_DESC f)).toNat)

/-- Register formats 0–15 and 24–31. -/
def regFmt (f : Nat) : Bool := f ≤ 15 || 24 ≤ f
/-- Keys of R211: 1–13, 15, 24–31. -/
def keyFmt (f : Nat) : Bool := regFmt f && f != 0 && f != 14
/-- Values of compressed blocks (R223): 1–8, 10–13, 15, 24–31. -/
def blockFmt (f : Nat) : Bool := keyFmt f && f != 9
/-- Arithmetic formats: 0–8, 10–15, 24–31. -/
def arithFmt (f : Nat) : Bool := regFmt f && f != 9
/-- Integer formats. -/
def intFmt (f : Nat) : Bool := 10 ≤ f && f ≤ 15

/-- Formats, bs and rounding of a word (R172, R177, R211, R218, R223, R226, Table 06-4, Table 07-3). `x` is the exact format of the region or scatter
table it names, `mx` whether its stream is MX-scaled. -/
def wordFormats (w : Nat) (x : Option Exact) (mx : Bool) : Bool :=
  let o := opc w
  let f := fmtF w
  let r := rndF w
  let bs := bit w 24
  let okX := fun (g : Nat) => match x with
    | some e => e.accepts g
    | none => true
  if o = 0x10 ∨ o = 0x11 ∨ o = 0x12 ∨ o = 0x13 then arithFmt f && (if intFmt f then r == 0 else r ≤ 4)
  else if o = 0x14 ∨ o = 0x15 ∨ o = 0x18 ∨ (0x20 ≤ o ∧ o ≤ 0x26) then regFmt f && r == 0
  else if o = 0x16 then arithFmt f && r == 0 && !bs
  else if o = 0x17 then regFmt f && regFmt (bits w 15 5) && r ≤ 4 && !bs
  else if o = 0x27 ∨ o = 0x28 ∨ o = 0x29 then regFmt f && r == 0 && !bs
  else if o = 0x2A then f == 13 && r == 0 && !bs
  else if o = 0x2B then f == 0 && r == 0 && !bs
  else if o = 0x40 then okX f && !(bit w 24 && f == 14)
  else if o = 0x42 then regFmt f && f != 9
  else if 0x50 ≤ o ∧ o ≤ 0x52 then keyFmt f
  else if 0x58 ≤ o ∧ o ≤ 0x5A then regFmt f
  else if 0x60 ≤ o ∧ o ≤ 0x62 then blockFmt f
  else if o = 0x69 then okX f
  else if 1 ≤ o ∧ o ≤ 3 then
    (match bits w 44 3 with
      | 0 => f == 0
      | 1 => regFmt f && !mx
      | 2 => 4 ≤ f && f ≤ 8 && mx
      | _ => blockFmt f)
  else true

/-- The formats a word names. -/
def wordNames (w : Nat) : List Nat :=
  let o := opc w
  (if o < 0x68 ∧ o ∉ [0x2A, 0x2B, 0x41, 0x43, 0x44] ∧ ¬ (0x30 ≤ o ∧ o ≤ 0x3A) ∨ o = 0x69 then [fmtF w] else []) ++
    (if o = 0x17 then [bits w 15 5] else [])

/-! ### Loops and paths -/

/-- The body of the loop at index q: from, to, trips. -/
structure LoopAt where
  q     : Nat
  last  : Nat
  trips : Nat
  deriving DecidableEq, Repr

/-- The loops of a program. -/
def loopsOf (ws : List Nat) : List LoopAt :=
  (ws.zipIdx).filterMap (fun p => if opc p.1 = 0x80 then some ⟨p.2, p.2 + bits p.1 0 12, bits p.1 36 20 + 1⟩ else none)

/-- Is instruction i in the loop's body? -/
def LoopAt.has (l : LoopAt) (i : Nat) : Bool := l.q < i && i ≤ l.last

/-- The loops that enclose an instruction. -/
def around (ls : List LoopAt) (i : Nat) : List LoopAt := ls.filter (fun l => l.has i)

/-- Where a BRP at q goes. -/
def brpTarget (w q : Nat) : Nat := q + 1 + bits w 0 24

/-- Check 0x08 at one instruction (R234, R235). -/
def loopShape (ls : List LoopAt) (n : Nat) (w q : Nat) : Bool :=
  if opc w = 0x80 then
    let last := q + bits w 0 12
    last < n && (around ls q).length < 8 && (around ls q).all (fun l => last ≤ l.last)
  else if opc w = 0x81 then
    let t := brpTarget w q
    t < n && (match (around ls q).getLast? with
      | some l => t ≤ l.last + 1
      | none => true) && ls.all (fun l => !l.has t || l.has q)
  else true

/-! ### The path analysis (R246) -/

/-- What holds at an instruction on every path: an interval for each scalar, whether RNGK set the generator, the fabric inputs opened, the
events awaited. -/
structure Abs where
  sc     : List (Nat × Nat)
  rng    : Bool
  opened : Nat
  waited : Nat
  deriving DecidableEq, Repr

/-- At an entry (R139, R246). -/
def Abs.entry : Abs := ⟨List.replicate 16 (0, 0), false, 0, 0⟩

/-- The interval of every value. -/
def anyU64 : Nat × Nat := (0, 2 ^ 64 - 1)

/-- Where paths join. -/
def Abs.join (a b : Abs) : Abs :=
  ⟨List.zipWith (fun x y => (min x.1 y.1, max x.2 y.2)) a.sc b.sc, a.rng && b.rng, a.opened &&& b.opened, a.waited &&& b.waited⟩

/-- Join with a path that may not exist. -/
def joinOpt : Option Abs → Option Abs → Option Abs
  | some a, some b => some (a.join b)
  | some a, none => some a
  | none, b => b

/-- A scalar's interval. -/
def Abs.get (a : Abs) (k : Nat) : Nat × Nat := a.sc.getD k anyU64

/-- An interval of integers as u64, or every value where it could wrap. -/
def ivInt (lo hi : Int) : Nat × Nat := if 0 ≤ lo ∧ hi < 2 ^ 64 then (lo.toNat, hi.toNat) else anyU64

/-- The scalar a word writes. -/
def scalarDest (w : Nat) : Option Nat :=
  let o := opc w
  if 0x30 ≤ o ∧ o ≤ 0x3A then some (bits w 52 4)
  else if o = 0x29 then some (bits w 51 4)
  else if o = 0x58 ∨ o = 0x59 then some (bits w 16 4)
  else if (o = 1 ∨ o = 3) ∧ bit w 40 then some (bits w 36 4)
  else if o = 0x7B ∧ bit w 43 then some (bits w 52 4)
  else none

/-- The interval a scalar instruction gives (R246). -/
def scalarIv (w : Nat) (a : Abs) : Nat × Nat :=
  let o := opc w
  let x := a.get (bits w 48 4)
  let y := a.get (bits w 44 4)
  let imm := bits w 0 32
  if o = 0x30 then let v := uint 64 (sint 32 imm); (v, v)
  else if o = 0x31 then
    let z := a.get (bits w 52 4)
    if z.1 = z.2 then let v := catBits imm (z.1 % 2 ^ 32) 32; (v, v) else anyU64
  else if o = 0x32 then ivInt ((x.1 : Int) + y.1) ((x.2 : Int) + y.2)
  else if o = 0x33 then ivInt ((x.1 : Int) + sint 32 imm) ((x.2 : Int) + sint 32 imm)
  else if o = 0x34 then ivInt ((x.1 : Int) - y.2) ((x.2 : Int) - y.1)
  else if o = 0x35 then if x.2 < 2 ^ 32 ∧ y.2 < 2 ^ 32 then (x.1 * y.1, x.2 * y.2) else anyU64
  else if o = 0x36 then
    if x.1 = x.2 ∧ y.1 = y.2 then (0, min x.1 y.1) else if x.1 = x.2 then (0, x.1) else if y.1 = y.2 then (0, y.1) else anyU64
  else if o = 0x39 then ivInt (x.1 * 2 ^ (imm % 64) : Nat) (x.2 * 2 ^ (imm % 64) : Nat)
  else if o = 0x3A then (x.1 / 2 ^ (imm % 64), x.2 / 2 ^ (imm % 64))
  else anyU64

/-- What holds after an instruction that falls through. -/
def transfer (w : Nat) (a : Abs) : Abs :=
  let o := opc w
  let a1 := match scalarDest w with
    | some k => { a with sc := a.sc.set k (scalarIv w a) }
    | none => a
  if o = 0x70 ∧ !bit w 19 then { a1 with rng := true }
  else if o = 1 ∧ bit w 41 then { a1 with opened := a1.opened ||| 1 <<< bits w 47 4 }
  else if o = 0x78 then { a1 with waited := a1.waited ||| 1 <<< bits w 44 4 }
  else a1

/-- The step one write of scalar k adds: a SADDI of k to itself, or a SADD or SSUB of k with a scalar of one known value that the body does not
write. -/
def stepOf (body : List (Nat × Nat)) (a : Abs) (k : Nat) (w : Nat) : Option Int :=
  let o := opc w
  let sa := bits w 48 4
  let sb := bits w 44 4
  let known := fun (j : Nat) => if (a.get j).1 = (a.get j).2 ∧ !body.any (fun p => scalarDest p.1 == some j) then some ((a.get j).1 : Int) else none
  if o = 0x33 ∧ sa = k then some (sint 32 (bits w 0 32))
  else if o = 0x32 ∧ sa = k ∧ sb ≠ k then known sb
  else if o = 0x32 ∧ sb = k ∧ sa ≠ k then known sa
  else if o = 0x34 ∧ sa = k ∧ sb ≠ k then (known sb).map (fun d => -d)
  else none

/-- The constant by which one iteration of a body changes scalar k, where it is constant (R246). -/
def bodyStep (ls : List LoopAt) (l : LoopAt) (body : List (Nat × Nat)) (a : Abs) (k : Nat) : Option Int :=
  (body.filter (fun p => scalarDest p.1 == some k)).foldl (fun acc p =>
    let skipped := body.any (fun b => opc b.1 == 0x81 && b.2 < p.2 && p.2 < brpTarget b.1 b.2)
    let times := (((around ls p.2).filter (fun m => decide (l.q < m.q))).map (·.trips)).foldl (· * ·) 1
    match acc, stepOf body a k p.1 with
    | some d, some e => if skipped then none else some (d + e * (times : Nat))
    | _, _ => none) (some 0)

/-- What holds at the start of a body on every iteration. -/
def widenAbs (ls : List LoopAt) (l : LoopAt) (ws : List (Nat × Nat)) (a : Abs) : Abs :=
  let body := ws.filter (fun p => l.has p.2)
  { a with sc := (a.sc.zipIdx).map (fun q =>
      if !body.any (fun p => scalarDest p.1 == some q.2) then q.1
      else match bodyStep ls l body a q.2 with
        | some d => ivInt ((q.1.1 : Int) + min 0 (d * (l.trips - 1))) ((q.1.2 : Int) + max 0 (d * (l.trips - 1)))
        | none => anyU64) }

/-- Walk the code from an entry on: what holds before each instruction that some path reaches (R246). -/
def walk (ls : List LoopAt) (all : List (Nat × Nat)) : List (Nat × Nat) → Option Abs → OMap Abs → List (Nat × Nat × Abs)
  | [], _, _ => []
  | (w, q) :: rest, cur, pend =>
    match joinOpt cur (pend.find q) with
    | none => walk ls all rest none pend
    | some a =>
      let o := opc w
      let pend := if o = 0x81 then
          match joinOpt (pend.find (brpTarget w q)) (some a) with
          | some b => pend.put (brpTarget w q) b
          | none => pend
        else pend
      let nxt := if o = 0x82 then none
        else if o = 0x80 then some (widenAbs ls ⟨q, q + bits w 0 12, bits w 36 20 + 1⟩ all a)
        else some (transfer w a)
      (w, q, a) :: walk ls all rest nxt pend

/-- What context c of an image can issue, with what holds before each. -/
def Image.reach (i : Image) (c : Nat) : List (Nat × Nat × Abs) :=
  let ws := i.words.zipIdx
  walk (loopsOf i.words) ws (ws.drop (i.entry c)) (some Abs.entry) []

/-- The computed issue bound (R245). -/
def Image.bound (i : Image) : Nat :=
  let ls := loopsOf i.words
  (i.used.flatMap (fun c => (i.reach c).map (fun e => ((around ls e.2.1).map (·.trips)).foldl (· * ·) 1))).sum

/-! ### Slot regions (R101, R106) -/

/-- The exact format of a slot-region declaration. -/
def Decl.exact (d : Decl) : Exact := Exact.ofIdx (d.at_ 2 1)

/-- Store positions of one slot (R101). -/
def Decl.unit (d : Decl) : Nat := if d.at_ 2 1 = 17 then 7 else 1

/-- Positions of a cluster's store (R101). -/
def storePositions : Nat := 419430

/-- The regions declared exact: a region declared ordered keeps its sums in stacks of the engine store and needs no position. -/
def Image.exacts (i : Image) : List Decl := (i.ofKind 3).filter (fun d => d.at_ 3 1 != 1)

/-- Demand of the declared regions (R101). -/
def Image.demand (i : Image) : Nat := (i.exacts.map (fun d => d.at_ 8 4 * d.unit)).sum

/-- Is a region ordered: declared so, or put there by R101? -/
def Image.ordered (i : Image) (d : Decl) : Bool :=
  d.at_ 3 1 == 1 || (decide (i.demand > storePositions) && !i.exacts.all (fun e => e.at_ 4 1 == 1))

/-- The region a layout C word names. -/
def Image.regionOf (i : Image) (w : Nat) : Option Decl := if 0x40 ≤ opc w ∧ opc w ≤ 0x44 then i.decl 3 (bits w 37 4) else none

/-- The table a layout G word names. -/
def Image.tableOf (i : Image) (w : Nat) : Option Decl := if opc w = 0x68 ∨ opc w = 0x69 then i.decl 4 (bits w 37 4) else none

/-- The stream a word uses, if any. -/
def streamNum (w : Nat) : Option Nat :=
  let o := opc w
  if 1 ≤ o ∧ o ≤ 3 then some (bits w 47 4) else if o = 0x41 ∨ o = 0x43 ∨ o = 0x68 then some (bits w 12 4) else none

/-- The declaration of a word's stream. -/
def Image.streamOf (i : Image) (w : Nat) : Option Decl := (streamNum w).bind (i.decl 2)

/-- Is a word's stream MX-scaled? -/
def Image.mxOf (i : Image) (w : Nat) : Bool := match i.streamOf w with
  | some d => bit (d.at_ 6 1) 0
  | none => false

/-- The exact format a word's region or scatter table has. -/
def Image.exactOf (i : Image) (w : Nat) : Option Exact :=
  match i.regionOf w with
  | some d => some d.exact
  | none => match i.tableOf w with
    | some d => if d.at_ 2 1 = 1 then some (Exact.ofIdx (d.at_ 3 1)) else none
    | none => none

/-- Slots a layout C word forms from its first: how many behind S[s_slot]. -/
def slotSpan (w : Nat) : Nat :=
  let n := if fmtF w = 0 ∨ fmtF w = 14 then 64 else 128
  if opc w = 0x40 then (if bit w 11 then 1 else n) else if opc w = 0x42 then n else bits w 0 10 + 1

/-! ### Ordered regions: the leaf indices (R192) -/

/-- A run of one context's scalar instructions, exact where the value is known: the leaf each slot of an ordered region takes next (region ×
2^40 + slot), and the lowest instruction that gave another leaf than the next. -/
structure LeafRun where
  pc    : Nat
  sc    : List (Option Nat)
  loops : List LoopFrame
  next  : NMap
  most  : Nat
  bad   : Option Nat
  deriving DecidableEq, Repr

/-- The instruction at the run's place fails: the lowest that did is kept (R244). -/
def LeafRun.fail (r : LeafRun) : LeafRun := { r with bad := some (r.bad.elim r.pc (min r.pc)) }

/-- Give slots the next leaf `leaf` (one each, or `fold` of them to one slot). -/
def LeafRun.take (r : LeafRun) (reg slot leaf span fold : Nat) : LeafRun :=
  (List.range span).foldl (fun r e =>
    let k := reg * 2 ^ 40 + slot + e
    let r := if r.next.rd k = leaf then r else r.fail
    { r with next := r.next.wr k (r.next.rd k + fold), most := max r.most (r.next.rd k + fold) }) r

/-- Restart the leaves of slots that are cleared. -/
def LeafRun.clear (r : LeafRun) (reg slot span : Nat) : LeafRun :=
  { r with next := (List.range span).foldl (fun (m : NMap) e => m.wr (reg * 2 ^ 40 + slot + e) 0) r.next }

/-- A known scalar of a run. -/
def LeafRun.get (r : LeafRun) (k : Nat) : Option Nat := r.sc.getD k none

/-- The value a scalar instruction leaves, where it is known. -/
def leafScalar (w : Nat) (r : LeafRun) : Option Nat :=
  let a : Abs := { Abs.entry with sc := r.sc.map (fun v => match v with
    | some x => (x, x)
    | none => anyU64) }
  let o := opc w
  let x := r.get (bits w 48 4)
  let y := r.get (bits w 44 4)
  let two := fun (g : Nat → Nat → Nat) => x.bind (fun a => y.map (fun b => g a b % 2 ^ 64))
  if o = 0x32 then two (· + ·) else if o = 0x34 then two (fun a b => a + 2 ^ 64 - b) else if o = 0x35 then two (· * ·)
  else if o = 0x36 then two Nat.land else if o = 0x37 then two Nat.lor else if o = 0x38 then two Nat.xor
  else if o = 0x33 then x.map (fun a => uint 64 ((a : Int) + sint 32 (bits w 0 32)))
  else if o = 0x39 then x.map (fun a => a * 2 ^ bits w 0 6 % 2 ^ 64)
  else if o = 0x3A then x.map (fun a => a / 2 ^ bits w 0 6)
  else if o = 0x30 ∨ o = 0x31 then
    let v := scalarIv w a
    if v.1 = v.2 then some v.1 else none
  else none

/-- One instruction of a leaf run. `skip` says which instructions a BRP may pass over. -/
def Image.leafStep (i : Image) (skip : Nat → Bool) (w : Nat) (r : LeafRun) : LeafRun :=
  let o := opc w
  let r1 := match scalarDest w with
    | some k => { r with sc := r.sc.set k (if skip r.pc then none else leafScalar w r) }
    | none => r
  let r2 := match i.regionOf w with
    | none => r1
    | some d =>
      if !i.ordered d ∨ ((o = 0x42 ∨ o = 0x43) ∧ !bit w 10) then r1
      else if skip r.pc then r1.fail
      else match r.get (bits w 20 4), r.get (bits w 16 4) with
        | some slot, some leaf =>
          let n := if fmtF w = 0 ∨ fmtF w = 14 then 64 else 128
          if o = 0x40 then (if bit w 11 then r1.take d.num slot leaf 1 n else r1.take d.num slot leaf n 1)
          else if o = 0x41 then r1.take d.num slot leaf (slotSpan w) 1
          else r1.clear d.num slot (slotSpan w)
        | some slot, none => if o = 0x40 ∨ o = 0x41 then r1.fail else r1.clear d.num slot (slotSpan w)
        | none, _ => r1.fail
  let loops := if o = 0x80 then ⟨r.pc + 1, r.pc + bits w 0 12, bits w 36 20⟩ :: r2.loops else r2.loops
  let p := wrapLoops loops (r.pc + 1)
  { r2 with loops := p.1, pc := p.2 }

/-- Run a context's leaves for at most `n` instructions. -/
def Image.leafRun (i : Image) (skip : Nat → Bool) : Nat → LeafRun → LeafRun
  | 0, r => r
  | n + 1, r => match i.words[r.pc]? with
    | none => r
    | some w => if opc w = 0x82 then r else Image.leafRun i skip n (i.leafStep skip w r)

/-- The leaves of context c. -/
def Image.leavesOf (i : Image) (c : Nat) : LeafRun :=
  let brs := (i.words.zipIdx).filter (fun p => opc p.1 == 0x81)
  let skip := fun (q : Nat) => brs.any (fun b => decide (b.2 < q) && decide (q < brpTarget b.1 b.2))
  i.leafRun skip i.bound ⟨i.entry c, List.replicate 16 (some 0), [], [], 0, none⟩

/-! ### The checks -/

/-- A failed check (Table 07-11): its code, the instruction and the context that reaches it, the declaration. -/
structure Fail where
  code : Nat
  insn : Nat
  ctx  : Option Nat
  decl : Nat
  deriving DecidableEq, Repr

/-- A failure with no instruction and no declaration. -/
def Fail.whole (code : Nat) : Fail := ⟨code, 0xFFFFFFFF, none, 0xFFFF⟩
/-- A failure of a declaration. -/
def Fail.ofDecl (code : Nat) (d : Decl) : Fail := ⟨code, 0xFFFFFFFF, none, d.ix⟩
/-- A failure of an instruction in a context. -/
def Fail.ofInsn (code q c : Nat) : Fail := ⟨code, q, some c, 0xFFFF⟩

/-- Does the first failure come before the second (R244)? -/
def Fail.before (a b : Fail) : Bool :=
  a.code < b.code || (a.code == b.code && (a.insn < b.insn || (a.insn == b.insn && a.decl ≤ b.decl)))

/-- The failure that is recorded. -/
def firstFail : List Fail → Option Fail
  | [] => none
  | f :: fs => match firstFail fs with
    | none => some f
    | some g => if f.before g then some f else some g

/-- A failure when a condition does not hold. -/
def need (ok : Bool) (f : Fail) : List Fail := if ok then [] else [f]

/-- Check 0x01 (R238). -/
def Image.header (i : Image) : Bool :=
  let n := i.codeBytes / 8
  i.b.length ≥ 64 && i.b.length ≤ 3 * 2 ^ 20 && i.at_ 0 4 == 0x31505A4B && i.at_ 4 2 == 1 && i.at_ 6 2 == 0 && i.at_ 8 4 == i.b.length
    && i.codeBytes % 8 == 0 && i.codeBytes ≤ 262144 && 1 ≤ i.at_ 0x10 8 && i.at_ 0x10 8 ≤ 2 ^ 48 && i.ndecl ≤ 512 && i.at_ 0x1B 1 == 0
    && (i.b.drop 0x30).take 16 == List.replicate 16 0 && 64 + 32 * i.ndecl + i.codeBytes + i.dataBytes == i.b.length
    && (List.range 8).all (fun c => bit i.contexts c == (i.entry c != 0xFFFF) && (i.entry c == 0xFFFF || i.entry c < n))

/-- Bytes of a row of `cols` elements of a format: a multiple of 32 (R224, Table 14-4). -/
def State.rowBytesOf (s : State) (fmt cols : Nat) : Nat := (cols * (s.fmt fmt).width / 8 + 31) / 32 * 32

/-- Bytes of a declared table's row. -/
def State.declRow (s : State) (d : Decl) : Nat := s.rowBytesOf (d.at_ 3 1) (d.at_ 8 2)

/-- The bytes a declaration names, with 0 in them where the kind says so. -/
def Decl.named (d : Decl) : List Nat :=
  match d.kind with
  | 1 => [0, 1, 2, 3, 4, 5] ++ (List.range 4).map (· + 8) ++ (List.range 4).map (· + 12) ++ (List.range 4).map (· + 16) ++ [20]
  | 2 => (List.range 15)
  | 3 => [0, 1, 2, 3, 4] ++ (List.range 4).map (· + 8) ++ [12, 13] ++ (List.range 4).map (· + 16)
  | 4 => (List.range 10)
  | _ => [0, 1]

/-- Check 0x02 of one declaration (R239); code 3 of a layout is reserved (R16). -/
def State.declOk (s : State) (i : Image) (d : Decl) : Bool :=
  let b := fun (o : Nat) => d.at_ o 1
  1 ≤ d.kind && d.kind ≤ 6
  && (List.range 32).all (fun o => d.named.contains o || b o == 0)
  && !(i.decls.take d.ix).any (fun e => e.kind == d.kind && e.num == d.num)
  && (match d.kind with
    | 1 => d.num < 32 && b 3 ≤ 5 && (if b 3 = 4 then b 4 < 8 && b 5 < 16 else b 4 == 0 && b 5 == 0) && b 20 ≤ 1
        && (d.at_ 16 4 == 0xFFFFFFFF || d.at_ 16 4 + d.at_ 12 4 ≤ i.dataBytes)
    | 2 => (d.num < 6 || (8 ≤ d.num && d.num < 16)) && b 2 < 8 && b 3 ≤ 3 && b 4 < 32 && b 5 ≤ 2 && b 6 ≤ 3 && b 7 ≤ 1
    | 3 => d.num < 16 && 16 ≤ b 2 && b 2 ≤ 18 && b 3 ≤ 1 && b 4 ≤ 1
    | 4 => d.num < 16 && b 2 ≤ 1 && 1 ≤ d.at_ 4 4 && 1 ≤ d.at_ 8 2
        && (if b 2 = 0 then 32 ≤ s.declRow d && s.declRow d ≤ 4096 else b 3 == 16 || b 3 == 18)
    | _ => d.num < 16)

/-- First byte and size of a store region. -/
def Decl.span (d : Decl) : Nat × Nat := (d.at_ 8 4, d.at_ 12 4)

/-- Check 0x03 (R147, R148): regions inside the store and apart, the code region, landing buffers. -/
def Image.storeFails (i : Image) : List Fail :=
  let rs := i.ofKind 1
  rs.flatMap (fun d =>
    need (d.span.1 + d.span.2 ≤ 3145728
      && rs.all (fun e => e.ix == d.ix || e.span.1 + e.span.2 ≤ d.span.1 || d.span.1 + d.span.2 ≤ e.span.1)
      && (d.at_ 3 1 != 5 || (i.codeBytes ≤ d.span.2 && d.span.2 ≤ 262144))
      && (d.at_ 3 1 != 1 || (List.range 6).any (fun k => d.span.2 == 16384 * 2 ^ k))) (.ofDecl 3 d))
  ++ need ((rs.filter (fun d => d.at_ 3 1 == 5)).length == 1) (.whole 3)

/-- The lowest used context that reaches an instruction. -/
def Image.ctxOf (i : Image) (q : Nat) : Option Nat := i.used.find? (fun c => (i.reach c).any (fun e => e.2.1 == q))

/-- Landing-buffer bytes of a stream: its region's, or 64 KiB (R147). -/
def Image.landing (i : Image) (d : Decl) : Nat :=
  match i.decl 1 (d.at_ 14 1) with
  | some r => if r.at_ 3 1 = 1 then r.span.2 else 65536
  | none => 65536

/-- Check 0x06 of one word but for its context and path (R201): its stream is declared with its mode, format and layout; a local channel does not
open. -/
def Image.streamOk (i : Image) (w : Nat) : Bool :=
  match streamNum w with
  | none => true
  | some n => match i.decl 2 n with
    | none => false
    | some d => let o := opc w
      (o > 3 || (d.at_ 3 1 == bits w 44 3 && d.at_ 4 1 == fmtF w && d.at_ 5 1 == bits w 42 2)) && (o != 1 || !bit w 41 || n ≤ 3)

/-- Check 0x07 of one word (R188, R224, R225). -/
def State.handleOk (s : State) (i : Image) (w : Nat) : Bool :=
  let o := opc w
  let h := bits w 44 4
  if 0x40 ≤ o ∧ o ≤ 0x44 then (i.regionOf w).isSome
  else if o = 0x68 then
    match i.tableOf w, i.streamOf w with
    | some t, some d => t.at_ 2 1 == 0 && s.declRow t * 128 ≤ i.landing d
    | some t, none => t.at_ 2 1 == 0
    | none, _ => false
  else if o = 0x69 then (match i.tableOf w with
    | some t => t.at_ 2 1 == 1
    | none => false)
  else if o = 0x78 ∨ o = 0x79 then (i.decl 5 h).isSome
  else if o = 0x7B then (i.decl 6 h).isSome
  else true

/-- Check 0x0B of one word alone: a CACC of an ordered region has pg = 0 (R192). -/
def Image.predOk (i : Image) (w : Nat) : Bool :=
  opc w != 0x40 || bits w 25 3 == 0 || (i.regionOf w).all (fun d => !i.ordered d)

/-- The checks that one word passes or fails wherever it stands: 0x04 to 0x08 and 0x0B. -/
def State.wordFails (s : State) (i : Image) (ls : List LoopAt) (w q : Nat) : List Fail :=
  let x := i.exactOf w
  let ord := match i.regionOf w with
    | some d => i.ordered d
    | none => false
  let f := fun (c : Nat) => (⟨c, q, i.ctxOf q, 0xFFFF⟩ : Fail)
  need (wordShape w ord (i.mxOf w) (x == some .c2176)) (f 4)
    ++ need (wordFormats w x (i.mxOf w) && (wordNames w).all s.namedFmt) (f 5)
    ++ need (i.streamOk w) (f 6) ++ need (s.handleOk i w) (f 7)
    ++ need (loopShape ls i.words.length w q) (f 8) ++ need (i.predOk w) (f 0xB)

/-- Check 0x05 of declarations (R46, R68, R122, R224). -/
def State.declFormats (s : State) (d : Decl) : Bool :=
  match d.kind with
  | 2 =>
    let f := d.at_ 4 1
    let mx := bit (d.at_ 6 1) 0
    s.namedFmt f && !(16 ≤ f && f ≤ 23) && (!mx || (4 ≤ f && f ≤ 8)) && (d.at_ 3 1 != 3 || blockFmt f)
  | 4 => s.namedFmt (d.at_ 3 1) && (d.at_ 2 1 == 1 || keyFmt (d.at_ 3 1))
  | _ => true

/-- Check 0x06 of one instruction of a context: the context owns the stream, and a fabric input has been opened on every path (R204). -/
def Image.ownStream (i : Image) (c w : Nat) (a : Abs) : Bool :=
  match streamNum w with
  | none => true
  | some n => (i.decl 2 n).all (fun d => d.at_ 2 1 == c) && (opc w != 1 || bit w 41 || n > 3 || bit a.opened n)

/-- Check 0x0A of one instruction (R188, R246). -/
def Image.indexOk (i : Image) (w : Nat) (a : Abs) : Bool :=
  match i.regionOf w with
  | none => true
  | some d => decide ((a.get (bits w 20 4)).2 + slotSpan w ≤ d.at_ 8 4)

/-- Is an event awaited on every path here one that a context signals, and signals only behind every one of its operations on something: later in
program order, and in no loop that holds such an operation too (R100)? -/
def signalsAfter (ls : List LoopAt) (ws : List (Nat × Nat × Abs)) (waited : Nat) (ops : Nat → Bool) : Bool :=
  let at_ := (ws.filter (fun e => ops e.1)).map (fun e => e.2.1)
  (List.range 16).any (fun h =>
    let sigs := (ws.filter (fun e => opc e.1 == 0x79 && bits e.1 44 4 == h)).map (fun e => e.2.1)
    bit waited h && !sigs.isEmpty && sigs.all (fun q => at_.all (fun p => decide (p < q) && !ls.any (fun l => l.has p && l.has q))))

/-- Check 0x0B of one instruction of a context (R100, R192). -/
def Image.syncOk (i : Image) (ls : List LoopAt) (c w : Nat) (a : Abs) : Bool :=
  match i.regionOf w with
  | none => true
  | some d =>
    let o := opc w
    let puts := fun (v : Nat) => (opc v == 0x40 || opc v == 0x41) && bits v 37 4 == d.num
    let others := i.used.filter (fun k => k != c && (i.reach k).any (fun e => puts e.1))
    (o == 0x40 || o == 0x41 || others.all (fun k => signalsAfter ls (i.reach k) a.waited puts))
    && (!i.ordered d || (i.used.filter (fun k => (i.reach k).any (fun e => (i.regionOf e.1) == some d))).length ≤ 1)

/-- Does a word read a local channel, or write one? -/
def chanRead (w : Nat) : Bool := opc w == 1 || opc w == 3 || opc w == 0x41
/-- A write of a channel. -/
def chanWrite (w : Nat) : Bool := opc w == 2 || opc w == 0x43

/-- The store region a word works on through its local channel. -/
def Image.storeOf (i : Image) (w : Nat) : Option Decl :=
  match streamNum w, i.streamOf w with
  | some n, some d => if 8 ≤ n ∧ opc w ≠ 0x68 then i.decl 1 (d.at_ 14 1) else none
  | _, _ => none

/-- Check 0x0D of one instruction of a context (R142, R247). -/
def Image.sharedOk (i : Image) (ls : List LoopAt) (c w q : Nat) (a : Abs) : Bool :=
  match i.storeOf w with
  | none => true
  | some d =>
    let use := d.at_ 3 1
    let same := fun (v : Nat) => i.storeOf v == some d
    bit (d.at_ 2 1) c
    && (if use = 3 then !chanWrite w
      else if use = 4 then
        let g := d.at_ 5 1
        let mine := i.reach (d.at_ 4 1)
        let sigs := (mine.filter (fun e => opc e.1 == 0x79 && bits e.1 44 4 == g)).map (fun e => e.2.1)
        (if chanWrite w then c == d.at_ 4 1 && (match sigs.head? with
              | some f => decide (q < f) && !ls.any (fun l => l.has q && l.has f)
              | none => true)
          else c == d.at_ 4 1 || bit a.waited g)
      else (i.used.filter (fun k => (i.reach k).any (fun e => same e.1))).length ≤ 1)

/-- Check 0x0E of one instruction (R176, R228). -/
def rngOk (w : Nat) (a : Abs) : Bool :=
  let o := opc w
  let sr := rndF w == 4 && (o == 0x10 || o == 0x11 || o == 0x12 || o == 0x13 || o == 0x17 || o == 0x42 || o == 2)
  !(sr || (o == 0x70 && bit w 19)) || a.rng

/-- Every check on the instructions a context can issue. -/
def Image.pathFails (i : Image) (ls : List LoopAt) (c : Nat) : List Fail :=
  (i.reach c).flatMap (fun e =>
    let w := e.1
    let q := e.2.1
    let a := e.2.2
    need (i.ownStream c w a) (.ofInsn 6 q c) ++ need (i.indexOk w a) (.ofInsn 0xA q c) ++ need (i.syncOk ls c w a) (.ofInsn 0xB q c) ++ need (i.sharedOk ls c w q a) (.ofInsn 0xD q c) ++ need (rngOk w a) (.ofInsn 0xE q c))

/-- Check 0x0C (R101, R110): the open-chunk window, and the stacks of ordered regions beside the other store regions. -/
def Image.capacityFails (i : Image) : List Fail :=
  let rs := i.ofKind 3
  let win := (i.exacts.map (fun d => d.at_ 12 2 * d.at_ 16 4 * d.unit)).sum
  let depth := fun (n : Nat) => 1 + Nat.log2 (max 1 n)
  let most := (i.used.map (fun c => (i.leavesOf c).most)).foldl max 1
  let stackB := ((rs.filter i.ordered).map (fun d => d.at_ 12 2 * d.at_ 16 4 * depth most * (if d.at_ 2 1 = 17 then 8 else 4))).sum
  let rest := (((i.ofKind 1).filter (fun d => d.at_ 3 1 != 2)).map (fun d => d.span.2)).sum
  need (win ≤ storePositions) (.whole 0xC) ++ need (stackB + rest ≤ 3145728) (.whole 0xC)

/-- Check 0x0B of the leaf indices (R192). -/
def Image.leafFails (i : Image) : List Fail :=
  if (i.ofKind 3).any i.ordered then i.used.flatMap (fun c => ((i.leavesOf c).bad.map (fun q => Fail.ofInsn 0xB q c)).toList) else []

/-- Run the verifier (R244): the failure it records, if any. The later checks need a header and declarations that hold. -/
def State.verify (s : State) (i : Image) : Option Fail :=
  if !i.header then some (.whole 1)
  else
    let ls := loopsOf i.words
    match firstFail (i.decls.flatMap (fun d => need (s.declOk i d) (.ofDecl 2 d))) with
    | some f => some f
    | none =>
      match firstFail (i.storeFails) with
      | some f => some f
      | none =>
        let ws := i.words.zipIdx
        let shape := ws.flatMap (fun p => s.wordFails i ls p.1 p.2) ++
          i.decls.flatMap (fun d => need (s.declFormats d) (.ofDecl 5 d)) ++
          need (i.words.getLast?.map opc == some 0x82) ⟨8, i.words.length - 1, none, 0xFFFF⟩
        let paths := i.used.flatMap (i.pathFails ls)
        let early := shape ++ paths ++ need (i.bound ≤ i.at_ 0x10 8) (.whole 9)
        match firstFail early with
        | some f => if f.code < 0xB then some f else firstFail (early ++ i.leafFails ++ i.capacityFails)
        | none => firstFail (i.leafFails ++ i.capacityFails)

end Sys2Proof.Machine
end

