-- ==== Sys2Proof/Machine/Loads.lean ====
section
/-!
DEFINITION. The loads that carry an object in the staging area or a field of the command (chapters 02, 07, 08, 09, 10): programs, formats, update rules,
seed sets, groups. Each answers the reason for which the command is rejected, with what the check itself has done, or the state once
the load has taken effect.
-/
namespace Sys2Proof.Machine
open Sys2Proof

/-- A load: the reason of a rejection with the state it leaves, or the state after the load. -/
abbrev Load := Except (Nat × State) State

/-- The payload of a load, in the staging area (R263, Table 08-2). -/
def State.payload (s : State) (c : Cmd) : List Byte := s.host.staging.rd c.elements c.chunkBytes

/-- Where a failing check of an envelope arose, for a command of queue `q` (R534). -/
def State.sigAt (s : State) (q : Nat) (c : Cmd) : SigAt :=
  if s.get (F.Q_CTL_owner q) = 0 then ⟨1, c.collId, 0xFF⟩ else ⟨2, c.collId, s.get (F.Q_CTL_port q)⟩

/-- Does the payload hold the whole envelope and image (step 1 of Table 07-10)? -/
def wholeImage (e : List Byte) : Bool := decide (e.length ≥ envHead) && decide (envHead + fieldOf e 0x0C 4 ≤ e.length)

/-- The kind of envelope an op carries (Table 16-7). -/
def opEnvelope (op : Nat) : Option Nat :=
  if op = 0x20 then some 1 else if op = 0x22 then some 2 else if op = 0x23 then some 3 else if op = 0x32 then some 4 else none

/-- The object a load takes effect with: the payload, or what its envelope carries (R520: check 4 of Table 08-1). -/
def State.object (s : State) (q : Nat) (c : Cmd) : Except (Nat × State) (List Byte × State) :=
  match opEnvelope c.op with
  | none => .ok (s.payload c, s)
  | some kind =>
    if kind = 1 ∧ !wholeImage (s.payload c) then .error (3, s)
    else match s.takeEnvelope (s.payload c) kind (some c.tenant) (s.sigAt q c) with
      | .error t => .error (4, t)
      | .ok r => .ok r

/-! ### Programs (R242, R243, R248) -/

/-- Record a rejection by the verifier (R248). -/
def State.verifyReject (s : State) (request : Nat) (f : Fail) : State :=
  if s.cause 5 then s.inc F.PVF_LOST_COUNT_lost
  else (s.sets [(F.PVF_REC0_request, request), (F.PVF_REC0_check, f.code), (F.PVF_REC0_context, f.ctx.getD 0),
    (F.PVF_REC0_ctx_valid, b2n f.ctx.isSome), (F.PVF_REC1_insn, f.insn), (F.PVF_REC1_decl, f.decl), (F.PVF_REC2_turn, s.turn)]).inc
    F.PVF_SEQ_seq

/-- The program of a handle. -/
def State.program (s : State) (h : Nat) : Option Prog := s.eng.progs.find h

/-- The lowest free handle. -/
def State.freeHandle (s : State) : Option Nat := (List.range 255).find? (fun h => (s.program h).isNone)

/-- Load a program in the order of Table 07-10. A failure of the verifier and a full store carry reason 0: neither is a check of Table 08-1 (log
entry 31). The handle, the digest and the computed issue bound are reported. -/
def State.loadProgram (s : State) (c : Cmd) (b : List Byte) : Load :=
  let i : Image := ⟨b⟩
  match s.verify i with
  | some f => .error (0, s.verifyReject c.arg0 f)
  | none => match s.freeHandle with
    | none => .error (0, s)
    | some h =>
      let d := sha384 b
      let s := { s with eng.progs := s.eng.progs.put h ⟨b, d, c.tenant, i.bound⟩ }
      .ok ((s.inc F.PRG_LOAD_COUNT_loads).emit (.reply "LOAD_PROGRAM" (leBytes c.arg0 4 ++ leBytes h 4 ++ d ++ leBytes i.bound 8)))

/-- Remove a program, unless an accepted, incomplete command names it (R243). -/
def State.unloadProgram (s : State) (c : Cmd) : Load :=
  if (s.program c.arg0).isNone then .error (8, s)
  else if s.accepted.any (fun k => k.cmd.loadedProg && k.cmd.prog == c.arg0) then .error (0xE, s)
  else .ok { s with eng.progs := s.eng.progs.drop c.arg0 }

/-! ### Formats (R44, R45, R47) -/

/-- The formats a program names: in its declarations and its words. -/
def Image.formats (i : Image) : List Nat :=
  (i.ofKind 2).map (fun d => d.at_ 4 1) ++ (i.ofKind 4).map (fun d => d.at_ 3 1) ++ i.words.flatMap wordNames

/-- The formats an accepted command names. -/
def Cmd.formats (c : Cmd) : List Nat := if c.isColl then [c.fmtIn, c.fmtOut] else []

/-- Replace the eight user slots (R44, R45). -/
def State.loadFormats (s : State) (b : List Byte) : Load :=
  let d := fun (k : Nat) => fieldOf b (8 * k) 8
  let named := s.eng.progs.items.flatMap (fun p => (Image.mk p.2.image).formats) ++ s.accepted.flatMap (fun k => k.cmd.formats)
  if b.length ≠ 64 ∨ !(List.range 8).all (fun k => d k == 0 || userDescValid (d k)) then .error (3, s)
  else if (List.range 8).any (fun k => (s.word (R.FMT_DESC (24 + k))).toNat != d k && named.contains (24 + k)) then .error (0xE, s)
  else
    let s := (List.range 8).foldl (fun t k => t.setWord (R.FMT_DESC (24 + k)) (BitVec.ofNat 64 (d k))) s
    .ok ((s.setDigest R.FMT_DIGEST (sha256 ((List.range 32).flatMap (fun i => leBytes (s.word (R.FMT_DESC i)).toNat 8)))).inc
      F.FMT_LOAD_COUNT_loads)

/-! ### Update rules (R296) -/

/-- Replace the update-rule table (R296). -/
def State.loadRules (s : State) (b : List Byte) : Load :=
  let e := fun (r : Nat) => (b.drop (1024 * r)).take 1024
  let used := s.accepted.filterMap (fun k => if k.cmd.op = 0x0C then some (bits k.cmd.arg1 0 8) else none)
  if b.length ≠ 65536 ∨ !(List.range 64).all (fun r => ruleEmpty (e r) || ruleValid (e r)) then .error (3, s)
  else if used.any (fun r => e r != ruleBytes s.nor.rules r) then .error (0xE, s)
  else .ok (({ s with nor.rules := Bytes.wr [] 0 b }.setDigest R.RULE_DIGEST (sha256 b)).inc F.RULE_LOAD_COUNT_loads)

/-! ### Seed sets (R334) -/

/-- A 256-bit value of the true random source. -/
def State.trng (s : State) : List Byte × State := let r := s.free 256; (leBytes r.1 32, r.2)

/-- The sixteen seeds of a set, its entropy slots filled from the source. -/
def State.fillSeeds (s : State) (b : List Byte) (entropy : Nat) : List (List Byte) × State :=
  (List.range 16).foldl (fun (a : List (List Byte) × State) j =>
    if bit entropy j then let r := a.2.trng; (a.1 ++ [r.1], r.2) else (a.1 ++ [(b.drop (0x20 + 32 * j)).take 32], a.2)) ([], s)

/-- The seed sets that an accepted command binds (R335). -/
def State.seedSets (s : State) (c : Cmd) : List Nat :=
  let sr := c.rnd == 4
  let arg := if sr && c.isReduce then [bits c.arg1 20 4] else []
  let shard := if sr && c.op == 0x0C then (match s.shard (bits c.arg0 0 10) with
    | some h => [h.record.seed / 16]
    | none => []) else []
  let rng := if c.loadedProg && ((s.program c.prog).map (fun p => (Image.mk p.image).words.any (fun w => opc w == 0x70))).getD false
    then ((s.seedSetOf c.tenant).map (fun p => p.1)).toList else []
  (arg ++ shard ++ rng).eraseDups

/-- Load, replace or empty a seed set (R334). -/
def State.loadSeeds (s : State) (c : Cmd) (b : List Byte) : Load :=
  let set := fieldOf b 1 1
  let held : Option SeedSet := s.det.seeds.find c.arg0
  let empty := bit (fieldOf b 8 1) 0
  if b.length ≠ 0x220 ∨ fieldOf b 0 1 ≠ 0x12 ∨ fieldOf b 8 1 > 1 ∨ !zeros ((b.drop 9).take 23) ∨ set ≠ c.arg0 then .error (3, s)
  else if (s.seedSetOf c.tenant).any (fun p => p.1 != c.arg0) then .error (3, s)
  else if fieldOf b 4 4 ≠ c.tenant ∨ held.any (fun d => d.tenant != c.tenant) then .error (4, s)
  else if s.accepted.any (fun k => (s.seedSets k.cmd).contains c.arg0) then .error (0xE, s)
  else if empty then .ok { s with det.seeds := s.det.seeds.drop c.arg0 }
  else
    let r := s.fillSeeds b (fieldOf b 2 2)
    .ok { r.2 with det.seeds := r.2.det.seeds.put c.arg0 ⟨c.tenant, fieldOf b 2 2, r.1⟩ }

/-! ### Groups (R260, R261, R263) -/

/-- A member entry of a group record. -/
def memberOf (w : Nat) : Member := ⟨bits w 0 32, bits w 32 8, false⟩

/-- The direct members a group record lists. -/
def recMembers (b : List Byte) : List Member := (List.range (fieldOf b 8 2)).map (fun k => memberOf (fieldOf b (0x40 + 8 * k) 8))

/-- The children a group record lists: tree 0, then tree 1. -/
def recKids (b : List Byte) : List Kid :=
  let n0 := fieldOf b 0x0A 2
  (List.range (n0 + fieldOf b 0x0C 2)).map (fun k =>
    let o := 0x40 + 8 * fieldOf b 8 2 + 32 * k
    ⟨b2n (decide (n0 ≤ k)), fieldOf b o 18, fieldOf b (o + 20) 4, fieldOf b (o + 24) 2, false⟩)

/-- The group a record describes (Table 08-4). -/
def groupRec (b : List Byte) : Group := ⟨fieldOf b 2 1, fieldOf b 4 4, fieldOf b 0x10 18, fieldOf b 0x24 18, recMembers b, recKids b⟩

/-- Are the masks pairwise disjoint? -/
def disjoint : List Nat → Bool
  | [] => true
  | m :: ms => ms.all (fun n => m &&& n == 0) && disjoint ms

/-- Are the numbers pairwise different? -/
def distinct : List Nat → Bool
  | [] => true
  | m :: ms => !ms.contains m && distinct ms

/-- Are the record's reserved bytes 0, and its fields in range (Table 08-4)? -/
def groupShape (b : List Byte) : Bool :=
  let d := fieldOf b 8 2
  let k := fieldOf b 0x0A 2 + fieldOf b 0x0C 2
  b.length == 64 + 8 * d + 32 * k && fieldOf b 0 2 ≤ 255 && 1 ≤ fieldOf b 2 1 && fieldOf b 2 1 ≤ 5 && fieldOf b 3 1 == 0 && 1 ≤ fieldOf b 4 4
    && fieldOf b 4 4 ≤ 36864 && d ≤ 144 && fieldOf b 0x0A 2 ≤ 144 && fieldOf b 0x0C 2 ≤ 144 && fieldOf b 0x0E 2 == 0 && fieldOf b 0x22 2 == 0
    && fieldOf b 0x36 2 == 0 && fieldOf b 0x38 8 == 0
    && (List.range d).all (fun i => fieldOf b (0x40 + 8 * i + 5) 3 == 0 && fieldOf b (0x40 + 8 * i + 4) 1 < 144)
    && (List.range k).all (fun i => fieldOf b (0x40 + 8 * d + 32 * i + 18) 2 == 0 && fieldOf b (0x40 + 8 * d + 32 * i + 26) 6 == 0)

/-- The conditions of R261. -/
def groupOk (b : List Byte) : Bool :=
  let g := groupRec b
  let kidPorts := g.kids.foldl (fun m k => m ||| k.ports) 0
  let tree := fun (t : Nat) => g.parent t :: (g.kids.filter (fun k => k.tree == t)).map (·.ports)
  groupShape b && g.members.all (fun m => decide (m.rank < g.ranks)) && distinct (g.members.map (·.rank)) && distinct (g.members.map (·.port))
    && g.members.all (fun m => !bit (kidPorts ||| g.par0 ||| g.par1) m.port)
    && g.kids.all (fun k => k.ports != 0) && disjoint (tree 0) && disjoint (tree 1) && g.par0 &&& g.par1 == 0
    && (g.tier == 1) == (!g.members.isEmpty && g.kids.isEmpty)

/-- Has a group an accepted, incomplete collective (R263)? -/
def State.groupBusy (s : State) (n : Nat) : Bool := s.accepted.any (fun k => k.cmd.isColl && k.cmd.group == n)

/-- Store a group record (R261, R263). -/
def State.loadGroup (s : State) (b : List Byte) : Load :=
  if !groupOk b then .error (3, s)
  else if s.groupBusy (fieldOf b 0 2) then .error (0xE, s)
  else .ok { s with cp.groups := s.cp.groups.put (fieldOf b 0 2) (groupRec b) }

/-- Remove a group record (R263). -/
def State.unloadGroup (s : State) (c : Cmd) : Load :=
  if s.groupBusy c.group then .error (0xE, s) else .ok { s with cp.groups := s.cp.groups.drop c.group }

end Sys2Proof.Machine
end

