-- ==== Sys2Proof/Machine/Binds.lean ====
section
/-!
DEFINITION. LOAD_TABLE_BIND (R291, R292, R307, R452 to R455): shard, norm-set, table and channel records, and what memory they may name.
-/
namespace Sys2Proof.Machine
open Sys2Proof

/-! ### Ranges of memory -/

/-- Do two ranges share a byte? -/
def Range.meets (a b : Range) : Bool :=
  a.1 == b.1 && decide (0 < a.2.2) && decide (0 < b.2.2) && decide (a.2.1 < b.2.1 + b.2.2) && decide (b.2.1 < a.2.1 + a.2.2)

/-- The mode word `i` in effect (R445): a change of RSV_MODE takes effect when the block is next enabled (R478). -/
def State.modeWord (s : State) (i : Nat) : Word := SMap.get (fun j => regInit (R.RSV_MODE j)) s.rsv.modes i

/-- Is a reservoir region in scratchpad mode (R445)? -/
def State.scratch (s : State) (r : Nat) : Bool := bit (s.modeWord (r / 64)).toNat (r % 64)

/-- The carve-outs of Table 14-2. -/
def State.carveOuts (s : State) : List Range :=
  [(0, 504 * 2 ^ 20, 8 * 2 ^ 20), (0, s.get F.MEM_RETAIN_base * 2 ^ 20, s.get F.MEM_RETAIN_size * 2 ^ 20), (1, 383 * 2 ^ 30, 2 ^ 30)]

/-- Does a range lie in its level? -/
def Range.mapped (a : Range) : Bool := a.1 < 3 && decide (a.2.1 + a.2.2 ≤ levelSize a.1)

/-- Is a range open to software: in its level, outside carve-outs and cache-mode regions (R445, R446)? -/
def State.usable (s : State) (a : Range) : Bool :=
  a.mapped && !s.carveOuts.any a.meets
    && (a.1 != 0 || (List.range ((a.2.1 + a.2.2 + 2 ^ 20 - 1) / 2 ^ 20 - a.2.1 / 2 ^ 20)).all (fun i => s.scratch (a.2.1 / 2 ^ 20 + i)))

/-- May a record name the range: open to software, and outside spill regions (R453)? -/
def State.placeOk (s : State) (a : Range) : Bool :=
  s.usable a && (List.range 16).all (fun cl => !(s.spillRegions cl).any a.meets)

/-! ### Records -/

/-- A record of the payload. -/
inductive BindRec where
  | shard (r : ShardRec)
  | norm (set : Nat) (thr : Nat) (peers : List Nat) (raw : List Byte)
  | table (t : TableRec)
  | chan (c : ChanRec)
  deriving DecidableEq, Repr

/-- Bytes of the first record, by its kind (R452). -/
def recLen (b : List Byte) : Option Nat :=
  match fieldOf b 0 1 with
  | 0x10 => some 128
  | 0x11 => some ((32 + 2 * fieldOf b 0x10 2 + 31) / 32 * 32)
  | 0x13 => some 64
  | 0x14 => some 64
  | _ => none

/-- Cut the payload after its header into `n` records; none where it does not hold exactly those. -/
def cutRecs : Nat → List Byte → Option (List (List Byte))
  | 0, b => if b.isEmpty then some [] else none
  | n + 1, b => match recLen b with
    | none => none
    | some l => if b.length < l then none else (cutRecs n (b.drop l)).map (b.take l :: ·)

/-- Read one record. -/
def bindRec (b : List Byte) : BindRec :=
  match fieldOf b 0 1 with
  | 0x10 => .shard ⟨leNat b⟩
  | 0x11 => .norm (fieldOf b 1 1) (fieldOf b 8 8) ((List.range (fieldOf b 0x10 2)).map (fun k => fieldOf b (0x20 + 2 * k) 2)) b
  | 0x13 => .table ⟨leNat b⟩
  | _ => .chan ⟨leNat b⟩

namespace BindRec
/-- What the record is named by: kind and number. -/
def name : BindRec → Nat × Nat
  | shard r => (0, r.shard)
  | norm n _ _ _ => (1, n)
  | table t => (2, t.handle)
  | chan c => (3, 16 * c.engine + c.stream)
end BindRec

/-- The shard that a new record makes: no valid state, t and mask version 0 (R294). -/
def Shard.new (r : ShardRec) : Shard := ⟨r, 0, 0, 0, 0, 0, 0, false, false, r.n, false, false, none, none⟩

/-- Bytes of a copy of a shard: its planes on 4 KiB boundaries, and the bitmap of an embedding shard (R292, R293). The sparse store's planes are
taken at the count of kept positions that the layout fixes. -/
def ShardRec.copyBytes (r : ShardRec) : Nat :=
  if r.skind = 1 then r.bitmapOff + (r.rows + 7) / 8
  else
    let g := layG r.layout
    let kept := if r.sparse && r.hasMask then (r.n + g - 1) / g * layN r.layout else r.n
    let h := { Shard.new r with kept := kept }
    ((h.planes).map (fun n => (n + 4095) / 4096 * 4096)).sum

/-- The copies of a shard. -/
def ShardRec.copies (r : ShardRec) : List Range := [(r.level, r.base 0, r.copyBytes), (r.level, r.base 1, r.copyBytes)]

/-- The memory a record names. -/
def BindRec.ranges : BindRec → List Range
  | .shard r => r.copies ++ [(r.stageLevel, r.stageBase, r.n * r.wBytes)]
  | .norm _ _ _ _ => []
  | .table t => if t.shard ≠ 0xFFFF then [] else [(t.level, t.base, if t.tkind = 0 then t.rows * t.rowBytes else t.rows * t.cols * 64)]
  | .chan c => [(c.level, c.base, if c.rows = 0 then 0 else (c.rows - 1) * c.stride + c.rowBytes)]

/-- The fields of a shard record within Table 09-2, and the conditions of R292 on it alone. -/
def ShardRec.ok (r : ShardRec) : Bool :=
  r.skind ≤ 1 && r.shard < 1024 && 1 ≤ r.n && r.n ≤ 2 ^ 36 && r.wfmt ≤ 1 && r.sfmt ≤ 1 && (r.wfmt != 1 || r.sfmt == 1) && r.nstate ≤ 2
    && recAt r.w 0x1B 8 ≤ 3 && (r.layout ≤ 2 || r.layout == 0xFF) && (r.level == 1 || r.level == 2) && (r.nset ≤ 15 || r.nset == 0xFF)
    && r.base 0 % 4096 == 0 && r.base 1 % 4096 == 0 && r.stageBase % 4096 == 0 && r.stageLevel ≤ 2 && recAt r.w 0x39 24 == 0 && r.snapPort ≤ 143
    && recAt r.w 0x45 24 == 0 && recAt r.w 0x52 (46 * 8) == 0 && (r.scatter == 0xFFFF || (r.skind == 1 && bits r.scatter 12 4 == 0))
    && (if r.skind = 1 then r.rows * r.cols == r.n
      else if r.factored then r.rows != 0 && r.cols != 0 && r.rows * r.cols == r.n else r.rows == 0 && r.cols == 0)

/-- A finite positive binary64. -/
def posFinite (w : Nat) : Bool := w != 0 && decide (w < 0x7FF0000000000000)

/-- The fields of a record in range, its reserved bytes 0 (Tables 09-2 and 14-4, R307, R455). -/
def State.recOk (s : State) : BindRec → Bool
  | .shard r => r.ok
  | .norm n thr peers b => n ≤ 15 && posFinite thr && decide (peers.length ≤ 767) && zeros ((b.drop 2).take 6) && zeros ((b.drop 0x12).take 14)
      && zeros (b.drop (0x20 + 2 * peers.length))
  | .table t => t.handle ≤ 15 && t.tkind ≤ 1 && 1 ≤ t.rows && 1 ≤ t.cols && t.cols ≤ 4096 && t.level ≤ 2 && t.predict ≤ 1
      && recAt t.w 0x18 320 == 0
      && (if t.tkind = 0 then keyFmt t.fmt && t.rowBytes == s.rowBytesOf t.fmt t.cols && t.rowBytes ≤ 4096 && t.base % 32 == 0
        else (t.fmt == 16 || t.fmt == 18) && t.rowBytes == 0 && t.base % 64 == 0)
  | .chan c => 8 ≤ c.stream && c.stream ≤ 15 && c.engine < 128 && c.dir ≤ 1 && c.level ≤ 2 && c.predict ≤ 1 && c.rowBytes % 32 == 0
      && 32 ≤ c.rowBytes && c.rowBytes ≤ 65536 && 1 ≤ c.rep && recAt c.w 6 16 == 0 && recAt c.w 0x24 224 == 0

/-! ### The load -/

/-- The header's bytes in order, and the records it announces. -/
def bindRecs (b : List Byte) : Option (List BindRec) :=
  let n := fieldOf b 8 2
  if b.length < 64 ∨ fieldOf b 0 1 ≠ 0x1F ∨ fieldOf b 2 1 > 3 ∨ fieldOf b 3 1 ≠ 0 ∨ n < 1 ∨ n > 4096 ∨ !zeros ((b.drop 0x0A).take 54) then none
  else (cutRecs n (b.drop 64)).map (fun l => l.map bindRec)

/-- The set after the load: its records replace those of the same name, or all of them (R452). -/
def State.boundSet (s : State) (set tenant flags : Nat) (rs : List BindRec) : BindSet :=
  let old := match s.binds.find set with
    | some o => if bit flags 1 then { o with tables := [], chans := [] } else o
    | none => ⟨tenant, false, [], []⟩
  rs.foldl (fun (o : BindSet) r => match r with
    | .table t => { o with tables := o.tables.put t.handle t }
    | .chan c => { o with chans := o.chans.put (16 * c.engine + c.stream) c }
    | _ => o) { old with tenant := tenant, dflt := bit flags 0 }

/-- Does an accepted command hold the set: it runs a program, or an op with a table, whose set it is (R453)? -/
def State.setBusy (s : State) (set : Nat) : Bool :=
  let mine := fun (c : Cmd) => (s.binds.find set).any (fun b => b.dflt && b.tenant == c.tenant)
  s.accepted.any (fun k => if 8 ≤ k.cmd.op ∧ k.cmd.op ≤ 0x0A then bits k.cmd.arg0 0 8 == set
    else k.cmd.loadedProg && mine k.cmd)

/-- Does an accepted command hold the shard: it updates it, or it names its mask? -/
def State.shardBusy (s : State) (n : Nat) : Bool :=
  s.accepted.any (fun k => (k.cmd.op == 0x0C && bits k.cmd.arg0 0 10 == n) || (k.mask.map (· / 2)) == some n)

/-- Does an accepted FUSED_UPDATE use the norm set? -/
def State.normBusy (s : State) (set : Nat) : Bool :=
  s.accepted.any (fun k => k.cmd.op == 0x0C && (s.shard (bits k.cmd.arg0 0 10)).any (fun h => h.record.nset == set))

/-- The checks of reason 0x03 (R292, R453). -/
def State.bindOk (s : State) (c : Cmd) (b : List Byte) (rs : List BindRec) : Bool :=
  let news := rs.filterMap (fun r => match r with
    | .shard q => some q
    | _ => none)
  let others := s.nor.shards.items.filter (fun p => !news.any (fun r => r.shard == p.1))
  let copies := news.flatMap (·.copies)
  let pairs := fun (l : List Range) => (l.zipIdx).all (fun p => (l.drop (p.2 + 1)).all (fun q => !p.1.meets q))
  fieldOf b 1 1 == c.arg0 && rs.all s.recOk && distinct' (rs.map BindRec.name)
    && rs.all (fun r => r.ranges.all s.placeOk)
    && pairs copies && copies.all (fun a => others.all (fun p => !p.2.record.copies.any a.meets))
    && ((s.boundSet (fieldOf b 1 1) 0 (fieldOf b 2 1) rs).chans.length ≤ 1024)
where
  /-- Are the names pairwise different? -/
  distinct' : List (Nat × Nat) → Bool
    | [] => true
    | m :: ms => !ms.contains m && distinct' ms

/-- The checks of reason 0x04 (R453, R523): the tenants agree, and the memory named is the tenant's. A shard's tables are its tenant's. -/
def State.bindOwn (s : State) (c : Cmd) (b : List Byte) (rs : List BindRec) : Bool :=
  let t := fieldOf b 4 4
  t == c.tenant && (s.binds.find c.arg0).all (fun o => o.tenant == t)
    && rs.all (fun r => (match r with
      | .shard q => q.tenant == t
      | .table q => q.shard == 0xFFFF || (s.shard q.shard).all (fun h => h.record.tenant == t)
      | .norm n _ _ _ => (s.nor.norms.find n).all (fun o => o.tenant == t)
      | .chan _ => true) && r.ranges.all (fun a => a.2.2 == 0 || s.owns t a.1 a.2.1 a.2.2))

/-- The checks of reason 0x0E (R291, R453). -/
def State.bindFree (s : State) (b : List Byte) (rs : List BindRec) : Bool :=
  let set := fieldOf b 1 1
  let t := fieldOf b 4 4
  !s.setBusy set
    && rs.all (fun r => match r with
      | .shard q => !s.shardBusy q.shard && (s.shard q.shard).all (fun h => h.st == 0)
      | .norm n _ _ _ => !s.normBusy n
      | _ => true)
    && !(bit (fieldOf b 2 1) 0 && !bit (fieldOf b 2 1) 1 && s.binds.items.any (fun p => p.1 != set && p.2.dflt && p.2.tenant == t))

/-- Take the records (R294, R307, R452). A default set loaded with the replace flag takes the place of the tenant's earlier default set (log entry
49). -/
def State.bindTake (s : State) (b : List Byte) (rs : List BindRec) : State :=
  let set := fieldOf b 1 1
  let t := fieldOf b 4 4
  let s := if bit (fieldOf b 2 1) 0
    then { s with binds := s.binds.items.foldl (fun m p => if p.2.tenant = t then m.put p.1 { p.2 with dflt := false } else m) s.binds } else s
  let s := { s with binds := s.binds.put set (s.boundSet set t (fieldOf b 2 1) rs) }
  rs.foldl (fun (s : State) r => match r with
    | .shard q => s.putShard q.shard (Shard.new q)
    | .norm n thr peers _ => { s with nor.norms := s.nor.norms.put n ⟨t, thr, peers, s.get F.STEP_CTR_step, [], none, [], [], s.turn, none, false⟩ }
    | _ => s) s

/-- LOAD_TABLE_BIND (R453). -/
def State.loadBind (s : State) (c : Cmd) (b : List Byte) : Load :=
  match bindRecs b with
  | none => .error (3, s)
  | some rs =>
    if !s.bindOk c b rs then .error (3, s)
    else if !s.bindOwn c b rs then .error (4, s)
    else if !s.bindFree b rs then .error (0xE, s)
    else .ok (s.bindTake b rs)

end Sys2Proof.Machine
end

