-- ==== Sys2Proof/Machine/Links.lean ====
section
/-!
DEFINITION. The Gasha link and the Ethernet frames (R413 to R435): flits, seal blocks, replay and credits; datagrams, MACsec, priority flow control;
the ingress buffer.
-/
namespace Sys2Proof.Machine
open Sys2Proof

/-! ### Ports and modes (Table 13-1) -/

/-- The link of a port. -/
def State.link (s : State) (p : Nat) : Link := SMap.get (fun _ => Link.init) s.links p

/-- Put the link of a port. -/
def State.putLink (s : State) (p : Nat) (l : Link) : State := { s with links := SMap.set (fun _ => Link.init) s.links p l }

/-- The mode of a port. -/
def State.portMode (s : State) (p : Nat) : Nat := s.get (F.PT_CTL_mode p)

/-- Is the port in a Gasha mode? -/
def State.isG (s : State) (p : Nat) : Bool := s.portMode p ≤ 1

/-- Is the port in an Ethernet mode? -/
def State.isE (s : State) (p : Nat) : Bool := 2 ≤ s.portMode p && s.portMode p ≤ 4

/-- The payload rate of a mode in Gb/s (R390). -/
def modeRate (m : Nat) : Nat := if m = 0 then 1600 else if m ≤ 2 then 800 else if m = 3 then 400 else 200

/-- Is the port in ACTIVE? -/
def State.up (s : State) (p : Nat) : Bool := s.get (F.PT_STATUS_up p) == 1

/-- The action of the port's training entry (Table 13-8). -/
def State.action (s : State) (p : Nat) : Nat := s.get (F.PT_STATUS_action p)

/-! ### Checks -/

/-- One bit of CRC-16. -/
def crc16Bits : Nat → Nat → Nat
  | 0, c => c
  | n + 1, c => crc16Bits n (if 2 ^ 15 ≤ c then (2 * c % 2 ^ 16) ^^^ 0x8BB7 else 2 * c)

/-- CRC-16 with polynomial 0x8BB7 and initial value 0 (Table 13-2). -/
def crc16 (m : List Byte) : Nat := m.foldl (fun c b => crc16Bits 8 (c ^^^ b.toNat <<< 8)) 0

/-- One bit of the reflected CRC-32 of IEEE 802.3. -/
def crc32Bits : Nat → Nat → Nat
  | 0, c => c
  | n + 1, c => crc32Bits n (if c % 2 = 1 then c / 2 ^^^ 0xEDB88320 else c / 2)

/-- The FCS of a frame. -/
def fcs (m : List Byte) : Nat := (m.foldl (fun c b => crc32Bits 8 (c ^^^ b.toNat)) 0xFFFFFFFF) ^^^ 0xFFFFFFFF

/-! ### Keys (R420, R421, R529) -/

/-- Is this side the one with the lower module identifier (R420)? A peer that no INIT has named yet counts as an endpoint (log entry 30). -/
def State.lowSide (s : State) (p : Nat) : Bool := decide (s.me < (s.link p).peer)

/-- The direction byte of what this side sends, or receives (R420): 0 from the initiator of the exchange that gave the link secret (R527). -/
def State.direction (s : State) (p : Nat) (tx : Bool) : Nat :=
  b2n ((match (s.link p).kx with
    | some k => k.init
    | none => s.lowSide p) != tx)

/-- The link secret of a port. -/
def State.linkSecret (s : State) (p : Nat) : List Byte := (s.sec.secrets.find p).getD []

/-- The key of a direction and epoch. -/
def State.linkKey (s : State) (p : Nat) (tx : Bool) (epoch : Nat) : List Byte :=
  hkdf384 [] (s.linkSecret p) (ascii "KZ4810-LINK" ++ leBytes (s.direction p tx) 1 ++ leBytes epoch 4) 32

/-- The nonce of a seal block. -/
def sealNonce (epoch ctr : Nat) : List Byte := leBytes ctr 8 ++ leBytes epoch 4

/-- The body at position `i` of a seal block, encrypted or decrypted. -/
def cryptBody (key : List Byte) (epoch ctr i : Nat) (b : List Byte) : List Byte :=
  (gcmCrypt key (sealNonce epoch ctr) (List.replicate (256 * i) 0 ++ b)).drop (256 * i)

/-- The tag of a seal block: its 47 flits as they travel. -/
def sealTag (key : List Byte) (epoch ctr : Nat) (fs : List Flit) : List Byte :=
  gcmTag key (sealNonce epoch ctr) (fs.flatMap (fun f => leBytes f.hdr 6)) (fs.flatMap (·.body))

/-! ### Flits (Tables 13-2 and 13-3) -/

namespace Flit
/-- 0 idle, 1 data, 2 control. -/
def type (f : Flit) : Nat := bits f.hdr 0 2
/-- The class of a data flit. -/
def cls (f : Flit) : Nat := bits f.hdr 2 2
/-- The body begins a packet. -/
def sop (f : Flit) : Bool := bit f.hdr 4
/-- The body ends a packet. -/
def eop (f : Flit) : Bool := bit f.hdr 5
/-- Valid body bytes minus 1. -/
def last (f : Flit) : Nat := bits f.hdr 6 8
/-- The sequence number. -/
def seq (f : Flit) : Nat := bits f.hdr 14 12
/-- The sender's rx_next. -/
def ack (f : Flit) : Nat := bits f.hdr 26 12
/-- The class whose credits follow. -/
def crClass (f : Flit) : Nat := bits f.hdr 38 2
/-- Cumulative credits, low 8 bits. -/
def crCum (f : Flit) : Nat := bits f.hdr 40 8
/-- Does the crc hold? -/
def ok (f : Flit) : Bool := bits f.hdr 48 16 == crc16 (leBytes f.hdr 6 ++ f.body)
end Flit

/-- The header of a flit with the ack and credits of now, over the body that travels. -/
def Link.header (l : Link) (f : Flit) (body : List Byte) : Nat :=
  let h := bits f.hdr 0 26 ||| packBits [(26, 12, l.rxNext), (38, 2, l.crClass), (40, 8, l.given.rd l.crClass)]
  h ||| crc16 (leBytes h 6 ++ body) <<< 48

/-- Put a flit on the wire. -/
def State.wire (s : State) (p : Nat) (f : Flit) : State := s.emit (.flit p (leBytes f.hdr 8 ++ f.body))

/-- The body of a SEAL (Table 13-3). -/
def Link.sealBody (l : Link) (tag : List Byte) (rekey : Bool) : List Byte :=
  padTo 256 ([1] ++ leBytes (b2n (!l.crypt) + 2 * b2n rekey) 1 ++ leBytes 0 2 ++ leBytes (if l.crypt then l.txEpoch else 0) 4 ++
    leBytes (if l.crypt then l.txCtr else 0) 8 ++ padTo 16 tag ++ (List.range 4).flatMap (fun c => leBytes (l.given.rd c) 4))

/-- Close the seal block with its seal flit, and move to the next block (R418, R421). -/
def State.sendSeal (s : State) (p : Nat) : State :=
  let l := s.link p
  let rekey := l.crypt && (l.rekey || decide (l.txCtr + 1 ≥ 2 ^ 30))
  let tag := if l.crypt then sealTag (s.linkKey p true l.txEpoch) l.txEpoch l.txCtr l.txBlock else []
  let body := l.sealBody tag rekey
  let f : Flit := ⟨packBits [(0, 2, 2), (6, 8, 255), (14, 12, l.txSeq)], body⟩
  let s := s.wire p ⟨l.header f body, body⟩
  let s := s.putLink p { l with
    txBlock := []
    txSeq := (l.txSeq + 1) % 4096
    replay := l.replay ++ [f]
    crClass := (l.crClass + 1) % 4
    txEpoch := if rekey then l.txEpoch + 1 else l.txEpoch
    txCtr := if rekey then 0 else if l.crypt then l.txCtr + 1 else l.txCtr
    rekey := false }
  if rekey then (s.set (F.PT_KEY_epoch p) (l.txEpoch + 1)).inc (F.PT_KEY_rekeys p) else s

/-- Send one flit with its plain body at the next position; the seal flit follows the 47th of a block. -/
def State.putFlit (s : State) (p : Nat) (f : Flit) : State :=
  let l := s.link p
  let body := if l.crypt then cryptBody (s.linkKey p true l.txEpoch) l.txEpoch l.txCtr l.txBlock.length f.body else f.body
  let w : Flit := ⟨l.header f body, body⟩
  let s := (s.wire p w).putLink p { l with txBlock := l.txBlock ++ [w], crClass := (l.crClass + 1) % 4 }
  if l.txBlock.length + 1 = 47 then s.sendSeal p else s

/-- Send a new data or control flit: it takes a sequence number and is kept for replay (R425). -/
def State.newFlit (s : State) (p : Nat) (type cls : Nat) (sop eop : Bool) (last : Nat) (body : List Byte) : State :=
  let l := s.link p
  let f : Flit := ⟨packBits [(0, 2, type), (2, 2, cls), (4, 1, b2n sop), (5, 1, b2n eop), (6, 8, last), (14, 12, l.txSeq)], padTo 256 body⟩
  (s.putLink p { l with
    txSeq := (l.txSeq + 1) % 4096
    replay := l.replay ++ [f]
    ackAt := if l.replay.isEmpty then s.beat else l.ackAt }).putFlit p f

/-- Send a control flit (Table 13-3). -/
def State.sendCtl (s : State) (p kind : Nat) (body : List Byte) : State := s.newFlit p 2 0 false false 255 (BitVec.ofNat 8 kind :: body)

/-- An idle flit. -/
def idleFlit : Flit := ⟨packBits [(6, 8, 255)], List.replicate 256 0⟩

/-- Fill the open seal block with idle flits, which seals it (R418). -/
def State.fillSeal (s : State) (p : Nat) : State :=
  let n := (s.link p).txBlock.length
  if n = 0 then s else (List.range (47 - n)).foldl (fun s _ => s.putFlit p idleFlit) s

/-- Credits in hand for a class (R427). -/
def Link.credits (l : Link) (c : Nat) : Nat := (l.granted.rd c + 2 ^ 32 - l.used.rd c) % 2 ^ 32

/-- Send the data flits that wait, while the port is up and seals its blocks (a data flit never travels in clear, R421), credits last and the replay
buffer has room (R425, R427). -/
def State.pump (s : State) (p : Nat) : Nat → State
  | 0 => s
  | n + 1 =>
    let l := s.link p
    match l.queue with
    | [] => s
    | f :: rest =>
      if !s.up p || !l.crypt || l.credits f.cls = 0 || decide (l.replay.length ≥ 1024) then s
      else
        State.pump ((s.putLink p { l with queue := rest, used := l.used.wr f.cls (l.used.rd f.cls + 1) }).newFlit p 1 f.cls f.sop f.eop f.last f.body)
          p n

/-- Send what may leave. -/
def State.pumpAll (s : State) (p : Nat) : State := s.pump p (s.link p).queue.length

/-- The bytes of a packet as stored (R357). -/
def Packet.bytes (k : Packet) : List Byte := leBytes k.h 32 ++ k.data

/-- The data flits of a packet, before they take sequence numbers (R417). -/
def packetFlits (k : Packet) : List Flit :=
  let b := k.bytes
  let n := (b.length + 255) / 256
  ((pieces 256 n b).zipIdx).map (fun q =>
    ⟨packBits [(0, 2, 1), (2, 2, bits k.h 0 2), (4, 1, b2n (q.2 == 0)), (5, 1, b2n (q.2 + 1 == n)), (6, 8, if q.2 + 1 = n then q.1.length - 1 else 255)], q.1⟩)

/-! ### Replay (R425) -/

/-- Drop what an ack covers. -/
def Link.ackTo (l : Link) (now a : Nat) : Link :=
  match l.replay with
  | [] => l
  | f :: _ =>
    let d := (a + 4096 - f.seq) % 4096
    if 0 < d ∧ d ≤ l.replay.length then { l with replay := l.replay.drop d, ackAt := now } else l

/-- Resend every flit kept, in order: counted, a timing event, noted in the field log. -/
def State.resend (s : State) (p : Nat) : State :=
  let fs := (s.link p).replay
  let s := ((s.inc (F.PT_REPLAY_COUNT_replays p)).inc (F.PT_REPLAY_COUNT_flits p) fs.length).pert 0
  let s := s.flogAdd (0x62E8 + 16 * p) 8
  fs.foldl (fun s f => s.putFlit p f) (s.putLink p { s.link p with ackAt := s.beat })

/-- A RETRY or an INIT names the peer's rx_next: the replay point moves forward, or the message is ignored (R425, R441). -/
def State.resendFrom (s : State) (p rx : Nat) : State :=
  let l := s.link p
  match l.replay with
  | [] => s
  | f :: _ =>
    if (rx + 4096 - f.seq) % 4096 > l.replay.length then s
    else
      let s := s.putLink p (l.ackTo s.beat rx)
      if (s.link p).replay.isEmpty then s else s.resend p

/-! ### Receiving flits (R422 to R424) -/

/-- Enter discard mode and ask for a resend, once per rx_next within PT_RTO. Reasons: 1 crc, 2 tag, 3 sequence gap, 4 FEC. -/
def State.askRetry (s : State) (p reason : Nat) : State :=
  let l := s.link p
  let again := match l.retried with
    | some (n, t) => n == l.rxNext && decide (s.beat < t + s.get (F.PT_RTO_ns p))
    | none => false
  let l := { l with discard := true, rxExp := l.rxNext, rxBlock := l.rxBlock.map (fun x => { x with took := false }) }
  if again then s.putLink p l
  else (s.putLink p { l with retried := some (l.rxNext, s.beat) }).sendCtl p 2 (leBytes 0 1 ++ leBytes l.rxNext 2 ++ leBytes reason 1)

/-- Take the ack and the credits of an accepted header (R428). -/
def State.takeHeader (s : State) (p : Nat) (f : Flit) : State :=
  let l := (s.link p).ackTo s.beat f.ack
  let g := l.granted.rd f.crClass
  (s.putLink p { l with granted := l.granted.wr f.crClass ((g + (f.crCum + 256 - g % 256) % 256) % 2 ^ 32) }).pumpAll p

/-- What the FEC made of the codeword of a flit (Table 13-11): 1 corrected, 2 uncorrectable. -/
def State.fecNote (s : State) (p fec : Nat) : State :=
  if fec = 1 then s.inc (F.PT_FEC_COUNT_corrected p)
  else if fec = 2 then
    let s := ((s.inc (F.PT_FEC_COUNT_uncorr p)).flogAdd (0x62E8 + 16 * p + 8) 4)
    s.putLink p { s.link p with fecAt := s.beat :: (s.link p).fecAt.filter (fun t => decide (s.beat < t + 1000000)) }
  else s

/-- One flit position: what the receiver makes of the flit. `fec` is 1 for a corrected codeword and 2 for an uncorrectable one. The answer holds the plain body
where the flit is accepted. -/
def State.rxFlit (s : State) (p : Nat) (f : Flit) (fec : Nat) : Option (List Byte) × State :=
  let l := s.link p
  let plain := if l.crypt && decide (l.rxBlock.length < 47) then cryptBody (s.linkKey p false l.rxEpoch) l.rxEpoch l.rxCtr l.rxBlock.length f.body
    else f.body
  let put := fun (s : State) (took : Bool) => s.putLink p { s.link p with rxBlock := (s.link p).rxBlock ++ [⟨f, plain, took⟩] }
  let s := s.fecNote p fec
  if fec = 2 then (none, (put s false).askRetry p 4)
  else if !f.ok then (none, (put (s.inc (F.PT_ERR_COUNT_crc p)) false).askRetry p 1)
  else if f.type = 0 then (none, if l.discard then put s false else (put s false).takeHeader p f)
  else if l.discard ∧ f.seq ≠ l.rxNext then (none, put s false)
  else if !l.discard ∧ f.seq ≠ l.rxExp then (none, (put s false).askRetry p 3)
  else
    let s := put s true
    let s := s.putLink p { s.link p with discard := false, rxExp := (f.seq + 1) % 4096 }
    (some plain, s.takeHeader p f)

/-- One accepted data flit of a verified block joins its packet (R417). -/
def Link.join (l : Link) (x : RxFlit) : Link :=
  let b := (if x.f.sop then [] else l.part) ++ x.plain.take (if x.f.eop then x.f.last + 1 else 256)
  if x.f.eop then { l with part := [], ready := l.ready ++ [⟨leNat (b.take 32), b.drop 32⟩] } else { l with part := b }

/-- The port goes on to the next seal block. -/
def Link.nextBlock (l : Link) : Link := { l with rxBlock := [], rxCtr := if l.crypt then l.rxCtr + 1 else l.rxCtr }

/-- Does a seal flit verify its block (R422)? -/
def State.sealOk (s : State) (p : Nat) (body : List Byte) : Bool :=
  let l := s.link p
  let at_ := fun (o n : Nat) => leNat ((body.drop o).take n)
  if !l.crypt then bit (at_ 1 1) 0
  else !bit (at_ 1 1) 0 && at_ 4 4 == l.rxEpoch && at_ 8 8 == l.rxCtr &&
    (body.drop 16).take 16 == sealTag (s.linkKey p false l.rxEpoch) l.rxEpoch l.rxCtr (l.rxBlock.map (·.f))

/-- A block whose tag or seal flit fails is discarded as a whole (R422). -/
def State.sealFail (s : State) (p : Nat) : State :=
  let s := s.inc (F.PT_ERR_COUNT_tag p)
  let l := s.link p
  (s.putLink p { l.nextBlock with tagAt := s.beat :: l.tagAt.filter (fun t => decide (s.beat < t + 1000000)) }).askRetry p 2

/-- The flit at the place of a seal flit is none, or fails its check: its block fails (R422). -/
def State.sealLost (s : State) (p : Nat) (f : Flit) (fec : Nat) : State :=
  let s := s.fecNote p fec
  (if fec ≠ 2 ∧ f.ok = false then s.inc (F.PT_ERR_COUNT_crc p) else s).sealFail p

/-- A verified block is released (R422, R423, R428). -/
def State.sealPass (s : State) (p : Nat) (f : Flit) : State :=
  let l := s.link p
  let l := { l with rxExp := if f.seq = l.rxExp then (f.seq + 1) % 4096 else l.rxExp }
  let l := if l.crypt then (l.rxBlock.filter (fun x => x.took && x.f.type == 1)).foldl Link.join l else l
  let at_ := fun (o n : Nat) => leNat ((f.body.drop o).take n)
  let rekey := l.crypt && bit (at_ 1 1) 1
  let l := { l.nextBlock with
    rxNext := l.rxExp
    granted := if l.crypt then (List.range 4).foldl (fun g c => g.wr c (at_ (32 + 4 * c) 4)) l.granted else l.granted }
  let s := s.putLink p (if rekey then { l with rxEpoch := l.rxEpoch + 1, rxCtr := 0 } else l)
  let s := if rekey then s.inc (F.PT_KEY_rekeys p) else s
  (s.putLink p ((s.link p).ackTo s.beat f.ack)).pumpAll p

/-- Grant the credits of a packet whose flit bodies leave the ingress buffer (R428). -/
def Link.grant (l : Link) (k : Packet) : Link :=
  let c := bits k.h 0 2
  { l with given := l.given.wr c ((l.given.rd c + (32 + k.data.length + 255) / 256) % 2 ^ 32) }

/-! ### Ethernet (R430 to R434) -/

/-- The priority of a class (PT_PFC). -/
def State.pcp (s : State) (p c : Nat) : Nat := bits (s.word (R.PT_PFC p)).toNat (4 * c) 3

/-- The DSCP of a class. -/
def State.dscp (s : State) (p c : Nat) : Nat := bits (s.word (R.PT_PFC p)).toNat (16 + 8 * c) 6

/-- The ones' complement sum of 16-bit words. -/
def onesSum (b : List Byte) : Nat :=
  let t := ((pieces 2 ((b.length + 1) / 2) b).map (fun w => leNat (padTo 2 w).reverse)).sum
  let t := t % 65536 + t / 65536
  t % 65536 + t / 65536

/-- The IPv6 packet of a datagram (R431). -/
def State.ipv6 (s : State) (p c : Nat) (goe : List Byte) : List Byte :=
  let n := 8 + goe.length
  let src := beBytes (s.word (R.GOE_LOCAL1 p)).toNat 8 ++ beBytes (s.word (R.GOE_LOCAL0 p)).toNat 8
  let dst := beBytes (s.word (R.GOE_PEER1 p)).toNat 8 ++ beBytes (s.word (R.GOE_PEER0 p)).toNat 8
  let udp := fun (sum : Nat) => beBytes (s.get (F.GOE_CTL_udp p) + c) 2 ++ beBytes (s.get (F.GOE_CTL_udp p)) 2 ++ beBytes n 2 ++ beBytes sum 2 ++ goe
  let t := 65535 - onesSum (src ++ dst ++ beBytes n 4 ++ beBytes 17 4 ++ udp 0)
  beBytes (6 <<< 28 ||| s.dscp p c <<< 22) 4 ++ beBytes n 2 ++ beBytes 17 1 ++ beBytes (s.get (F.GOE_CTL_hops p)) 1 ++ src ++ dst ++
    udp (if t = 0 then 65535 else t)

/-- The SAK and XPN salt of a direction and association number (R529). -/
def State.sak (s : State) (p : Nat) (tx : Bool) (an : Nat) : List Byte :=
  hkdf384 [] (s.linkSecret p) (ascii "KZ4810-SAK" ++ leBytes (s.direction p tx) 1 ++ leBytes an 1) 44

/-- Send an IPv6 packet in a frame, under MACsec where the port protects it (R431, R434). -/
def State.sendFrame (s : State) (p : Nat) (protect : Bool) (ip : List Byte) : State :=
  let l := s.link p
  let macs := beBytes (s.get (F.GOE_PEER_MAC_mac p)) 6 ++ beBytes (s.get (F.GOE_MAC_mac p)) 6
  let body := beBytes 0x86DD 2 ++ ip
  let f := if !protect then macs ++ body
    else
      let pn := l.pn + 1
      let tag := beBytes 0x88E5 2 ++ beBytes 0x2C 1 ++ beBytes 0 1 ++ beBytes pn 4 ++ beBytes (s.get (F.GOE_MAC_mac p)) 6 ++ beBytes 1 2
      let k := s.sak p true 0
      let iv := xorBytes (k.drop 32) (beBytes (1 + s.direction p true) 4 ++ beBytes pn 8)
      let ct := gcmCrypt (k.take 32) iv body
      macs ++ tag ++ ct ++ gcmTag (k.take 32) iv (macs ++ tag) ct
  (s.putLink p { l with pn := if protect then l.pn + 1 else l.pn }).emit (.udp p (f ++ leBytes (fcs f) 4))

/-- The GoE header (Table 13-5). -/
def goeHeader (type cls seq ack flags : Nat) : List Byte :=
  leBytes (packBits [(0, 4, 1), (4, 4, type), (8, 2, cls), (32, 32, seq), (64, 32, ack), (96, 8, flags)]) 16

/-- Send a datagram of a type. -/
def State.sendGoe (s : State) (p type cls seq flags : Nat) (body : List Byte) : State :=
  s.sendFrame p (type ≤ 1) (s.ipv6 p cls (goeHeader type cls seq (s.link p).rxNext flags ++ body))

/-- Acknowledge, or ask for a resend (R432). -/
def State.goeAck (s : State) (p : Nat) (retry : Bool) : State := s.sendGoe p 1 0 0 (b2n retry) []

/-- Send a kept datagram again; `hdr` of a kept datagram is its sequence number, type and class. -/
def State.regoe (s : State) (p : Nat) (f : Flit) : State := s.sendGoe p (bits f.hdr 32 4) (bits f.hdr 36 2) (bits f.hdr 0 32) 0 f.body

/-- A new datagram: it takes a sequence number and is kept (R432). -/
def State.newGoe (s : State) (p type cls : Nat) (body : List Byte) : State :=
  let l := s.link p
  let f : Flit := ⟨packBits [(0, 32, l.txSeq), (32, 4, type), (36, 2, cls)], body⟩
  (s.putLink p { l with
    txSeq := (l.txSeq + 1) % 2 ^ 32
    replay := l.replay ++ [f]
    ackAt := if l.replay.isEmpty then s.beat else l.ackAt }).regoe p f

/-- Drop the datagrams an ack covers. -/
def Link.goeAckTo (l : Link) (now a : Nat) : Link :=
  match l.replay with
  | [] => l
  | f :: _ =>
    let d := (a + 2 ^ 32 - bits f.hdr 0 32) % 2 ^ 32
    if 0 < d ∧ d ≤ l.replay.length then { l with replay := l.replay.drop d, ackAt := now } else l

/-- Resend every kept datagram (R432). -/
def State.goeResend (s : State) (p : Nat) : State :=
  let fs := (s.link p).replay
  if fs.isEmpty then s
  else
    let s := ((s.inc (F.PT_REPLAY_COUNT_replays p)).inc (F.PT_REPLAY_COUNT_flits p) fs.length).pert 0
    let s := s.flogAdd (0x62E8 + 16 * p) 8
    fs.foldl (fun s f => s.regoe p f) (s.putLink p { s.link p with ackAt := s.beat })

/-- A class's share of the ingress buffer in bytes (PT_CRED). -/
def State.share (s : State) (p c : Nat) : Nat := 4096 * bits (s.word (R.PT_CRED p)).toNat (8 * c) 6

/-- Bytes of the ingress buffer a class holds. -/
def Link.holds (l : Link) (c : Nat) : Nat := ((l.ready.filter (fun k => bits k.h 0 2 == c)).map (fun k => 32 + k.data.length)).sum

/-- Bytes of the ingress buffer in use. -/
def Link.inUse (l : Link) : Nat := (l.ready.map (fun k => 32 + k.data.length)).sum

/-- The pause threshold of a class (R433). -/
def State.pauseAt (s : State) (p c : Nat) : Nat := max (s.share p c - 65536) (s.share p c / 2)

/-- Send a PFC frame that pauses (quanta 0xFFFF) or releases (0) priorities of a mask. -/
def State.sendPfc (s : State) (p mask : Nat) (pause : Bool) : State :=
  let f := beBytes 0x0180C2000001 6 ++ beBytes (s.get (F.GOE_MAC_mac p)) 6 ++ beBytes 0x8808 2 ++ beBytes 0x0101 2 ++ beBytes mask 2 ++
    (List.range 8).flatMap (fun i => beBytes (if bit mask i && pause then 0xFFFF else 0) 2) ++ List.replicate 26 0
  (s.inc (F.PT_PFC_COUNT_sent p)).emit (.udp p (f ++ leBytes (fcs f) 4))

/-- Pause and release priorities after a change of the ingress buffer (R433). -/
def State.flowControl (s : State) (p : Nat) : State :=
  if !s.isE p then s
  else
    let l := s.link p
    let free := 262144 - l.inUse
    let mask := fun (q : Nat → Bool) => (List.range 4).foldl (fun m c => if q c then m ||| 1 <<< s.pcp p c else m) 0
    let mine := mask (fun c => decide (l.holds c > s.pauseAt p c)) |||
      (l.sentPfc % 256 &&& mask (fun c => decide (l.holds c ≥ s.share p c / 4)))
    let whole := if free < 32768 then mask (fun _ => true)
      else if free > 65536 then l.sentPfc / 256 &&& mask (fun c => decide (l.holds c ≥ s.pauseAt p c))
      else l.sentPfc / 256
    let was := l.sentPfc % 256 ||| l.sentPfc / 256
    let now := mine ||| whole
    let start := now &&& (255 - was)
    let stop := was &&& (255 - now)
    let s := s.putLink p { l with sentPfc := mine + 256 * whole }
    let s := if start = 0 then s else s.sendPfc p start true
    if stop = 0 then s else s.sendPfc p stop false

/-! ### What the switch core asks of a port -/

/-- Does the link hold credit for a class (R391, R427, R433, R441)? -/
def State.linkCredit (s : State) (p c : Nat) : Bool :=
  s.up p && (if s.isG p then decide ((s.link p).credits c > 0)
    else decide ((s.link p).paused.rd c ≤ s.beat) && decide ((s.link p).replay.length < 1024))

/-- Is the port free to start a packet (R388)? -/
def State.portFree (s : State) (p : Nat) : Bool := (s.link p).queue.isEmpty

/-- Send a packet on a port. -/
def State.sendPacket (s : State) (p : Nat) (k : Packet) : State :=
  if s.isG p then (s.putLink p { s.link p with queue := packetFlits k }).pumpAll p else s.newGoe p 0 (bits k.h 0 2) k.bytes

/-- The switch core takes a packet out of a port's ingress buffer (R428, R433). -/
def State.leaveBuffer (s : State) (p : Nat) (k : Packet) : State :=
  let l := s.link p
  (s.putLink p ({ l with ready := l.ready.erase k }.grant k)).flowControl p

end Sys2Proof.Machine
end

