-- ==== Sys2Proof/Machine/SwitchOps.lean ====
section
/-!
DEFINITION. The switch core's shared operations (chapters 11 and 12): header fields, furrows, basins, flows and delivery, buckets, routing,
multicast, the gauge ring.
-/
namespace Sys2Proof.Machine
open Sys2Proof

/-! ### The switch header (Table 11-2) -/

namespace Packet
/-- The class. -/
def cls (k : Packet) : Nat := bits k.h 0 2
/-- Multicast? -/
def mc (k : Packet) : Bool := bit k.h 2
/-- The FENCE flag. -/
def fence (k : Packet) : Bool := bit k.h 3
/-- The routing bank. -/
def epoch (k : Packet) : Nat := bits k.h 4 1
/-- The tree. -/
def tree (k : Packet) : Nat := bits k.h 5 1
/-- The meter's marking. -/
def red (k : Packet) : Bool := bit k.h 6
/-- Payload bytes. -/
def len (k : Packet) : Nat := bits k.h 16 14
/-- The destination address. -/
def dst (k : Packet) : Nat := bits k.h 32 24
/-- The source address. -/
def src (k : Packet) : Nat := bits k.h 64 24
/-- The collective. -/
def coll (k : Packet) : Nat := bits k.h 96 32
/-- The stamp. -/
def stamp (k : Packet) : Nat := bits k.h 128 64
/-- The stored size (R388). -/
def size (k : Packet) : Nat := 32 + k.len
/-- The packet with header bits [lo+w−1:lo] replaced. -/
def put (k : Packet) (lo w v : Nat) : Packet := { k with h := (k.h ^^^ (bits k.h lo w) <<< lo) ||| (v % 2 ^ w) <<< lo }
end Packet

/-- Is a selector one of Table 11-1? -/
def selOk (sel : Nat) : Bool := sel < 144 || (0xE0 ≤ sel && sel ≤ 0xF0) || sel == 0xFF

/-- Is the header well formed, for the payload it came with (R357)? -/
def Packet.wellFormed (k : Packet) : Bool :=
  bits k.h 7 9 == 0 && bits k.h 30 2 == 0 && bits k.h 56 8 == 0 && bits k.h 88 8 == 0 && bits k.h 192 64 == 0 && 1 ≤ k.len && k.len ≤ 16352
    && k.len == k.data.length && selOk (k.src % 256) && (k.mc || selOk (k.dst % 256))

/-- The key of a packet's flow (R400). -/
def Packet.flow (k : Packet) : Nat :=
  catBits (catBits (catBits (catBits k.src k.cls 2) (b2n k.mc) 1) (if k.mc then k.tree else 0) 1) (if k.mc then k.coll else k.dst) 32

/-- Is the packet a delivery report, which no flow tracks (R400)? -/
def Packet.report (k : Packet) : Bool := k.cls == 0 && k.data.headD 0 == 0x50

/-- Is this module the packet's ingress edge (R400)? -/
def State.ingress (s : State) (k : Packet) : Bool := k.src / 256 == s.me

/-! ### Furrows -/

/-- The key of a furrow. -/
def furrowKey (src dest cls : Nat) : Nat := (src * 256 + dest) * 4 + cls

/-- The packets of a furrow, head first. -/
def State.furrow (s : State) (k : Nat) : List Desc := SMap.get (fun _ => []) s.sw.furrows k

/-- Put a furrow; its head has waited since now where it is a new head. -/
def State.putFurrow (s : State) (k : Nat) (l : List Desc) : State :=
  { s with sw.furrows := SMap.set (fun _ => []) s.sw.furrows k l }

/-- Packets held of an epoch (RT_HELD): a packet with copies in several furrows counts once, by its buffer; a packet that waits counts. -/
def State.heldOf (s : State) (e : Nat) : Nat :=
  let ds := (s.sw.furrows.flatMap (·.2)).filter (fun d => d.p.epoch == e)
  ((ds.map (fun d => (d.die * 3 + d.pool) * 2 ^ 20 + d.idx)).eraseDups).length + (s.sw.waiting.filter (fun w => w.p.epoch == e)).length

/-! ### Basins (R360 to R368) -/

/-- Buffers of a pool (Table 11-4). -/
def poolSize (k : Nat) : Nat := if k = 0 then 131072 else if k = 1 then 24576 else 3072

/-- Bytes of a buffer. -/
def bufBytes (k : Nat) : Nat := if k = 0 then 256 else if k = 1 then 2048 else 16384

/-- The free list of a pool. -/
def State.pool (s : State) (die k : Nat) : Pool := SMap.get (fun _ => ⟨[], 0⟩) s.sw.pools (die * 3 + k)

/-- Put a free list. -/
def State.putPool (s : State) (die k : Nat) (p : Pool) : State := { s with sw.pools := SMap.set (fun _ => ⟨[], 0⟩) s.sw.pools (die * 3 + k) p }

/-- The key of a buffer. -/
def bufKey (die k i : Nat) : Nat := (die * 3 + k) * 2 ^ 20 + i

/-- The tag of a buffer. -/
def State.tag (s : State) (die k i : Nat) : Tag := SMap.get (fun _ => Tag.init) s.sw.tags (bufKey die k i)

/-- Put a tag. -/
def State.putTag (s : State) (die k i : Nat) (t : Tag) : State := { s with sw.tags := SMap.set (fun _ => Tag.init) s.sw.tags (bufKey die k i) t }

/-- The generation of a tag. -/
def State.gen (s : State) (t : Tag) : Nat := (t.gen + s.sw.genBase) % 65536

/-- Is a pool's list being rebuilt? -/
def State.rebuilding (s : State) (die k : Nat) : Bool := bit (s.get F.SW_STATUS_rebuild) (3 * die + k)

/-- Free buffers of a pool (BSN_FREE). -/
def State.freeBufs (s : State) (die k : Nat) : Nat := (s.pool die k).stack.length + (poolSize k - (s.pool die k).virgin)

/-- The head of a list (BSN_HEAD). -/
def State.poolHead (s : State) (die k : Nat) : Option Nat :=
  match (s.pool die k).stack with
  | i :: _ => some i
  | [] => if (s.pool die k).virgin < poolSize k then some (s.pool die k).virgin else none

/-- Buffers of a pool that a source holds in a class. -/
def State.heldBufs (s : State) (die k src cls : Nat) : Nat :=
  (s.sw.tags.filter (fun e => e.1 / 2 ^ 20 == die * 3 + k && e.2.st == 1 && e.2.src == src && e.2.cls == cls)).length

/-- The limit of a source, class and pool (BSN_LIM). -/
def State.bufLimit (s : State) (k src cls : Nat) : Nat := bits (s.word (R.BSN_LIM src cls)).toNat (20 * k) 20

/-- Buffers held in reserve against a class (R362). -/
def State.reserve (s : State) (k cls : Nat) : Nat :=
  if k ≠ 0 ∨ cls = 0 then 0 else if cls = 3 then s.get F.SW_RSV_rsv_s else s.get F.SW_RSV_rsv_s + s.get F.SW_RSV_rsv_m

/-- Is a pool eligible for a packet (R361)? -/
def State.poolOk (s : State) (die k src cls size : Nat) : Bool :=
  decide (size ≤ bufBytes k) && decide (s.freeBufs die k > s.reserve k cls) && decide (s.heldBufs die k src cls < s.bufLimit k src cls) &&
    !s.rebuilding die k

/-- The first eligible pool. -/
def State.choosePool (s : State) (die src cls size : Nat) : Option Nat := (List.range 3).find? (fun k => s.poolOk die k src cls size)

/-- The smallest pool that fits. -/
def smallestPool (size : Nat) : Nat := ((List.range 3).find? (fun k => decide (size ≤ bufBytes k))).getD 2

/-- Take the head of a list for a packet with `refs` copies: its index. -/
def State.allocate (s : State) (die k src cls refs : Nat) : Nat × State :=
  let i := (s.poolHead die k).getD 0
  let p := s.pool die k
  let s := s.putPool die k (match p.stack with
    | _ :: r => { p with stack := r }
    | [] => { p with virgin := p.virgin + 1 })
  (i, s.putTag die k i { s.tag die k i with st := 1, refs := refs, src := src, cls := cls })

/-- Raise BASIN_FAULT (R368). -/
def State.basinTrap (s : State) (die k kind index seen tag : Nat) : State :=
  let s := s.faultReport 6 (4 * die + k) 0 index
  if s.cause 8 then s.inc F.BSN_LOST_COUNT_lost
  else (s.sets [(F.BSN_REC0_die, die), (F.BSN_REC0_pool, k), (F.BSN_REC0_kind, kind), (F.BSN_REC1_index, index), (F.BSN_REC1_gen_seen, seen),
    (F.BSN_REC1_gen_tag, tag), (F.BSN_REC2_turn, s.turn)]).inc F.BSN_SEQ_seq

/-- Put a buffer in quarantine. -/
def State.quarantine (s : State) (die k i : Nat) : State := s.putTag die k i { s.tag die k i with st := 2 }

/-- Empty a list, which is then rebuilt (R367). -/
def State.emptyList (s : State) (die k : Nat) : State :=
  (s.putPool die k ⟨[], poolSize k⟩).set F.SW_STATUS_rebuild (s.get F.SW_STATUS_rebuild ||| 1 <<< (3 * die + k))

/-- An upset that meets an allocation (R367): a bad head leaves the packet without a buffer of this pool, a bad link does not. -/
def State.allocFault (s : State) (die k : Nat) (bf : Option BasinFault) : State :=
  match bf with
  | none => s
  | some f =>
    if f.kind.val = 4 then (s.inc (F.BSN_QUAR_corr die k)).pert 1
    else if f.kind.val = 1 then
      let i := (s.poolHead die k).getD 0
      (((s.quarantine die k i).emptyList die k).basinTrap die k 1 i f.gen.toNat (s.gen (s.tag die k i)))
    else s

/-- A stale or uncorrectable link word met by the allocation of the buffer before it. -/
def State.linkFault (s : State) (die k : Nat) (bf : Option BasinFault) : State :=
  match bf with
  | none => s
  | some f =>
    if (f.kind.val = 2 ∨ f.kind.val = 3) ∧ f.index.val < poolSize k then
      ((s.quarantine die k f.index).emptyList die k).basinTrap die k f.kind f.index f.gen.toNat (s.gen (s.tag die k f.index))
    else s

/-- A rebuilt list: every buffer whose state is free, in ascending order (R367). -/
def State.rebuild (s : State) (die k : Nat) : State :=
  let lo := bufKey die k 0
  let top := (s.sw.tags.filter (fun e => e.1 / 2 ^ 20 == die * 3 + k)).foldl (fun m e => max m (e.1 - lo + 1)) 0
  let free := (List.range top).filter (fun i => (s.tag die k i).st == 0)
  ((s.putPool die k ⟨free, top⟩).set F.SW_STATUS_rebuild (s.get F.SW_STATUS_rebuild &&& (63 - 1 <<< (3 * die + k)))).inc (F.BSN_QUAR_rebuilds die k)

/-- A copy leaves its buffer; the last one frees it (R366). A free that meets an upset of kind 0, and that of a buffer which went to quarantine
meanwhile, is a basin fault (R367). -/
def State.freeCopy (s : State) (d : Desc) (bf : Option BasinFault) : State :=
  let t := s.tag d.die d.pool d.idx
  let s := match bf with
    | some f => if f.kind.val = 4 then (s.inc (F.BSN_QUAR_corr d.die d.pool)).pert 1 else s
    | none => s
  if t.refs > 1 then s.putTag d.die d.pool d.idx { t with refs := t.refs - 1 }
  else
    let bad := match bf with
      | some f => decide (f.kind.val = 0)
      | none => false
    if t.st ≠ 1 then (s.putTag d.die d.pool d.idx { t with refs := 0 }).basinTrap d.die d.pool 0 d.idx d.gen (s.gen t)
    else if bad then
      let seen := (bf.map (fun f => f.gen.toNat)).getD 0
      (s.putTag d.die d.pool d.idx { t with refs := 0, st := 2 }).basinTrap d.die d.pool 0 d.idx seen (s.gen t)
    else
      let s := s.putTag d.die d.pool d.idx { t with refs := 0, st := 0, gen := (t.gen + 1) % 65536, src := 0, cls := 0 }
      if s.rebuilding d.die d.pool then s
      else
        let p := s.pool d.die d.pool
        s.putPool d.die d.pool { p with stack := d.idx :: p.stack }

/-! ### Flows and delivery (R400 to R403) -/

/-- Flow entries of a die that may hold class `cls`, in use. -/
def State.flowsUsed (s : State) (die : Nat) : Nat := (s.sw.flows.items.filter (fun f => f.2.die == die)).length

/-- Is there an entry for a packet's flow, or a free one (R400)? -/
def State.flowFree (s : State) (k : Packet) (die : Nat) : Bool :=
  (s.sw.flows.find k.flow).isSome || (if k.cls = 0 then decide (s.flowsUsed die < 65536)
    else decide ((s.sw.flows.items.filter (fun f => f.2.die == die && f.2.cls != 0)).length < 61440) && decide (s.flowsUsed die < 65536))

/-- A packet of a tracked flow is held in a furrow here. -/
def State.flowHold (s : State) (k : Packet) (die n : Nat) : State :=
  if !s.ingress k || k.report then s
  else
    let f := (s.sw.flows.find k.flow).getD ⟨0, 0, die, k.cls, false⟩
    { s with sw.flows := s.sw.flows.put k.flow { f with held := f.held + n } }

/-- A flow with nothing outstanding and nothing held gives its entry back (R400). -/
def State.flowPut (s : State) (key : Nat) (f : Flow) : State :=
  { s with sw.flows := if f.out = 0 ∧ f.held = 0 then s.sw.flows.drop key else s.sw.flows.put key f }

/-- A copy leaves its furrow, or is spilled: `first` of the packet's copies adds its size to the flow's outstanding bytes (R401). -/
def State.flowLeave (s : State) (k : Packet) (first : Bool) : State :=
  match s.sw.flows.find k.flow with
  | none => s
  | some f => if !s.ingress k || k.report then s
    else s.flowPut k.flow { f with held := f.held - 1, out := if first then f.out + k.size else f.out }

/-- Apply a report of `n` bytes to the flow of a key (R403). -/
def State.flowReport (s : State) (key n : Nat) : State :=
  match s.sw.flows.find key with
  | none => s.inc F.DLV_BAD_COUNT_bad
  | some f =>
    if n > f.out then (s.inc F.DLV_BAD_COUNT_bad).flowPut key { f with out := 0 } else s.flowPut key { f with out := f.out - n }

/-- Bytes an accumulator has to report. -/
def Acc.owed (a : Acc) : Nat :=
  match a.prog.map (·.2) with
  | [] => 0
  | x :: xs => xs.foldl min x - a.told

/-- Send the report of an accumulator (Table 12-5), or apply it where this module is the ingress edge. That of a multicast flow keeps its copy
destinations, whose next bytes may still be on their way. -/
def State.sendReport (s : State) (key : Nat) (a : Acc) : State :=
  let n := a.owed
  let k : Packet := ⟨a.h, []⟩
  let s := match a.up with
    | none => s.flowReport key n
    | some dst =>
      (s.inc F.DLV_COUNT_sent).send dst clsS 32 [(0, 8, 0x50), (8, 2, k.cls), (10, 1, b2n k.mc), (11, 1, k.tree), (16, 16, s.me), (32, 24, k.src),
        (64, 24, if k.mc then 0 else k.dst), (96, 32, if k.mc then k.coll else 0xFFFFFFFF), (128, 32, n)]
  let m := a.told + n
  let prog := a.prog.map (fun e => (e.1, e.2 - m))
  { s with sw.accs := if !k.mc && prog.all (fun e => e.2 == 0) then s.sw.accs.drop key else s.sw.accs.put key { a with prog := prog, told := 0, since := s.beat } }

/-- Put an accumulator; one too many on its die reports the oldest at once (R402). -/
def State.putAcc (s : State) (key : Nat) (a : Acc) : State :=
  let s := { s with sw.accs := s.sw.accs.put key a }
  let mine := s.sw.accs.items.filter (fun (e : Nat × Acc) => e.2.die == a.die && decide (e.2.owed > 0))
  if mine.length ≤ 16384 then s
  else match mine with
    | [] => s
    | e :: es =>
      let old := es.foldl (fun x y => if y.2.since < x.2.since then y else x) e
      s.sendReport old.1 old.2

/-- `n` bytes of a packet are delivered at one copy destination (R401, R402); `src` is the source the packet came from. -/
def State.delivered (s : State) (k : Packet) (src dest n : Nat) : State :=
  if k.report then s
  else
    let up := if s.ingress k then none
      else if k.mc then some (moduleAddr (s.link src).peer)
      else some (moduleAddr (k.src / 256))
    let d := if k.mc then dest else 0
    let a := (s.sw.accs.find k.flow).getD ⟨bits k.h 0 128, up, [(d, 0)], 0, s.beat, homeDie src⟩
    let was := a.owed
    let prog := if a.prog.any (fun e => e.1 == d) then a.prog.map (fun e => if e.1 = d then (d, e.2 + n) else e) else a.prog ++ [(d, n)]
    s.putAcc k.flow { a with prog := prog, since := if was = 0 then s.beat else a.since }

/-- A packet disposed of before it entered a furrow, of `n` bytes: reported as delivered (R372), but for one whose ingress edge this module is, whose
bytes were never counted as outstanding (R401). -/
def State.disposed (s : State) (k : Packet) (src n : Nat) : State := if s.ingress k then s else s.delivered k src 0xFF n

/-- The copies of a multicast packet open their accumulator (R402); a destination no longer in the mask leaves it (R280). -/
def State.openAcc (s : State) (k : Packet) (src : Nat) (dests : List Nat) : State :=
  if !k.mc then s
  else
    let up := if s.ingress k then none else some (moduleAddr (s.link src).peer)
    let a := (s.sw.accs.find k.flow).getD ⟨bits k.h 0 128, up, [], 0, s.beat, homeDie src⟩
    let old := a.prog.filter (fun e => dests.contains e.1)
    let new := (dests.filter (fun d => !old.any (fun e => e.1 == d))).map (fun d => (d, a.told))
    s.putAcc k.flow { a with prog := old ++ new }

/-! ### The spillway (R371, R372) -/

/-- Is an egress port marked in SW_FENCE (R374)? -/
def State.portFenced (s : State) (p : Nat) : Bool := p < 144 && bit (s.get (F.SW_FENCE_ports (p / 64))) (p % 64)

/-- Dispose of a packet copy of a furrow: counted under a reason, reported as delivered, its buffer left. -/
def State.spillCopy (s : State) (r src dest : Nat) (d : Desc) : State :=
  let first := (s.tag d.die d.pool d.idx).refs == d.copies
  (((s.spill r d.p.data.length).flowLeave d.p first).delivered d.p src dest d.p.size).freeCopy d none

/-- Dispose of the copies of a furrow that satisfy `q`. -/
def State.spillFurrow (s : State) (r key : Nat) (q : Desc → Bool) : State :=
  let l := s.furrow key
  let s := s.putFurrow key (l.filter (fun d => !q d))
  (l.filter q).foldl (fun s d => s.spillCopy r (key / 1024) (key / 4 % 256) d) s

/-! ### Buckets of shapers and meters (R395, R397) -/

/-- A bucket of a port: 0 SHP_D, 1 SHP_M, 2 and 3 the class D meter's first and second, 4 and 5 the class M meter's. -/
def bktKey (p j : Nat) : Nat := 16 * p + 2 * j

/-- What is missing from a bucket now, in 1/64 B, given what it gains each turn. -/
def State.deficit (s : State) (p j rate : Nat) : Nat := s.sw.bkt.rd (bktKey p j) - rate * (s.beat - s.sw.bkt.rd (bktKey p j + 1))

/-- Set what is missing from a bucket. -/
def State.setDeficit (s : State) (p j v : Nat) : State :=
  { s with sw.bkt := (s.sw.bkt.wr (bktKey p j) v).wr (bktKey p j + 1) (if v = 0 then 0 else s.beat) }

/-- The size of a shaper's bucket in 1/64 B (R395). -/
def State.shaperCap (s : State) (p j : Nat) : Nat :=
  64 * max 16384 (bits (s.word (if j = 0 then R.SHP_D p else R.SHP_M p)).toNat 16 24)

/-- A shaper's rate. -/
def State.shaperRate (s : State) (p j : Nat) : Nat := bits (s.word (if j = 0 then R.SHP_D p else R.SHP_M p)).toNat 0 16

/-- Does the shaper of class D or M let a packet pass (R395)? -/
def State.shaperOk (s : State) (p cls size : Nat) : Bool :=
  if cls < 2 then true
  else
    let j := cls - 2
    s.shaperRate p j = 0 || decide (s.deficit p j (s.shaperRate p j) + 64 * size ≤ s.shaperCap p j)

/-- A started packet takes its size from the shaper's bucket. -/
def State.shaperTake (s : State) (p cls size : Nat) : State :=
  if cls < 2 then s
  else
    let j := cls - 2
    if s.shaperRate p j = 0 then s else s.setDeficit p j (s.deficit p j (s.shaperRate p j) + 64 * size)

/-- Refill the buckets of a meter. -/
def State.fillMeter (s : State) (p m : Nat) : State := (s.setDeficit p (2 + 2 * m) 0).setDeficit p (3 + 2 * m) 0

/-- Measure a packet (R397): 0 green, 1 yellow, 2 red. -/
def State.measure (s : State) (p m size : Nat) : Nat × State :=
  let mode := s.get (F.MTR_RATE_mode p m)
  let cir := s.get (F.MTR_RATE_cir p m)
  let cbs := 64 * s.get (F.MTR_BKT_cbs p m)
  let top := 64 * s.get (F.MTR_BKT_ebs_pbs p m)
  let b := 64 * size
  let now := s.beat - s.sw.bkt.rd (bktKey p (2 + 2 * m) + 1)
  let d1 := s.sw.bkt.rd (bktKey p (2 + 2 * m))
  let d2 := s.sw.bkt.rd (bktKey p (3 + 2 * m))
  let c := min cbs d1 - cir * now
  let set := fun (s : State) (x y : Nat) =>
    let b1 := (s.sw.bkt.wr (bktKey p (2 + 2 * m)) x).wr (bktKey p (2 + 2 * m) + 1) s.beat
    { s with sw.bkt := (b1.wr (bktKey p (3 + 2 * m)) y).wr (bktKey p (3 + 2 * m) + 1) s.beat }
  if mode = 1 then
    let e := min top d2 - (cir * now - min cbs d1)
    if c + b ≤ cbs then (0, set s (c + b) e) else if e + b ≤ top then (1, set s c (e + b)) else (2, set s c e)
  else
    let q := min top d2 - s.get (F.MTR_RATE_pir p m) * now
    if q + b > top then (2, set s c q) else if c + b > cbs then (1, set s c (q + b)) else (0, set s (c + b) (q + b))

/-- The ingress edge meters a packet of class D or M (R397 to R399). -/
def State.meter (s : State) (k : Packet) : Packet × State :=
  let p := k.src % 256
  let m := k.cls - 2
  if s.get F.HG_CTL_en = 0 ∨ k.cls < 2 ∨ p ≥ 144 then (k, s)
  else if s.get (F.MTR_RATE_mode p m) ≠ 1 ∧ s.get (F.MTR_RATE_mode p m) ≠ 2 then (k, s)
  else
    let r := s.measure p m k.size
    match r.1 with
    | 0 => (k, r.2.inc (F.MTR_GREEN_count p m))
    | 1 => (k, r.2.inc (F.MTR_YELLOW_count p m))
    | _ =>
      let s := r.2.inc (F.MTR_RED_count p m)
      let i := 8 * p + 4 * m
      (k.put 6 1 1, { s with sw.marks := (s.sw.marks.wr i (s.sw.marks.rd i + 1)).wr (i + 1) (s.sw.marks.rd (i + 1) + k.size) })

/-! ### Routing (R375 to R377) -/

/-- The bank active for a class. -/
def State.bank (s : State) (cls : Nat) : Nat := if cls = 2 then s.get F.RT_STATUS_act_d else s.get F.RT_STATUS_act

/-- The ports SW_FENCE marks. -/
def State.fencedPorts (s : State) : Nat :=
  s.get (F.SW_FENCE_ports 0) ||| s.get (F.SW_FENCE_ports 1) <<< 64 ||| s.get (F.SW_FENCE_ports 2) <<< 128

/-- Bytes in a furrow. -/
def State.furrowBytes (s : State) (key : Nat) : Nat := ((s.furrow key).map (fun d => d.p.size)).sum

/-- The egress port of a packet to another module, if its route names one. -/
def State.route (s : State) (src : Nat) (k : Packet) : Option Nat :=
  match s.sw.banks.find (k.epoch * 4096 + k.dst / 256) with
  | none => none
  | some r =>
    let ports := portsOf ((if k.cls = 2 then r.d else r.scm) &&& (2 ^ 144 - 1 - s.fencedPorts))
    match ports with
    | [] => none
    | p :: ps =>
      if k.cls = 2 ∧ r.adaptive ∧ s.get F.STEP_STATUS_strict = 0 then
        some (ps.foldl (fun b q => if s.furrowBytes (furrowKey src q 2) < s.furrowBytes (furrowKey src b 2) then q else b) p)
      else some (ports.getD ((k.src / 256 * 144 + k.src % 256) % ports.length) p)

/-- A route miss (R376). -/
def State.routeMiss (s : State) (k : Packet) : State :=
  (((s.spill 5 k.data.length).inc F.RT_MISS_COUNT_misses).set F.RT_MISS_ADDR_dst k.dst).intEvent 13

/-- The multicast mask of a collective's tree (R369, R280): its direct members and its children in the tree; the copy toward a child takes the lowest of
its ports. -/
def Coll.mcMask (c : Coll) (tree : Nat) : Nat :=
  ((c.parties.filter (fun p => p.rcut.isNone && (!p.isKid || p.tree == tree))).map (fun p => (portsOf p.ports).headD 0)).foldl
    (fun m p => m ||| 1 <<< p) 0

/-- An accepted collective that is not complete, by its identifier: one in a context, or one that waits for it (R254). -/
def State.openColl (s : State) (id : Nat) : Option Coll := s.accepted.find? (fun c => c.cmd.isColl && c.cmd.collId == id)

/-- Where the chunk stands that a packet for the collective engines carries on: its index and the bytes still to come. A first packet begins with the
chunk header (Table 08-6). -/
def McAt.chunkAt (a : McAt) (c : Coll) (data : List Byte) : McAt :=
  if a.left = 0 then { a with left := 32 + c.cmd.chunkBytes, sent := leNat ((data.drop 4).take 4) } else a

/-- The cluster of each 256-byte unit of a packet for the collective engines (R358): that of the engine whose share of the chunk holds the unit's first
byte of payload (log entry 22). -/
def State.unitCluster (s : State) (c : Coll) (at_ : McAt) (u : Nat) : Nat :=
  let e := max 1 c.engs.length
  let byte := 32 + c.cmd.chunkBytes - at_.left + 256 * u - 16
  let k := byte / max 1 (s.unitOf c.cmd).2
  let j := ((List.range e).find? (fun j => decide (k < (s.shareUnits c.cmd at_.sent j e).2))).getD (e - 1)
  0xE0 + c.engs.getD j 0 / 8

/-- Where a packet goes: the furrow destinations with what each takes, or the state after its disposal. -/
def State.destinations (s : State) (src : Nat) (k : Packet) : Except State (List (Nat × List Byte) × State) :=
  let member := fun (code : Nat) => Except.error (s.membership none k.coll 0 0xFFFF (if src < 144 then src else 0xFF) code 0xFFFF k.data.length)
  let at_ := (s.sw.mcs.find k.flow).getD ⟨0, 0, 0⟩
  if k.mc then
    match s.openColl k.coll with
    | none => member 7
    | some c =>
      let a := if at_.left = 0 then { at_ with mask := c.mcMask k.tree, left := 32 + c.cmd.chunkBytes } else at_
      let s := { s with sw.mcs := s.sw.mcs.put k.flow { a with left := a.left - k.len } }
      .ok ((portsOf a.mask).map (fun p => (p, k.data)), s)
  else if k.dst / 256 = s.me then
    let sel := k.dst % 256
    if src ≥ 144 then .error (s.spill 5 k.data.length)
    else if sel = 0xF0 then
      match s.openColl k.coll with
      | none => member 7
      | some c =>
        let key := 2 ^ 64 + catBits k.flow k.coll 32
        let a := ((s.sw.mcs.find key).getD ⟨0, 0, 0⟩).chunkAt c k.data
        let us := (pieces 256 ((k.data.length + 255) / 256) k.data).zipIdx
        let cl := (us.map (fun u => s.unitCluster c a u.2)).eraseDups
        .ok (cl.map (fun d => (d, (us.filter (fun u => s.unitCluster c a u.2 == d)).flatMap (·.1))),
          { s with sw.mcs := s.sw.mcs.put key { a with left := a.left - k.len } })
    else .ok ([(sel, k.data)], s)
  else
    let parent : Nat := if src < 144 ∨ k.cls ≠ 1 ∨ k.dst % 256 ≠ 0xF0 then 0 else match s.openColl k.coll with
      | none => 0
      | some c => (s.groupOf c).parent k.tree
    if parent ≠ 0 then
      let ports := portsOf parent
      .ok ([(ports.getD (at_.sent / 256 % ports.length) 0, k.data)],
        { s with sw.mcs := s.sw.mcs.put k.flow { at_ with sent := at_.sent + k.len } })
    else match s.route src k with
      | none => .error (s.routeMiss k)
      | some p => .ok ([(p, k.data)], s)

/-! ### The gauge ring (R382 to R384) -/

/-- Where a slot of the ring lies in the reservoir. -/
def gaugeAt (slot : Nat) : Nat := 504 * 2 ^ 20 + 32 * slot

/-- A gauge ring record (Table 11-8). -/
def State.gaugeRecord (s : State) (src out pool : Nat) (k : Packet) : List Byte :=
  leBytes (packBits [(0, 64, s.turn), (64, 8, src), (72, 8, out), (80, 2, k.cls), (82, 1, b2n k.mc), (83, 1, b2n k.fence), (84, 1, k.epoch),
    (85, 1, b2n k.red), (86, 2, pool), (88, 14, k.len), (128, 24, k.dst), (152, 24, k.src), (176, 16, min 65535 (s.turn - k.stamp)),
    (192, 32, k.coll)]) 32

/-- Does a header pass GR_FILTER? -/
def State.gaugePass (s : State) (src out : Nat) (k : Packet) : Bool :=
  bit (s.get F.GR_FILTER_classes) k.cls && (s.get F.GR_FILTER_mc_only == 0 || k.mc) && (s.get F.GR_FILTER_fence_only == 0 || k.fence) &&
    (s.get F.GR_FILTER_in == 0xFF || s.get F.GR_FILTER_in == src) && (s.get F.GR_FILTER_out == 0xFF || s.get F.GR_FILTER_out == out)

/-- Release `n` records at the tail. -/
def State.gaugeRelease (s : State) (n : Nat) : State :=
  { s with sw.grHeld := s.sw.grHeld - n }.set F.GR_TAIL_tail (s.get F.GR_TAIL_tail + n)

/-- With the mirror on, the 64 oldest records leave in a packet and are released (R384). -/
def State.gaugeMirror (s : State) : State :=
  if s.get F.GR_CTL_mirror = 0 ∨ s.sw.grHeld < 64 then s
  else
    let first := s.get F.GR_TAIL_tail
    let body := (List.range 64).flatMap (fun i => s.memBytes 0 (gaugeAt ((first + i) % 262144)) 32)
    (s.emit (.msg (s.get F.GR_MIRROR_dst) clsD body)).gaugeRelease 64

/-- Write one record, which may complete a packet of the mirror (R384). -/
def State.gaugePut (s : State) (rec : List Byte) : State :=
  if s.sw.grHeld = 262144 ∧ s.get F.GR_CTL_wrap = 0 then s.inc F.GR_LOST_COUNT_lost
  else
    let s := if s.sw.grHeld = 262144 then (s.gaugeRelease 1).inc F.GR_LOST_COUNT_lost else s
    let at_ := s.get F.GR_HEAD_head
    (({ s.memWr 0 (gaugeAt at_) rec with sw.grHeld := s.sw.grHeld + 1 }.set F.GR_HEAD_head (at_ + 1)).inc F.GR_REC_COUNT_records).gaugeMirror

/-- Capture a header that enters its furrow (R383). -/
def State.gauge (s : State) (src out pool : Nat) (k : Packet) : State :=
  if s.get F.GR_CTL_en = 0 ∨ !s.gaugePass src out k then s
  else
    let die := homeDie src
    let n := s.sw.grSeen.rd die
    let s := { s with sw.grSeen := s.sw.grSeen.wr die (n + 1) }
    if n % 2 ^ s.get F.GR_CTL_sample = 0 then s.gaugePut (s.gaugeRecord src out pool k) else s

/-! ### Entering a furrow (R359, R361, R369) -/

/-- Is a source blocked for a class (R363)? -/
def State.blocked (s : State) (src cls : Nat) : Bool := s.sw.waiting.any (fun w => w.src == src && w.p.cls == cls)

/-- A source's ingress buffer gives up the packet of a class it holds longest (R428). -/
def State.leaveSource (s : State) (src cls : Nat) : State :=
  if src ≥ 144 then s
  else match (s.link src).ready.find? (fun k => k.cls == cls) with
    | none => s
    | some k => s.leaveBuffer src k

/-- Place the copies of a packet that has a buffer in their furrows; a copy toward a fenced port goes to the spillway (R374). -/
def State.place (s : State) (w : Wait) (die pool idx : Nat) : State :=
  let gen := s.gen (s.tag die pool idx)
  let n := w.dest.length
  let s := ((s.flowHold w.p die n).openAcc w.p w.src (w.dest.map (·.1))).gauge w.src (if w.p.mc then 0xFE else (w.dest.map (·.1)).headD 0) pool w.p
  w.dest.foldl (fun s q =>
    let d : Desc := ⟨⟨w.p.h, q.2⟩, die, pool, idx, gen, n, s.beat, s.beat, false, false, false⟩
    if s.portFenced q.1 then s.spillCopy 4 w.src q.1 d
    else
      let key := furrowKey w.src q.1 w.p.cls
      s.putFurrow key (s.furrow key ++ [d])) s

/-- Give a packet its buffer and its furrows, if a pool is eligible. -/
def State.grantTo (s : State) (w : Wait) (bf : Option BasinFault) : Option State :=
  let die := homeDie w.src
  match s.choosePool die w.src w.p.cls w.p.size with
  | none => none
  | some k =>
    let s := s.allocFault die k bf
    match s.choosePool die w.src w.p.cls w.p.size with
    | none => none
    | some k =>
      let r := s.allocate die k w.src w.p.cls w.dest.length
      let s := r.2.linkFault die k bf
      let s := if k = smallestPool w.p.size then s else s.inc (F.BSN_FALLBACK_fallback die k)
      some ((s.place w die k r.1).leaveSource w.src w.p.cls)

/-- A packet with its destinations enters, or blocks its source for its class (R361, R363, R400). One whose mask has lost every member goes to the
spillway (R370). -/
def State.letIn (s : State) (w : Wait) (bf : Option BasinFault) : State :=
  let block := fun (s : State) (flow : Bool) =>
    let s := if flow then s.inc F.FLOW_WAIT_COUNT_waits else s
    { s.inc F.BP_COUNT_blocks with sw.waiting := s.sw.waiting ++ [{ w with flow := flow }] }
  if w.dest.isEmpty then ((s.spill 0 w.p.data.length).disposed w.p w.src w.p.size).leaveSource w.src w.p.cls
  else if s.ingress w.p && !w.p.report && !s.flowFree w.p (homeDie w.src) then block s true
  else match s.grantTo w bf with
    | some t => t
    | none =>
      let die := homeDie w.src
      match s.choosePool die w.src w.p.cls w.p.size with
      | some k => block (s.allocFault die k bf) false
      | none => block s false

end Sys2Proof.Machine
end

