-- ==== Sys2Proof/Machine/Headgate.lean ====
section
/-!
DEFINITION. The commands of the switch core and the headgates (chapters 11 and 12), and the block resets of both.
-/
namespace Sys2Proof.Machine
open Sys2Proof

/-! ### Taking headers (R357, R358, R375, R429) -/

/-- The ingress edge's rewriting of a header (R377, R398, R429). -/
def State.edge (s : State) (src : Nat) (k : Packet) : Packet × State :=
  let k := if src < 144 ∧ (s.link src).peer = 0xFFFF then k.put 64 24 (catBits s.me src 8) else k
  if !s.ingress k then (k, s) else s.meter ((k.put 128 64 s.turn).put 4 1 (s.bank k.cls))

/-- Route a packet and let it in, or dispose of it where it has no destination. -/
def State.routeIn (s : State) (w : Wait) (bf : Option BasinFault) : State :=
  match s.destinations w.src w.p with
  | .error t => (t.disposed w.p w.src w.p.size).leaveSource w.src w.p.cls
  | .ok (to_, t) => t.letIn { w with dest := to_ } bf

/-- A packet header is taken from a source: a packet of a port stands at the head of its class in the ingress buffer; one of a local source is
given. One whose epoch names a bank that a load is writing waits, unrouted (R381). -/
def headerTake (src : Fin 161) (h : BitVec 256) (data : List Byte) (bf : Option BasinFault) (s : State) : State :=
  let k : Packet := ⟨h.toNat, data⟩
  let there := src.val ≥ 144 || (s.link src).ready.find? (fun q => q.cls == k.cls) == some k
  if s.get F.SW_CTL_en = 0 ∨ s.blocked src k.cls ∨ s.stuck (enterOf src) ∨ !there then s
  else
    let s := if src.val < 144 then (s.inc (F.PC_IN_PKT_count src k.cls)).inc (F.PC_IN_BYTE_count src k.cls) k.size else s
    if !k.wellFormed then ((s.spill 5 data.length).disposed k src (32 + data.length)).leaveSource src k.cls
    else
      let e := s.edge src k
      if e.2.sw.writing.any (fun w => w.bank == e.1.epoch) then
        { e.2.inc F.BP_COUNT_blocks with sw.waiting := e.2.sw.waiting ++ [⟨src, e.1, [], false, true⟩] }
      else e.2.routeIn ⟨src, e.1, [], false, false⟩ bf

/-- PACKET_HEADER_TAKE. -/
def execPacketHeaderTake (src : Fin 161) (h : BitVec 256) (data : List Byte) (bf : Option BasinFault) (s : State) :
    Host.Outcome State Fault Refusal :=
  done (headerTake src h data bf s)

/-- The waiting packets of a die in the order of grants: by source after the one granted last, then by class (R364). -/
def State.waiters (s : State) (die : Nat) : List Wait :=
  let last := s.sw.granted.rd die
  let order := (List.range 161).map (fun i => (last + 1 + i) % 161)
  order.flatMap (fun src => sortBy (fun a b => decide (a.p.cls ≤ b.p.cls)) (s.sw.waiting.filter (fun w => w.src == src && homeDie w.src == die && !w.stale)))

/-- A waiting packet of a die is granted a buffer, where one's pool is eligible (R363, R364). -/
def bufferGrant (die : Fin 2) (bf : Option BasinFault) (s : State) : State :=
  if s.get F.SW_CTL_en = 0 then s
  else
    let ready := (s.waiters die).find? (fun w => (!s.ingress w.p || w.p.report || s.flowFree w.p die) &&
      (s.choosePool die w.src w.p.cls w.p.size).isSome)
    match ready with
    | none => s
    | some w =>
      match s.grantTo w bf with
      | some t => { t with
          sw.waiting := t.sw.waiting.erase w
          sw.granted := t.sw.granted.wr die w.src }
      | none => match s.choosePool die w.src w.p.cls w.p.size with
        | some k => s.allocFault die k bf
        | none => s

/-- BUFFER_GRANT. -/
def execBufferGrant (die : Fin 2) (bf : Option BasinFault) (s : State) : Host.Outcome State Fault Refusal := done (bufferGrant die bf s)

/-- The tag sweep of a pool ends (R367). -/
def freelistRebuilt (die : Fin 2) (k : Fin 3) (s : State) : State := if s.rebuilding die k then s.rebuild die k else s

/-- FREELIST_REBUILD_DONE. -/
def execFreelistRebuildDone (die : Fin 2) (k : Fin 3) (s : State) : Host.Outcome State Fault Refusal := done (freelistRebuilt die k s)

/-- Software writes GR_TAIL: the records before it are released; a value outside the records held is ignored (R384). -/
def grTailWrite (v : BitVec 18) (s : State) : State :=
  let n := (v.toNat + 262144 - s.get F.GR_TAIL_tail) % 262144
  if n ≤ s.sw.grHeld then s.gaugeRelease n
  else s

/-- GR_TAIL_WRITE. -/
def execGrTailWrite (v : BitVec 18) (s : State) : Host.Outcome State Fault Refusal := done (s.bar (grTailWrite v))

/-! ### Holds (R373, R404, R405) -/

/-- The window of a class in bytes (R404). -/
def State.window (s : State) (cls : Nat) : Nat :=
  if s.get F.HG_CTL_en = 0 then 0
  else 4096 * (if cls = 1 then s.get F.WIN_SIZE_c else if cls = 2 then s.get F.WIN_SIZE_d else if cls = 3 then s.get F.WIN_SIZE_m else 0)

/-- Is the packet held by FENCE at its ingress edge? -/
def State.fenceHold (s : State) (k : Packet) : Bool :=
  k.fence && s.ingress k && ((s.sw.flows.find k.flow).map (·.out)).getD 0 != 0

/-- Is the packet held by its flow's window? -/
def State.windowHold (s : State) (k : Packet) : Bool :=
  let out := ((s.sw.flows.find k.flow).map (·.out)).getD 0
  s.ingress k && !k.report && s.window k.cls != 0 && out != 0 && decide (out + k.size > s.window k.cls)

/-- WINDOW_VIOLATION (R405). -/
def State.windowTrap (s : State) (k : Packet) (out : Nat) : State :=
  if s.cause 9 then (s.inc F.WIN_LOST_COUNT_lost).trapNotice 0x0C k.coll 0 0 s.turn (k.src % 256)
  else
    let s := (s.sets [(F.WIN_REC0_src, k.src), (F.WIN_REC0_class, k.cls), (F.WIN_REC0_mc, b2n k.mc), (F.WIN_REC0_tree, k.tree),
      (F.WIN_REC0_coll_id, k.coll), (F.WIN_REC1_dst, if k.mc then 0 else k.dst), (F.WIN_REC1_outstanding, out), (F.WIN_REC2_turn, s.turn)]).inc
      F.WIN_SEQ_seq
    s.trapNotice 0x0C k.coll 0 (s.get F.WIN_SEQ_seq) s.turn (k.src % 256)

/-- Count the holds of a furrow's head: a FENCE hold and a window hold once each; the first window hold of a class C flow traps. -/
def State.noteHolds (s : State) (key : Nat) : State :=
  match s.furrow key with
  | [] => s
  | d :: rest =>
    let fh := s.fenceHold d.p && !d.fncHeld
    let wh := s.windowHold d.p && !d.winHeld
    let s := s.putFurrow key ({ d with
      fncHeld := d.fncHeld || fh
      winHeld := d.winHeld || wh } :: rest)
    let s := if fh then s.inc F.FNC_HOLD_COUNT_holds else s
    if !wh then s
    else
      let s := s.inc F.WIN_HOLD_COUNT_holds
      match s.sw.flows.find d.p.flow with
      | none => s
      | some f =>
        if d.p.cls ≠ 1 ∨ f.trapped then s
        else { s with sw.flows := s.sw.flows.put d.p.flow { f with trapped := true } }.windowTrap d.p f.out

/-! ### Serving a port (R388 to R396) -/

/-- The current slot of a port's calendar (R390). -/
def State.slot (s : State) (p : Nat) : Nat := s.turn * modeRate (s.portMode p) / 2048 % 256

/-- The class order of the current slot (Table 12-2); S, C, M, D while the headgates are off (R396). -/
def State.classOrder (s : State) (p : Nat) : List Nat :=
  if s.get F.HG_CTL_en = 0 then [0, 1, 3, 2]
  else
    let i := s.slot p
    if bit (s.get (F.HG_CAL_slots p (s.get (F.HG_PSTATUS_active p)) (i / 64))) (i % 64) then [0, 1, 3, 2] else [0, 3, 2, 1]

/-- The sources whose head toward `dest` in a class is not held and may cross (R29), with that head. -/
def State.heads (s : State) (dest cls : Nat) : List (Nat × Desc) :=
  (List.range 161).filterMap (fun src => match s.furrow (furrowKey src dest cls) with
    | [] => none
    | d :: _ => if s.fenceHold d.p || s.windowHold d.p || s.stuck (leaveOf src dest) then none else some (src, d))

/-- Is a head served as demoted (R393)? -/
def Desc.demoted (d : Desc) : Bool := d.p.red && !d.promo

/-- The group of a packet for the weighted round robin, and its weight (R271, R394). -/
def State.wrrGroup (s : State) (k : Packet) : Nat :=
  match s.collOf k.coll with
  | some (_, c) => c.cmd.group
  | none => 0xFFFF

/-- A group's weight: the largest of its active collectives' (R271). -/
def State.wrrWeight (s : State) (g : Nat) : Nat :=
  max 1 ((s.cp.colls.items.filter (fun x => x.2.cmd.group == g && g != 0xFFFF)).foldl (fun m x => max m x.2.cmd.weight) 0)

/-- The group class C serves next on a port: the one in service while its turn lasts, then the next in ascending order with something eligible. -/
def State.pickGroup (s : State) (p : Nat) (hs : List (Nat × Desc)) : Nat × Nat :=
  let gs := sortBy (fun a b => decide (a ≤ b)) (hs.map (fun h => s.wrrGroup h.2.p)).eraseDups
  let cur := s.sw.wrr.rd (2 * p)
  let left := s.sw.wrr.rd (2 * p + 1)
  if cur ≠ 0 ∧ left > 0 ∧ gs.contains (cur - 1) then (cur - 1, left)
  else
    let g := (gs.find? (fun g => decide (g + 1 > cur))).getD (gs.headD 0)
    (g, 256 * s.wrrWeight g)

/-- The key of a furrow's deficit credit. -/
def drrKey (p cls sub src : Nat) : Nat := ((p * 4 + cls) * 2 + sub) * 256 + src

/-- Deficit round robin with credit among eligible heads (R394): the source served, and the credits and place it leaves. -/
def State.drr (s : State) (p cls sub : Nat) (hs : List (Nat × Desc)) : Option ((Nat × Desc) × State) :=
  let q := max (s.get (F.HG_DRR_quantum p)) 16384
  let b := max (s.get (F.HG_DRR_burst p)) q
  let key := drrKey p cls sub
  let last := s.sw.last.rd (drrKey p cls sub 0)
  let fit := fun (s : State) (lo : Nat) => hs.find? (fun h => decide (h.1 ≥ lo) && decide (s.sw.drr.rd (key h.1) ≥ h.2.p.size))
  let take := fun (s : State) (h : Nat × Desc) => some (h, { s with
    sw.drr := s.sw.drr.wr (key h.1) (s.sw.drr.rd (key h.1) - h.2.p.size)
    sw.last := s.sw.last.wr (drrKey p cls sub 0) h.1 })
  match fit s last with
  | some h => take s h
  | none =>
    let s := { s with sw.drr := (List.range 161).foldl (fun (m : NMap) i => m.wr (key i) (min (m.rd (key i) + q) b)) s.sw.drr }
    match fit s 0 with
    | some h => take s h
    | none => none

/-- Round robin by source. -/
def State.roundRobin (s : State) (p cls : Nat) (hs : List (Nat × Desc)) : Option ((Nat × Desc) × State) :=
  let last := s.sw.last.rd (drrKey p cls 0 0)
  match (hs.find? (fun h => decide (h.1 > last))).orElse (fun _ => hs.head?) with
  | some h => some (h, { s with sw.last := s.sw.last.wr (drrKey p cls 0 0) h.1 })
  | none => none

/-- Choose the head a port starts in a class, if one is eligible (R391 to R396). -/
def State.choose (s : State) (p cls : Nat) : Option ((Nat × Desc) × State) :=
  if !s.linkCredit p cls then none
  else if s.get F.HG_CTL_en = 0 then s.roundRobin p cls (s.heads p cls)
  else
    let hs := (s.heads p cls).filter (fun h => s.shaperOk p cls h.2.p.size)
    let main := hs.filter (fun h => !h.2.demoted)
    let sub := b2n main.isEmpty
    let hs := if main.isEmpty then hs else main
    if hs.isEmpty then none
    else if cls = 1 then
      let g := s.pickGroup p hs
      (s.drr p cls sub (hs.filter (fun h => s.wrrGroup h.2.p == g.1))).map (fun r =>
        (r.1, { r.2 with sw.wrr := (r.2.sw.wrr.wr (2 * p) (g.1 + 1)).wr (2 * p + 1) (g.2 - r.1.2.p.size) }))
    else s.drr p cls sub hs

/-- Take the head out of a furrow; the next packet becomes the head now. -/
def State.popFurrow (s : State) (key : Nat) : State :=
  match s.furrow key with
  | [] => s
  | _ :: [] => s.putFurrow key []
  | _ :: d :: rest => s.putFurrow key ({ d with headAt := s.beat } :: rest)

/-- Does a copy on a port leave its last furrow: toward an endpoint of this module (R401)? -/
def State.lastFurrow (s : State) (p : Nat) (k : Packet) : Bool :=
  if k.mc then (s.link p).peer == 0xFFFF else k.dst / 256 == s.me

/-- A head leaves its furrow: flow, delivery, buffer. -/
def State.depart (s : State) (src dest : Nat) (d : Desc) (last : Bool) (bf : Option BasinFault) : State :=
  let first := (s.tag d.die d.pool d.idx).refs == d.copies
  let s := (s.popFurrow (furrowKey src dest d.p.cls)).flowLeave d.p first
  let s := if last then s.delivered d.p src dest (32 + d.p.data.length) else s
  s.freeCopy d bf

/-- The furrows toward a destination. -/
def State.furrowsTo (s : State) (dest : Nat) : List Nat := (s.sw.furrows.filter (fun e => e.1 / 4 % 256 == dest)).map (·.1)

/-- Turns in which a class would be served but for the link's credit (R406), counted each turn. -/
def State.stallTurn (s : State) : State :=
  let qs := ((s.sw.furrows.filter (fun e => e.1 / 4 % 256 < 144)).map (fun e => (e.1 / 4 % 256, e.1 % 4))).eraseDups
  qs.foldl (fun s q =>
    if s.linkCredit q.1 q.2 || ((s.heads q.1 q.2).filter (fun h => s.shaperOk q.1 q.2 h.2.p.size)).isEmpty then s
    else s.inc (F.PC_STALL_turns q.1 q.2)) s

/-- HG_PORT.cal_bank takes effect at the next turn whose slot is 0 (R392). -/
def calBankSwitch (port : Fin 144) (s : State) : State :=
  if s.slot port = 0 then s.set (F.HG_PSTATUS_active port) (s.get (F.HG_PORT_cal_bank port)) else s

/-- CAL_BANK_SWITCH. -/
def execCalBankSwitch (port : Fin 144) (s : State) : Host.Outcome State Fault Refusal := done (calBankSwitch port s)

/-- A demoted head has waited HG_STARVE turns and is served as main (R393). -/
def starvePromote (port : Fin 144) (cls : Fin 4) (src : Fin 161) (s : State) : State :=
  let key := furrowKey src port cls
  match s.furrow key with
  | [] => s
  | d :: rest =>
    if s.get F.HG_CTL_en = 0 ∨ !d.demoted ∨ s.beat < d.headAt + s.get F.HG_STARVE_turns then s
    else (s.putFurrow key ({ d with promo := true } :: rest)).inc F.STARVE_COUNT_promoted

/-- STARVE_PROMOTE. -/
def execStarvePromote (port : Fin 144) (cls : Fin 4) (src : Fin 161) (s : State) : Host.Outcome State Fault Refusal :=
  done (starvePromote port cls src s)

/-- A METER_MARK is sent once MARK_GAP turns have passed since the last (R399). -/
def meterMark (port : Fin 144) (m : Fin 2) (s : State) : State :=
  let i := 8 * port.val + 4 * m.val
  let n := s.sw.marks.rd i
  let last := s.sw.marks.rd (i + 2)
  if n = 0 ∨ (last ≠ 0 ∧ s.beat + 1 < last + s.get F.MARK_GAP_turns) then s
  else
    let s := s.send (catBits s.me port 8) clsM 32 [(0, 8, 0x51), (8, 2, m.val + 2), (16, 16, s.me), (32, 32, n), (64, 64, s.sw.marks.rd (i + 1)),
      (128, 64, s.turn)]
    { s with sw.marks := ((s.sw.marks.wr i 0).wr (i + 1) 0).wr (i + 2) (s.beat + 1) }

/-- METER_MARK. -/
def execMeterMark (port : Fin 144) (m : Fin 2) (s : State) : Host.Outcome State Fault Refusal := done (meterMark port m s)

/-! ### Delivery reports (R402, R403) -/

/-- The packet that names a flow. -/
def flowPacket (src cls : Nat) (mc tree : Bool) (dst coll : Nat) : Packet :=
  ⟨packBits [(0, 2, cls), (2, 1, b2n mc), (5, 1, b2n tree), (32, 24, dst), (64, 24, src), (96, 32, coll)], []⟩

/-- A flow's unreported bytes have reached the threshold, or the delay has passed (R402); `id` is the destination, or the collective of a multicast
flow. -/
def dlvReportSend (src : BitVec 24) (cls : Fin 4) (mc tree : Bool) (id : BitVec 32) (s : State) : State :=
  let k := (flowPacket src.toNat cls mc tree id.toNat id.toNat).flow
  match s.sw.accs.find k with
  | none => s
  | some a =>
    if a.owed ≥ 256 * s.get F.DLV_CTL_bytes ∨ (a.owed > 0 ∧ s.beat ≥ a.since + s.get F.DLV_CTL_turns) then s.sendReport k a else s

/-- DLV_REPORT_SEND. -/
def execDlvReportSend (src : BitVec 24) (cls : Fin 4) (mc tree : Bool) (id : BitVec 32) (s : State) : Host.Outcome State Fault Refusal :=
  done (dlvReportSend src cls mc tree id s)

/-- A delivery report arrives: at the ingress edge it lowers the flow's count; for a multicast flow that this module only copies, it is the progress of
the module that reports. One that names no flow known here is not applied (R403). -/
def dlvReport (module : BitVec 16) (src : BitVec 24) (cls : Fin 4) (mc tree : Bool) (dst : BitVec 24) (coll n : BitVec 32) (s : State) : State :=
  let k := flowPacket src.toNat cls mc tree dst.toNat coll.toNat
  match if mc then s.sw.accs.find k.flow else none with
  | some a =>
    if a.prog.any (fun e => (s.link e.1).peer == module.toNat && e.1 < 144) then
      let was := a.owed
      let prog := a.prog.map (fun e => if e.1 < 144 ∧ (s.link e.1).peer = module.toNat then (e.1, e.2 + n.toNat) else e)
      (s.inc F.DLV_COUNT_received).putAcc k.flow { a with prog := prog, since := if was = 0 then s.beat else a.since }
    else s.inc F.DLV_BAD_COUNT_bad
  | none => (if (s.sw.flows.find k.flow).isSome then s.inc F.DLV_COUNT_received else s).flowReport k.flow n.toNat

/-- DLV_REPORT. -/
def execDlvReport (module : BitVec 16) (src : BitVec 24) (cls : Fin 4) (mc tree : Bool) (dst : BitVec 24) (coll n : BitVec 32) (s : State) :
    Host.Outcome State Fault Refusal :=
  done (dlvReport module src cls mc tree dst coll n s)

/-! ### Telemetry, shapers and meters (R407, R409) -/

/-- The depth bin of an egress queue. -/
def depthBin (n : Nat) : Nat := if n = 0 then 0 else min 15 (max 1 (Nat.log2 n - 7))

/-- The delay bin. -/
def delayBin (empty : Bool) (age : Nat) : Nat := if empty then 0 else min 15 (max 1 (Nat.log2 (age ||| 1) - 5))

/-- Every egress queue's depth and age are binned, in the turns whose count is a multiple of 2^shift. -/
def telemetrySample (s : State) : State :=
  if s.turn % 2 ^ s.get F.HG_SAMPLE_shift ≠ 0 then s
  else
    let all := s.sw.furrows
    (List.range 144).foldl (fun s p => (List.range 4).foldl (fun s c =>
      let q := all.filter (fun e => e.1 / 4 % 256 == p && e.1 % 4 == c)
      let depth := ((q.flatMap (·.2)).map (fun d => d.p.size)).sum
      let ages := (q.filterMap (fun e => e.2.head?)).map (fun d => s.beat - d.entered)
      (s.inc (F.HIST_DEPTH_count p c (depthBin depth))).inc (F.HIST_DELAY_count p c (delayBin ages.isEmpty (ages.foldl max 0)))) s) s

/-- TELEMETRY_SAMPLE. -/
def execTelemetrySample (s : State) : Host.Outcome State Fault Refusal := done (telemetrySample s)

/-- A write to a shaper (0 D, 1 M) or a meter (2 and 3: rates and buckets of D; 4 and 5: of M) takes effect and refills the buckets it governs. -/
def shaperMeterWrite (port : Fin 144) (which : Fin 6) (v : BitVec 64) (s : State) : State :=
  let p := port.val
  match which.val with
  | 0 => (s.setWord (R.SHP_D p) (BitVec.ofNat 64 (v.toNat % 2 ^ 40))).setDeficit p 0 0
  | 1 => (s.setWord (R.SHP_M p) (BitVec.ofNat 64 (v.toNat % 2 ^ 40))).setDeficit p 1 0
  | w =>
    let m := (w - 2) / 2
    if w % 2 = 0 then
      let mode := s.get (F.MTR_RATE_mode p m)
      let t := (s.setWord (R.MTR_RATE p m) (BitVec.ofNat 64 (v.toNat % 2 ^ 34))).fillMeter p m
      if bits v.toNat 32 2 = 3 then ((t.set (F.MTR_RATE_mode p m) mode).inc F.HG_REJ_COUNT_rej).set F.HG_REJ_ADDR_addr (R.MTR_RATE p m) else t
    else (s.setWord (R.MTR_BKT p m) (BitVec.ofNat 64 (v.toNat % 2 ^ 48))).fillMeter p m

/-- SHAPER_METER_WRITE. -/
def execShaperMeterWrite (port : Fin 144) (which : Fin 6) (v : BitVec 64) (s : State) : Host.Outcome State Fault Refusal :=
  done (s.bar (shaperMeterWrite port which v))

/-! ### Marking a port, and block resets (R374, R385, R408, R441) -/

/-- An egress port is marked in SW_FENCE: its furrows drain under reason 4, with the flits its link holds. -/
def State.fencePort (s : State) (p : Nat) : State :=
  let s := s.set (F.SW_FENCE_ports (p / 64)) (s.get (F.SW_FENCE_ports (p / 64)) ||| 1 <<< (p % 64))
  let s := (s.furrowsTo p).foldl (fun s key => s.spillFurrow 4 key (fun _ => true)) s
  let l := s.link p
  let held := (l.queue ++ l.replay).filter (fun f => if s.isG p then f.type == 1 else true)
  (held.foldl (fun s f => s.spill 4 f.body.length) s).putLink p { l with queue := [], replay := [] }

/-- A port's mark is taken away. -/
def State.unfencePort (s : State) (p : Nat) : State :=
  s.set (F.SW_FENCE_ports (p / 64)) (s.get (F.SW_FENCE_ports (p / 64)) &&& (2 ^ 64 - 1 - 1 <<< (p % 64)))

/-- End every incomplete collective that satisfies `q` with status HALTED_RESET. -/
def State.haltReset (s : State) (q : Coll → Bool) : State := s.endAll q 2 0

/-- A block reset of the switch core (R385). -/
def State.switchReset (s : State) : State :=
  let s := s.sw.furrows.foldl (fun s e => s.spillFurrow 7 e.1 (fun _ => true)) s
  let s := s.sw.waiting.foldl (fun s w => ((s.spill 7 w.p.data.length).disposed w.p w.src w.p.size).leaveSource w.src w.p.cls) s
  let act := s.word R.RT_STATUS
  let id := s.word R.SW_ID
  let rsv := s.word R.SW_RSV
  let s := { s with
    sw.waiting := []
    sw.tags := (s.sw.tags.filter (fun (e : Nat × Tag) => e.2.gen != 0)).map (fun (e : Nat × Tag) => (e.1, { Tag.init with gen := e.2.gen }))
    sw.genBase := (s.sw.genBase + 1) % 65536
    sw.pools := []
    sw.granted := []
    sw.grSeen := []
    sw.grHeld := 0 }
  let s := s.haltReset (fun _ => true)
  let s := s.resetRegs (fun a => 0x01800000 ≤ a && a < 0x02000000 && !(0x01810000 ≤ a && a < 0x01820000))
  ((s.setWord R.RT_STATUS act).setWord R.SW_ID id).setWord R.SW_RSV rsv

/-- A block reset of the headgate block (R408). -/
def State.headgateReset (s : State) : State :=
  let held := ((s.sw.furrows.filterMap (fun e => e.2.head?)).filter (fun d => s.fenceHold d.p)).length
  let s := { s with
    sw.bkt := []
    sw.drr := []
    sw.flows := []
    sw.accs := []
    sw.marks := [] }
  let ctl := s.word R.HG_CTL
  let s := s.resetRegs (fun a => (0x02000000 ≤ a && a < 0x02240000 && decide (a % 0x4000 ≥ 0x100)) || a == R.HG_REJ_COUNT || a == R.HG_REJ_ADDR ||
    a == R.HG_REJ_ACK || (R.WIN_SEQ ≤ a && a ≤ R.STARVE_COUNT))
  (s.setWord R.HG_CTL ctl).inc F.FNC_HOLD_COUNT_holds held

end Sys2Proof.Machine
end

