-- ==== Sys2Proof/Machine/RouteLoad.lean ====
section
/-!
DEFINITION. LOAD_ROUTES and the flip of the routing banks (R378 to R380), LOAD_PROFILE (R576).
-/
namespace Sys2Proof.Machine
open Sys2Proof

/-! ### Routes -/

/-- The mode of a LOAD_ROUTES payload: 0 load, 1 load and flip, 2 flip. -/
def routeMode (b : List Byte) : Nat := fieldOf b 1 1
/-- The bank it names. -/
def routeBank (b : List Byte) : Nat := fieldOf b 2 1

/-- Entry `k` of the payload. -/
def routeEntry (b : List Byte) (k : Nat) : List Byte := (b.drop (64 + 64 * k)).take 64

/-- Does a bank hold a completed load? -/
def State.bankLoaded (s : State) (k : Nat) : Bool := (if k = 0 then s.get F.RT_STATUS_loaded0 else s.get F.RT_STATUS_loaded1) == 1

/-- Is a bank active for a class? -/
def State.bankActive (s : State) (k : Nat) : Bool := s.get F.RT_STATUS_act == k || s.get F.RT_STATUS_act_d == k

/-- The conditions of R378, and a payload that Table 11-7 describes. -/
def State.routesOk (s : State) (b : List Byte) : Bool :=
  let n := fieldOf b 4 4
  let es := (List.range n).map (routeEntry b)
  fieldOf b 0 1 == 0x40 && routeMode b ≤ 2 && routeBank b ≤ 1 && fieldOf b 3 1 == 0 && zeros ((b.drop 8).take 56) && n ≤ 4096
    && b.length == 64 + 64 * n && (routeMode b != 2 || n == 0)
    && (if routeMode b = 2 then s.bankLoaded (routeBank b) else !s.bankActive (routeBank b))
    && distinct (es.map (fun e => fieldOf e 0 2))
    && es.all (fun e => fieldOf e 0 2 < 4096 && fieldOf e 2 1 ≤ 3 && fieldOf e 3 1 == 0 && fieldOf e 0x16 2 == 0 && zeros (e.drop 0x2A))

/-- Write the bank the payload names in full; the module's own entry is ignored (R378). -/
def State.writeBank (s : State) (b : List Byte) : State :=
  let k := routeBank b
  let old := SMap.erase (fun a => a / 4096 == k) s.sw.banks
  let es := ((List.range (fieldOf b 4 4)).map (routeEntry b)).filter (fun e => bit (fieldOf e 2 1) 0 && fieldOf e 0 2 != s.me)
  let banks := es.foldl (fun (m : OMap Route) e =>
    m.put (4096 * k + fieldOf e 0 2) ⟨bit (fieldOf e 2 1) 1, fieldOf e 4 18, fieldOf e 0x18 18⟩) old
  { s with sw.banks := banks }.set (if k = 0 then F.RT_STATUS_loaded0 else F.RT_STATUS_loaded1) 1

/-- Make a bank active for class D alone, or for the other classes alone; the bank left notes the turn. -/
def State.activate (s : State) (k : Nat) (d : Bool) : State :=
  let fld := if d then F.RT_STATUS_act_d else F.RT_STATUS_act
  let old := s.get fld
  if old = k then s
  else { s with sw.away := s.sw.away.wr (2 * old + b2n d) (s.turn + 1) }.set fld k

/-- The flip (R379): while the step is strict, class D waits for the next STEP_CLOSE. -/
def State.flip (s : State) (k : Nat) : State :=
  let s := s.activate k false
  let s := if s.get F.STEP_STATUS_strict = 1 then { s with sw.dPend := some k } else { s.activate k true with sw.dPend := none }
  s.setWord R.RT_FLIP_TURN (BitVec.ofNat 64 s.turn)

/-- Class D takes the bank it waits for (R379). -/
def State.flipClassD (s : State) : State :=
  match s.sw.dPend with
  | none => s
  | some k => { s.activate k true with sw.dPend := none }

/-- Have RT_DRAIN turns passed since a bank was last flipped away from, for every class (R380)? -/
def State.drained (s : State) (k : Nat) : Bool :=
  [0, 1].all (fun d => let a := s.sw.away.rd (2 * k + d); a == 0 || decide (a - 1 + s.get F.RT_DRAIN_turns ≤ s.turn))

/-- May a load of the payload's bank leave phase 3 (R380)? -/
def State.routesReady (s : State) (b : List Byte) : Bool :=
  let k := routeBank b
  routeMode b == 2 || (!s.bankActive k && s.heldOf k == 0 && s.drained k)

/-- A load starts to write its bank (R381). With a launch turn the flip it asks for takes effect now, otherwise when the load completes (R379). -/
def State.beginRoutes (s : State) (q : Nat) (b : List Byte) (launched : Bool) : State :=
  let k := routeBank b
  let s := { s with sw.writing := some ⟨q, k, s.turn⟩ }.sets [(F.RT_STATUS_loading, 1), (if k = 0 then F.RT_STATUS_loaded0 else F.RT_STATUS_loaded1, 0)]
  if routeMode b = 1 ∧ launched then s.flip (routeBank b) else s

/-- A load has written its bank. -/
def State.endRoutes (s : State) (b : List Byte) (launched : Bool) : State :=
  let s := ({ s with sw.writing := none }.set F.RT_STATUS_loading 0).writeBank b
  if routeMode b = 1 ∧ !launched then s.flip (routeBank b) else s

/-- The packets that waited for a load are routed, in the order in which they came, and counted (R381). -/
def State.releaseStale (s : State) : State :=
  (s.sw.waiting.filter (·.stale)).foldl (fun s w =>
    ({ s with sw.waiting := s.sw.waiting.erase w }.inc F.RT_STALE_COUNT_stale).routeIn { w with stale := false } none) s

/-- LOAD_ROUTES takes effect: the bank is written, and where the mode says so the banks flip (R378, R379). -/
def State.takeRoutes (s : State) (b : List Byte) : State :=
  let s := if routeMode b = 2 then s else s.writeBank b
  if routeMode b = 0 then s else s.flip (routeBank b)

/-! ### Profiles (R576) -/

/-- A signed 16-bit field. -/
def i16 (b : List Byte) (o : Nat) : Int := sint 16 (fieldOf b o 2)

/-- The points of a curve of a record: temperature and clock. -/
def curvePoints (r : List Byte) (k : Nat) : List (Int × Nat) :=
  (List.range 8).map (fun i => (i16 r (0x10 + 32 * k + 4 * i), fieldOf r (0x10 + 32 * k + 4 * i + 2) 2))

/-- Floor and nominal clock of the islands a curve governs: sluice, switch, reservoir (Table 18-2). -/
def clockRange (k : Nat) : Nat × Nat := if k = 0 then (1000, 2000) else if k = 1 then (800, 1600) else (900, 1800)

/-- A clock within its range, in steps of 50 MHz. -/
def clockOk (k f : Nat) : Bool := (clockRange k).1 ≤ f && f ≤ (clockRange k).2 && f % 50 == 0

/-- A curve of a record: temperatures ascend, clocks do not rise, none past 105 °C or the record's maximum. -/
def curveOk (r : List Byte) (k : Nat) : Bool :=
  let p := curvePoints r k
  p.all (fun x => clockOk k x.2 && decide (x.1 ≤ 840) && decide (x.2 ≤ fieldOf r (4 + 2 * k) 2))
    && ((p.zip (p.drop 1)).all (fun q => decide (q.1.1 < q.2.1) && decide (q.2.2 ≤ q.1.2)))

/-- A record of the payload (Table 18-7). -/
def profileOk (n : Nat) (r : List Byte) : Bool :=
  fieldOf r 0 1 == n && fieldOf r 1 1 == 0 && 1000 ≤ fieldOf r 2 2 && fieldOf r 2 2 ≤ 4000 && zeros ((r.drop 0x0A).take 6) && zeros ((r.drop 0x70).take 16)
    && [0, 1, 2].all (fun k => clockOk k (fieldOf r (4 + 2 * k) 2) && curveOk r k)

/-- LOAD_PROFILE (R576): the table waits for the next change of STEP_CTR, or takes effect at once while the audit is off. -/
def State.loadProfile (s : State) (b : List Byte) : Load :=
  if b.length ≠ 832 ∨ fieldOf b 0 1 ≠ 0x18 ∨ fieldOf b 1 1 ≠ 6 ∨ !zeros ((b.drop 2).take 62)
      ∨ !(List.range 6).all (fun n => profileOk (n + 1) ((b.drop (64 + 128 * n)).take 128)) then .error (3, s)
  else
    let s := { s with pwr.next := some (b.drop 64) }
    .ok (if s.get F.AUD_CTL_en = 0 then s.takeProfile else s)

end Sys2Proof.Machine
end

