-- ==== Sys2Proof/Machine/Accept.lean ====
section
/-!
DEFINITION. The acceptance checks of Table 08-1 in their order (R253), each citing the rules it gathers.
-/
namespace Sys2Proof.Machine
open Sys2Proof

/-! ### Fields an op uses (R615, Table 08-15) -/

/-- The fields beyond those every op uses. -/
inductive CField where
  | group | chunkEv | chunkBytes | elements | fmtIn | fmtOut | rnd | lay | prog | root | quorum | arg0 | arg1 | launch | weight | window | evbase
  deriving DecidableEq, Repr

/-- Is the op of a reduction, with all of the fields of the first row? -/
def redFields : List CField :=
  [.group, .chunkEv, .chunkBytes, .elements, .fmtIn, .fmtOut, .rnd, .lay, .prog, .quorum, .arg0, .arg1, .launch, .weight, .window, .evbase]

/-- The fields an op uses, before its conditions; none for a reserved op. -/
def opFields (c : Cmd) : Option (List CField) :=
  let move : List CField := [.group, .chunkEv, .chunkBytes, .elements, .fmtIn, .fmtOut, .lay, .prog, .launch, .weight, .window, .evbase]
  let tab : List CField := [.group, .chunkBytes, .elements, .prog, .arg0, .launch, .weight, .window, .evbase]
  match c.op with
  | 0x01 => some redFields
  | 0x02 => some redFields
  | 0x03 => some (.root :: redFields)
  | 0x04 => some (.arg1 :: move)
  | 0x05 => some (.root :: .arg1 :: move)
  | 0x06 => some move
  | 0x07 => some [.group, .chunkEv, .chunkBytes, .elements, .fmtIn, .prog, .arg0, .arg1, .launch, .weight, .window, .evbase]
  | 0x08 => some (.chunkEv :: tab)
  | 0x09 => some (.chunkEv :: .fmtOut :: .rnd :: .arg1 :: tab)
  | 0x0A => some (.fmtIn :: tab)
  | 0x0B => some [.group, .launch]
  | 0x0C =>
    let l : List CField := [.chunkBytes, .elements, .fmtIn, .fmtOut, .rnd, .lay, .prog, .arg0, .arg1, .launch, .weight, .window, .evbase]
    some (if bit c.arg1 25 then l else .group :: .chunkEv :: l)
  | 0x0D => some [.prog, .evbase, .launch]
  | 0x20 => some [.chunkBytes, .elements, .arg0]
  | 0x21 => some [.arg0]
  | 0x22 => some [.chunkBytes, .elements]
  | 0x23 => some [.chunkBytes, .elements]
  | 0x24 => some [.chunkBytes, .elements]
  | 0x33 => some [.chunkBytes, .elements]
  | 0x25 => some [.group]
  | 0x26 => some [.arg0, .arg1]
  | 0x30 => some [.chunkBytes, .elements, .launch]
  | 0x31 => some [.chunkBytes, .elements, .arg0]
  | 0x32 => some [.chunkBytes, .elements, .arg0]
  | _ => none

/-- The flag bits an op uses. -/
def opFlags (op : Nat) : Nat :=
  match op with
  | 0x01 => 0x3F
  | 0x02 => 0x3F
  | 0x03 => 0x3F
  | 0x04 => 0x1C
  | 0x05 => 0x1C
  | 0x06 => 0x1C
  | 0x07 => 0x50
  | 0x08 => 0x10
  | 0x09 => 0x10
  | 0x0A => 0x10
  | 0x0B => 0x10
  | 0x0C => 0x1F
  | 0x0D => 0x10
  | 0x30 => 0x10
  | _ => 0

/-- The bits of arg0 and arg1 an op uses where it uses the field at all. -/
def argBits (op : Nat) : Nat × Nat :=
  match op with
  | 0x04 => (0, 0xFFFF)
  | 0x05 => (0, 0xFFFF)
  | 0x07 => (0x7FFFF, 0xFFFFFFFF)
  | 0x08 => (0xFF, 0)
  | 0x09 => (0xFF, 0x7FF)
  | 0x0A => (0xFF, 0)
  | 0x0C => (0x3FF, 0x3FFFFFF)
  | 0x26 => (0xFFF, 0xFFFFFFFF)
  | _ => (0xFFFFFFFF, 0xFFFFFFFF)

/-- Does the command use the field, its condition included? -/
def Cmd.uses (c : Cmd) (f : CField) : Bool :=
  ((opFields c).getD []).contains f
    && (match f with
      | .lay => c.sparse
      | .quorum => c.isQuorum
      | .launch => c.launch
      | _ => true)

/-- A field unused holds its unused value. -/
def Cmd.unusedOk (c : Cmd) (f : CField) : Bool :=
  c.uses f || (match f with
    | .group => c.group == 0xFFFF
    | .chunkEv => c.chunkEv == 0x8000
    | .chunkBytes => c.chunkBytes == 0
    | .elements => c.elements == 0
    | .fmtIn => c.at_ 0x20 8 == 0
    | .fmtOut => c.at_ 0x21 8 == 0
    | .rnd => c.rnd == 0
    | .lay => c.lay == 0
    | .prog => c.prog == 0
    | .root => c.root == 0
    | .quorum => c.quorum == 0
    | .arg0 => c.arg0 == 0
    | .arg1 => c.arg1 == 0
    | .launch => c.launchTurn == 0
    | .weight => c.weight == 0
    | .window => c.window == 0
    | .evbase => c.evbase == 0)

/-- A format index that R16 reserves. -/
def fmtReserved (i : Nat) : Bool := 19 ≤ i && i ≤ 23

/-- Check 2: the op is defined, unused fields hold their unused values, reserved bits are 0, no encoding is reserved. -/
def Cmd.shapeOk (c : Cmd) : Bool :=
  (opFields c).isSome
    && ([CField.group, .chunkEv, .chunkBytes, .elements, .fmtIn, .fmtOut, .rnd, .lay, .prog, .root, .quorum, .arg0, .arg1, .launch, .weight,
      .window, .evbase].all c.unusedOk)
    && c.flags &&& opFlags c.op == c.flags && c.collId != 0xFFFFFFFF
    && bits c.waitEv 12 3 == 0 && bits c.sigEv 12 3 == 0 && bits c.chunkEv 12 3 == 0
    && c.at_ 0x20 8 < 32 && c.at_ 0x21 8 < 32 && c.at_ 0x22 8 < 32 && !fmtReserved c.fmtIn && !fmtReserved c.fmtOut
    && c.rnd ≤ 4 && (!c.uses .lay || c.lay != 3)
    && (!c.uses .arg0 || c.arg0 &&& (argBits c.op).1 == c.arg0) && (!c.uses .arg1 || c.arg1 &&& (argBits c.op).2 == c.arg1)

/-- An op that streams chunks: 0x01 to 0x0A and 0x0C. -/
def Cmd.streams (c : Cmd) : Bool := (1 ≤ c.op && c.op ≤ 0x0A) || c.op == 0x0C

/-- An op that reads a payload from the staging area. -/
def opLoads (op : Nat) : Bool := op == 0x20 || (0x22 ≤ op && op ≤ 0x24) || (0x30 ≤ op && op ≤ 0x33)

/-- A collective that has taken nothing in: the record of a command of queue `q`. -/
def Coll.new (c : Cmd) (q : Nat) : Coll :=
  { cmd := c, queue := q, phase := 0, start := 0, ranks := 0, fenced := 0, nanHalt := false, step := 0, ordered := false, mask := none,
    engs := [], cmp := none, granted := false, locks := [], retain := 0, chunks := [], kept := [], parties := [], upNext0 := 0, upNext1 := 0,
    upAck0 := 0, upAck1 := 0, evs := 0, changes := [], revoked := 0, reissued := 0, spilled := 0, mbr := 0, late := [], relay := [], late2 := false,
    hashes := [], fuse := none, outs := [], begun := [] }

/-! ### Programs a command names -/

/-- The image of the program a command names. -/
def State.imageOf (s : State) (c : Cmd) : Option Image := (s.program c.prog).map (fun p => ⟨p.image⟩)

/-- Check 3: the values lie within Tables 08-2 and 08-3, with the size rules of the check itself, R341's range and the counters of bound
handles. -/
def State.rangesOk (s : State) (c : Cmd) : Bool :=
  1 ≤ c.sigInc
    && (!c.uses .group || c.group ≤ 255 || c.group == 0xFFFF)
    && (if c.streams then c.chunkBytes % 4096 == 0 && 4096 ≤ c.chunkBytes && c.chunkBytes ≤ 2 ^ 20 && 1 ≤ c.weight && 1 ≤ c.window
          && c.window * c.chunkBytes ≤ min (2 ^ 22) (s.get F.MEM_RETAIN_size * 2 ^ 20)
        else if opLoads c.op then c.chunkBytes % 8 == 0 && 8 ≤ c.chunkBytes && c.chunkBytes ≤ 2 ^ 22 && c.elements + c.chunkBytes ≤ 2 ^ 22
        else true)
    && c.evbase ≤ 4095 && (!c.loadedProg || ((s.imageOf c).map (fun i => i.decls.all (fun d =>
        (d.kind != 5 && d.kind != 6) || decide (c.evbase + d.num ≤ 4095)))).getD true)
    && (!c.isReduce || 1 ≤ bits c.arg1 24 8)
    && (c.op != 0x07 || (1 ≤ bits c.arg0 0 16 && bits c.arg0 0 16 ≤ 4096 && bits c.arg1 0 16 % 32 == 0 && 32 ≤ bits c.arg1 0 16
          && bits c.arg1 0 16 ≤ 16384))
    && (c.op != 0x09 || (1 ≤ c.arg1 && c.arg1 ≤ 1024))
    && (c.op != 0x21 || c.arg0 ≤ 254) && (c.op != 0x31 || c.arg0 ≤ 255) && (c.op != 0x32 || c.arg0 ≤ 15)
    && (!c.launch || (s.turn + s.get F.LAUNCH_LEAD_turns ≤ c.launchTurn && c.launchTurn ≤ s.turn + 2 ^ 40))

/-- The declared locks of a command's program: their handles. -/
def State.lockHandles (s : State) (c : Cmd) : List Nat :=
  if c.loadedProg then ((s.imageOf c).map (fun i => (i.ofKind 6).map (·.num))).getD [] else []

/-- The comparators a command needs (Table 10-6). -/
def State.cmpNeed (s : State) (c : Cmd) : Nat := b2n c.launch + b2n (c.op == 0x0B) + (s.lockHandles c).length

/-- Does the op's built-in program run on engines (Table 08-5)? -/
def Cmd.usesEngines (c : Cmd) : Bool := c.loadedProg || c.isReduce || (7 ≤ c.op && c.op ≤ 0x0A) || c.op == 0x0C

/-- The rule of a FUSED_UPDATE. -/
def State.ruleOfCmd (s : State) (c : Cmd) : Rule := ruleOf (ruleBytes s.nor.rules (bits c.arg1 0 8))

/-- The targets a rule's reductions enter. -/
def Rule.targets (r : Rule) : List Nat := (r.steps.filterMap (fun e => if e.2.2.acc then some e.2.2.d else none)).eraseDups

/-- Does the command use the cistern's slots? A rule's reductions never run in ordered mode (R312). -/
def State.usesCistern (s : State) (c : Cmd) : Bool :=
  if c.loadedProg then ((s.imageOf c).map (fun i => (i.ofKind 3).any (fun d => !i.ordered d))).getD false
  else (!c.ordered && (c.isReduce || c.op == 0x09 || c.op == 0x0A || c.op == 0x0C)) || (c.op == 0x0C && !(s.ruleOfCmd c).targets.isEmpty)

/-- Is a stream declaration a local channel of the flume: one with no store region but a landing buffer (R147)? -/
def Image.flume (i : Image) (d : Decl) : Bool :=
  8 ≤ d.num && (match i.decl 1 (d.at_ 14 1) with
    | some r => r.at_ 3 1 == 1
    | none => true)

/-- Does the command use a flume channel, a table, a shard or the turnout (R478)? -/
def State.usesMemory (s : State) (c : Cmd) : Bool :=
  (8 ≤ c.op && c.op ≤ 0x0A) || c.op == 0x0C
    || (c.loadedProg && ((s.imageOf c).map (fun i => !(i.ofKind 4).isEmpty || (i.ofKind 2).any i.flume)).getD false)

/-- Check 1: the blocks the command needs are in service (R116, R164, R325, R355, R478). -/
def State.blocksOn (s : State) (c : Cmd) : Bool :=
  s.get F.CMD_CTL_en == 1
    && (!c.usesEngines || s.get F.ENG_CTL_en == 1) && (!s.usesCistern c || s.get F.CIS_CTL_en == 1)
    && ((c.op != 0x0C && c.op != 0x23) || s.get F.NOR_CTL_en == 1) && (!s.usesMemory c || s.get F.MEM_CTL_en == 1)
    && (s.cmpNeed c == 0 || s.get F.TIME_CTL_en == 1) && (!c.isColl || s.get F.AUD_CTL_en == 1)

/-! ### Authorisation, group, identifier -/

/-- Is a page of the payload host-written (R555)? -/
def State.hostPages (s : State) (c : Cmd) : Bool :=
  (List.range ((c.elements + c.chunkBytes + 4095) / 4096 - c.elements / 4096)).any (fun i => !bit s.host.marks (c.elements / 4096 + i))

/-- Check 4 but for the envelope: R524, R555, and the tenant of an update's shard (R302). -/
def State.authorised (s : State) (q : Nat) (c : Cmd) : Bool :=
  s.mayCommand q c && (s.get (F.Q_CTL_owner q) == 0 || !opLoads c.op || !s.hostPages c)
    && (c.op != 0x0C || (s.shard (bits c.arg0 0 10)).all (fun h => h.record.tenant == c.tenant))

/-- Check 5. -/
def State.groupFits (s : State) (c : Cmd) : Bool :=
  !c.uses .group || (s.group c.group).any (fun g =>
    (!c.uses .root || c.root < g.ranks) && (!c.isQuorum || (1 ≤ c.quorum && c.quorum ≤ g.ranks)))

/-- Check 6: no incomplete collective carries the coll_id. -/
def State.idFree (s : State) (c : Cmd) : Bool := !s.accepted.any (fun k => k.cmd.isColl && k.cmd.collId == c.collId)

/-! ### Formats (R46, R68, R86, R122, R223, Table 02-9) -/

/-- Is the format valid for a payload: named, and not an exact one? -/
def State.payFmt (s : State) (i : Nat) : Bool := s.namedFmt i && i ≤ 15 || (24 ≤ i && s.namedFmt i)

/-- A value format of a compressed stream; int64 only where the stream is not decoded (R122). -/
def sparseFmt (op i : Nat) : Bool := ((1 ≤ i && i ≤ 8) || 24 ≤ i || (10 ≤ i && i ≤ 15)) && (i != 14 || (4 ≤ op && op ≤ 6))

/-- Check 7. -/
def State.formatsOk (s : State) (c : Cmd) : Bool :=
  (!c.uses .fmtIn || s.payFmt c.fmtIn) && (!c.uses .fmtOut || s.payFmt c.fmtOut)
    && (!c.mx || (4 ≤ c.fmtIn && c.fmtIn ≤ 8))
    && (!c.sparse || (sparseFmt c.op c.fmtIn && sparseFmt c.op c.fmtOut))
    && (!(c.isReduce || c.op == 0x0C) || (exactOf (s.fmt c.fmtIn)).accepts c.fmtIn)
    && (!(c.isReduce || c.op == 0x09) || c.fmtOut != 9)
    && (c.op != 0x0C || (s.fmt c.fmtOut).isFloat)
    && (c.op != 0x07 || (1 ≤ c.fmtIn && c.fmtIn ≤ 3))
    && (c.op != 0x0A || c.fmtIn != 0 && c.fmtIn != 9)

/-! ### Declarations (R240), seeds (R335), updates (R302) -/

/-- The mask id a command gives; 0xFFFF none. -/
def Cmd.maskId (c : Cmd) : Nat :=
  if c.isReduce ∨ c.op = 0x04 ∨ c.op = 0x05 then bits c.arg1 0 16 else if c.op = 0x0C then bits c.arg1 8 16 else 0xFFFF

/-- Does a table record match a declaration in every field? -/
def Decl.tableMatch (d : Decl) (t : TableRec) : Bool :=
  d.at_ 2 1 == t.tkind && d.at_ 3 1 == t.fmt && d.at_ 4 4 == t.rows && d.at_ 8 2 == t.cols

/-- The parties whose data an input port takes: children at the highest declared input of several, the direct members at the lowest (log entry 24). -/
def Image.portParties (i : Image) (d : Decl) (ps : List Party) : List Party :=
  let ins := ((i.ofKind 2).filter (fun e => e.num < 4)).map (·.num)
  let lo := ins.foldl min 3
  let hi := ins.foldl max 0
  ps.filter (fun p => if p.isKid then d.num == hi else d.num == lo)

/-- Does a command's stream take its positions from a mask: is it compressed, with a mask named (R125)? -/
def Cmd.masked (c : Cmd) : Bool := c.sparse && c.maskId != 0xFFFF

/-- Does a fabric stream of the command match the declaration (R240)? An output stream's members are not compared (log entry 64). -/
def State.fabricMatch (s : State) (c : Cmd) (i : Image) (d : Decl) : Bool :=
  let side := fun (fmt : Nat) (mx : Bool) => d.at_ 4 1 == (if d.at_ 3 1 = 0 then 0 else fmt) && bit (d.at_ 6 1) 0 == mx
  c.uses .group && d.at_ 8 4 == c.chunkBytes && bit (d.at_ 6 1) 1 == c.masked && (d.at_ 3 1 != 3 || d.at_ 5 1 == c.lay)
    && (if d.num < 4 then side c.fmtIn c.mx && d.at_ 12 2 == (i.portParties d ((s.groupOf (Coll.new c 0)).parties)).length
        else side c.fmtOut c.mxOut)

/-- Does a local channel find its object: a store region of the image, or on every engine a channel record of the direction in which the program
uses it (R144, R455)? -/
def State.localMatch (s : State) (c : Cmd) (engs : List Nat) (i : Image) (d : Decl) : Bool :=
  let on := fun (p : Nat → Bool) => i.words.any (fun w => streamNum w == some d.num && p w)
  !i.flume d || engs.all (fun e => (s.bindOf c).any (fun b => (b.chans.find (16 * e + d.num)).any (fun r =>
    if r.dir = 0 then !on chanWrite else !on chanRead)))

/-- Does every declaration of the command's program bind (R240)? -/
def State.declsBind (s : State) (c : Cmd) (engs : List Nat) (i : Image) : Bool :=
  i.decls.all (fun d => match d.kind with
    | 2 => if d.num < 8 then s.fabricMatch c i d else s.localMatch c engs i d
    | 4 => (s.tableOf c d.num).any d.tableMatch
    | _ => true)

/-- The seed slot a command's SR takes: of arg1, or of the shard record (R335). -/
def State.seedField (s : State) (c : Cmd) : Option Nat :=
  if c.rnd ≠ 4 then none
  else if c.isReduce then some (bits c.arg1 16 8)
  else if c.op = 0x0C then (s.shard (bits c.arg0 0 10)).map (fun h => h.record.seed)
  else none

/-- Do the seed sets the command binds stand ready (R335)? -/
def State.seedsOk (s : State) (c : Cmd) : Bool :=
  (s.seedField c).all (fun f => (s.det.seeds.find (f / 16 % 16)).any (fun d => d.tenant == c.tenant))
    && (!(c.loadedProg && ((s.imageOf c).map (fun i => i.words.any (fun w => opc w == 0x70))).getD false) || (s.seedSetOf c.tenant).isSome)

/-- The conditions of R302 with reason 0x08. -/
def State.updateOk (s : State) (c : Cmd) : Bool :=
  match s.shard (bits c.arg0 0 10) with
  | none => false
  | some h =>
    let r := ruleOf (ruleBytes s.nor.rules (bits c.arg1 0 8))
    let mask := bits c.arg1 8 16
    let refresh := bit c.arg1 24
    bits c.arg1 0 8 < 64 && !(h.st == 0 || h.st == 4 || h.st == 5) && !ruleEmpty (ruleBytes s.nor.rules (bits c.arg1 0 8))
      && r.wfmt == h.record.wfmt && r.sfmt == h.record.sfmt && r.nstate == h.record.nstate && r.factored == h.record.factored
      && c.elements == h.record.n && (!r.clip || h.record.nset != 0xFF) && (!refresh || (h.record.hasMask && !h.record.sparse))
      && bit c.arg1 25 == (h.record.skind == 1) && (mask == h.record.shard || mask == 0xFFFF) && (!c.sparse || mask == h.record.shard)

/-- What an op's built-in program declares of tables: a row table for gathers, a scatter table for SCATTER_ADD that accepts the format. -/
def State.builtinBinds (s : State) (c : Cmd) : Bool :=
  match c.op with
  | 0x08 => (s.tableOf c 0).any (fun t => t.tkind == 0)
  | 0x09 => (s.tableOf c 0).any (fun t => t.tkind == 0 && (exactOf (s.fmt t.fmt)).accepts t.fmt)
  | 0x0A => (s.tableOf c 0).any (fun t => t.tkind == 1 && (Exact.ofIdx t.fmt).accepts c.fmtIn)
  | 0x0D => false
  | _ => true

/-- A tenant's command runs its tenant's programs alone: the store is encrypted under its key (R242). -/
def State.programBinds (s : State) (c : Cmd) (engs : List Nat) : Bool :=
  if c.loadedProg then (s.program c.prog).any (fun p => p.tenant == c.tenant && s.declsBind c engs ⟨p.image⟩)
  else (opFields c).all (fun l => !l.contains .prog) || s.builtinBinds c

/-- Check 8. An UNLOAD_PROGRAM's handle is held by its own load. -/
def State.bindsOk (s : State) (c : Cmd) (engs : List Nat) : Bool :=
  s.programBinds c engs && s.seedsOk c && (c.op != 0x0C || s.updateOk c)

/-! ### Streams (R144) -/

/-- Is a stream of an engine free? -/
def State.strmFree (s : State) (e k : Nat) : Bool := (s.strm e k).isNone

/-- The free inputs and outputs of an engine, lowest first. -/
def State.freePorts (s : State) (e : Nat) : List Nat × List Nat := ([0, 1, 2, 3].filter (s.strmFree e), [4, 5].filter (s.strmFree e))

/-- Does the op's built-in program send partials or results, and so take an output port? SCATTER_ADD and an embedding update send none (R302). -/
def Cmd.sends (c : Cmd) : Bool := c.op != 0x0A && !(c.op == 0x0C && bit c.arg1 25)

/-- May a loaded program take the context: does it run no other loaded program? A halted one it holds no longer (log entry 65). -/
def Ctx.idle (c : Ctx) : Bool := c.coll.isNone || c.prog == 0xFF

/-- Do the store regions of two programs share a byte (R142)? -/
def Image.regionsMeet (i j : Image) : Bool :=
  (i.ofKind 1).any (fun a => (j.ofKind 1).any (fun b =>
    decide (a.span.1 < b.span.1 + b.span.2) && decide (b.span.1 < a.span.1 + a.span.2)))

/-- Does an accepted program on one of the engines hold a store region that the program names (log entry 65)? -/
def State.storeHeld (s : State) (engs : List Nat) (i : Image) : Bool :=
  s.accepted.any (fun k => k.cmd.loadedProg && k.engs.any engs.contains && (s.imageOf k.cmd).any i.regionsMeet)

/-- Check 9: the streams, contexts and store regions a loaded program declares are free on every engine (log entry 65);
or a built-in program finds its ports. -/
def State.portsFree (s : State) (c : Cmd) (engs : List Nat) : Bool :=
  if c.loadedProg then ((s.imageOf c).map (fun i => !s.storeHeld engs i && engs.all (fun e =>
      (i.ofKind 2).all (fun d => s.strmFree e d.num) && i.used.all (fun x => (s.ctxAt e x).idle)))).getD false
  else !c.usesEngines || engs.all (fun e =>
    let p := s.freePorts e
    decide (2 ≤ p.1.length) && (!c.sends || !p.2.isEmpty))

/-! ### Masks (R125) -/

/-- Check 10: a compressed reduction or multicast names a mask; a mask named exists, has the stream's layout and covers
the tensor, which for ALLGATHER is one member's contribution (log entry 73). -/
def State.maskOk (s : State) (c : Cmd) : Bool :=
  if c.maskId = 0xFFFF then !(c.sparse && (c.isReduce || c.op == 0x04 || c.op == 0x05 || c.op == 0x0C))
  else (s.shard c.maskId).any (fun h => h.st != 0 && h.record.hasMask && (!c.sparse || h.record.layout == c.lay) && c.elements ≤ h.record.n)

/-- The version latched: 2 × shard + live copy. -/
def State.latchMask (s : State) (c : Cmd) : Option Nat :=
  if c.maskId = 0xFFFF then none else (s.shard c.maskId).map (fun h => 2 * c.maskId + h.live)

/-! ### The cistern (R101 to R103, R110) -/

/-- A region a command needs in each cluster: its number, format, slots, window in chunks, slots per chunk, spill bit, ordered. -/
structure Demand where
  num      : Nat
  fmt      : Nat
  slots    : Nat
  window   : Nat
  perChunk : Nat
  spill    : Bool
  ordered  : Bool
  deriving DecidableEq, Repr

/-- Store positions of the open-chunk window, and of all slots. -/
def Demand.unit (d : Demand) : Nat := (Exact.ofIdx d.fmt).positions
/-- Positions of the window. -/
def Demand.win (d : Demand) : Nat := d.window * d.perChunk * d.unit

/-- Kept positions of one chunk of a command's operand. -/
def State.keptPerChunk (s : State) (c : Cmd) : Nat := if c.sparse then s.perChunk c / layG c.lay * layN c.lay else s.perChunk c

/-- Chunks that a built-in program has open at once, at most. -/
def State.openAtMost (s : State) (c : Cmd) : Nat := min c.openWindow (max 1 (s.chunksIn c))

/-- A built-in program's region: `per` slots for each open chunk, shared out over the clusters it runs in. -/
def State.builtinDemand (s : State) (c : Cmd) (engs : List Nat) (fmt per : Nat) (ordered : Bool) : Demand :=
  let n := max 1 (clustersOf engs).length
  let w := s.openAtMost c
  let per := (per + n - 1) / n
  ⟨0, fmt, w * per, w, per, c.spill, ordered⟩

/-- The reduction slots of a rule (R312): one for each of T0 to T2 it enters, one for each row, one for each column. -/
def State.ruleDemand (s : State) (c : Cmd) : List Demand :=
  let n := (((s.ruleOfCmd c).targets).map (fun t => match s.shard (bits c.arg0 0 10) with
    | none => 0
    | some h => if t = 62 then h.record.rows else if t = 63 then h.record.cols else 1)).sum
  if n = 0 then [] else [⟨1, 17, n, 1, n, false, false⟩]

/-- The regions a command's program declares (R101): of its image, or those of the built-in program, which holds its open-chunk window. A pooled
gather holds the columns of one bag for each open chunk (log entry 66). -/
def State.demands (s : State) (c : Cmd) (engs : List Nat) : List Demand :=
  if c.loadedProg then ((s.imageOf c).map (fun i => (i.ofKind 3).map (fun d =>
    ⟨d.num, d.at_ 2 1, d.at_ 8 4, d.at_ 12 2, d.at_ 16 4, d.at_ 4 1 == 1, i.ordered d⟩))).getD []
  else if c.op = 0x09 then
    ((s.tableOf c 0).map (fun t => s.builtinDemand c engs (exactOf (s.fmt t.fmt)).idx t.cols false)).toList
  else if c.isReduce ∨ (c.op = 0x0C ∧ !bit c.arg1 25) then
    s.builtinDemand c engs (exactOf (s.fmt c.fmtIn)).idx (s.keptPerChunk c) c.ordered :: (if c.op = 0x0C then s.ruleDemand c else [])
  else if c.op = 0x0C then s.ruleDemand c
  else []

/-- Is a group's window of the demands in the store, with every slot (R101)? -/
def demandTotal (ds : List Demand) : Nat := ((ds.filter (fun d => !d.ordered)).map (fun d => d.slots * d.unit)).sum

/-- Positions the windows take. -/
def windowTotal (ds : List Demand) : Nat := ((ds.filter (fun d => !d.ordered)).map Demand.win).sum

/-- The home slots outside the windows: region, slots, format. -/
def homesOf (ds : List Demand) : List (Nat × Nat × Nat) :=
  if demandTotal ds ≤ storePositions then []
  else (ds.filter (fun d => !d.ordered)).map (fun d => (d.num, d.slots - d.window * d.perChunk, d.fmt))

/-- What one home slot of a format takes of the store (positions) and of each spill level (bytes): R103. -/
def homeSizes (fmt : Nat) : List Nat :=
  let e := Exact.ofIdx fmt
  [e.positions, e.homeBytes, e.homeBytes, e.homeBytes]

/-- Place `n` home slots in the fastest place first, each place given by its free space and what one slot takes of it (R103): how many each gets. -/
def placeFast : List (Nat × Nat) → Nat → List Nat
  | [], _ => []
  | (free, size) :: l, n => let a := min n (free / size); a :: placeFast l (n - a)

/-- Place `n` home slots of a format in what is free of the store and of the three spill levels; none where it does not hold them. -/
def placeHomes (free : List Nat) (fmt n : Nat) : Option (List Nat) :=
  let l := placeFast (free.zip (homeSizes fmt)) n
  if l.sum = n then some l else none

/-- The bytes of a cluster's three spill regions. -/
def State.spillSizes (s : State) (cl : Nat) : List Nat := (s.spillRegions cl).map (·.2.2)

/-- Do the store outside the windows and the spill regions, free or not, hold the home slots (R103)? -/
def State.homesFit (s : State) (cl : Nat) (ds : List Demand) : Bool :=
  ((homesOf ds).foldl (fun (free : Option (List Nat)) h => free.bind (fun f => (placeHomes f h.2.2 h.2.1).map (fun l =>
    (f.zip (l.zip (homeSizes h.2.2))).map (fun p => p.1 - p.2.1 * p.2.2)))) (some ((storePositions - windowTotal ds) :: s.spillSizes cl))).isSome

/-- The leaves of one tree sum at this module: its direct members and its children in that tree. -/
def Group.leaves (g : Group) : Nat :=
  let n := fun (t : Nat) => (g.kids.filter (fun k => !k.fenced && k.tree == t)).length
  (g.members.filter (fun m => !m.fenced)).length + max (n 0) (n 1)

/-- Store bytes of the stacks of a built-in program in ordered mode: 1 + floor(log2 n) sums for each element in flight (R109, R110). -/
def State.stackBytes (s : State) (c : Cmd) (engs : List Nat) : Nat :=
  if c.ordered && !c.loadedProg then
    let n := max 1 (s.groupOf (Coll.new c 0)).leaves
    let per := (s.keptPerChunk c + max 1 engs.length - 1) / max 1 engs.length
    s.openAtMost c * per * (1 + Nat.log2 n) * (if (s.fmt c.fmtIn).idx = 0 then 8 else 4)
  else 0

/-- Check 11. -/
def State.cisternFits (s : State) (c : Cmd) (engs : List Nat) : Bool :=
  let ds := s.demands c engs
  windowTotal ds ≤ storePositions && (clustersOf engs).all (fun cl => s.homesFit cl ds) && s.stackBytes c engs ≤ 3145728

/-! ### Comparators, strict mode -/

/-- The free comparators, lowest first (R340). -/
def State.freeCmps (s : State) : List Nat := (List.range 64).filter (fun k => s.get (F.CMP_CTL_kind k) == 0)

/-- Is this module the watermaster? -/
def State.isWm (s : State) : Bool := s.get F.WM_CTL_wm == s.me

/-- Check 12 (R340). -/
def State.cmpsOk (s : State) (c : Cmd) : Bool :=
  let n := s.cmpNeed c
  n == 0 || (decide (n ≤ s.freeCmps.length) && (s.get F.TIME_STATUS_locked == 1 || s.isWm))

/-- A word that selects by entry order: TOPK or MERGEK with tie = 1 (R215). -/
def tieWord (w : Nat) : Bool := (opc w == 0x51 || opc w == 0x52) && bit w 11

/-- Does a seed set the command binds have an entropy slot (Table 10-3)? -/
def State.bindsEntropy (s : State) (c : Cmd) : Bool :=
  (s.seedSets c).any (fun k => (s.det.seeds.find k).any (fun d => d.entropy != 0))

/-- Does a command use an option of Table 10-3: quorum, arrival order, an entropy slot? -/
def State.usesOption (s : State) (c : Cmd) : Bool :=
  c.isQuorum || c.arrival || s.bindsEntropy c || (c.loadedProg && ((s.imageOf c).map (fun i => i.words.any tieWord)).getD false)

/-- Check 13 (R215, R273, R335). -/
def State.strictOk (s : State) (c : Cmd) : Bool := s.get F.STEP_STATUS_strict == 0 || !s.usesOption c

end Sys2Proof.Machine
end

