-- ==== Sys2Proof/Machine/Ports.lean ====
section
/-!
DEFINITION. The commands of the ports (chapter 13): training, flits, key exchange, datagrams, priority flow control, DATA_PUT.
-/
namespace Sys2Proof.Machine
open Sys2Proof

/-! ### Training (R438 to R441) -/

/-- An entry of the training table. -/
def State.train (s : State) (e : Nat) : Nat := (s.word (R.PT_TRAIN e)).toNat

/-- The training entry a port is in. -/
def State.entry (s : State) (p : Nat) : Nat := s.train (s.get (F.PT_STATUS_entry p))

/-- Outcomes of a training action as a TRAIN flit carries them (log entry 30). -/
def outOk : Nat := 1
/-- Outcome alt. -/
def outAlt : Nat := 2
/-- Outcome fail. -/
def outFail : Nat := 3

/-- Send a TRAIN flit on a Gasha port. -/
def State.sendTrain (s : State) (p outcome lane subst : Nat) : State :=
  if !s.isG p then s else s.sendCtl p 5 (leBytes 0 1 ++ leBytes (s.action p) 1 ++ leBytes outcome 1 ++ leBytes lane 1 ++ leBytes subst 1)

/-- PT_STATUS.up changes: the LINK_DOWN cause and a report to the watermaster (R441). -/
def State.upChange (s : State) (p : Nat) (up : Bool) : State :=
  let s := { s with flt.downAt := s.flt.downAt.wr p (if up then 0 else s.beat + 1) }
  ((s.set (F.PT_STATUS_up p) (b2n up)).intEvent 14).faultReport 9 p (if up then 0 else 2) (b2n up + (s.link p).peer <<< 16)

/-- A port leaves ACTIVE: it keeps its replay buffer, sequence numbers and credits (R441); the seal blocks in hand end. -/
def State.leaveActive (s : State) (p : Nat) : State :=
  if !s.up p then s
  else
    let s := ((s.inc (F.PT_TRAIN_COUNT_exits p)).flogAdd (0x62E8 + 16 * p + 14) 2).upChange p false
    let l := s.link p
    s.putLink p { l with
      txBlock := []
      txCtr := if l.crypt && !l.txBlock.isEmpty then l.txCtr + 1 else l.txCtr
      rxBlock := []
      rxCtr := if l.crypt && !l.rxBlock.isEmpty then l.rxCtr + 1 else l.rxCtr
      rxExp := l.rxNext
      discard := false
      fecAt := []
      tagAt := [] }

/-- Send a message of the key exchange in fragments of 248 bytes (R527). -/
def State.sendKx (s : State) (p : Nat) (m : List Byte) : State :=
  let n := (m.length + 247) / 248
  ((pieces 248 n m).zipIdx).foldl (fun s q =>
    let b := leBytes q.2 2 ++ leBytes n 2
    if s.isG p then s.sendCtl p 4 (leBytes 0 1 ++ b ++ leBytes 0 2 ++ q.1) else s.sendGoe p 2 0 0 0 (b ++ leBytes 0 4 ++ q.1)) s

/-- Offer what INIT agrees on (Table 13-3): in a flit, or in a type 3 datagram. -/
def State.sendInit (s : State) (p : Nat) : State :=
  let l := s.link p
  let offer := (List.range 4).flatMap (fun c => leBytes (s.share p c / 256) 4)
  if s.isG p then s.sendCtl p 3 (leBytes 0 1 ++ leBytes l.rxNext 2 ++ leBytes (s.portMode p) 1 ++ leBytes 0 3 ++ offer ++ leBytes s.me 4)
  else s.newGoe p 3 0 (leBytes (s.portMode p) 1 ++ leBytes 0 1 ++ leBytes s.me 2)

/-- Move to a training entry and begin its action. -/
def State.enterEntry (s : State) (p e : Nat) : State :=
  let s := s.leaveActive p
  let a := bits (s.train e) 0 4
  let s := s.sets [(F.PT_STATUS_entry p, e), (F.PT_STATUS_action p, a)]
  let s := s.putLink p { s.link p with entryAt := s.beat, mine := 0, theirs := 0, lanes := [] }
  match a with
  | 0 => s
  | 5 =>
    let r := s.free 64
    let s := r.2
    let s := if (s.link p).crypt then s.fillSeal p else s
    let init := s.lowSide p
    let m := (Config.kxOffer r.1).toList
    let s := s.putLink p { s.link p with crypt := false, kx := some ⟨r.1, init, if init then [m] else [], []⟩ }
    let s := s.sendTrain p 0 0 0
    if init then s.sendKx p m else s
  | 7 =>
    let s := if (s.linkSecret p).isEmpty || !s.isG p || (s.link p).crypt then s
      else
        let t := s.fillSeal p
        t.putLink p { t.link p with crypt := true }
    ((s.sendTrain p 0 0 0).putLink p { (s.sendTrain p 0 0 0).link p with
      given := if (s.link p).offered then (s.link p).given else (List.range 4).foldl (fun (g : NMap) c => g.wr c (s.share p c / 256)) [] }).sendInit p
  | 8 => ((s.inc (F.PT_TRAIN_COUNT_trains p)).upChange p true).pumpAll p
  | 9 => s.inc (F.PT_TRAIN_COUNT_holds p)
  | _ => s.sendTrain p 0 0 0

/-- End the action when its outcome is settled: ok needs both sides of a Gasha link (R439). -/
def State.resolve (s : State) (p : Nat) : State :=
  let l := s.link p
  let e := s.entry p
  if l.mine = outFail then s.enterEntry p (bits e 14 5)
  else if l.mine = outAlt ∨ (l.mine = outOk ∧ l.theirs = outAlt) then s.enterEntry p (bits e 9 5)
  else if l.mine = outOk ∧ (l.theirs = outOk ∨ !s.isG p ∨ s.action p = 9) then s.enterEntry p (bits e 4 5)
  else s

/-- The port's own action ends with an outcome. -/
def State.outcome (s : State) (p o : Nat) : State :=
  let s := s.putLink p { s.link p with mine := o }
  (if s.action p = 9 then s else s.sendTrain p o 0 0).resolve p

/-- Is the port running an action? -/
def State.acting (s : State) (p action : Nat) : Bool :=
  s.get (F.PT_CTL_en p) == 1 && s.get F.PT_GCTL_en == 1 && s.action p == action && (s.link p).mine == 0

/-- Start a port's training table (R438). -/
def State.portStart (s : State) (p : Nat) : State :=
  if s.get (F.PT_CTL_en p) = 0 ∨ s.get F.PT_GCTL_en = 0 ∨ s.portMode p > 4 then s
  else s.enterEntry p (if s.isG p then s.get F.PT_GCTL_start_g else s.get F.PT_GCTL_start_e)

/-- A port goes to OFF (R438). -/
def State.portOff (s : State) (p : Nat) : State := (s.leaveActive p).sets [(F.PT_STATUS_entry p, 0), (F.PT_STATUS_action p, 0)]

/-- PT_CTL.en becomes 1. -/
def portEnable (port : Fin 144) (s : State) : State :=
  if s.get (F.PT_CTL_en port) = 1 then s else (s.set (F.PT_CTL_en port) 1).portStart port

/-- PORT_ENABLE. -/
def execPortEnable (port : Fin 144) (s : State) : Host.Outcome State Fault Refusal := done (s.bar (portEnable port))

/-- The timeout of the entry passes: outcome fail (R438). -/
def trainTimeout (port : Fin 144) (s : State) : State :=
  let p := port.val
  let t := bits (s.entry p) 20 20
  if s.get (F.PT_CTL_en p) = 0 ∨ s.get F.PT_GCTL_en = 0 ∨ s.action p = 0 ∨ t = 0 ∨ s.beat < (s.link p).entryAt + 1000 * t then s
  else s.enterEntry p (bits (s.entry p) 14 5)

/-- TRAIN_TIMEOUT. -/
def execTrainTimeout (port : Fin 144) (s : State) : Host.Outcome State Fault Refusal := done (trainTimeout port s)

/-- An action that only its hardware can end. -/
def actionEnds (action : Nat) (port : Fin 144) (ok : Bool) (s : State) : State :=
  if s.acting port action then s.outcome port (if ok then outOk else outFail) else s

/-- Far-end detection ends. -/
def execDetect (port : Fin 144) (ok : Bool) (s : State) : Host.Outcome State Fault Refusal := done (actionEnds 1 port ok s)
/-- Equalisation ends. -/
def execEq (port : Fin 144) (ok : Bool) (s : State) : Host.Outcome State Fault Refusal := done (actionEnds 2 port ok s)
/-- Alignment ends. -/
def execAlign (port : Fin 144) (ok : Bool) (s : State) : Host.Outcome State Fault Refusal := done (actionEnds 4 port ok s)
/-- PMD link training ends. -/
def execEthTrain (port : Fin 144) (ok : Bool) (s : State) : Host.Outcome State Fault Refusal := done (actionEnds 10 port ok s)
/-- PCS and FEC lock ends. -/
def execEthLock (port : Fin 144) (ok : Bool) (s : State) : Host.Outcome State Fault Refusal := done (actionEnds 11 port ok s)

/-- The first spare lane of a port's die that serves the port and is not in use (R440). -/
def State.spareLane (s : State) (p : Nat) : Option Nat :=
  (List.range 2).find? (fun k => s.get (F.SPARE_port (p / 18) k) == p && s.get (F.SPARE_in_use (p / 18) k) == 0)

/-- A spare takes a logical lane's place (R440). -/
def State.substitute (s : State) (p lane : Nat) : State :=
  match s.spareLane p with
  | none => s
  | some k =>
    let d := p / 18
    let s := s.sets [(F.SPARE_in_use d k, 1), (F.SPARE_lane d k, lane), (⟨R.PT_LANEMAP p, 10 * lane, 10⟩, 74 * d + 72 + k),
      (F.PT_STATUS_subst p, s.get (F.PT_STATUS_subst p) ||| 1 <<< lane)]
    let s := (s.inc (F.PT_TRAIN_COUNT_substs p)).flogAdd (0x62E8 + 16 * p + 12) 2
    let s := { s with flog := s.flog.wr (0x7D68 + 0x1C0 + 2 * (2 * d + k)) (leBytes (p + lane <<< 8 + 0x8000) 2) }
    s.journalPut 0x0B lane p (s.get (F.ISL_temp d)) (s.get (F.ISL_mv d)) 0 (74 * d + 72 + k)

/-- The lane test ends: every lane passes, or the failed lanes ask the far end for spares, or there is none (R439, R440). -/
def laneTest (port : Fin 144) (bad : BitVec 4) (s : State) : State :=
  let p := port.val
  if !s.acting p 3 then s
  else
    let ls := bitList bad.toNat 4
    let free := (List.range 2).filter (fun k => s.get (F.SPARE_port (p / 18) k) == p && s.get (F.SPARE_in_use (p / 18) k) == 0)
    if ls.isEmpty then s.outcome p outOk
    else if !s.isG p ∨ s.get (F.PT_CTL_spare_ok p) = 0 ∨ free.length < ls.length then s.outcome p outFail
    else ls.foldl (fun s i => s.sendTrain p 0 i 1) (s.putLink p { s.link p with lanes := ls })

/-- LANETEST. -/
def execLanetest (port : Fin 144) (bad : BitVec 4) (s : State) : Host.Outcome State Fault Refusal := done (laneTest port bad s)

/-- Does the port hold a link secret from this power cycle, with the same peer? -/
def keyChk (port : Fin 144) (same : Bool) (s : State) : State :=
  if !s.acting port 6 then s else s.outcome port (if same && !(s.linkSecret port).isEmpty then outOk else outAlt)

/-- KEYCHK. -/
def execKeychk (port : Fin 144) (same : Bool) (s : State) : Host.Outcome State Fault Refusal := done (keyChk port same s)

/-- A HOLD entry ends after param ms. -/
def hold (port : Fin 144) (s : State) : State :=
  if s.acting port 9 && decide (s.beat ≥ (s.link port).entryAt + 1000000 * bits (s.entry port) 40 16) then s.outcome port outOk else s

/-- HOLD. -/
def execHold (port : Fin 144) (s : State) : Host.Outcome State Fault Refusal := done (hold port s)

/-- An ACTIVE port fails: too many uncorrectable codewords in 1 ms, loss of alignment, more than 16 tag failures in 1 ms (R422, R439). -/
def activeFail (port : Fin 144) (align : Bool) (s : State) : State :=
  let l := s.link port
  let recent := fun (ts : List Nat) => (ts.filter (fun t => decide (s.beat < t + 1000000))).length
  if s.up port && (align || decide (recent l.fecAt > bits (s.entry port) 40 16) || decide (recent l.tagAt > 16)) then
    s.enterEntry port (bits (s.entry port) 14 5)
  else s

/-- ACTIVE_FAIL. -/
def execActiveFail (port : Fin 144) (align : Bool) (s : State) : Host.Outcome State Fault Refusal := done (activeFail port align s)

/-! ### Flits (R416 to R428) -/

/-- The flit that arrives. -/
def flitOf (f : FlitIn) : Flit := ⟨f.hdr.toNat, f.body⟩

/-- Does the port receive flits: a Gasha mode with its lanes up? -/
def State.listens (s : State) (p : Nat) : Bool := s.isG p && s.action p != 0

/-- A flit at a position that is not a seal flit's, if it is of a type; `k` acts on the plain body of an accepted one. -/
def State.flitIn (s : State) (p : Nat) (f : FlitIn) (type : Nat) (k : State → List Byte → State) : State :=
  if !s.listens p ∨ ((flitOf f).ok ∧ f.fec.val ≠ 2 ∧ (flitOf f).type ≠ type) then s
  else if (s.link p).rxBlock.length = 47 then s.sealLost p (flitOf f) f.fec
  else
    let r := s.rxFlit p (flitOf f) f.fec
    match r.1 with
    | some b => k r.2 b
    | none => r.2

/-- A data flit is accepted in sequence and held until its block verifies. -/
def dataFlit (port : Fin 144) (f : FlitIn) (s : State) : State := s.flitIn port f 1 (fun s _ => s)

/-- DATA_FLIT. -/
def execDataFlit (port : Fin 144) (f : FlitIn) (s : State) : Host.Outcome State Fault Refusal := done (dataFlit port f s)

/-- An idle flit carries an ack and credits. -/
def idleIn (port : Fin 144) (f : FlitIn) (s : State) : State := s.flitIn port f 0 (fun s _ => s)

/-- IDLE_FLIT. -/
def execIdleFlit (port : Fin 144) (f : FlitIn) (s : State) : Host.Outcome State Fault Refusal := done (idleIn port f s)

/-- A RETRY names the receiver's rx_next (R425). It acts as soon as it is accepted, before its block is verified (Table 13-4: log entry 30). -/
def retryIn (port : Fin 144) (f : FlitIn) (s : State) : State :=
  s.flitIn port f 2 (fun s b => if (b.headD 0).toNat = 2 then s.resendFrom port (leNat ((b.drop 2).take 2) % 4096) else s)

/-- RETRY. -/
def execRetry (port : Fin 144) (f : FlitIn) (s : State) : Host.Outcome State Fault Refusal := done (retryIn port f s)

/-- What an INIT brings: rx_next, mode, credits offered, the peer's module identifier (R427, R441). -/
def State.takeInit (s : State) (p rx mode : Nat) (offer : List Nat) (peer : Nat) : State :=
  if !s.acting p 7 ∨ mode ≠ s.portMode p then s
  else
    let l := s.link p
    let g := if l.offered then l.granted else (offer.zipIdx).foldl (fun (g : NMap) q => g.wr q.2 q.1) []
    let s := s.putLink p { l with peer := peer, offered := true, granted := g }
    (if s.isG p then s.resendFrom p rx else s.goeResend p).outcome p outOk

/-- What an INIT flit brings, once its block is released. -/
def State.initTake (s : State) (p : Nat) (b : List Byte) : State :=
  let at_ := fun (o n : Nat) => leNat ((b.drop o).take n)
  s.takeInit p (at_ 2 2 % 4096) (at_ 4 1) ((List.range 4).map (fun c => at_ (8 + 4 * c) 4)) (at_ 24 4 % 65536)

/-- An INIT flit is accepted in sequence and held until its block verifies. -/
def initIn (port : Fin 144) (f : FlitIn) (s : State) : State := s.flitIn port f 2 (fun s _ => s)

/-- INIT. -/
def execInit (port : Fin 144) (f : FlitIn) (s : State) : Host.Outcome State Fault Refusal := done (initIn port f s)

/-- What a TRAIN flit brings: the peer's action and outcome, a request for a spare, or its grant (R439, R440). -/
def State.trainTake (s : State) (p : Nat) (b : List Byte) : State :=
  let at_ := fun (o : Nat) => (b.getD o 0).toNat
  let lane := at_ 4 % 4
  if at_ 2 ≠ s.action p then s
  else
    let s := if at_ 3 = 0 then s else s.putLink p { s.link p with theirs := at_ 3 }
    let s :=
      if s.action p = 3 ∧ at_ 5 = 1 ∧ s.get (F.PT_CTL_spare_ok p) = 1 ∧ (s.spareLane p).isSome then
        (s.substitute p lane).sendTrain p 0 lane 2
      else if s.action p = 3 ∧ at_ 5 = 2 ∧ (s.link p).lanes.contains lane then
        let s := s.substitute p lane
        let ls := (s.link p).lanes.erase lane
        let s := s.putLink p { s.link p with lanes := ls }
        if ls.isEmpty then s.outcome p outAlt else s
      else s
    s.resolve p

/-- A TRAIN flit is accepted in sequence and held until its block verifies. -/
def trainIn (port : Fin 144) (f : FlitIn) (s : State) : State := s.flitIn port f 2 (fun s _ => s)

/-- TRAIN. -/
def execTrain (port : Fin 144) (f : FlitIn) (s : State) : Host.Outcome State Fault Refusal := done (trainIn port f s)

/-- No ack has advanced for PT_RTO while flits are unacknowledged (R425). -/
def replayTimeout (port : Fin 144) (s : State) : State :=
  let l := s.link port
  if !s.isG port ∨ l.replay.isEmpty ∨ s.beat < l.ackAt + s.get (F.PT_RTO_ns port) then s else s.resend port

/-- REPLAY_TIMEOUT. -/
def execReplayTimeout (port : Fin 144) (s : State) : Host.Outcome State Fault Refusal := done (replayTimeout port s)

/-- The sender announces a new epoch in its next SEAL (R421). -/
def rekey (port : Fin 144) (s : State) : State :=
  if !s.isG port ∨ !(s.link port).crypt then s else s.putLink port { s.link port with rekey := true }

/-- REKEY. -/
def execRekey (port : Fin 144) (s : State) : Host.Outcome State Fault Refusal := done (rekey port s)

/-! ### Key exchange (R527, R528) -/

/-- A length-prefixed certificate chain and the bytes after it. -/
def takeChain (b : List Byte) : List Byte × List Byte :=
  let n := leNat (b.take 4)
  ((b.drop 4).take n, b.drop (4 + n))

/-- This side's chains. -/
def State.kxChains (s : State) : List Byte :=
  [0, 1].flatMap (fun i => leBytes (Config.certChain i s.cdi2).length 4 ++ Config.certChain i s.cdi2)

/-- Do the chains verify, for a module or for an endpoint (R528)? -/
def State.peerChains (s : State) (ec pq : List Byte) : Bool :=
  (Config.chainOk Config.hubodaRoot ec s.sec.owner && Config.chainOk Config.hubodaRoot pq s.sec.owner) ||
    s.sec.roots.any (fun r => Config.chainOk r ec [] && Config.chainOk r pq [])

/-- Does the peer's part after its share, chains and signatures over the transcript before the signatures, verify? -/
def State.peerProof (s : State) (before b : List Byte) : Bool :=
  let e := takeChain b
  let q := takeChain e.2
  let m := sha384 (before ++ b.take (b.length - q.2.length))
  s.peerChains e.1 q.1 && Config.ecdsaOk (Config.leafEc e.1) m (q.2.take 96) && Config.mldsaOk (Config.leafPq q.1) m ((q.2.drop 96).take 4627)

/-- This side's chains and signatures over the transcript so far. -/
def State.myProof (s : State) (before : List Byte) : List Byte := s.kxChains ++ s.aliasSign (sha384 (before ++ s.kxChains))

/-- The secret is held (R527). -/
def State.keyed (s : State) (p : Nat) (k : Kx) (msgs : List (List Byte)) (peer : List Byte) : State :=
  let secret := hkdf384 (sha384 msgs.flatten) (Config.kemSecret k.eph (peer.take 1697)).toList (ascii "KZ4810-LS") 48
  let s := { s with sec.secrets := s.sec.secrets.put p secret }
  let s := s.putLink p { s.link p with txEpoch := 0, txCtr := 0, rxEpoch := 0, rxCtr := 0, pn := 0, kx := some { k with msgs := msgs, frags := [] } }
  (s.set (F.PT_KEY_epoch p) 0).outcome p outOk

/-- A failed proof ends KEYX (R528). -/
def State.kxFail (s : State) (p : Nat) : State := (s.sigTrap 0x0A 0 0 ⟨3, 0xFFFFFFFF, p⟩).outcome p outFail

/-- A whole message of the exchange. -/
def State.kxMessage (s : State) (p : Nat) (k : Kx) (m : List Byte) : State :=
  let before := k.msgs.flatten
  match k.init, k.msgs with
  | true, [_] =>
    if !s.peerProof (before ++ m.take 1697) (m.drop 1697) then s.kxFail p
    else
      let fin := s.myProof (before ++ m)
      (s.sendKx p fin).keyed p k (k.msgs ++ [m, fin]) m
  | false, [] =>
    let share := (Config.kxAnswer k.eph (m.take 1697)).toList
    let resp := share ++ s.myProof (m ++ share)
    (s.putLink p { s.link p with kx := some { k with msgs := [m, resp], frags := [] } }).sendKx p resp
  | false, [first, _] => if !s.peerProof before m then s.kxFail p else s.keyed p k (k.msgs ++ [m]) first
  | _, _ => s

/-- One fragment; the last one to come completes its message. -/
def State.kxFragment (s : State) (p i n : Nat) (frag : List Byte) : State :=
  if !s.acting p 5 then s
  else match (s.link p).kx with
    | none => s
    | some k =>
      let fs := k.frags.filter (fun q => q.1 != i) ++ [(i, frag)]
      let have_ := (List.range n).all (fun j => fs.any (fun q => q.1 == j))
      let s := s.putLink p { s.link p with kx := some { k with frags := if have_ then [] else fs } }
      if !have_ then s
      else s.kxMessage p { k with frags := [] } ((List.range n).flatMap (fun j => ((fs.find? (fun q => q.1 == j)).map (·.2)).getD []))

/-- A KEYX flit is accepted in sequence and held until its block verifies. -/
def keyxIn (port : Fin 144) (f : FlitIn) (s : State) : State := s.flitIn port f 2 (fun s _ => s)

/-- KEYX. -/
def execKeyx (port : Fin 144) (f : FlitIn) (s : State) : Host.Outcome State Fault Refusal := done (keyxIn port f s)

/-! ### Seal flits (R418, R422) -/

/-- A control flit's body is released: INIT, KEYX and TRAIN act now (a RETRY acted as it came; a resent SEAL has no effect of its own). -/
def State.ctlRelease (s : State) (p : Nat) (b : List Byte) : State :=
  match (b.headD 0).toNat with
  | 3 => s.initTake p b
  | 4 => s.kxFragment p (leNat ((b.drop 2).take 2)) (leNat ((b.drop 4).take 2)) (b.drop 8)
  | 5 => s.trainTake p b
  | _ => s

/-- The bodies of the control flits that a seal block holds, in order. -/
def Link.heldCtl (l : Link) : List (List Byte) := (l.rxBlock.filter (fun x => x.took && x.f.type == 2)).map (·.plain)

/-- A seal flit at its position verifies its block, and releases it (R422); a resent one elsewhere is a control flit without effect. -/
def sealIn (port : Fin 144) (f : FlitIn) (s : State) : State :=
  let p := port.val
  let l := s.link p
  if !s.listens p ∨ ((flitOf f).ok ∧ f.fec.val ≠ 2 ∧ (flitOf f).type ≠ 2) then s
  else if l.rxBlock.length ≠ 47 then s.flitIn p f 2 (fun s _ => s)
  else if f.fec.val = 2 ∨ !(flitOf f).ok then s.sealLost p (flitOf f) f.fec
  else
    let s := s.fecNote p f.fec
    if l.discard ∧ (flitOf f).seq ≠ l.rxNext then s.putLink p l.nextBlock
    else if s.sealOk p (flitOf f).body then l.heldCtl.foldl (fun s b => s.ctlRelease p b) (s.sealPass p (flitOf f))
    else s.sealFail p

/-- SEAL. -/
def execSeal (port : Fin 144) (f : FlitIn) (s : State) : Host.Outcome State Fault Refusal := done (sealIn port f s)

/-! ### Datagrams (R430 to R434) -/

/-- Does an Ethernet port receive frames? -/
def State.hears (s : State) (p : Nat) : Bool := s.isE p && s.action p != 0

/-- A datagram is discarded, and the sender asked to resend (R432). -/
def State.goeBad (s : State) (p : Nat) (crc : Bool) : State :=
  ((if crc then s.inc (F.PT_ERR_COUNT_crc p) else s).inc (F.GOE_COUNT_bad p)).goeAck p true

/-- A data datagram: checked, accepted in sequence, put in the ingress buffer (R432, R433). -/
def goeData (port : Fin 144) (seq ack : BitVec 32) (h : BitVec 256) (data : List Byte) (bad : Bool) (s : State) : State :=
  let p := port.val
  let l := s.link p
  if !s.hears p then s
  else if bad then s.goeBad p true
  else if seq.toNat ≠ l.rxNext then s.goeBad p false
  else if l.inUse + 32 + data.length > 262144 then s.inc (F.GOE_COUNT_bad p)
  else
    let l := { l.goeAckTo s.beat ack.toNat with rxNext := (l.rxNext + 1) % 2 ^ 32, ready := l.ready ++ [⟨h.toNat, data⟩] }
    ((s.putLink p l).flowControl p).goeAck p false

/-- GOE_DATA. -/
def execGoeData (port : Fin 144) (seq ack : BitVec 32) (h : BitVec 256) (data : List Byte) (bad : Bool) (s : State) :
    Host.Outcome State Fault Refusal :=
  done (goeData port seq ack h data bad s)

/-- An ack datagram (R432). -/
def goeAckIn (port : Fin 144) (ack : BitVec 32) (retry bad : Bool) (s : State) : State :=
  let p := port.val
  if !s.hears p then s
  else if bad then s.goeBad p true
  else
    let s := s.putLink p ((s.link p).goeAckTo s.beat ack.toNat)
    if retry then s.goeResend p else s

/-- GOE_ACK. -/
def execGoeAck (port : Fin 144) (ack : BitVec 32) (retry bad : Bool) (s : State) : Host.Outcome State Fault Refusal :=
  done (goeAckIn port ack retry bad s)

/-- A key-exchange datagram carries a fragment as a KEYX flit does (R527). -/
def goeKeyx (port : Fin 144) (i n : BitVec 16) (frag : List Byte) (s : State) : State :=
  if !s.hears port then s else s.kxFragment port i.toNat n.toNat frag

/-- GOE_KEY_EXCHANGE. -/
def execGoeKeyExchange (port : Fin 144) (i n : BitVec 16) (frag : List Byte) (s : State) : Host.Outcome State Fault Refusal :=
  done (goeKeyx port i n frag s)

/-- An init datagram (R432, R439). -/
def goeInit (port : Fin 144) (seq ack : BitVec 32) (mode : BitVec 8) (peer : BitVec 16) (s : State) : State :=
  let p := port.val
  if !s.hears p then s
  else if seq.toNat ≠ (s.link p).rxNext then s.goeBad p false
  else
    let l := s.link p
    let s := s.putLink p { l.goeAckTo s.beat ack.toNat with rxNext := (l.rxNext + 1) % 2 ^ 32 }
    (s.goeAck p false).takeInit p 0 mode.toNat [] peer.toNat

/-- GOE_INIT. -/
def execGoeInit (port : Fin 144) (seq ack : BitVec 32) (mode : BitVec 8) (peer : BitVec 16) (s : State) : Host.Outcome State Fault Refusal :=
  done (goeInit port seq ack mode peer s)

/-- No ack for GOE_CTL.rto: the datagrams are resent (R432). -/
def goeTimeout (port : Fin 144) (s : State) : State :=
  let l := s.link port
  if !s.isE port ∨ l.replay.isEmpty ∨ s.beat < l.ackAt + 1000 * s.get (F.GOE_CTL_rto port) then s else s.goeResend port

/-- GOE_REPLAY_TIMEOUT. -/
def execGoeReplayTimeout (port : Fin 144) (s : State) : Host.Outcome State Fault Refusal := done (goeTimeout port s)

/-- A PFC frame pauses or releases the classes of the priorities it enables (R433); a pause of class C is a timing event (Table 10-2). -/
def pfcFrame (port : Fin 144) (enable : BitVec 8) (quanta : List (BitVec 16)) (s : State) : State :=
  let p := port.val
  if !s.hears p then s
  else
    let s := s.inc (F.PT_PFC_COUNT_received p)
    (List.range 4).foldl (fun s c =>
      let i := s.pcp p c
      if !bit enable.toNat i then s
      else
        let q := (quanta.getD i 0).toNat
        let s := if c = 1 ∧ q ≠ 0 then s.pert 3 else s
        s.putLink p { s.link p with paused := (s.link p).paused.wr c (if q = 0 then 0 else s.beat + (q * 512 + modeRate (s.portMode p) - 1) / modeRate (s.portMode p)) }) s

/-- PFC_FRAME. -/
def execPfcFrame (port : Fin 144) (enable : BitVec 8) (quanta : List (BitVec 16)) (s : State) : Host.Outcome State Fault Refusal :=
  done (pfcFrame port enable quanta s)

/-- A class's pause quanta run out (R433). -/
def pfcExpire (port : Fin 144) (cls : Fin 4) (s : State) : State :=
  let l := s.link port
  if l.paused.rd cls ≠ 0 ∧ s.beat ≥ l.paused.rd cls then s.putLink port { l with paused := l.paused.wr cls 0 } else s

/-- PFC_PAUSE_EXPIRE. -/
def execPfcPauseExpire (port : Fin 144) (cls : Fin 4) (s : State) : Host.Outcome State Fault Refusal := done (pfcExpire port cls s)

/-- A frame of another kind is counted and dropped (R430). -/
def frameOther (port : Fin 144) (s : State) : State := if s.hears port then s.inc (F.GOE_COUNT_other port) else s

/-- FRAME_NOT_ACCEPTED. -/
def execFrameNotAccepted (port : Fin 144) (s : State) : Host.Outcome State Fault Refusal := done (frameOther port s)

/-! ### The staging area and DATA_PUT (R437, R552, R555, R556) -/

/-- Bytes of the staging area. -/
def stagingSize : Nat := 4194304

/-- Does a range of staging bytes meet a locked one? -/
def State.stageLocked (s : State) (off n : Nat) : Bool := s.host.locks.any (fun l => decide (off < l.1 + l.2.1) && decide (l.1 < off + n))

/-- Write staging bytes as an endpoint or as the host: a page of the other's mark is first cleared and changes its mark (R555). -/
def State.stageWrite (s : State) (off : Nat) (b : List Byte) (endp : Bool) : State :=
  let pages := (List.range ((off + b.length + 4095) / 4096 - off / 4096)).map (fun i => off / 4096 + i)
  let s := pages.foldl (fun s g => if bit s.host.marks g == endp then s
    else { s with
      host.staging := SMap.erase (fun a => a / 4096 == g) s.host.staging
      host.marks := if endp then s.host.marks ||| 1 <<< g else s.host.marks ^^^ 1 <<< g }) s
  { s with host.staging := s.host.staging.wr off b }

/-- The reply to a DATA_PUT (Table 13-6). -/
def State.dataReply (s : State) (port tag status : Nat) : State :=
  s.emit (.msg (catBits s.me port 8) clsM (leBytes (packBits [(0, 8, 0x64), (16, 16, tag), (32, 8, status)]) 8))

/-- Does a port own a queue? -/
def State.ownsQueue (s : State) (port : Nat) : Bool :=
  (List.range 64).any (fun q => s.get (F.Q_CTL_owner q) == 1 && s.get (F.Q_CTL_port q) == port)

/-- A class M command from a port that owns no queue (R251). -/
def State.foreign (s : State) (n : Nat) : State := (s.spill 9 n).inc F.CMD_FOREIGN_COUNT_foreign

/-- A malformed or misplaced DATA_PUT is counted by the port's kind. -/
def State.putBad (s : State) (p : Nat) : State := if s.isE p then s.inc (F.GOE_COUNT_bad p) else s.inc (F.PT_ERR_COUNT_crc p)

/-- A DATA_PUT of `k` bytes for the staging offset `off`, from port `p` (R437, R556). -/
def putData (p tag k off : Nat) (data : List Byte) (s : State) : State :=
  if !s.ownsQueue p then s.foreign (16 + data.length)
  else if k % 8 ≠ 0 ∨ k < 8 ∨ k > 16320 ∨ data.length ≠ k then (s.putBad p).dataReply p tag 2
  else if off + k > stagingSize then (s.putBad p).dataReply p tag 1
  else if s.stageLocked off k then { s with host.held := s.host.held ++ [(p, tag, off, data)] }
  else (s.stageWrite off data true).dataReply p tag 0

/-- An endpoint writes bytes into the staging area. -/
def dataPut (port : Fin 144) (tag : BitVec 16) (n : BitVec 32) (off : BitVec 64) (data : List Byte) (s : State) : State :=
  putData port tag.toNat n.toNat off.toNat data s

/-- DATA_PUT. -/
def execDataPut (port : Fin 144) (tag : BitVec 16) (n : BitVec 32) (off : BitVec 64) (data : List Byte) (s : State) :
    Host.Outcome State Fault Refusal :=
  done (dataPut port tag n off data s)

/-- The locks of a holder end; the DATA_PUTs that waited are written and answered (R556). -/
def State.unlock_ (s : State) (holder : Nat) : State :=
  let s := { s with host.locks := s.host.locks.filter (fun l => l.2.2 != holder) }
  let go := s.host.held.filter (fun h => !s.stageLocked h.2.2.1 h.2.2.2.length)
  let s := { s with host.held := s.host.held.filter (fun h => s.stageLocked h.2.2.1 h.2.2.2.length) }
  go.foldl (fun s h => (s.stageWrite h.2.2.1 h.2.2.2 true).dataReply h.1 h.2.1 0) s

/-! ### Block reset (R443) -/

/-- A block reset of the port block. -/
def State.portReset (s : State) : State :=
  let s := s.switchReset
  let s := s.links.foldl (fun s e =>
    let fs := (e.2.replay ++ e.2.queue).filter (fun f => if s.isG e.1 then f.type == 1 else bits f.hdr 32 4 == 0)
    let held := (e.2.rxBlock.filter (fun x => x.took && x.f.type == 1)).map (·.f)
    let s := (fs ++ held).foldl (fun s f => s.spill 7 f.body.length) s
    let s := if e.2.part.isEmpty then s else s.spill 7 e.2.part.length
    e.2.ready.foldl (fun s k => s.spill 7 k.data.length) s) s
  let s := (List.range 144).foldl (fun s p => if s.up p then s.upChange p false else s) s
  let sg := s.word R.PT_GCTL
  let spares := (List.range 16).map (fun i => s.get (F.SPARE_port (i / 2) (i % 2)))
  let s := { s with
    links := []
    sec.secrets := [] }
  let s := s.resetRegs (fun a => 0x02400000 ≤ a && a < 0x02800000 && !(R.PT_TRAIN 0 ≤ a && a < R.PT_TRAIN 32))
  let s := s.setWord R.PT_GCTL (BitVec.ofNat 64 (sg.toNat / 2 * 2))
  (spares.zipIdx).foldl (fun s q => s.set (F.SPARE_port (q.2 / 2) (q.2 % 2)) q.1) s

end Sys2Proof.Machine
end

