-- ==== Sys2Proof/Machine/Commands.lean ====
section
/-!
DEFINITION. The command queues (R250 to R255): submission, the four phases of the head command, and the start of collectives and loads.
-/
namespace Sys2Proof.Machine
open Sys2Proof

/-! ### Queues -/

/-- Append a command, or count it as refused (R250, R251); the answer is the status of Table 13-6. -/
def State.append (s : State) (q : Nat) (mine : Bool) (c : Cmd) : Nat × State :=
  if !mine then (2, s.inc (F.Q_FULL_COUNT_refused q))
  else if s.get (F.Q_CTL_en q) = 0 ∨ (s.queue q).cmds.length ≥ 256 then (1, s.inc (F.Q_FULL_COUNT_refused q))
  else (0, s.putQueue q { s.queue q with cmds := (s.queue q).cmds ++ [c] })

/-- The command the latched words and the word written to QCMD7 make. -/
def State.latched (s : State) (q : Nat) (w : BitVec 64) : Cmd :=
  ⟨(List.range 7).foldl (fun a k => a ||| (SMap.get (fun _ => (0 : Word)) s.host.qcmd (8 * q + k)).toNat <<< (64 * k)) (w.toNat <<< 448)⟩

/-- The host writes QCMD7 of a queue. -/
def hostSubmit (q : Fin 64) (w : BitVec 64) (s : State) : State :=
  (s.append q (s.get (F.Q_CTL_owner q) == 0) (s.latched q w)).2

/-- HOST_CMD_SUBMIT (R250, R251). -/
def execHostCmdSubmit (q : Fin 64) (w : BitVec 64) (s : State) : Host.Outcome State Fault Refusal := done (s.bar (hostSubmit q w))

/-- Port `p` submits a command to queue `q`, and is answered (R250, R251, Table 13-6). -/
def submit (p q tag : Nat) (c : Cmd) (s : State) : State :=
  if !s.ownsQueue p then s.foreign 72
  else
    let mine := q < 64 && s.get (F.Q_CTL_owner q) == 1 && s.get (F.Q_CTL_port q) == p
    let r := if q < 64 then s.append q mine c else (2, s)
    r.2.emit (.msg (catBits s.me p 8) clsM (leBytes (packBits [(0, 8, 0x61), (8, 8, q), (16, 16, tag), (32, 8, r.1)]) 8))

/-- An endpoint's CMD_SUBMIT message crosses to the command processor. -/
def cmdSubmit (port : Fin 144) (q : BitVec 8) (tag : BitVec 16) (c : BitVec 512) (s : State) : State :=
  s.through [ingressOf port] (.cmdSubmit port q tag c) (submit port q.toNat tag.toNat ⟨c.toNat⟩)

/-- CMD_SUBMIT (R250, R251, Table 13-6). -/
def execCmdSubmit (port : Fin 144) (q : BitVec 8) (tag : BitVec 16) (c : BitVec 512) (s : State) : Host.Outcome State Fault Refusal :=
  done (cmdSubmit port q tag c s)

/-! ### The head of a queue (R252) -/

/-- Is the head accepted, and waiting for resources or its launch? -/
def Queue.held (x : Queue) : Bool := x.wait.isSome || x.ctx.isSome

/-- Is the head's wait over: is the queue ready for phase 2 (R252, R258, R287)? -/
def State.queueReady (s : State) (q : Nat) : Bool :=
  s.get F.CMD_CTL_en == 1 && s.get (F.Q_CTL_en q) == 1 && s.get (F.Q_STATUS_stopped q) == 0 && !(s.queue q).held
    && (match (s.queue q).cmds.head? with
      | some c => bit c.waitEv 15 || s.evtMet (bits c.waitEv 0 12) c.waitVal
      | none => false)

/-- The head's phase, as Q_STATUS shows it (Table 08-14). -/
def State.headPhase (s : State) (q : Nat) : Nat :=
  if (s.queue q).cmds.isEmpty || s.get (F.Q_STATUS_stopped q) == 1 then 0 else if (s.queue q).held then 3 else if s.queueReady q then 2 else 1

/-- The ready queue that is served: the highest priority, and round robin among equals from where that priority's last service left off (R252). -/
def State.served (s : State) : Option Nat :=
  let l := (List.range 64).filter s.queueReady
  let top := (l.map (fun q => s.get (F.Q_CTL_prio q))).foldl max 0
  let l := l.filter (fun q => s.get (F.Q_CTL_prio q) == top)
  (l.find? (fun q => decide (s.cp.rr.rd top ≤ q))).or l.head?

/-- Reject the head (R255). -/
def State.reject (s : State) (q : Nat) (c : Cmd) (reason : Nat) : State :=
  let s := (s.popHead q).complete q c 3 reason 0 CplInfo.none_
  let s := ((s.inc F.CMD_REJECT_COUNT_rejected).intEvent 11).set (F.Q_STATUS_last_reason q) reason
  if s.get (F.Q_CTL_stop_on_rej q) = 1 then s.set (F.Q_STATUS_stopped q) 1 else s

/-! ### Loads -/

/-- What a load does with its object; the checks on the object are its own. -/
def State.loadEffect (s : State) (c : Cmd) (b : List Byte) : Load :=
  match c.op with
  | 0x20 => s.loadProgram c b
  | 0x21 => s.unloadProgram c
  | 0x22 => s.loadFormats b
  | 0x23 => s.loadRules b
  | 0x24 => s.loadGroup b
  | 0x25 => s.unloadGroup c
  | 0x26 => .ok (s.evtAdd (bits c.arg0 0 12) c.arg1)
  | 0x30 => if s.routesOk b then .ok (s.takeRoutes b) else .error (3, s)
  | 0x31 => s.loadBind c b
  | 0x32 => s.loadSeeds c b
  | _ => s.loadProfile b

/-- A payload in the clear that fails with reason 0x03. It is read after check 4, which says whether the command may read it (R555). -/
def State.plainBad (s : State) (c : Cmd) : Bool :=
  opLoads c.op && (opEnvelope c.op).isNone && (match s.loadEffect c (s.payload c) with
    | .error r => r.1 == 3
    | .ok _ => false)

/-- The checks of Table 08-1 that every op shares, in order: the first that fails. A fenced module accepts no collective (R492): taken as its blocks
not enabled (DEDUCED). -/
def State.firstCheck (s : State) (q : Nat) (c : Cmd) (engs : List Nat) : Option Nat :=
  if !s.blocksOn c || (c.isColl && s.get F.FLT_STATUS_fenced == 1) then some 1
  else if !c.shapeOk then some 2
  else if !s.rangesOk c then some 3
  else if !s.authorised q c then some 4
  else if s.plainBad c then some 3
  else if !s.groupFits c then some 5
  else if !s.idFree c then some 6
  else if !s.formatsOk c then some 7
  else if !s.bindsOk c engs then some 8
  else if !s.portsFree c engs then some 9
  else if !s.maskOk c then some 0xA
  else if !s.cisternFits c engs then some 0xB
  else none

/-- Checks 12 and 13. -/
def State.lastCheck (s : State) (c : Cmd) : Option Nat := if !s.cmpsOk c then some 0xC else if !s.strictOk c then some 0xD else none

/-! ### Acceptance (R253) -/

/-- Reserve comparators for a command (R340): the launch comparator armed at launch_turn, the others for its locks. The answer is the launch comparator and
the locks with theirs. -/
def State.reserveCmps (s : State) (c : Cmd) : Option Nat × List (Nat × Nat) × State :=
  let free := s.freeCmps
  let cmp := if c.launch then free.head? else none
  let hs := if c.op = 0x0B then [16] else s.lockHandles c
  let locks := hs.zip (free.drop (b2n c.launch))
  let s := match cmp with
    | some k => (s.sets [(F.CMP_CTL_kind k, 1), (F.CMP_CTL_armed k, 1)]).setWord (R.CMP_TURN k) (BitVec.ofNat 64 c.launchTurn)
    | none => s
  (cmp, locks, locks.foldl (fun t l => t.sets [(F.CMP_CTL_kind l.2, if l.1 = 16 then 2 else 3), (F.CMP_CTL_group l.2, if c.group = 0xFFFF then 0 else c.group)]) s)

/-- What is latched at acceptance (R77, R125, R333): nan_action, the mask's version, the step; the parties are those not fenced. -/
def State.newColl (s : State) (q : Nat) (c : Cmd) (engs : List Nat) : Coll :=
  let g := s.groupOf (Coll.new c q)
  let ordered := if c.loadedProg then ((s.imageOf c).map (fun i => (i.ofKind 3).any i.ordered)).getD false else c.ordered
  { Coll.new c q with
    ranks := g.ranks - g.fencedRanks
    nanHalt := s.get F.FNT_CTL_nan_action == 1
    step := s.get F.STEP_CTR_step
    ordered := ordered
    mask := s.latchMask c
    engs := if c.usesEngines then engs else []
    retain := if c.streams then c.window * c.chunkBytes else 0
    parties := if c.uses .group then g.parties else [] }

/-- Count an ordered program or collective: by its declaration, or by R101 (R106). -/
def State.countOrdered (s : State) (c : Cmd) : State :=
  if c.loadedProg then
    match s.imageOf c with
    | none => s
    | some i =>
      if (i.ofKind 3).any (fun d => d.at_ 3 1 == 1) then s.inc F.CIS_ORD_COUNT_selected
      else if (i.ofKind 3).any i.ordered then s.inc F.CIS_ORD_COUNT_forced else s
  else if c.ordered then s.inc F.CIS_ORD_COUNT_selected else s

/-- The entry of a seed set in a step record (Table 10-10). -/
def SeedSet.entry (d : SeedSet) (k : Nat) : List Byte :=
  leBytes (packBits [(0, 8, 3), (8, 8, k), (16, 16, d.entropy), (32, 32, d.tenant)]) 32 ++ sha256 d.seeds.flatten ++ List.replicate 32 0

/-- The seed sets a command binds, each with its entry as it is now. -/
def State.seedEntries (s : State) (c : Cmd) : List (Nat × List Byte) :=
  (s.seedSets c).filterMap (fun k => (s.det.seeds.find k).map (fun d => (k, d.entry k)))

/-- Count the acceptance, and note a collective, its seed sets and its use of an option of Table 10-3 in the step (R328, R335, R347). -/
def State.noteAccept (s : State) (q : Nat) (c : Cmd) : State :=
  let s := (s.inc F.CMD_ACCEPT_COUNT_accepted).inc (F.Q_ACCEPT_COUNT_accepted q)
  if !c.isColl then s
  else
    let step := s.get F.STEP_CTR_step
    let sets := s.seedEntries c
    let s := (s.inc F.STEP_STATUS_accepted).countOrdered c
    let s := if s.usesOption c then s.bitEvent step 4 else s
    { s with det.audit.steps := s.det.audit.steps.map (fun (i : StepInfo) => if i.step = step
        then { i with accepted := i.accepted + 1, seeds := i.seeds ++ sets.filter (fun k => !i.seeds.any (fun e => e.1 == k.1)) } else i) }

/-! ### Binding (R144, R240, R243) -/

/-- Ranks in ascending order. -/
def insertRank (r : Nat) : List Nat → List Nat
  | [] => [r]
  | x :: xs => if r ≤ x then r :: x :: xs else x :: insertRank r xs

/-- The trees whose chunks this module combines (R262, R264). -/
def Group.combines (g : Group) : List Nat :=
  if g.kids.isEmpty then [0, 1] else [0, 1].filter (fun t => g.kids.any (fun k => k.tree == t))

/-- Must a built-in program take its inputs in rank order (R145): in ordered mode, and where the result depends on the order of its inputs, as a
DISPATCH without arrival allocation does (R269)? -/
def Cmd.rankOrder (c : Cmd) : Bool := c.ordered || (c.op == 0x07 && !c.arrival)

/-- The stream of a declaration, bound on engine `e` (R144, R145, R147). -/
def State.bindStrm (s : State) (x : Nat) (c : Coll) (i : Image) (e : Nat) (d : Decl) : Strm :=
  let base : Strm := { Strm.init with
    coll := x
    ctx := d.at_ 2 1
    smode := d.at_ 3 1
    fmt := d.at_ 4 1
    lay := d.at_ 5 1
    mx := bit (d.at_ 6 1) 0
    chunkB := d.at_ 8 4 }
  if d.num < 8 then
    let trees := (s.groupOf c).combines
    let first := trees.headD 0
    { base with
      mode := b2n (c.ordered || c.cmd.rankOrder || d.at_ 7 1 == 1)
      ranks := ((i.portParties d c.parties).map (·.rank)).foldr insertRank []
      first := first
      hop := if trees.length = 2 then 1 else 2
      outIdx := first }
  else if i.flume d then
    { base with
      mode := 3
      chan := (s.bindOf c.cmd).bind (fun b => b.chans.find (16 * e + d.num))
      cap := i.landing d }
  else
    match i.decl 1 (d.at_ 14 1) with
    | some r => { base with
        mode := 2
        base := r.span.1
        size := r.span.2
        ring := r.at_ 20 1 == 1 }
    | none => base

/-- The context that owns a built-in program's ports on an engine: the highest one that holds no program (log entry 65). -/
def State.ownerCtx (s : State) (e : Nat) : Option Nat := [7, 6, 5, 4, 3, 2, 1, 0].find? (fun k => (s.ctxAt e k).coll.isNone)

/-- Bind the streams and contexts of a command's program on its engines, under an owner: those a loaded program declares, or a built-in program's two
lowest free inputs and lowest free output. -/
def State.bindStreams (s : State) (x : Nat) (c : Coll) : State :=
  c.engs.foldl (fun s e =>
    if c.cmd.loadedProg then match s.imageOf c.cmd with
      | none => s
      | some i =>
        let s := (i.ofKind 2).foldl (fun s d => s.putStrm e d.num (s.bindStrm x c i e d)) s
        i.used.foldl (fun s k => s.putCtx e k { Ctx.free with coll := some x, prog := c.cmd.prog }) s
    else
      let p := s.freePorts e
      let ks := p.1.take 2 ++ (if c.cmd.sends then p.2.take 1 else [])
      let own := s.ownerCtx e
      let s := match own with
        | some k => s.putCtx e k { Ctx.free with coll := some x }
        | none => s
      ks.foldl (fun s k => s.putStrm e k { Strm.init with
        coll := x
        ctx := own.getD 0
        mode := b2n c.cmd.rankOrder
        fmt := c.cmd.fmtIn
        chunkB := c.cmd.chunkBytes }) s) s

/-- Give what is bound under one owner to another. -/
def State.rebind (s : State) (o x : Nat) : State :=
  { s with
    eng.ctxs := s.eng.ctxs.map (fun e => if e.2.coll = some o then (e.1, { e.2 with coll := some x }) else e)
    eng.strms := s.eng.strms.map (fun e => (e.1, e.2.map (fun t => if t.coll = o then { t with coll := x } else t))) }

/-- Give a collective a free context: its streams become that context's, its locks open (R144, R254, R342). -/
def State.takeContext (s : State) (q : Nat) (c : Coll) : State :=
  match (List.range 4096).find? (fun x => (s.coll x).isNone) with
  | none => s.putQueue q { s.queue q with wait := some c, ctx := none }
  | some x =>
    let s := (s.putColl x c).rebind (waitOwner q) x
    let s := c.locks.foldl (fun s l => (s.putLock x l.1 ⟨0, [], [], [], [], [], false, none, l.2⟩).set (F.CMP_CTL_coll_ctx l.2) x) s
    let s := match c.cmp with
      | some k => s.set (F.CMP_CTL_coll_ctx k) x
      | none => s
    s.putQueue q { s.queue q with wait := none, ctx := some x }

/-! ### Resources (R102, R103, R254, R274) -/

/-- Store positions a region takes. -/
def Region.positions (r : Region) : Nat :=
  let u := (Exact.ofIdx r.fmt).positions
  if r.ordered then 0 else if r.homes.isEmpty then r.slots * u else (r.window * r.perChunk + r.homes.headD 0) * u

/-- The regions of a cluster. -/
def State.regionsOf (s : State) (cl : Nat) : List Region :=
  s.cis.regions.items.filterMap (fun p => if p.1 / 16 % 16 = cl then some p.2 else none)

/-- Positions a cluster's store has allocated (CIS_OCC). -/
def State.storeUsed (s : State) (cl : Nat) : Nat := ((s.regionsOf cl).map Region.positions).sum

/-- Home slots allocated in a spill level of a cluster: 1 reservoir, 2 HBM, 3 LPDDR (CIS_SPILL_OCC), and their bytes. -/
def State.homesUsed (s : State) (cl v : Nat) : Nat × Nat :=
  let l := s.regionsOf cl
  ((l.map (fun r => r.homes.getD v 0)).sum, (l.map (fun r => r.homes.getD v 0 * (Exact.ofIdx r.fmt).homeBytes)).sum)

/-- The lowest place for `n` bytes in a space of `size` bytes beside the spans used. -/
def firstFit (used : List (Nat × Nat)) (size n : Nat) : Option Nat :=
  let ok := fun (o : Nat) => decide (o + n ≤ size) && used.all (fun u => decide (u.2 = 0) || decide (u.1 + u.2 ≤ o) || decide (o + n ≤ u.1))
  if n = 0 then some 0 else (sortBy (fun a b => decide (a ≤ b)) (0 :: used.map (fun u => u.1 + u.2))).find? ok

/-- What the regions of a cluster use of spill level `v`: the spans of their homes. -/
def State.spansUsed (s : State) (cl v : Nat) : List (Nat × Nat) :=
  (s.regionsOf cl).map (fun r => (r.starts.getD v 0, r.homes.getD (v + 1) 0 * (Exact.ofIdx r.fmt).homeBytes))

/-- Home slots of a format for one region, the fastest level first (R103), each level's in one run of bytes (log entry 67): how many lie in the store and
in each level, and where those begin. None where not enough is free. -/
def State.takeHomes (s : State) (cl fmt n freeStore : Nat) : Option (List Nat × List Nat) :=
  let sizes := s.spillSizes cl
  (placeHomes (freeStore :: (sizes.zipIdx).map (fun p => p.1 - (s.homesUsed cl (p.2 + 1)).2)) fmt n).bind (fun h =>
    (((sizes.zip (h.drop 1)).zipIdx).mapM (fun p => firstFit (s.spansUsed cl p.2) p.1.1 (p.1.2 * (Exact.ofIdx fmt).homeBytes))).map (fun l => (h, l)))

/-- Write an empty slot's record at every home of a region in a spill level. -/
def State.emptyHomes (s : State) (cl : Nat) (r : Region) : State :=
  ((s.spillRegions cl).zipIdx).foldl (fun s g =>
    let n := r.homes.getD (g.2 + 1) 0
    if n = 0 then s
    else s.memWr g.1.1 (g.1.2.1 + r.starts.getD g.2 0) (List.replicate n (slotBytes (Exact.ofIdx r.fmt) Slot.empty)).flatten) s

/-- Allocate the regions of a command in one cluster, each beside the windows of those that follow; none where positions or spill space are not
free (R102, R103). -/
def State.allocRegions (s : State) (x cl : Nat) (spilled : Bool) : List Demand → Option State
  | [] => some s
  | d :: ds =>
    let free := storePositions - s.storeUsed cl
    let put := fun (ordered : Bool) (homes starts : List Nat) =>
      let r : Region := ⟨d.fmt, ordered, d.spill, d.slots, d.window, d.perChunk, homes, starts, []⟩
      State.allocRegions ({ s with cis.regions := s.cis.regions.put (regionKey x cl d.num) r }.emptyHomes cl r) x cl spilled ds
    if d.ordered then put true [] []
    else if !spilled then (if d.slots * d.unit ≤ free then put false [] [] else none)
    else if windowTotal (d :: ds) > free then none
    else match s.takeHomes cl d.fmt d.slots (free - windowTotal (d :: ds)) with
      | some h => put false h.1 h.2
      | none => none

/-- Retention bytes that started or granted collectives hold (R274). -/
def State.retained (s : State) : Nat := (s.cp.colls.items.map (fun p => if p.2.granted then p.2.retain else 0)).sum

/-- Does an update wait for its shard: pending, its shadow read by a snapshot or held as a mask (R303), or lent to a resilver (R503)? -/
def State.shardWaits (s : State) (c : Coll) : Bool :=
  c.cmd.op == 0x0C && (match s.shard (bits c.cmd.arg0 0 10) with
    | none => false
    | some h => s.flt.lends.any (fun l => l.pshard == bits c.cmd.arg0 0 10 && l.next.isSome) || h.st == 2 || h.st == 3 || (h.snap.any (fun p => p.copy != h.live))
        || ((c.cmd.refresh || (h.record.hasMask && h.ver 0 != h.ver 1)) && s.accepted.any (fun k => k.cmd.collId != c.cmd.collId && k.mask == some (2 * bits c.cmd.arg0 0 10 + (1 - h.live)))))

/-- Take the resources a collective needs, if all are free (R254, R303, R351); an isolated module waits (R490). -/
def State.takeResources (s : State) (x : Nat) (c : Coll) : Option State :=
  if s.audHold ∨ s.get F.LEV_STATUS_isolated = 1 ∨ s.retained + c.retain > s.get F.MEM_RETAIN_size * 2 ^ 20 ∨ s.shardWaits c then none
  else
    let ds := s.demands c.cmd c.engs
    let r := (clustersOf c.engs).foldl (fun (a : Option State) cl => a.bind (fun s => s.allocRegions x cl (decide (demandTotal ds > storePositions)) ds)) (some s)
    r.map (fun s => s.putColl x { c with granted := true })

/-! ### Starting (phase 4) -/

/-- Copy a program's code and initial data into an engine's store (R243). -/
def State.copyProgram (s : State) (e : Nat) (i : Image) : State :=
  let put := fun (s : State) (a : Nat) (b : List Byte) => { s with eng.store := s.eng.store.wr (storeKey e a) b }
  let s := (i.ofKind 1).foldl (fun s d => if d.at_ 16 4 = 0xFFFFFFFF then s else put s d.span.1 ((i.data.drop (d.at_ 16 4)).take d.span.2)) s
  match (i.ofKind 1).find? (fun d => d.at_ 3 1 == 5) with
  | some d => put s d.span.1 i.code
  | none => s

/-- Where a program's code lies in the store. -/
def Image.codeBase (i : Image) : Nat := ((i.ofKind 1).find? (fun d => d.at_ 3 1 == 5)).elim 0 (fun d => d.span.1)

/-- Copy the program a command names into the stores of its engines (R243). -/
def State.copyPrograms (s : State) (c : Coll) : State :=
  match if c.cmd.loadedProg then s.imageOf c.cmd else none with
  | some i => c.engs.foldl (fun s e => s.copyProgram e i) s
  | none => s

/-- Start a program in its contexts (R139): a loaded one at its entries; a built-in one waits for the data of its streams. -/
def State.startProgram (s : State) (x : Nat) (c : Coll) : State :=
  match if c.cmd.loadedProg then s.imageOf c.cmd else none with
  | none => { s with eng.ctxs := s.eng.ctxs.map (fun e => if e.2.coll = some x then (e.1, { e.2 with st := 3 }) else e) }
  | some i => c.engs.foldl (fun s e =>
      i.used.foldl (fun s k => s.putCtx e k { Ctx.free with st := 1, prog := c.cmd.prog, coll := some x, pc := i.entry k, code := i.codeBase }) s) s

/-- What a FUSED_UPDATE holds when it starts: no temporary has been written, so its scalars hold free values (log entry 21). -/
def State.fuseInit (s : State) (c : Coll) : Option FuseSt × State :=
  if c.cmd.op ≠ 0x0C then (none, s)
  else match s.shard (bits c.cmd.arg0 0 10) with
    | none => (none, s)
    | some h =>
      let qs := (freshTemps s.fresh 0).map (bitsOf (builtinFmt 0))
      (some ⟨bits c.cmd.arg0 0 10, bits c.cmd.arg1 0 8, c.mask, !bit c.cmd.arg1 25, [], 0, qs, [], 0, false, false, h.t, []⟩, { s with fresh := s.fresh + 8 })

/-- Open the norm that a clipped update takes part in, where no other step's is pending (R308). -/
def State.normOpen (s : State) (c : Cmd) (step : Nat) : State :=
  match s.shard (bits c.arg0 0 10) with
  | some h => if c.op = 0x0C ∧ (ruleOf (ruleBytes s.nor.rules (bits c.arg1 0 8))).clip then s.normRoll h.record.nset step else s
  | none => s

/-- The collective of a context enters phase 4 (R252, R302, R344). A launch that comes late is counted (R341). -/
def State.startColl (s : State) (q x : Nat) (late : Bool) : State :=
  match s.coll x with
  | none => s
  | some c =>
    let s := s.popHead q
    let s := if late then (s.inc F.CMP_LATE_COUNT_launch).pert 13 else s
    let f := s.fuseInit c
    let c := { c with phase := 1, start := s.turn, late2 := late, fuse := f.1 }
    let s := (f.2.putColl x c)
    let s := if c.cmd.op = 0x0C then (s.normOpen c.cmd c.step).fuseBegin x else s
    let s := s.startProgram x c
    if c.cmd.op = 0x0B then s.lockCombine x 16
    else if c.cmd.op = 0x0D then s.runDone x
    else s.settle x

/-- A load that has taken effect is complete: it writes its record and leaves its queue (R257). -/
def State.finishLoad (s : State) (q : Nat) (c : Cmd) (start : Nat) : State :=
  (((s.popHead q).complete q c 0 0 0 { CplInfo.none_ with start := start }).signal c).unlock_ q

/-- The load that writes a routing bank completes (R381, log entry 70). -/
def State.routesDone (s : State) : State :=
  match s.sw.writing with
  | none => s
  | some w => match (s.queue w.queue).wait with
    | none => s
    | some k => ((s.endRoutes (s.queue w.queue).obj k.cmd.launch).finishLoad w.queue k.cmd w.start).releaseStale

/-- A load enters phase 4: it takes effect and writes its record (R257). One of a routing bank is then under way until it has written it (R381). Its checks on running work are made again then, and a failure rejects it as one
in phase 2 does (R255, log entry 68). -/
def State.startLoad (s : State) (q : Nat) (c : Cmd) (late : Bool) : State :=
  let s := if late then (s.inc F.CMP_LATE_COUNT_launch).pert 13 else s
  match s.loadEffect c (s.queue q).obj with
  | .error r => (r.2.reject q c r.1).unlock_ q
  | .ok t => if c.op = 0x30 ∧ routeMode (s.queue q).obj ≠ 2 then s.beginRoutes q (s.queue q).obj c.launch else t.finishLoad q c s.turn

/-- Are the blocks in service without which no program of the command starts (R116, R164)? -/
def State.mayStart (s : State) (c : Cmd) : Bool :=
  (!c.usesEngines || s.get F.ENG_CTL_en == 1) && (!s.usesCistern c || s.get F.CIS_CTL_en == 1)

/-- May a load leave phase 3 (R351, R380)? One load of a routing bank runs at a time. -/
def State.loadReady (s : State) (c : Cmd) (b : List Byte) : Bool := !s.audHold && (c.op != 0x30 || (s.sw.writing.isNone && s.routesReady b))

/-- Move the accepted head of a queue as far as it gets: a context, resources, and its start unless it waits for its launch turn (R254, R341). One
that launches by turn comes late when it obtains its resources after its comparator has fired. -/
def State.advance (s : State) (q : Nat) : State :=
  let s := match (s.queue q).wait with
    | some c => if c.cmd.isColl then s.takeContext q c else s
    | none => s
  match (s.queue q).ctx, (s.queue q).wait with
  | some x, _ => (match s.coll x with
    | none => s
    | some c =>
      match if c.granted then some s else s.takeResources x c with
      | none => s
      | some s => if c.cmp.isSome || !s.mayStart c.cmd then s else s.startColl q x (c.cmd.launch && !c.granted))
  | none, some k =>
    if k.cmd.isColl || s.sw.writing.any (·.queue == q) then s
    else if k.granted || (s.get F.LEV_STATUS_isolated == 0 && s.loadReady k.cmd (s.queue q).obj) then
      (if k.cmp.isSome then s.putQueue q { s.queue q with wait := some { k with granted := true } }
        else s.startLoad q k.cmd (k.cmd.launch && !k.granted))
    else s
  | none, none => s

/-- Accept the head (R253): latch, reserve, count, lock its payload, bind its streams and copy its program (R144, R243); then it goes as far as it can. -/
def State.accept (s : State) (q : Nat) (c : Cmd) (engs : List Nat) (obj : List Byte) : State :=
  let r := s.reserveCmps c
  let k := { r.2.2.newColl q c engs with cmp := r.1, locks := r.2.1 }
  let s := (r.2.2.normOpen c k.step).noteAccept q c
  let s := if s.audHold then s.inc F.AUD_HOLD_COUNT_holds else s
  let s := if opLoads c.op then { s with host.locks := s.host.locks ++ [(c.elements, c.chunkBytes, q)] } else s
  (((s.putQueue q { s.queue q with wait := some k, obj := obj }).bindStreams (waitOwner q) k).copyPrograms k).advance q

/-- Phase 2 of the head command of queue `q` (R253). -/
def State.phase2 (s : State) (q : Nat) (c : Cmd) (engs : List Nat) : State :=
  let s := { s with cp.rr := s.cp.rr.wr (s.get (F.Q_CTL_prio q)) ((q + 1) % 64) }
  match s.firstCheck q c engs with
  | some r => s.reject q c r
  | none =>
    if c.isColl then match s.lastCheck c with
      | some r => s.reject q c r
      | none => s.accept q c engs []
    else match s.object q c with
      | .error r => r.2.reject q c r.1
      | .ok (b, s) => match s.lastCheck c with
        | some r => s.reject q c r
        | none => match s.loadEffect c b with
          | .error r => r.2.reject q c r.1
          | .ok _ => s.accept q c [] b

/-- The head of queue `q` with op `op` is checked and, accepted, runs (R252, R253). Nothing happens where another command is the one served. A
program or built-in program that runs on engines takes those named here. -/
def headOp (op : Nat) (q : Fin 64) (engs : List (Fin 128)) (s : State) : State :=
  match (s.queue q).cmds.head? with
  | none => s
  | some c =>
    if c.op ≠ op ∨ s.served ≠ some q.val ∨ (c.usesEngines ∧ engs = []) then s else s.phase2 q c (engs.map (·.val))

/-- A reserved op at the head of the queue served is rejected (R257). -/
def State.rejectReserved (s : State) : State :=
  match s.served with
  | none => s
  | some q => match (s.queue q).cmds.head? with
    | none => s
    | some c => if (opFields c).isSome then s else s.phase2 q c []

/-- ALLREDUCE (R265). -/
def execAllreduce (q : Fin 64) (engs : List (Fin 128)) (s : State) : Host.Outcome State Fault Refusal := done (headOp 0x01 q engs s)
/-- REDUCE_SCATTER (R265). -/
def execReduceScatter (q : Fin 64) (engs : List (Fin 128)) (s : State) : Host.Outcome State Fault Refusal := done (headOp 0x02 q engs s)
/-- REDUCE (R265). -/
def execReduce (q : Fin 64) (engs : List (Fin 128)) (s : State) : Host.Outcome State Fault Refusal := done (headOp 0x03 q engs s)
/-- ALLGATHER (R264). -/
def execAllgather (q : Fin 64) (engs : List (Fin 128)) (s : State) : Host.Outcome State Fault Refusal := done (headOp 0x04 q engs s)
/-- BROADCAST (R265). -/
def execBroadcast (q : Fin 64) (engs : List (Fin 128)) (s : State) : Host.Outcome State Fault Refusal := done (headOp 0x05 q engs s)
/-- ALLTOALL (R265). -/
def execAlltoall (q : Fin 64) (engs : List (Fin 128)) (s : State) : Host.Outcome State Fault Refusal := done (headOp 0x06 q engs s)
/-- DISPATCH (R269). -/
def execDispatch (q : Fin 64) (engs : List (Fin 128)) (s : State) : Host.Outcome State Fault Refusal := done (headOp 0x07 q engs s)
/-- IDX_GATHER (R270). -/
def execIdxGather (q : Fin 64) (engs : List (Fin 128)) (s : State) : Host.Outcome State Fault Refusal := done (headOp 0x08 q engs s)
/-- POOL_GATHER (R270). -/
def execPoolGather (q : Fin 64) (engs : List (Fin 128)) (s : State) : Host.Outcome State Fault Refusal := done (headOp 0x09 q engs s)
/-- SCATTER_ADD (R270). -/
def execScatterAdd (q : Fin 64) (engs : List (Fin 128)) (s : State) : Host.Outcome State Fault Refusal := done (headOp 0x0A q engs s)
/-- BARRIER (R344). -/
def execBarrier (q : Fin 64) (s : State) : Host.Outcome State Fault Refusal := done (headOp 0x0B q [] s)
/-- FUSED_UPDATE (R302). -/
def execFusedUpdate (q : Fin 64) (engs : List (Fin 128)) (s : State) : Host.Outcome State Fault Refusal := done (headOp 0x0C q engs s)
/-- RUN (R257). -/
def execRun (q : Fin 64) (engs : List (Fin 128)) (s : State) : Host.Outcome State Fault Refusal := done (headOp 0x0D q engs s)
/-- LOAD_PROGRAM (R242). -/
def execLoadProgram (q : Fin 64) (s : State) : Host.Outcome State Fault Refusal := done (headOp 0x20 q [] s)
/-- UNLOAD_PROGRAM (R243). -/
def execUnloadProgram (q : Fin 64) (s : State) : Host.Outcome State Fault Refusal := done (headOp 0x21 q [] s)
/-- LOAD_FORMATS (R44, R45). -/
def execLoadFormats (q : Fin 64) (s : State) : Host.Outcome State Fault Refusal := done (headOp 0x22 q [] s)
/-- LOAD_RULES (R296). -/
def execLoadRules (q : Fin 64) (s : State) : Host.Outcome State Fault Refusal := done (headOp 0x23 q [] s)
/-- LOAD_GROUP (R261). -/
def execLoadGroup (q : Fin 64) (s : State) : Host.Outcome State Fault Refusal := done (headOp 0x24 q [] s)
/-- UNLOAD_GROUP (R263). -/
def execUnloadGroup (q : Fin 64) (s : State) : Host.Outcome State Fault Refusal := done (headOp 0x25 q [] s)
/-- EVENT_ADD (R258). -/
def execEventAdd (q : Fin 64) (s : State) : Host.Outcome State Fault Refusal := done (headOp 0x26 q [] s)
/-- LOAD_ROUTES (R378). -/
def execLoadRoutes (q : Fin 64) (s : State) : Host.Outcome State Fault Refusal := done (headOp 0x30 q [] s)
/-- LOAD_TABLE_BIND (R453). -/
def execLoadTableBind (q : Fin 64) (s : State) : Host.Outcome State Fault Refusal := done (headOp 0x31 q [] s)
/-- LOAD_SEEDS (R334). -/
def execLoadSeeds (q : Fin 64) (s : State) : Host.Outcome State Fault Refusal := done (headOp 0x32 q [] s)
/-- LOAD_PROFILE (R576). -/
def execLoadProfile (q : Fin 64) (s : State) : Host.Outcome State Fault Refusal := done (headOp 0x33 q [] s)

/-! ### Later events of an accepted head -/

/-- The accepted head of a queue obtains its resources. -/
def resourcesGranted (q : Fin 64) (s : State) : State := if (s.queue q).held then s.advance q else s

/-- CMD_RESOURCES_GRANTED (R254). -/
def execCmdResourcesGranted (q : Fin 64) (s : State) : Host.Outcome State Fault Refusal := done (resourcesGranted q s)

/-- The launch comparator of a queue's head fires at launch_turn: it is released, and the command starts if its resources are held (R340, R341). -/
def turnLaunch (q : Fin 64) (s : State) : State :=
  let x := s.queue q
  match x.ctx.bind s.coll, x.wait with
  | some c, _ => (match c.cmp with
    | some k => if s.turn < c.cmd.launchTurn then s else ((s.freeCmp k).putColl (x.ctx.getD 0) { c with cmp := none }).advance q
    | none => s)
  | none, some c => (match c.cmp with
    | some k => if s.turn < c.cmd.launchTurn then s else ((s.freeCmp k).putQueue q { x with wait := some { c with cmp := none } }).advance q
    | none => s)
  | none, none => s

/-- TURN_LAUNCH (R341). -/
def execTurnLaunch (q : Fin 64) (s : State) : Host.Outcome State Fault Refusal := done (turnLaunch q s)

/-- EVT_WRITE (R286). -/
def execEvtWrite (n : Fin 4096) (v : BitVec 64) (s : State) : Host.Outcome State Fault Refusal := done (s.bar (fun s => s.set (evt n) v.toNat))

/-- Q_RESTART (R255): a write of 1 resumes a stopped queue at its next command. -/
def execQRestart (q : Fin 64) (restart : Bool) (s : State) : Host.Outcome State Fault Refusal :=
  done (s.bar (fun s => if restart then s.set (F.Q_STATUS_stopped q) 0 else s))

end Sys2Proof.Machine
end

