-- ==== Sys2Proof/Machine/MemErr.lean ====
section
/-!
DEFINITION. Errors of the memory levels (R465, R466, R468) and the LPDDR channels that fail (R449 to R451, R471 to R474).
-/
namespace Sys2Proof.Machine
open Sys2Proof

/-- The field log's unit of an address (Table 19-6). -/
def State.memUnit (s : State) (level addr : Nat) : Nat :=
  if level = 0 then 144 + addr / 2 ^ 27 else if level = 1 then 136 + hbmStack addr else s.physServing addr

/-- The temperature of such a unit, of 16 bits: the stack's last reading, else the reservoir die's. -/
def State.unitTemp (s : State) (u : Nat) : Nat :=
  if u < 136 then s.get (F.ISL_temp (18 + physDie u)) else if u < 144 then s.get (F.HBM_STACK_temp (u - 136))
  else s.get (F.ISL_temp (18 + (u - 144)))

/-- The supply of such a unit's die in mV. -/
def State.unitMv (s : State) (u : Nat) : Nat :=
  s.get (F.ISL_mv (18 + (if u < 136 then physDie u else if u < 144 then (u - 136) / 2 else u - 144)))

/-- The temperature bin of the field log (R601). -/
def logBin (t : Nat) : Nat := min 33 ((sint 16 t + 320) / 40).toNat

/-! ### Failed channels (R471 to R474) -/

/-- Keep the field log's map of LPDDR channels up to date (Table 19-6). -/
def State.lpdMap (s : State) (n : Nat) : State :=
  { s with flog := s.flog.wr (0x7D68 + 0xC0 + 2 * n) (leBytes (s.get (F.LPD_CH_phys n) + 256 * s.get (F.LPD_CH_state n)) 2) }

/-- A channel that finds no spare stays in service as degraded (R474). -/
def State.lpdDegrade (s : State) (n : Nat) : State :=
  let p := s.get (F.LPD_CH_phys n)
  ((((s.sets [(F.LPD_CH_state n, 3), (F.MEM_STATUS_degraded, 1)]).lpdMap n).journalPut 0x0C 0 n (s.unitTemp p) (s.unitMv p) 0 p).faultReport
    8 n 1 p)

/-- The remap entries that wait for flash: channel and spare. -/
def State.remapsDue (s : State) : List (Nat × Nat) := (s.journal.filter (fun e => e.kind == 4)).map (fun e => (e.unit, e.detail))

/-- The free spare channels that no waiting remap takes, in rising order (R472). -/
def State.sparesFree (s : State) : List Nat :=
  (((List.range 8).filter (fun j => bit (s.get F.LPD_SPARE_free) j)).map (· + 128)).filter (fun p => !s.remapsDue.any (fun r => r.2 == p))

/-- May a failed channel be remapped: it is neither migrating nor degraded, and no remap of it waits. -/
def State.lpdMovable (s : State) (n : Nat) : Bool :=
  (s.get (F.LPD_CH_state n) == 0 || s.get (F.LPD_CH_state n) == 2) && !s.remapsDue.any (fun r => r.1 == n)

/-- Remap a channel to a spare once its permanent entry is durable (R472, R605); without a spare it is degraded. -/
def State.lpdMove (s : State) (n : Nat) (spare : Option Nat) : State :=
  match spare with
  | some p => s.journalPut 4 0 n (s.unitTemp (s.get (F.LPD_CH_phys n))) (s.unitMv (s.get (F.LPD_CH_phys n))) 0 p
  | none => s.lpdDegrade n

/-- The spare of one failed channel: the lowest free of its die, else the lowest free. -/
def State.spareFor (s : State) (n : Nat) : Option Nat :=
  match s.sparesFree.find? (fun p => physDie p == physDie (s.get (F.LPD_CH_phys n))) with
  | some p => some p
  | none => s.sparesFree.head?

/-- The spares of a failed package in order: those of a spare package with all four free first (R472). -/
def State.packageSpares (s : State) : List Nat :=
  let f := s.sparesFree
  match [32, 33].find? (fun k => (List.range 4).all (fun i => f.contains (4 * k + i))) with
  | some k => (List.range 4).map (4 * k + ·) ++ f.filter (fun p => p / 4 != k)
  | none => f

/-- Note the failure of a logical channel (R471): 0 training, 1 uncorrectable lines, 2 corrected errors; and remap it, or its whole package when
two channels of the package failed within one hour (R472). -/
def State.lpdFail (s : State) (n reason : Nat) : State :=
  let p := s.get (F.LPD_CH_phys n)
  let now := s.get F.FLOG_PTIME_seconds
  let s := s.journalPut 3 reason p (s.unitTemp p) (s.unitMv p) 0 n
  let fails := (s.rsv.fails.filter (fun f => now < f.2 + 3600 && f.1 != p)) ++ [(p, now)]
  let s := { s with rsv.fails := fails, rsv.uncorr := s.rsv.uncorr.filter (fun u => u.1 != n),
                    rsv.corr := SMap.erase (fun k => k / 2 ^ 40 == n) s.rsv.corr }
  if (fails.filter (fun f => f.1 / 4 == p / 4)).length ≥ 2 then
    let ns := (List.range 128).filter (fun m => s.get (F.LPD_CH_phys m) / 4 == p / 4 && s.lpdMovable m)
    let sp := s.packageSpares
    (ns.zipIdx).foldl (fun s m => s.lpdMove m.1 sp[m.2]?) s
  else if s.lpdMovable n then s.lpdMove n (s.spareFor n)
  else s

/-- Begin a migration, or let it wait behind the one under way (R473). -/
def State.migrate (s : State) (n spare : Nat) : State :=
  if s.rsv.mig.isSome then { s with rsv.migs := s.rsv.migs ++ [(n, spare)] }
  else ({ s with rsv.mig := some (n, spare, 0) }.sets [(F.MEM_STATUS_migrating, 1), (F.LPD_MIG_chan, n), (F.LPD_MIG_ptr, 0)]).pert 9

/-- A remap whose permanent entry is durable takes effect (R605): the spare is taken and the channel migrates. -/
def State.remap (s : State) (n spare : Nat) : State :=
  let free := s.get F.LPD_SPARE_free
  let s := s.sets [(F.LPD_SPARE_free, if bit free (spare - 128) then free - 2 ^ (spare - 128) else free), (F.LPD_CH_state n, 1)]
  (s.lpdMap n).migrate n spare

/-! ### Errors (R465, R466) -/

/-- A corrected error: counted for its level, in the field log by unit and temperature, and as event code 1; enough of them in one hour fail
an LPDDR channel. -/
def State.memCorrected (s : State) (level addr : Nat) : State :=
  let u := s.memUnit level addr
  let s := ((s.inc (F.ECC_COUNT_corr level)).flogAdd (0x11F8 + 4 * (34 * u + logBin (s.unitTemp u))) 4).pert 1
  if level ≠ 2 then s
  else
    let n := lpdChan addr
    let now := s.get F.FLOG_PTIME_seconds
    let k := 2 ^ 40 * n + now % 2 ^ 40
    let m := SMap.erase (fun j => j / 2 ^ 40 == n && j % 2 ^ 40 + 3600 ≤ now) (s.rsv.corr.wr k (s.rsv.corr.rd k + 1))
    let s := { s with rsv.corr := m }
    if ((m.filter (fun (e : Nat × Nat) => e.1 / 2 ^ 40 == n)).map (·.2)).sum ≥ s.get F.LPD_FAIL_corr then s.lpdFail n 2 else s

/-- An uncorrectable line: poisoned, counted and reported; enough of them within 24 hours of powered time fail an LPDDR channel. -/
def State.memUncorrectable (s : State) (level addr : Nat) : State :=
  let u := s.memUnit level addr
  let s := (((s.memPoison level addr).inc (F.ECC_COUNT_uncorr level)).flogAdd (0x6098 + 4 * u) 4).faultReport 7 level 0 addr
  if level ≠ 2 then s
  else
    let n := lpdChan addr
    let now := s.get F.FLOG_PTIME_seconds
    let l := (s.rsv.uncorr.filter (fun e => now < e.2 + 86400)) ++ [(n, now)]
    let s := { s with rsv.uncorr := l }
    if (l.filter (fun e => e.1 == n)).length ≥ s.get F.LPD_FAIL_uncorr then s.lpdFail n 1 else s

/-- What a read of a line finds: 0 no error, 1 a corrected one, 2 an uncorrectable one. -/
def State.memError (s : State) (level addr : Nat) (err : Fin 3) : State :=
  if err = 1 then s.memCorrected level addr else if err = 2 then s.memUncorrectable level addr else s

/-- Requests of the predictor's tables and channels that it did not place in the cache (R463). -/
def State.predictorMiss (s : State) (n : Nat) : State := (s.inc F.PRD_MISS_COUNT_miss n).pert 6 n

end Sys2Proof.Machine
end

