-- ==== Sys2Proof/Machine/Partners.lean ====
section
/-!
DEFINITION. Replica partners (R499, R500): the hashes of a step's shards that partners exchange, and the verdict on them.
-/
namespace Sys2Proof.Machine
open Sys2Proof

/-- The partner of shard n: its module and its shard (R499). -/
def State.partner (s : State) (n : Nat) : Option (Nat × Nat) :=
  if s.get (F.PTN_valid (n / 512) (n % 512)) = 1 then
    some (s.get (F.PTN_module (n / 512) (n % 512)), s.get (F.PTN_pshard (n / 512) (n % 512)))
  else none

/-- What a partner's hashes say of a shard entry: 0 matched, 1 mismatched, 2 missing. -/
def State.judgeHash (s : State) (e : ShardHash) : Nat :=
  let l := s.flt.hashes.filter (fun h => h.step == e.step && h.pshard == e.shard)
  if l.isEmpty then 2
  else if l.all (fun h => s.partner e.shard == some (h.sender, h.shard) && h.t == e.t && h.outcome == e.outcome && h.hash == e.hash) then 0
  else 1

/-- Send the verdict of a step once every partnered shard has a hash, or when the wait is over (`late`). -/
def State.verdict (s : State) (step : Nat) (late : Bool) : State :=
  if !s.flt.waits.any (fun w => w.1 == step) then s
  else
    let l := (s.flt.recs.filter (fun e => e.step == step)).map (fun e => (e.shard, s.judgeHash e))
    let strange := ((s.flt.hashes.filter (fun h => h.step == step && !l.any (fun p => p.1 == h.pshard))).map (·.pshard)).dedup
    let l := l ++ strange.map (fun n => (n, 1))
    if !late && l.any (fun p => p.2 == 2) then s
    else
      let n := fun (v : Nat) => (l.filter (fun p => p.2 == v)).length
      let bad := (l.filter (fun p => p.2 != 0)).map (·.1)
      let s := { s with
        flt.waits := s.flt.waits.filter (fun w => w.1 != step)
        flt.recs := s.flt.recs.filter (fun e => e.step != step)
        flt.hashes := s.flt.hashes.filter (fun h => h.step != step) }
      ((s.inc F.PTN_COUNT_matched (n 0)).inc F.PTN_COUNT_bad bad.length).sendWm 0x91 32
        [(64, 64, step), (128, 16, n 0), (144, 16, n 1), (160, 16, n 2), (176, 16, bad.foldl min 0xFFFF)]

/-- The step record of a step is written: its partnered shards' hashes go to the partners, and the verdict is owed (R499, R500). -/
def State.sendHashes (s : State) (step : Nat) : State :=
  let es := sortBy (fun a b => decide (a.shard ≤ b.shard)) (s.det.audit.shards.filter (fun e => e.step == step))
  let s := es.foldl (fun s e => match s.partner e.shard with
    | none => s
    | some (m, n) =>
      { s with flt.recs := s.flt.recs ++ [(⟨s.me, e.shard, n, step, e.outcome, e.t, e.hash⟩ : ShardHash)] }.sendMod m 0x90 64
        [(8, 8, e.outcome), (32, 10, e.shard), (48, 10, n), (64, 64, step), (128, 64, e.t), (256, 256, leNat e.hash)]) s
  { s with flt.waits := s.flt.waits ++ [(step, s.beat)] }.verdict step false

/-- A partner's SHARD_HASH arrives. -/
def shardHash (sender : BitVec 16) (outcome : BitVec 8) (shard pshard : Fin 1024) (step t : BitVec 64) (hash : BitVec 256) (s : State) : State :=
  { s with flt.hashes := s.flt.hashes ++
      [(⟨sender.toNat, shard, pshard, step.toNat, outcome.toNat, t.toNat, leBytes hash.toNat 32⟩ : ShardHash)] }.verdict step.toNat false

/-- SHARD_HASH. -/
def execShardHash (sender : BitVec 16) (outcome : BitVec 8) (shard pshard : Fin 1024) (step t : BitVec 64) (hash : BitVec 256) (s : State) :
    Host.Outcome State Fault Refusal :=
  done (shardHash sender outcome shard pshard step t hash s)

/-- PTN_CTL.wait has passed since the step record. -/
def partnerWait (step : BitVec 64) (s : State) : State :=
  match s.flt.waits.find? (fun w => w.1 == step.toNat) with
  | none => s
  | some w => if s.beat < w.2 + 1000 * s.get F.PTN_CTL_wait then s else s.verdict step.toNat true

/-- PARTNER_WAIT_EXPIRE. -/
def execPartnerWaitExpire (step : BitVec 64) (s : State) : Host.Outcome State Fault Refusal := done (partnerWait step s)

end Sys2Proof.Machine
end

