-- ==== Sys2Proof/Machine/StepOps.lean ====
section
/-!
DEFINITION. The step counter (R331, R333), step records (R347 to R351), the time base (R338, R339), locks (R342 to R345).
-/
namespace Sys2Proof.Machine
open Sys2Proof

/-! ### Steps -/

/-- A STEP_CLOSE arrives (R333): the step counter moves on, or a close for another step is counted. -/
def stepClose (step : BitVec 64) (s : State) : State :=
  let now := s.get F.STEP_CTR_step
  if step.toNat ≠ now then s.inc F.STEP_STATUS_bad_close
  else
    let s := { s with det.audit.steps := s.det.audit.steps.map (fun (i : StepInfo) => if i.step = now
        then { i with closed := some s.turn, pert1 := s.pertCounts } else i) }
    s.openStep (now + 1)

/-- Software writes STEP_CTR while AUD_CTL.en is 0 (R333); otherwise a write of another value is ignored and counted (R12, R548). -/
def stepCtrWrite (v : BitVec 64) (s : State) : State :=
  if v.toNat = s.get F.STEP_CTR_step then s
  else if s.get F.AUD_CTL_en = 1 then (s.inc F.AUD_REJ_COUNT_rej).set F.AUD_REJ_ADDR_addr R.STEP_CTR
  else s.openStep v.toNat

/-- STEP_CTR_WRITE. -/
def execStepCtrWrite (v : BitVec 64) (s : State) : Host.Outcome State Fault Refusal := done (s.bar (stepCtrWrite v))

/-- A write of GCTL.strict takes effect at the next step (R331). -/
def strictWrite (v : Bool) (s : State) : State := s.set F.GCTL_strict (b2n v)

/-- GCTL_STRICT_WRITE. -/
def execGctlStrictWrite (v : Bool) (s : State) : Host.Outcome State Fault Refusal := done (s.bar (strictWrite v))

/-! ### Step records -/

/-- The entry of a collective. -/
def EndRec.bytes (e : EndRec) : List Byte :=
  leBytes (packBits [(0, 8, 1), (8, 8, e.op), (16, 8, e.status), (24, 8, e.trap), (32, 32, e.collId), (64, 8, e.queue), (72, 8, e.flags),
    (80, 16, e.group), (96, 32, e.hashed), (128, 64, e.start), (192, 64, e.stop)]) 32 ++ padTo 32 e.hash ++ padTo 32 e.shape

/-- The entry of a shard. -/
def ShardRecd.bytes (e : ShardRecd) : List Byte :=
  leBytes (packBits [(0, 8, 2), (8, 8, e.outcome), (16, 16, e.shard), (32, 32, e.collId), (64, 64, e.t), (128, 32, e.maskVer)]) 32 ++
    padTo 32 e.hash ++ List.replicate 32 0

/-- Four digest registers as 32 bytes. -/
def State.digestRegs (s : State) (r : Nat → Nat) : List Byte := (List.range 4).flatMap (fun i => leBytes (s.word (r i)).toNat 8)

/-- The prev_hash of the first part after reset (R350). -/
def State.bootHash (s : State) : List Byte := sha384 (s.dev ++ leBytes (s.get F.AUD_BOOT_boot) 4 ++ s.digestRegs R.FW_DIGEST)

/-- The header of a part (Table 10-9). -/
def State.partHeader (s : State) (i : StepInfo) (part seq e : Nat) (last : Bool) (prev : List Byte) : List Byte :=
  let a := s.det.audit.prev
  leBytes 0x52455453 4 ++ leBytes 1 2 ++ leBytes (part + (if last then 0x8000 else 0)) 2 ++ leBytes i.step 8 ++ leBytes seq 8 ++ padTo 48 prev ++
    leBytes i.openTurn 8 ++ leBytes (i.closed.getD 0) 8 ++ leBytes a.1 8 ++ leBytes a.2.1 1 ++ leBytes i.strict 1 ++ leBytes i.profile 1 ++
    leBytes 0 1 ++ leBytes e 4 ++ leBytes a.2.2 8 ++ s.digestRegs R.FMT_DIGEST ++ s.digestRegs R.RULE_DIGEST ++ s.digestRegs R.FW_DIGEST ++
    (List.range 16).flatMap (fun k => leBytes (min (2 ^ 32 - 1) (i.pert1.rd k - i.pert0.rd k)) 4) ++
    (List.range 4).flatMap (fun k => leBytes (s.bitev.rd (8 * i.step + k)) 4) ++ leBytes (s.get F.AUD_BOOT_boot) 4 ++ List.replicate 28 0

/-- The size of the audit region in KiB (R351). -/
def auditKib : Nat := 262144

/-- Bring AUD_FREE and AUD_STATUS.hold up to date. -/
def State.auditSpace (s : State) : State :=
  let used := ((s.det.audit.parts.items.map (fun p => p.2.length)).sum + 1023) / 1024
  s.sets [(F.AUD_FREE_kib, auditKib - used), (F.AUD_STATUS_hold, b2n (decide (auditKib - used < 2048)))]

/-- Write one part: header, entries, trailer (R348, R350). -/
def State.putPart (s : State) (i : StepInfo) (part : Nat) (entries : List (List Byte)) (last : Bool) : State :=
  let seq := s.get F.AUD_SEQ_parts
  let prev := s.det.audit.prevHash.getD s.bootHash
  let body := s.partHeader i part seq entries.length last prev ++ entries.flatten
  let s := { s with det.audit.parts := s.det.audit.parts.put seq (body ++ padTo 4736 (s.aliasSign body)), det.audit.prevHash := some (sha384 body) }
  ((s.inc F.AUD_SEQ_parts).auditSpace).intEvent 20

/-- Is an event of R328 noted in the step? -/
def State.stepChanged (s : State) (step : Nat) : Bool :=
  s.bitev.rd (8 * step + 4) != 0 || s.det.audit.shards.any (fun e => e.step == step && e.outcome == 2)

/-- The step record of a closed step whose collectives are complete is written, and STEP_DIGEST sent (R347, R348). -/
def stepRecordWrite (step : BitVec 64) (s : State) : State :=
  match s.det.audit.steps.find? (fun i => i.step == step.toNat) with
  | none => s
  | some i =>
    if i.closed.isNone ∨ !s.stepDone step.toNat then s
    else
      let n := step.toNat
      let es := i.seeds.map (·.2) ++ (s.det.audit.ends.filter (fun e => e.step == n)).map EndRec.bytes ++
        (sortBy (fun a b => decide (a.shard ≤ b.shard)) (s.det.audit.shards.filter (fun e => e.step == n))).map ShardRecd.bytes
      let ps := pieces 16384 (max 1 ((es.length + 16383) / 16384)) es
      let s := (ps.zipIdx).foldl (fun s p => s.putPart i p.2 p.1 (p.2 + 1 == ps.length)) s
      let status := b2n (s.stepChanged n)
      let s := s.tellWm (leBytes (packBits [(0, 8, 0x41), (16, 16, s.me), (64, 64, n),
        (128, 64, s.get F.AUD_SEQ_parts - 1), (192, 8, status)]) 32 ++ padTo 48 (s.det.audit.prevHash.getD []) ++ List.replicate 16 0)
      let s := s.sendHashes n
      { s with det.audit.steps := s.det.audit.steps.filter (fun i => i.step != n), det.audit.shards := s.det.audit.shards.filter (fun e => e.step != n), det.audit.prev := (0, 0, 0) }

/-- STEP_RECORD_WRITE. -/
def execStepRecordWrite (step : BitVec 64) (s : State) : Host.Outcome State Fault Refusal := done (stepRecordWrite step s)

/-- Release the parts below a seq (R351). -/
def State.auditExport (s : State) (seq : Nat) : State :=
  let gone := ((s.det.audit.parts.items.filter (fun p => p.1 < seq)).map (fun p => p.2.length)).sum
  ({ s with det.audit.parts := SMap.erase (fun k => k < seq) s.det.audit.parts }.inc F.AUD_HEAD_addr gone).auditSpace

/-! ### The time base (R338, R339) -/

/-- A fine stamp: sixteenths of a turn. -/
def State.stamp (s : State) (sub : Nat) : Nat := 16 * s.turn + sub % 16

/-- The parent of the time exchange: the module on TIME_CTL.src_port. -/
def State.timeParent (s : State) : Nat := s.endpoint (s.get F.TIME_CTL_src_port)

/-- Send TIME_REQ to the time parent, once every 2^interval turns. -/
def timeTimer (sub : Fin 16) (s : State) : State :=
  if s.get F.TIME_CTL_en = 0 ∨ s.get F.TIME_CTL_master = 1 then s
  else
    let n := s.det.time.exch + 1
    let t1 := s.stamp sub
    ({ s with det.time.exch := n, det.time.t1 := t1 }).send s.timeParent clsS 32 [(0, 8, 0x4C), (16, 16, s.me), (32, 32, n), (64, 64, t1)]

/-- TIME_EXCHANGE_TIMER. -/
def execTimeExchangeTimer (sub : Fin 16) (s : State) : Host.Outcome State Fault Refusal := done (timeTimer sub s)

/-- A parent answers TIME_REQ with its stamps of arrival and reply. -/
def timeReq (port : Fin 144) (exch : BitVec 32) (t1 : BitVec 64) (sub2 sub3 : Fin 16) (s : State) : State :=
  if s.get F.TIME_CTL_en = 0 then s
  else s.send (s.endpoint port) clsS 32 [(0, 8, 0x4D), (16, 16, s.me), (32, 32, exch.toNat), (64, 64, t1.toNat), (128, 64, s.stamp sub2),
    (192, 64, s.stamp sub3)]

/-- TIME_REQ. -/
def execTimeReq (port : Fin 144) (exch : BitVec 32) (t1 : BitVec 64) (sub2 sub3 : Fin 16) (s : State) : Host.Outcome State Fault Refusal :=
  done (timeReq port exch t1 sub2 sub3 s)

/-- locked falls: counted, and a timing event of the step (Table 10-2, code 14). -/
def State.unlock (s : State) : State :=
  if s.get F.TIME_STATUS_locked = 0 then s
  else ((s.set F.TIME_STATUS_locked 0).inc F.TIME_UNLOCK_COUNT_unlocks).pert 14

/-- The offset an exchange measures, in sixteenths of a turn. -/
def exchOffset (t1 t2 t3 t4 : Nat) : Int := (((t2 : Int) - t1) - ((t4 : Int) - t3)) / 2

/-- A module takes TIME_RESP (R338, R339): at acquisition the counter steps by the offset, afterwards it slews; `locked` follows the offset. -/
def timeResp (exch : BitVec 32) (t1 t2 t3 : BitVec 64) (sub4 : Fin 16) (s : State) : State :=
  if s.get F.TIME_CTL_en = 0 ∨ s.get F.TIME_CTL_master = 1 ∨ exch.toNat ≠ s.det.time.exch ∨ t1.toNat ≠ s.det.time.t1 then s
  else
    let off := exchOffset t1.toNat t2.toNat t3.toNat (s.stamp sub4)
    let s := s.set F.TIME_STATUS_offset (uint 16 off)
    let good := if -16 ≤ off ∧ off ≤ 16 then s.det.time.good + 1 else 0
    let s := if s.det.time.acquired then { s with det.time.slew := off, det.time.good := good }
      else { s with turn := ((s.turn : Int) + (off + 8) / 16).toNat, det.time.acquired := true, det.time.good := good }
    if off > 32 ∨ off < -32 then s.unlock
    else if good ≥ 8 then s.set F.TIME_STATUS_locked 1
    else s

/-- TIME_RESP. -/
def execTimeResp (exch : BitVec 32) (t1 t2 t3 : BitVec 64) (sub4 : Fin 16) (s : State) : Host.Outcome State Fault Refusal :=
  done (timeResp exch t1 t2 t3 sub4 s)

/-- A pulse of TREF_IN: the master's counter starts with the first after en and master are 1. -/
def trefPulse (s : State) : State :=
  if s.get F.TIME_CTL_master = 0 then s
  else
    let s := s.set F.TIME_STATUS_ref_ok 1
    if s.get F.TIME_CTL_en = 0 then s
    else
      let s := if s.det.time.counting then s else { s with turn := 0, det.time.counting := true }
      s.set F.TIME_STATUS_locked 1

/-- TREF_PULSE. -/
def execTrefPulse (s : State) : Host.Outcome State Fault Refusal := done (trefPulse s)

/-- TIME_CTL.en becomes 1: on a module that is not the master the counter counts from 0, unlocked and not acquired. -/
def timeEnable (s : State) : State :=
  if s.get F.TIME_CTL_en = 1 then s
  else
    let s := s.sets [(F.TIME_CTL_en, 1), (F.TIME_STATUS_locked, 0)]
    { s with turn := 0, det.time.counting := s.get F.TIME_CTL_master == 0, det.time.acquired := false, det.time.good := 0, det.time.slew := 0 }

/-- TIME_ENABLE. -/
def execTimeEnable (s : State) : Host.Outcome State Fault Refusal := done (s.bar timeEnable)

/-- TREF_IN loses its reference: ref_ok falls, and locked with it on the master. -/
def trefLoss (s : State) : State :=
  if s.get F.TIME_CTL_master = 0 then s else (s.set F.TIME_STATUS_ref_ok 0).unlock

/-- TREF_IN_LOSS. -/
def execTrefInLoss (s : State) : Host.Outcome State Fault Refusal := done (trefLoss s)

/-- One turn of the turn clock: the counter moves by 1; while it slews, one pulse in 10,000 counts twice or not at all, which is 100 ppm. -/
def State.tick (s : State) : State :=
  if !s.det.time.counting then s
  else if s.beat % 10000 ≠ 9999 ∨ (-16 < s.det.time.slew ∧ s.det.time.slew < 16) then { s with turn := s.turn + 1 }
  else if s.det.time.slew ≥ 16 then { s with turn := s.turn + 2, det.time.slew := s.det.time.slew - 16 }
  else { s with turn := s.turn, det.time.slew := s.det.time.slew + 16 }

/-! ### Locks (R342 to R345) -/

/-- A LOCK_ARRIVE comes in on a port (R344): from an endpoint for a BARRIER, or from a tree-0 child. A fenced sender's goes to the spillway. -/
def lockArriveMsg (port : Fin 144) (h : Fin 16) (count : BitVec 16) (seq id : BitVec 32) (s : State) : State :=
  match s.collOf id.toNat with
  | none => s.membership none id.toNat 0 count.toNat port 7 0xFFFF 32
  | some (x, c) =>
    let g := s.groupOf c
    let lh := if c.cmd.op = 0x0B then 16 else h.val
    match g.members.find? (fun m => m.port == port.val), g.kids.find? (fun k => k.tree == 0 && bit k.ports port) with
    | some m, _ =>
      if m.fenced then s.spill 6 32
      else if lh ≠ 16 ∨ m.rank ≠ count.toNat then s.membership (some x) id.toNat 0 count.toNat port 1 c.cmd.group 32
      else s.lockArrive x lh seq.toNat m.rank 1 false
    | none, some k =>
      if k.fenced then s.spill 6 32
      else if count.toNat > k.covers ∧ lh = 16 then s.membership (some x) id.toNat 0 count.toNat port 6 c.cmd.group 32
      else s.lockArrive x lh seq.toNat k.low count.toNat true
    | none, none => s.membership (some x) id.toNat 0 count.toNat port 1 c.cmd.group 32

/-- LOCK_ARRIVE. -/
def execLockArrive (port : Fin 144) (h : Fin 16) (count : BitVec 16) (seq id : BitVec 32) (s : State) : Host.Outcome State Fault Refusal :=
  done (lockArriveMsg port h count seq id s)

/-- A LOCK_RELEASE from the parent (R344): passed down and armed for t_rel; after t_rel it fires at once and counts as late. -/
def lockRelease (port : Fin 144) (h : Fin 16) (seq id : BitVec 32) (tRel : BitVec 64) (s : State) : State :=
  match s.collOf id.toNat with
  | none => s
  | some (x, c) =>
    let g := s.groupOf c
    let lh := if c.cmd.op = 0x0B then 16 else h.val
    match s.lockAt x lh with
    | none => s
    | some l =>
      if !bit g.par0 port ∨ l.seq ≠ seq.toNat ∨ l.tRel.isSome then s
      else
        let s := (s.armLock x lh c.cmd.group l tRel.toNat).releaseDown lh c g l.seq tRel.toNat
        if s.turn > tRel.toNat then ((s.inc F.CMP_LATE_COUNT_release).pert 13).lockFire x lh else s

/-- LOCK_RELEASE. -/
def execLockRelease (port : Fin 144) (h : Fin 16) (seq id : BitVec 32) (tRel : BitVec 64) (s : State) : Host.Outcome State Fault Refusal :=
  done (lockRelease port h seq id tRel s)

/-- A lock's comparator fires at t_rel (R344); `h` is 16 for a BARRIER. -/
def lockReleaseFire (x : Fin 4096) (h : Fin 17) (s : State) : State :=
  match s.lockAt x h with
  | none => s
  | some l => match l.tRel with
    | none => s
    | some t => if s.turn < t then s else s.lockFire x h

/-- LOCK_RELEASE_FIRE. -/
def execLockReleaseFire (x : Fin 4096) (h : Fin 17) (s : State) : Host.Outcome State Fault Refusal := done (lockReleaseFire x h s)

/-- A participant of a lock has not arrived within ACK_TIMEOUT (R345): reported once. `who` is a rank, a child's lowest rank, or a context. -/
def lockTimeout (x : Fin 4096) (h : Fin 17) (who : Nat) (s : State) : State :=
  match s.coll x, s.lockAt x h with
  | some c, some l =>
    let g := s.groupOf c
    let locals := s.lockLocals x h g
    let owed := (locals.contains who && !l.locals.contains who) ||
      ((lockKids g).any (fun k => k.low == who) && !l.kids.any (fun k => k.1 == who))
    if l.passed ∨ l.reported.contains who ∨ !owed then s
    else ((s.putLock x h { l with reported := l.reported ++ [who] }).faultReport 0x0C c.cmd.group 0 who).pert 15
  | _, _ => s

/-- LOCK_PARTICIPANT_TIMEOUT. -/
def execLockParticipantTimeout (x : Fin 4096) (h : Fin 17) (who : Nat) (s : State) : Host.Outcome State Fault Refusal :=
  done (lockTimeout x h who s)

end Sys2Proof.Machine
end

