-- ==== Sys2Proof/Machine/Reservoir.lean ====
section
/-!
DEFINITION. What happens in the memory levels by itself (chapter 14): retraining, migration, the thermal ladder of the stacks, the scrubber, the row
predictor.
-/
namespace Sys2Proof.Machine
open Sys2Proof

/-! ### Retraining (R469, R470) -/

/-- Is a channel due: its interval has passed, or its drift monitor has flagged it? -/
def State.lpdDue (s : State) (n : Nat) : Bool :=
  s.get (F.LPD_CH_drift n) == 1 || decide (s.beat ≥ s.rsv.trained.rd n + s.get F.LPD_RT_CTL_interval * 1000000000)

/-- The channel a window takes: the lowest flagged one, else the lowest due. -/
def State.lpdChosen (s : State) : Option Nat :=
  match (List.range 128).find? (fun n => s.get (F.LPD_CH_drift n) == 1) with
  | some n => some n
  | none => (List.range 128).find? s.lpdDue

/-- Begin to retrain a channel. -/
def State.retrain (s : State) (n : Nat) : State := { s with rsv.rt := some (n, s.turn) }

/-- A retrain window opens at its turn (R469). -/
def retrainWindow (s : State) : State :=
  let p := s.get F.LPD_RT_PERIOD_turns
  let base := s.get F.LPD_RT_BASE_turn
  if p = 0 ∨ s.turn < base ∨ (s.turn - base) % p ≠ 0 ∨ s.rsv.rt.isSome ∨ s.rsv.rtWin = (s.turn - base) / p + 1 then s
  else
    let s := { s with rsv.rtWin := (s.turn - base) / p + 1 }
    match s.lpdChosen with
    | some n => s.retrain n
    | none => s

/-- LPDDR_RETRAIN_WINDOW. -/
def execLpddrRetrainWindow (s : State) : Host.Outcome State Fault Refusal := done (retrainWindow s)

/-- A flag raised without windows is served as soon as the retrain under way lets it (R469). -/
def State.retrainFlagged (s : State) (but : Nat) : State :=
  if s.get F.LPD_RT_PERIOD_turns ≠ 0 ∨ s.rsv.rt.isSome then s
  else match (List.range 128).find? (fun n => n != but && s.get (F.LPD_CH_drift n) == 1) with
    | some n => s.retrain n
    | none => s

/-- The retrain ends within its 20,000 turns; `waited`: a request waited meanwhile (R470). -/
def retrainEnd (waited : Bool) (s : State) : State :=
  match s.rsv.rt with
  | none => s
  | some (n, t0) =>
    if s.turn > t0 + 20000 then s
    else
      let s := { s with rsv.rt := none, rsv.trained := s.rsv.trained.wr n s.beat }
      let s := (s.inc (F.LPD_CH_retrains n)).set (F.LPD_CH_drift n) 0
      (if waited then s.pert 5 else s).retrainFlagged n

/-- RETRAIN_END. -/
def execRetrainEnd (waited : Bool) (s : State) : Host.Outcome State Fault Refusal := done (retrainEnd waited s)

/-- A retrain that has not ended within 20,000 turns is a training failure (R470, R471). -/
def retrainTimeout (s : State) : State :=
  match s.rsv.rt with
  | none => s
  | some (n, t0) =>
    if s.turn ≤ t0 + 20000 then s
    else ((({ s with rsv.rt := none }.inc (F.LPD_CH_retrains n)).lpdFail n 0)).retrainFlagged n

/-- RETRAIN_TIMEOUT. -/
def execRetrainTimeout (s : State) : Host.Outcome State Fault Refusal := done (retrainTimeout s)

/-- The drift monitor flags a channel. -/
def driftFlag (n : Fin 128) (s : State) : State := (s.set (F.LPD_CH_drift n) 1).retrainFlagged 128

/-- DRIFT_MONITOR_FLAG. -/
def execDriftMonitorFlag (n : Fin 128) (s : State) : Host.Outcome State Fault Refusal := done (driftFlag n s)

/-! ### Migration (R473) -/

/-- The lines of a local page become poisoned. -/
def State.poisonPage (s : State) (chan page : Nat) : State :=
  (List.range 64).foldl (fun s i => s.memPoison 2 (lpdAddr chan page + 64 * i)) s

/-- The last page has been copied: the spare serves the channel, and the next migration begins. -/
def State.migrated (s : State) (n spare : Nat) : State :=
  let s := { s with rsv.mig := none }.sets [(F.LPD_CH_state n, 2), (F.LPD_CH_phys n, spare), (F.MEM_STATUS_migrating, 0)]
  let s := s.lpdMap n
  match s.rsv.migs with
  | [] => s
  | (m, p) :: rest => { s with rsv.migs := rest }.migrate m p

/-- One local page of the migrating channel is copied; `bad`: it could not be read. A retrain of the channel pauses the migration. -/
def pageCopy (bad : Bool) (s : State) : State :=
  match s.rsv.mig with
  | none => s
  | some (n, spare, page) =>
    if s.rsv.rt.any (fun r => r.1 == n) then s
    else
      let s := if bad then s.poisonPage n page else s
      if page + 1 ≥ lpdPages then (s.set F.LPD_MIG_ptr (lpdPages / 32)).migrated n spare
      else { s with rsv.mig := some (n, spare, page + 1) }.set F.LPD_MIG_ptr ((page + 1) / 32)

/-- MIGRATION_PAGE_COPY. -/
def execMigrationPageCopy (bad : Bool) (s : State) : Host.Outcome State Fault Refusal := done (pageCopy bad s)

/-! ### HBM temperature (R475 to R477) -/

/-- The enter and exit thresholds of the ladder (Table 14-6), in 0.125 °C units. -/
def ladder : Nat → Int × Int
  | 1 => (680, 656)
  | 2 => (760, 736)
  | _ => (840, 800)

/-- THERMAL_PAUSE (0x70) or THERMAL_RESUME (0x71) to the watermaster (Table 14-7). -/
def State.thermalMsg (s : State) (type reason unit temp : Nat) : State :=
  s.sendWm type 32 [(8, 8, reason), (32, 8, unit), (40, 16, temp), (64, 64, s.turn)]

/-- A stack enters step `st` of the ladder when it is hot enough for it. -/
def State.hbmEnter (s : State) (k temp st : Nat) : State :=
  if s.get (F.HBM_STACK_step k) ≠ st - 1 ∨ sint 16 temp < (ladder st).1 then s
  else
    let s := (s.set (F.HBM_STACK_step k) st).journalPut 5 st (24 + k) temp (s.unitMv (136 + k)) 0 0
    let s := if st ≥ 2 then s.inc (F.HBM_STACK_entries k) else s
    if st < 3 then s.pert 2
    else
      let s := ((s.inc (F.HBM_STACK_pauses k)).flogAdd (0x7F48 + 96 + 4 * k) 4).pert 3
      ((s.set ⟨R.MEM_STATUS, 5 + k, 1⟩ 1).intEvent 15).thermalMsg 0x70 1 k temp

/-- A stack leaves step `st` when it has cooled enough; the last one to leave step 3 lets class C go on. -/
def State.hbmLeave (s : State) (k temp st : Nat) : State :=
  if s.get (F.HBM_STACK_step k) ≠ st ∨ (ladder st).2 ≤ sint 16 temp then s
  else
    let s := (s.set (F.HBM_STACK_step k) (st - 1)).journalPut 5 (0x80 + st) (24 + k) temp (s.unitMv (136 + k)) 0 0
    if st < 3 then s
    else
      let s := s.set ⟨R.MEM_STATUS, 5 + k, 1⟩ 0
      if !s.classCPaused then s.thermalMsg 0x71 1 k temp else s

/-- A reading of a stack's temperature. -/
def hbmSample (k : Fin 8) (temp : BitVec 16) (s : State) : State :=
  let t := temp.toNat
  let s := s.set (F.HBM_STACK_temp k) t
  let s := [1, 2, 3].foldl (fun s st => s.hbmEnter k t st) s
  [3, 2, 1].foldl (fun s st => s.hbmLeave k t st) s

/-- HBM_TEMP_SAMPLE. -/
def execHbmTempSample (k : Fin 8) (temp : BitVec 16) (s : State) : Host.Outcome State Fault Refusal := done (hbmSample k temp s)

/-! ### Scrubbing and prediction (R461, R467) -/

/-- The scrubber reads the next 64-byte line of HBM or LPDDR and finds `err`. -/
def scrubRead (lpd : Bool) (err : Fin 3) (s : State) : State :=
  if s.get F.MEM_CTL_scrub = 0 then s
  else
    let level := 1 + b2n lpd
    let a := s.rsv.scrub.rd level
    ({ s with rsv.scrub := s.rsv.scrub.wr level ((a + 64) % levelSize level) }).memError level a err

/-- SCRUB_READ. -/
def execScrubRead (lpd : Bool) (err : Fin 3) (s : State) : Host.Outcome State Fault Refusal := done (scrubRead lpd err s)

/-- Pin hot lines in their order while their die's quota lasts (R461); a mebibyte holds 4,096 lines. -/
def State.pinLines (s : State) (hot : List Nat) : State :=
  hot.foldl (fun s l =>
    if s.rsv.pins.any (fun p => p.1 == l) ∨
        (s.rsv.pins.filter (fun p => s.lpdHome p.1 == s.lpdHome l)).length ≥ 4096 * s.get F.PRD_CTL_quota then s
    else { s with rsv.pins := s.rsv.pins ++ [(l, false)] }) s

/-- An epoch of the predictor (R461, R463): pinned lines are released, those never used counted as waste, and the hot lines pinned. -/
def State.epoch (s : State) (hot : List Nat) : State :=
  let waste := (s.rsv.pins.filter (fun p => !p.2)).length
  ({ s with rsv.pins := [] }.inc F.PRD_WASTE_COUNT_waste waste).pinLines hot

/-- An epoch falls every PRD_CTL.period turns; in a strict step only at STEP_CLOSE (R331, R461). -/
def predictorEpoch (hot : List Nat) (s : State) : State := if s.get F.STEP_STATUS_strict = 1 then s else s.epoch hot

/-- PREDICTOR_EPOCH. -/
def execPredictorEpoch (hot : List Nat) (s : State) : Host.Outcome State Fault Refusal := done (predictorEpoch hot s)

end Sys2Proof.Machine
end

