-- ==== Sys2Proof/Machine/Resilver.lean ====
section
/-!
DEFINITION. Resilvering (R502 to R504) and STATE_LOST (R505).
-/
namespace Sys2Proof.Machine
open Sys2Proof

/-! ### STATE_LOST -/

/-- Raise STATE_LOST for a shard: 1 partner fenced, 2 resilver timeout, 3 order; `t` is the last committed step count known. -/
def State.stateLost (s : State) (n partner cause t : Nat) : State :=
  if s.cause 7 then (s.inc F.SLOST_LOST_COUNT_lost).trapNotice 0x0A 0xFFFFFFFF 0 0 s.turn n
  else
    let s := (s.sets [(F.SLOST_REC0_shard, n), (F.SLOST_REC0_partner, partner), (F.SLOST_REC0_cause, cause), (F.SLOST_REC1_step, t),
      (F.SLOST_REC2_turn, s.turn)]).inc F.SLOST_SEQ_seq
    s.trapNotice 0x0A 0xFFFFFFFF 0 (s.get F.SLOST_SEQ_seq) s.turn n

/-- Set a shard LOST: what a restore or resilver of it has taken is discarded. -/
def State.loseShard (s : State) (n : Nat) : State :=
  let s := { s with flt.spares := s.flt.spares.drop n }
  match s.shard n with
  | none => s
  | some h => s.putShard n { h with st := 5, restore := none }

/-! ### Messages -/

/-- RESILVER_ACK (Table 15-2). -/
def State.rslAck (s : State) (m status seg t seq : Nat) : State :=
  s.sendMod m 0x96 32 [(8, 8, status), (32, 32, seg), (64, 64, t), (128, 32, seq)]

/-- A segment of a resilver to the spare: the header of a snapshot segment with type 0x95 and object = seq, and the image bytes in clear. -/
def State.rslSend (s : State) (l : Lend) (k : Nat) : State :=
  match s.shard l.pshard with
  | none => s
  | some h =>
    let image := s.snapImage h
    let segs := snapSegs (manifest h image) image
    match segs[k]? with
    | none => s
    | some b => s.emit (.msg (moduleAddr l.spare) clsD (leBytes (packBits [(0, 8, 0x95), (8, 1, b2n (k + 1 == segs.length)), (16, 10, l.pshard),
        (32, 32, k), (64, 64, l.t), (128, 64, l.seq), (192, 32, b.length)]) 32 ++ b))

/-- The segments of a resilver's image. -/
def State.rslCount (s : State) (l : Lend) : Nat :=
  match s.shard l.pshard with
  | none => 0
  | some h => (snapSegs (manifest h (s.snapImage h)) (s.snapImage h)).length

/-! ### The partner's side -/

/-- Accept a request: latch the copy and t, answer, and send the first segment. -/
def State.lend (s : State) (l : Lend) : State :=
  match s.shard l.pshard with
  | none => s
  | some h =>
    let l := { l with next := some 0, t := h.t }
    ({ s with flt.lends := s.flt.lends ++ [l] }.rslAck l.spare 0 0xFFFFFFFF h.t l.seq).rslSend l 0

/-- A request arrives (R502, R507). -/
def rslReq (sender : BitVec 16) (shard pshard : Fin 1024) (seq : BitVec 32) (s : State) : State :=
  if s.get F.FLT_CTL_en = 0 then s
  else
    let l : Lend := ⟨sender.toNat, shard, pshard, seq.toNat, none, 0⟩
    let st : Nat := ((s.shard pshard).map (·.st)).getD 0
    if st = 0 ∨ st ≥ 4 ∨ s.partner pshard ≠ some (sender.toNat, shard.val) then s.rslAck sender.toNat 1 0xFFFFFFFF 0 seq.toNat
    else if st = 1 then s.lend l
    else { s with flt.lends := s.flt.lends ++ [l] }

/-- RESILVER_REQ. -/
def execResilverReq (sender : BitVec 16) (shard pshard : Fin 1024) (seq : BitVec 32) (s : State) : Host.Outcome State Fault Refusal :=
  done (rslReq sender shard pshard seq s)

/-- Requests that waited for the COMMIT or DISCARD of their shard are accepted now (R502). -/
def State.lendDue (s : State) : State :=
  let due := s.flt.lends.filter (fun l => l.next.isNone && (s.shard l.pshard).any (fun h => h.st == 1))
  due.foldl State.lend { s with flt.lends := s.flt.lends.filter (fun l => !due.contains l) }

/-! ### The spare's side -/

/-- Software writes RSL_CTL with go = 1 (R502). -/
def rslStart (s : State) : State :=
  let n := s.get F.RSL_CTL_shard
  match s.shard n, s.partner n with
  | some h, some (m, p) =>
    if s.get F.FLT_CTL_en = 0 ∨ h.st ≠ 0 then s
    else
      let q := s.flt.rslSeq + 1
      ({ s with flt.rslSeq := q, flt.spares := s.flt.spares.put n ⟨m, p, q, [], none, 0, s.beat⟩ }.putShard n { h with st := 4 }).sendMod m
        0x94 32 [(32, 10, n), (48, 10, p), (64, 32, q)]
  | _, _ => s

/-- RESILVER_START. -/
def execResilverStart (s : State) : Host.Outcome State Fault Refusal := done (s.bar rslStart)

/-- The resilver of a request number, with its shard. -/
def State.resilverOf (s : State) (partner seq : Nat) : Option (Nat × Resilver) :=
  s.flt.spares.items.find? (fun p => p.2.partner == partner && p.2.seq == seq)

/-- A resilver ends without its image: the shard goes back to EMPTY. -/
def State.rslEmpty (s : State) (n : Nat) : State :=
  let s := { s with flt.spares := s.flt.spares.drop n }.inc F.RSL_COUNT_failed
  match s.shard n with
  | none => s
  | some h => s.putShard n { h with st := 0 }

/-- A resilver fails with STATE_LOST (R504). -/
def State.rslFail (s : State) (n : Nat) (r : Resilver) (cause : Nat) : State :=
  (((s.loseShard n).inc F.RSL_COUNT_failed).rslAck r.partner 2 0xFFFFFFFF r.t r.seq).stateLost n r.partner cause r.t

/-- A segment arrives: taken and acknowledged; with the last one in, the image is checked and written (R324, R502). -/
def rslSeg (sender : BitVec 16) (last : Bool) (seg : BitVec 32) (t seq : BitVec 64) (data : List Byte) (s : State) : State :=
  match s.resilverOf sender.toNat seq.toNat with
  | none => s
  | some (n, r) =>
    let s := s.rslAck r.partner 0 seg.toNat t.toNat r.seq
    let r := { r with segs := r.segs.put seg.toNat data, last := if last then some seg.toNat else r.last, since := s.beat }
    let keep := { s with flt.spares := s.flt.spares.put n r }
    match r.last, s.shard n with
    | some k, some h =>
      if !(List.range (k + 1)).all (fun i => (r.segs.find i).isSome) then keep
      else
        let m := (r.segs.find 0).getD []
        let image := ((List.range k).map (fun i => (r.segs.find (i + 1)).getD [])).flatten
        match imagePlanes h m image with
        | none => s.rslEmpty n
        | some (h1, planes) =>
          (({ s with flt.spares := s.flt.spares.drop n }.putImage h1 planes).putShard n { h1 with
            st := 1, live := 0, t := fieldOf m 0x80 8, ver0 := fieldOf m 0x88 4, ver1 := 2 ^ 32, restore := none, skipped := false }).inc
              F.RSL_COUNT_done
    | _, _ => keep

/-- RESILVER_SEG. -/
def execResilverSeg (sender : BitVec 16) (last : Bool) (seg : BitVec 32) (t seq : BitVec 64) (data : List Byte) (s : State) :
    Host.Outcome State Fault Refusal :=
  done (rslSeg sender last seg t seq data s)

/-- An acknowledgement: to the spare its request is accepted or refused, to the partner a segment is taken or the resilver stops. -/
def rslAckIn (sender : BitVec 16) (status : BitVec 8) (seg : BitVec 32) (t : BitVec 64) (seq : BitVec 32) (s : State) : State :=
  match s.flt.lends.find? (fun l => l.spare == sender.toNat && l.seq == seq.toNat) with
  | some l =>
    let others := s.flt.lends.erase l
    if status = 2 then { s with flt.lends := others }
    else if status ≠ 0 ∨ l.next ≠ some seg.toNat then s
    else
      let k := seg.toNat + 1
      if k ≥ s.rslCount l then { s with flt.lends := others }
      else
        let l := { l with next := some k }
        { s with flt.lends := others ++ [l] }.rslSend l k
  | none => match s.resilverOf sender.toNat seq.toNat with
    | none => s
    | some (n, r) =>
      if status = 1 then s.rslEmpty n
      else if status = 0 then { s with flt.spares := s.flt.spares.put n { r with t := t.toNat, since := s.beat } }
      else s

/-- RESILVER_ACK. -/
def execResilverAck (sender : BitVec 16) (status : BitVec 8) (seg : BitVec 32) (t : BitVec 64) (seq : BitVec 32) (s : State) :
    Host.Outcome State Fault Refusal :=
  done (rslAckIn sender status seg t seq s)

/-- No segment or acceptance within ACK_TIMEOUT (R504). -/
def rslTimeout (n : Fin 1024) (s : State) : State :=
  match s.flt.spares.find n with
  | none => s
  | some r => if s.beat < r.since + 1000 * s.get F.ACK_TIMEOUT_us then s else s.rslFail n r 2

/-- RESILVER_TIMEOUT. -/
def execResilverTimeout (n : Fin 1024) (s : State) : Host.Outcome State Fault Refusal := done (rslTimeout n s)

end Sys2Proof.Machine
end

