-- ==== Sys2Proof/Machine/Fences.lean ====
section
/-!
DEFINITION. Fences (R280, R492 to R494): what a fence takes from collectives and ports, the takeover that may follow (R481), and its lifting; what the
watermaster reports to the fault manager and decides (R352, R486).
-/
namespace Sys2Proof.Machine
open Sys2Proof

/-! ### Fence notices (R280, R281) -/

/-- The first pair of a party's stream whose chunk has not arrived whole, as stream index and result index. -/
def Coll.cutAt (c : Coll) (nIn nOut k : Nat) (p : Party) : Nat × Nat :=
  let st := c.streamOf nIn nOut p
  match st.find? (fun e => !(c.chunk e.2).got.any (fun g => g.1 == k)) with
  | some e => e
  | none => match st.getLast? with
    | some e => (e.1 + 1, e.2 + 1)
    | none => (0, 0)

/-- The first result chunk of which no copy to the party has begun. -/
def Coll.rcutAt (c : Coll) (nOut ranks k : Nat) (p : Party) : Nat :=
  let own := (List.range nOut).filter (fun i => c.feeds nOut ranks i p)
  match own.find? (fun i => !c.sentTo i k) with
  | some i => i
  | none => match own.getLast? with
    | some i => i + 1
    | none => 0

/-- Cut party k of a collective off at a contribution boundary and a result boundary: the chunks from b on that took its data,
whole or in part, are reopened (R280). -/
def State.cutParty (s : State) (x k b rb : Nat) : State :=
  match s.coll x with
  | none => s
  | some c => match c.parties[k]? with
    | none => s
    | some p =>
      let nIn := s.chunksIn c.cmd
      let n := max nIn (s.chunksOut c.cmd)
      let part := (List.range n).filter (fun i => b ≤ i && c.begun.contains (k, i))
      let took := (List.range n).filter (fun i => b ≤ i && (part.contains i || (c.chunk i).got.any (fun g => g.1 == k)))
      let c1 := { c with
        parties := setAt c.parties k { p with cut := some b, rcut := some rb }
        begun := c.begun.filter (fun e => e.1 != k) }
      let s := s.putColl x (part.foldl (fun (c : Coll) i => c.putChunk i { c.chunk i with got := (c.chunk i).got ++ [(k, 0, p.rank)] }) c1)
      let s := took.foldl (fun s i => s.reopen x i 4 false) s
      if c.loaded then ((List.range nIn).filter (fun i => b ≤ i)).foldl (fun s i => s.deliverNone x i k) s else s

/-- A fence notice for one rank, or for one child module in the trees it stands in: `ks` are its parties. Its boundaries are common to them, and it
adds one entry for each to the change entries (R280). -/
def State.cutTarget (s : State) (x : Nat) (ks : List Nat) : State :=
  match s.coll x with
  | none => s
  | some c =>
    let nIn := s.chunksIn c.cmd
    let nOut := s.chunksOut c.cmd
    let ps := ks.filterMap (fun k => (c.parties[k]?).bind (fun p => if p.cut.isSome then none else some (k, p)))
    match ps with
    | [] => s
    | (k0, p0) :: rest =>
      let cutOf := fun (q : Nat × Party) => c.cutAt nIn (max nIn nOut) q.1 q.2
      let rcutOf := fun (q : Nat × Party) => c.rcutAt nOut (s.groupOf c).ranks q.1 q.2
      let b := rest.foldl (fun a q => if (cutOf q).2 < a.2 then cutOf q else a) (cutOf (k0, p0))
      let rb := rest.foldl (fun a q => min a (rcutOf q)) (rcutOf (k0, p0))
      let s := s.putColl x { c with changes := c.changes ++ [⟨b.1, p0.rank, p0.covers, if p0.isKid then 3 else 0⟩, ⟨rb, p0.rank, p0.covers, 1⟩] }
      ps.foldl (fun s q => s.cutParty x q.1 b.2 rb) ((s.bitEvent c.step 3).bitEvent c.step 3)

/-- Chunks that a fence left complete are reduced; a chunk with no contributor left has no result (R281). -/
def State.sweep (s : State) (x : Nat) : State :=
  match s.coll x with
  | none => s
  | some c =>
    let nIn := s.chunksIn c.cmd
    ((List.range nIn).foldl (fun s i => match s.coll x with
      | none => s
      | some c =>
        if !c.loaded && !(c.contributors nIn i).isEmpty && s.filled c i && !(c.chunk i).reduced && !(c.chunk i).got.isEmpty
        then s.chunkWhole x i [] else s) s).settle x

/-- A collective that waits for a context loses the parties that a fence takes: it has taken and sent nothing, so both boundaries are 0 (R280). -/
def Coll.cutWaiting (c : Coll) (hit : Party → Bool) (fenced : Nat) : Coll :=
  let gone := ((c.parties.filter (fun p => hit p && p.cut.isNone)).map (fun p => (p.isKid, p.rank, p.covers))).dedup
  { c with
    fenced := fenced
    parties := c.parties.map (fun p => if hit p ∧ p.cut.isNone then { p with cut := some 0, rcut := some 0 } else p)
    changes := c.changes ++ gone.flatMap (fun q => [⟨0, q.2.1, q.2.2, if q.1 then 3 else 0⟩, ⟨0, q.2.1, q.2.2, 1⟩]) }

/-- The same for every collective over a group that waits at the head of a queue; each boundary is a membership change of its step (R328). -/
def State.cutQueues (s : State) (gid : Nat) (g : Group) (hit : Party → Bool) : State :=
  (s.noContext (fun k => k.cmd.group == gid)).foldl (fun s w =>
    let k := w.2.cutWaiting hit (g.fencedRanks - (g.ranks - w.2.ranks))
    let s := s.putQueue w.1 { s.queue w.1 with wait := some k }
    (k.changes.drop w.2.changes.length).foldl (fun s _ => s.bitEvent k.step 3) s) s

/-- Fence notices of one group: members on marked ports, and children whose ports are all marked; locks lose them (R345, R492). -/
def State.fenceGroup (s : State) (gid : Nat) (g : Group) (marks : Nat) : State :=
  let hitM := fun (m : Member) => !m.fenced && bit marks m.port
  let hitK := fun (k : Kid) => !k.fenced && k.ports != 0 && k.ports &&& marks == k.ports
  if !g.members.any hitM && !g.kids.any hitK then s
  else
    let g1 := { g with members := g.members.map (fun m => if hitM m then { m with fenced := true } else m),
                       kids := g.kids.map (fun k => if hitK k then { k with fenced := true } else k) }
    let hitP := fun (p : Party) => if p.isKid then g.kids.any (fun k => hitK k && k.tree == p.tree && k.low == p.rank)
      else g.members.any (fun m => hitM m && m.rank == p.rank)
    let s := ({ s with cp.groups := s.cp.groups.put gid g1 }).cutQueues gid g1 hitP
    let xs := (s.cp.colls.items.filter (fun p => p.2.cmd.group == gid)).map (·.1)
    xs.foldl (fun s x => match s.coll x with
      | none => s
      | some c =>
        let hit := (c.parties.zipIdx).filter (fun q => hitP q.1)
        let whole := fun (q : Party × Nat) => (hit.filter (fun r => r.1.isKid == q.1.isKid && r.1.rank == q.1.rank)).map (·.2)
        let s := s.putColl x { c with fenced := g1.fencedRanks - (g.ranks - c.ranks) }
        let s := hit.foldl (fun s q => s.cutTarget x (whole q)) s
        (c.locks.foldl (fun s l => s.lockCombine x l.1) s).sweep x) s

/-! ### The fault manager (R486, R530) -/

/-- The secured session of the fault manager. -/
def State.fmSession (s : State) : Option Session := s.sec.sessions.find? (fun x => x.secured && x.fm)

/-- The management port that carries its datagrams: 0, or 1 while 0 is down. -/
def State.fmPort (s : State) : Option Nat := if bit s.flt.mgmt 0 then some 0 else if bit s.flt.mgmt 1 then some 1 else none

/-- Send one datagram to the fault manager, within its session and no other way. -/
def State.fmSend (s : State) (body : List Byte) : State :=
  match s.fmSession, s.fmPort with
  | some x, some p =>
    if s.get F.FM_CTL_en = 0 then s
    else s.emit (.datagram p x.id (catBits (s.get F.FM_ADDR1_addr) (s.get F.FM_ADDR0_addr) 64) (s.get F.FM_CTL_udp) body)
  | _, _ => s

/-- Forward a report that asks for a decision, and keep it until one comes (log entry 34). -/
def State.fmAsk (s : State) (body : List Byte) (module step : Option Nat) : State :=
  if s.get F.FM_CTL_en = 0 then s
  else { s with flt.fm := s.flt.fm ++ [(⟨body, module, step, s.beat⟩ : FmReport)] }.fmSend body

/-! ### Deciding a step (R352, R481, R501) -/

/-- Is this module the watermaster? -/
def State.actsWm (s : State) : Bool := s.get F.WM_CTL_role == 1

/-- The modules of the commit domain: those DOM_k lists, and this one. -/
def State.domain (s : State) : List Nat :=
  let l := ((List.range 768).filter (fun k => s.get (F.DOM_valid (k / 512) (k % 512)) == 1)).map (fun k => s.get (F.DOM_module (k / 512) (k % 512)))
  if l.contains s.me then l else s.me :: l

/-- Send a COMMIT (0x10) or DISCARD (0x11) to modules (Table 09-10). -/
def State.sendStep (s : State) (to_ : List Nat) (type step turn : Nat) : State :=
  to_.foldl (fun s m => s.sendMod m type 32 [(64, 64, step), (128, 64, turn), (192, 16, 0xFFFF)]) s

/-- Send COMMIT or DISCARD for a step: to the standby first, to the other modules at once where there is none. The commit turn is at least 10 µs
ahead (R315); how far beyond that is open. -/
def State.decideStep (s : State) (type step : Nat) : State :=
  let r := s.free 20
  let t := if type = 0x10 then s.turn + 10000 + r.1 else 0
  let s := if type = 0x10 then r.2 else s
  let s := { s with
    flt.held := some (type, step, t)
    flt.settled := if s.flt.settled.contains step then s.flt.settled else s.flt.settled ++ [step]
    flt.fm := s.flt.fm.filter (fun q => q.step != some step) }
  if s.get F.WM_CTL_standby = 0xFFFF then { s with flt.pend := false }.sendStep s.domain type step t
  else { s with flt.pend := true }.sendStep [s.get F.WM_CTL_standby] type step t

/-- What the digests and verdicts of a step come to (R352, R501): COMMIT when every module's digest is clean and every verdict agrees; DISCARD
when a verdict disagrees and no fault manager is set; a report to the fault manager otherwise. -/
def State.wmDecide (s : State) (step : Nat) : State :=
  let ms := s.domain
  let ds := s.det.audit.digests.filter (fun d => d.1 == step)
  let vs := s.flt.verdicts.filter (fun v => v.1 == step)
  let all_ := ms.all (fun m => ds.any (fun d => d.2.1 == m)) && ms.all (fun m => vs.any (fun v => v.2.1 == m))
  let agree := vs.all (fun v => v.2.2)
  if !s.actsWm ∨ s.flt.settled.contains step then s
  else if !agree ∧ s.get F.FM_CTL_en = 0 then s.decideStep 0x11 step
  else if !all_ then s
  else if agree ∧ ds.all (fun d => d.2.2 == 0) then (if s.get F.LEV_STATUS_isolated = 1 then s else s.decideStep 0x10 step)
  else
    { s with flt.settled := s.flt.settled ++ [step] }.fmAsk (leBytes (packBits [(0, 8, 0x41), (16, 16, s.me), (64, 64, step), (192, 8, 1)]) 32)
      none (some step)

/-- Decide every step that the digests taken so far may settle: after a takeover, and when this module is no longer isolated. -/
def State.wmDue (s : State) : State := ((s.det.audit.digests.map (·.1)).dedup).foldl State.wmDecide s

/-! ### Taking over (R481) -/

/-- The standby becomes the watermaster: announces itself, resends the last COMMIT or DISCARD it holds, and then decides as the watermaster does. -/
def State.takeover (s : State) : State :=
  let old := s.get F.WM_CTL_wm
  let s := s.sets [(F.WM_CTL_role, 1), (F.TIME_CTL_master, 1)]
  let s := (s.domain.filter (· != s.me)).foldl (fun s m => s.sendMod m 0x86 32 [(32, 16, old), (64, 64, s.turn)]) s
  let s := s.sets [(F.WM_CTL_wm, s.me), (F.WM_CTL_standby, 0xFFFF)]
  let s := match s.flt.held with
    | none => s
    | some (type, step, _) =>
      let t := if type = 0x10 then s.turn + 1000000 else 0
      { s with flt.held := some (type, step, t), flt.pend := false }.sendStep s.domain type step t
  s.wmDue

/-! ### Applying a fence (R492, R493) -/

/-- The ports of this module that a fence covers. -/
def State.fenceMarks (s : State) (kind target port : Nat) : Nat :=
  if kind = 1 then (if target = s.me ∧ port < 144 then 1 <<< port else 0)
  else if target = s.me then 0
  else ((List.range 144).filter (fun p => target != 0xFFFF && (s.link p).peer == target)).foldl (fun m p => m ||| 1 <<< p) 0

/-- Every port that leads to a module is fenced, and there is one. -/
def State.cutOff (s : State) (m : Nat) : Bool :=
  let l := (List.range 144).filter (fun p => (s.link p).peer == m)
  !l.isEmpty && l.all (fun p => bit s.fencedPorts p)

/-- Carry out a fence decision or order. -/
def State.fence (s : State) (a : Armed) : State :=
  let s := s.inc F.LEV_DEC_COUNT_applied
  if s.flt.fences.any (fun f => f.kind == a.kind && f.target == a.target && f.port == a.port) then s
  else
    let marks := s.fenceMarks a.kind a.target a.port
    let s := (portsOf (marks &&& (2 ^ 144 - 1 - s.fencedPorts))).foldl (fun s p => s.fencePort p) s
    let s := s.cp.groups.items.foldl (fun s g => s.fenceGroup g.1 g.2 s.fencedPorts) s
    let s := { s with flt.fences := s.flt.fences ++ [(⟨a.kind, a.target, a.port, marks⟩ : Fence)] }
    let s := if a.kind = 2 ∧ a.target = s.me then
        (s.set F.FLT_STATUS_fenced 1).endAll (fun _ => true) 4 9
      else s
    let lost := s.flt.spares.items.filter (fun p => (a.kind == 2 && p.2.partner == a.target) || s.cutOff p.2.partner)
    let s : State := lost.foldl (fun (s : State) p => s.rslFail p.1 p.2 1) s
    let s := s.journalPut 8 a.kind a.target 0 0 0 a.port
    if a.kind = 2 ∧ s.get F.WM_CTL_role = 2 ∧ s.get F.LEV_CTL_mode = 0 ∧ a.target = s.get F.WM_CTL_wm then s.takeover else s

/-- Order of fences of one turn: kind, target, port. -/
def Armed.le (a b : Armed) : Bool :=
  a.kind < b.kind || (a.kind == b.kind && (a.target < b.target || (a.target == b.target && a.port ≤ b.port)))

/-- Apply every armed fence whose turn has come, in order (R493). -/
def State.fencesDue (s : State) : State :=
  let due := sortBy Armed.le (s.flt.armed.filter (fun a => a.turn ≤ s.turn))
  due.foldl (fun s a => s.fence a) { s with flt.armed := s.flt.armed.filter (fun a => s.turn < a.turn) }

/-- FENCE_APPLY. -/
def execFenceApply (s : State) : Host.Outcome State Fault Refusal := done s.fencesDue

/-- Arm a fence for its apply turn; one that comes too late applies at once and counts as late (R491). -/
def State.armFence (s : State) (a : Armed) : State :=
  if a.turn < s.turn then (s.inc F.LEV_LATE_COUNT_late).fence a
  else { s with flt.armed := s.flt.armed ++ [a] }

/-- Lift the fences that UNFENCE orders name for a step, at its STEP_CLOSE (R494). -/
def State.liftFences (s : State) (step : Nat) : State :=
  let l := s.flt.lifts.filter (fun u => u.2.2 == step)
  let gone := fun (f : Fence) => l.any (fun u => u.1 == f.target && u.2.1 == f.port)
  let kept := s.flt.fences.filter (fun f => !gone f)
  let marks := (s.flt.fences.filter gone).foldl (fun m f => m ||| f.marks) 0
  let still := kept.foldl (fun m f => m ||| f.marks) 0
  let s := (portsOf (marks &&& (2 ^ 144 - 1 - still))).foldl (fun s p => s.unfencePort p) s
  let s := { s with flt.fences := kept, flt.lifts := s.flt.lifts.filter (fun u => u.2.2 != step) }
  s.set F.FLT_STATUS_fenced (b2n (kept.any (fun f => f.kind == 2 && f.target == s.me)))

end Sys2Proof.Machine
end

