-- ==== Sys2Proof/Machine/Levee.lean ====
section
/-!
DEFINITION. The levee (R485, R487 to R491): proposals, votes, probes, decisions, isolation.
-/
namespace Sys2Proof.Machine
open Sys2Proof

/-- Does the module take part in the levee (R485, R507)? -/
def State.levee (s : State) : Bool := s.get F.FLT_CTL_en == 1 && s.get F.LEV_CTL_mode == 0

/-- The modules of the levee set in ascending order (R487). -/
def State.leveeSet (s : State) : List Nat :=
  sortBy (fun a b => decide (a ≤ b)) (((List.range 64).filter (fun k => s.get (F.LEV_MEM_valid k) == 1)).map (fun k => s.get (F.LEV_MEM_module k))).dedup

/-- The live set: the set less the modules that a module fence has taken out. -/
def State.live (s : State) : List Nat := s.leveeSet.filter (fun m => !s.flt.fences.any (fun f => f.kind == 2 && f.target == m))

/-- The low 32 bits of the set digest. -/
def State.setDig (s : State) : Nat := leNat ((sha256 (s.leveeSet.flatMap (fun m => leBytes m 2))).take 4)

/-- The majority m. -/
def State.majority (s : State) : Nat := s.live.length / 2 + 1

/-- Send a message to every other module of the live set. -/
def State.sendLive (s : State) (type : Nat) (l : List (Nat × Nat × Nat)) : State :=
  (s.live.filter (· != s.me)).foldl (fun s m => s.sendMod m type 32 l) s

/-! ### Proposals (R488, R489) -/

/-- Send LEVEE_PROPOSE for a round. -/
def State.sendPropose (s : State) (p : Motion) : State :=
  s.sendLive 0x88 [(8, 8, p.kind), (32, 16, p.target), (48, 8, p.port), (56, 1, b2n p.self), (57, 2, p.round), (64, 32, p.seq),
    (96, 32, s.setDig), (128, 64, s.turn), (192, 8, p.cause)]

/-- Replace or take away the proposal of a sequence number. -/
def State.putMotion (s : State) (seq : Nat) (p : Option Motion) : State :=
  { s with flt.motions := (s.flt.motions.filter (fun q => q.seq != seq)) ++ p.toList }

/-- A DECIDE came, or a round gathered m votes: the module is not isolated (R490), and as watermaster decides what it held back. -/
def State.rejoin (s : State) : State := ({ s with flt.short := 0 }.set F.LEV_STATUS_isolated 0).wmDue

/-- The proposal lapses; two in a row that gathered fewer than m votes isolate the module (R489, R490). -/
def State.lapse (s : State) (p : Motion) : State :=
  let s := ((s.putMotion p.seq none).inc F.LEV_DEC_COUNT_lapsed).faultReport 0x0E p.target 0 (p.port + 256 * (p.kind - 1))
  if p.most ≥ s.majority then { s with flt.short := 0 }
  else
    let s := { s with flt.short := s.flt.short + 1 }
    if s.flt.short < 2 ∨ s.get F.LEV_STATUS_isolated = 1 then s
    else (s.set F.LEV_STATUS_isolated 1).faultReport 0x0F s.me 2 0

/-- A round ends undecided: round 2 follows round 1, and after round 2 the proposal lapses. -/
def State.roundEnd (s : State) (p : Motion) : State :=
  if p.round = 1 then
    let p := { p with round := 2, votes := [], since := s.beat }
    (s.putMotion p.seq (some p)).sendPropose p
  else s.lapse p

/-- Count the votes of a proposal: decide, or end a round that can no longer be won. -/
def State.tally (s : State) (p : Motion) : State :=
  let n := s.live.length
  let got := p.votes.length + 1
  let yes := (p.votes.filter (fun v => v.2 == 1)).length + 1
  let p := { p with most := max p.most got }
  let s := s.putMotion p.seq (some p)
  let s := if p.most ≥ s.majority then s.rejoin else s
  if yes ≥ s.majority then
    let t := s.turn + 1000 * s.get F.LEV_CTL2_apply
    ((s.putMotion p.seq none).sendLive 0x8C [(8, 8, p.kind), (32, 16, p.target), (48, 8, p.port), (56, 1, b2n p.self), (64, 32, p.seq),
      (96, 32, yes), (128, 64, t)]).armFence ⟨p.kind, p.target, p.port, t⟩
  else if yes + (n - got) < s.majority then s.roundEnd p
  else s

/-- Propose a fence, one proposal per target at a time, at most 16 (R488). -/
def State.propose (s : State) (kind target port cause : Nat) : State :=
  let same := fun (k t p : Nat) => k == kind && t == target && p == port
  if !s.levee ∨ s.flt.motions.length ≥ 16 ∨ s.flt.motions.any (fun m => same m.kind m.target m.port) ∨
      s.flt.fences.any (fun f => same f.kind f.target f.port) ∨ s.flt.armed.any (fun f => same f.kind f.target f.port) then s
  else
    let p : Motion := ⟨kind, target, port, target == s.me, cause, s.flt.seq + 1, 1, [], 0, s.beat⟩
    let s := { s with flt.seq := p.seq }
    ((s.putMotion p.seq (some p)).sendPropose p).tally p

/-- Has a port been out of ACTIVE for LEV_CTL.hold (R488)? -/
def State.held (s : State) (p : Nat) : Bool :=
  let t := s.flt.downAt.rd p
  t != 0 && !s.up p && decide (s.beat + 1 ≥ t + 1000 * s.get F.LEV_CTL_hold)

/-- The hold of a port ends: its module proposes a fence of its peer when every port toward it is held, and a fence of the port. -/
def leveeHold (port : Fin 144) (s : State) : State :=
  if !s.held port ∨ bit s.fencedPorts port then s
  else
    let peer := (s.link port).peer
    let toPeer := (List.range 144).filter (fun p => (s.link p).peer == peer)
    let s := if peer ≠ 0xFFFF ∧ toPeer.all s.held then s.propose 2 peer 0xFF 9 else s
    s.propose 1 s.me port 9

/-- LEVEE_HOLD_EXPIRE. -/
def execLeveeHoldExpire (port : Fin 144) (s : State) : Host.Outcome State Fault Refusal := done (leveeHold port s)

/-- Software writes LEV_SELF. -/
def levSelf (s : State) : State := s.propose 2 s.me 0xFF 0

/-- LEV_SELF. -/
def execLevSelf (s : State) : Host.Outcome State Fault Refusal := done (s.bar levSelf)

/-! ### Voting (R489) -/

/-- Send LEVEE_VOTE. -/
def State.sendVote (s : State) (b : Ballot) : State :=
  s.sendMod b.proposer 0x8B 32 [(8, 8, b.vote), (32, 16, b.proposer), (64, 32, b.seq), (96, 32, s.setDig)]

/-- Keep a ballot in place of the earlier one of its proposal. -/
def State.putBallot (s : State) (b : Ballot) : State :=
  { s with flt.ballots := (s.flt.ballots.filter (fun (x : Ballot) => !(x.proposer == b.proposer && x.seq == b.seq))) ++ [b] }

/-- Vote on a proposal for good. -/
def State.castVote (s : State) (b : Ballot) (vote : Nat) : State :=
  let b := { b with vote := vote }
  (s.putBallot b).sendVote b

/-- A proposal arrives: this module votes at once, votes again as before, or probes the target. -/
def leveePropose (sender : BitVec 16) (kind : BitVec 8) (target : BitVec 16) (_port : BitVec 8) (self : Bool) (round : BitVec 2)
    (seq digest : BitVec 32) (s : State) : State :=
  if !s.levee ∨ sender.toNat = s.me then s
  else match s.flt.ballots.find? (fun b => b.proposer == sender.toNat && b.seq == seq.toNat && b.round == round.toNat) with
    | some b => if b.vote = 0 then s else s.sendVote b
    | none =>
      let b : Ballot := ⟨sender.toNat, seq.toNat, round.toNat, target.toNat, 0, s.beat⟩
      if digest.toNat ≠ s.setDig ∨ target.toNat = s.me then s.castVote b 3
      else if kind = 1 ∨ self then s.castVote b 1
      else
        (s.putBallot b).sendMod
          target.toNat 0x89 32 [(32, 16, b.proposer), (64, 32, b.seq)]

/-- LEVEE_PROPOSE. -/
def execLeveePropose (sender : BitVec 16) (kind : BitVec 8) (target : BitVec 16) (port : BitVec 8) (self : Bool) (round : BitVec 2)
    (seq digest : BitVec 32) (s : State) : Host.Outcome State Fault Refusal :=
  done (leveePropose sender kind target port self round seq digest s)

/-- A voter probes this module: it answers while it runs. -/
def leveeProbe (sender proposer : BitVec 16) (seq : BitVec 32) (s : State) : State :=
  if !s.levee then s else s.sendMod sender.toNat 0x8A 32 [(32, 16, proposer.toNat), (64, 32, seq.toNat)]

/-- LEVEE_PROBE. -/
def execLeveeProbe (sender proposer : BitVec 16) (seq : BitVec 32) (s : State) : Host.Outcome State Fault Refusal :=
  done (leveeProbe sender proposer seq s)

/-- The ballot whose probe is out. -/
def State.probing (s : State) (proposer seq : Nat) : Option Ballot :=
  s.flt.ballots.find? (fun b => b.proposer == proposer && b.seq == seq && b.vote == 0)

/-- The target answered in time: no. -/
def leveeProbeAck (sender proposer : BitVec 16) (seq : BitVec 32) (s : State) : State :=
  match s.probing proposer.toNat seq.toNat with
  | none => s
  | some b => if !s.levee ∨ b.target ≠ sender.toNat then s else s.castVote b 2

/-- LEVEE_PROBE_ACK. -/
def execLeveeProbeAck (sender proposer : BitVec 16) (seq : BitVec 32) (s : State) : Host.Outcome State Fault Refusal :=
  done (leveeProbeAck sender proposer seq s)

/-- No answer within LEV_CTL.probe: yes. -/
def leveeProbeTimeout (proposer : BitVec 16) (seq : BitVec 32) (s : State) : State :=
  match s.probing proposer.toNat seq.toNat with
  | none => s
  | some b => if !s.levee ∨ s.beat < b.since + 1000 * s.get F.LEV_CTL_probe then s else s.castVote b 1

/-- LEVEE_PROBE_TIMEOUT. -/
def execLeveeProbeTimeout (proposer : BitVec 16) (seq : BitVec 32) (s : State) : Host.Outcome State Fault Refusal :=
  done (leveeProbeTimeout proposer seq s)

/-! ### Deciding (R489, R491) -/

/-- A vote arrives at its proposer. -/
def leveeVote (sender proposer : BitVec 16) (vote : BitVec 8) (seq : BitVec 32) (s : State) : State :=
  match s.flt.motions.find? (fun p => p.seq == seq.toNat) with
  | none => s
  | some p =>
    if !s.levee ∨ proposer.toNat ≠ s.me ∨ sender.toNat = s.me ∨ !s.live.contains sender.toNat ∨ p.votes.any (fun v => v.1 == sender.toNat) then s
    else s.tally { p with votes := p.votes ++ [(sender.toNat, vote.toNat)] }

/-- LEVEE_VOTE. -/
def execLeveeVote (sender proposer : BitVec 16) (vote : BitVec 8) (seq : BitVec 32) (s : State) : Host.Outcome State Fault Refusal :=
  done (leveeVote sender proposer vote seq s)

/-- LEV_CTL.round passes without a decision. -/
def leveeRound (seq : BitVec 32) (s : State) : State :=
  match s.flt.motions.find? (fun p => p.seq == seq.toNat) with
  | none => s
  | some p => if !s.levee ∨ s.beat < p.since + 1000 * s.get F.LEV_CTL_round then s else s.roundEnd p

/-- LEVEE_ROUND_TIMEOUT. -/
def execLeveeRoundTimeout (seq : BitVec 32) (s : State) : Host.Outcome State Fault Refusal := done (leveeRound seq s)

/-- A decision of another module arrives. -/
def leveeDecide (kind : BitVec 8) (target : BitVec 16) (port : BitVec 8) (apply : BitVec 64) (s : State) : State :=
  if !s.levee then s else s.rejoin.armFence ⟨kind.toNat, target.toNat, port.toNat, apply.toNat⟩

/-- LEVEE_DECIDE. -/
def execLeveeDecide (kind : BitVec 8) (target : BitVec 16) (port : BitVec 8) (apply : BitVec 64) (s : State) : Host.Outcome State Fault Refusal :=
  done (leveeDecide kind target port apply s)

end Sys2Proof.Machine
end

