-- ==== Sys2Proof/Machine/Watermaster.lean ====
section
/-!
DEFINITION. The watermaster (R352, R481, R486, R495, R496, R501): what it takes and forwards, orders, heartbeats; COMMIT and DISCARD as they take
effect, and STEP_CLOSE.
-/
namespace Sys2Proof.Machine
open Sys2Proof

/-! ### The fault manager (R486, R530) -/

/-- No decision within 5 s of the k-th report: it is sent again. -/
def fmResend (k : Nat) (s : State) : State :=
  match s.flt.fm[k]? with
  | none => s
  | some r =>
    if s.beat < r.since + 5000000000 then s
    else ({ s with flt.fm := setAt s.flt.fm k { r with since := s.beat } }.inc F.FM_RESEND_COUNT_resends).fmSend r.body

/-- FM_RESEND_TIMEOUT. -/
def execFmResendTimeout (k : Nat) (s : State) : Host.Outcome State Fault Refusal := done (fmResend k s)

/-- A management port goes up or down. -/
def mgmtChange (port : Fin 2) (up : Bool) (s : State) : State :=
  { s with flt.mgmt := if bit s.flt.mgmt port = up then s.flt.mgmt else s.flt.mgmt ^^^ 1 <<< port.val }

/-- MANAGEMENT_PORT_CHANGE. -/
def execManagementPortChange (port : Fin 2) (up : Bool) (s : State) : Host.Outcome State Fault Refusal := done (mgmtChange port up s)

/-! ### Deciding a step (R352, R481, R501) -/

/-- A module's STEP_DIGEST arrives. -/
def stepDigest (sender : BitVec 16) (step : BitVec 64) (status : BitVec 8) (s : State) : State :=
  if s.get F.WM_CTL_role = 0 ∨ 3 ≤ s.get F.WM_CTL_role then s
  else
    { s with det.audit.digests := s.det.audit.digests.filter (fun (d : Nat × Nat × Nat) => !(d.1 == step.toNat && d.2.1 == sender.toNat)) ++
        [(step.toNat, sender.toNat, status.toNat)] }.wmDecide step.toNat

/-- STEP_DIGEST. -/
def execStepDigest (sender : BitVec 16) (step : BitVec 64) (status : BitVec 8) (s : State) : Host.Outcome State Fault Refusal :=
  done (stepDigest sender step status s)

/-- A module's PARTNER_VERDICT arrives. -/
def partnerVerdict (sender : BitVec 16) (step : BitVec 64) (matched mismatched missing lowest : BitVec 16) (s : State) : State :=
  if s.get F.WM_CTL_role = 0 ∨ 3 ≤ s.get F.WM_CTL_role then s
  else
    let clean := mismatched == 0 && missing == 0
    let body := leBytes (packBits [(0, 8, 0x91), (16, 16, sender.toNat), (64, 64, step.toNat), (128, 16, matched.toNat),
      (144, 16, mismatched.toNat), (160, 16, missing.toNat), (176, 16, lowest.toNat)]) 32
    let s := { s with flt.verdicts := s.flt.verdicts.filter (fun (v : Nat × Nat × Bool) => !(v.1 == step.toNat && v.2.1 == sender.toNat)) ++
      [(step.toNat, sender.toNat, clean)] }
    let s := if clean ∨ !s.actsWm then s else s.fmAsk body none (some step.toNat)
    s.wmDecide step.toNat

/-- PARTNER_VERDICT. -/
def execPartnerVerdict (sender : BitVec 16) (step : BitVec 64) (matched mismatched missing lowest : BitVec 16) (s : State) :
    Host.Outcome State Fault Refusal :=
  done (partnerVerdict sender step matched mismatched missing lowest s)

/-- A module answers COMMIT or DISCARD; the standby's acknowledgement lets the others have it (R481). `type` 0 COMMIT_ACK, 1 COMMIT_NACK,
2 DISCARD_ACK. -/
def commitAck (type : Fin 3) (sender : BitVec 16) (step : BitVec 64) (s : State) : State :=
  if !s.actsWm then s
  else
    let s := { s with det.audit.acks := s.det.audit.acks ++ [(step.toNat, sender.toNat, type.val)] }
    match s.flt.held with
    | some (k, n, t) =>
      if !s.flt.pend ∨ n ≠ step.toNat ∨ sender.toNat ≠ s.get F.WM_CTL_standby ∨ type.val ≠ (if k = 0x10 then 0 else 2) then s
      else { s with flt.pend := false }.sendStep (s.domain.filter (· != sender.toNat)) k n t
    | none => s

/-- COMMIT_ACK. -/
def execCommitAck (type : Fin 3) (sender : BitVec 16) (step : BitVec 64) (s : State) : Host.Outcome State Fault Refusal :=
  done (commitAck type sender step s)

/-! ### COMMIT, DISCARD and STEP_CLOSE as they take effect -/

/-- The commit turn of an armed COMMIT: fences of the turn first (R493), then the flip, then what waited for it (R316, R502). -/
def commitTurn (step : BitVec 64) (s : State) : State :=
  match (sortBy (fun a b => decide (a.2 ≤ b.2)) s.nor.armed).find? (fun a => a.1 == step.toNat) with
  | none => s
  | some a =>
    let r := (s.fencesDue).commitApply step.toNat a.2
    if s.turn < a.2 then s else r.2.lendDue

/-- COMMIT_APPLY. -/
def execCommitApply (step : BitVec 64) (s : State) : Host.Outcome State Fault Refusal := done (commitTurn step s)

/-- What is owed for a discarded step, and for those after it, falls away; what the watermaster has taken and decided of them too: they run again. -/
def State.dropOwed (s : State) (n : Nat) : State :=
  let w := s.flt.waits.filter (fun (w : Nat × Nat) => decide (w.1 < n))
  let r := s.flt.recs.filter (fun (e : ShardHash) => decide (e.step < n))
  let h := s.flt.hashes.filter (fun (e : ShardHash) => decide (e.step < n))
  let v := s.flt.verdicts.filter (fun (e : Nat × Nat × Bool) => decide (e.1 < n))
  let d := s.det.audit.digests.filter (fun (e : Nat × Nat × Nat) => decide (e.1 < n))
  { s with flt := { s.flt with waits := w, recs := r, hashes := h, verdicts := v, settled := s.flt.settled.filter (fun e => decide (e < n)) },
           det.audit.digests := d }

/-- A DISCARD arrives (R317, R493). -/
def discardIn (step : BitVec 64) (s : State) : State :=
  let t := ((s.fencesDue).discardStep step.toNat).dropOwed step.toNat
  let h := if t.get F.WM_CTL_role = 2 then some (0x11, step.toNat, 0) else t.flt.held
  { t with flt.held := h }.lendDue

/-- DISCARD. -/
def execDiscard (step : BitVec 64) (s : State) : Host.Outcome State Fault Refusal := done (discardIn step s)

/-- A STEP_CLOSE arrives (R333): when it closes the present step, class D's bank flips, fences are lifted (R494), and in a strict step the predictor's
epoch falls (R461) with the hot lines given. -/
def stepCloseIn (step : BitVec 64) (hot : List Nat) (s : State) : State :=
  let strict := s.get F.STEP_STATUS_strict
  let t := stepClose step s
  if step.toNat ≠ s.get F.STEP_CTR_step then t
  else
    let t := (t.flipClassD).liftFences step.toNat
    if strict = 1 then t.epoch hot else t

/-- STEP_CLOSE. -/
def execStepClose (step : BitVec 64) (hot : List Nat) (s : State) : Host.Outcome State Fault Refusal := done (stepCloseIn step hot s)

/-! ### Reports (R486, R498) -/

/-- The watermaster takes a trap notice. -/
def trapNoticeIn (m : BitVec 256) (s : State) : State := if !s.actsWm then s else s.fmSend (leBytes m.toNat 32)

/-- TRAP_NOTICE. -/
def execTrapNotice (m : BitVec 256) (s : State) : Host.Outcome State Fault Refusal := done (trapNoticeIn m s)

/-- The watermaster takes a fault report: forwarded, and by FLT_POLICY a proposal to fence its sender (R488). -/
def faultReportIn (m : BitVec 256) (s : State) : State :=
  if !s.actsWm then s
  else
    let n := m.toNat
    let sender := bits n 16 16
    let kind := bits n 8 8
    let bad := bits n 48 2 == 1 || bits n 48 2 == 2
    let s := if s.get F.LEV_CTL_mode = 1 ∧ bad then s.fmAsk (leBytes n 32) (some sender) none else s.fmSend (leBytes n 32)
    if bad ∧ 1 ≤ kind ∧ kind ≤ 16 ∧ bit (s.get F.FLT_POLICY_propose) (kind - 1) then s.propose 2 sender 0xFF kind else s

/-- FAULT_REPORT. -/
def execFaultReport (m : BitVec 256) (s : State) : Host.Outcome State Fault Refusal := done (faultReportIn m s)

/-- The watermaster takes a straggler report: forwarded, and the STRAGGLER cause raised (R498). -/
def stragglerIn (m : BitVec 256) (s : State) : State := if !s.actsWm then s else (s.fmSend (leBytes m.toNat 32)).intEvent 16

/-- STRAGGLER. -/
def execStraggler (m : BitVec 256) (s : State) : Host.Outcome State Fault Refusal := done (stragglerIn m s)

/-- The watermaster takes an ORDER_ACK and returns it to the manager. -/
def orderAckIn (m : BitVec 256) (s : State) : State := if !s.actsWm then s else s.fmSend (leBytes m.toNat 32)

/-- ORDER_ACK. -/
def execOrderAck (m : BitVec 256) (s : State) : Host.Outcome State Fault Refusal := done (orderAckIn m s)

/-- A decision of the fault manager (R486): a WM_ORDER body is relayed to its target, a FENCE to every domain module with its apply turn; a COMMIT or
DISCARD body decides a step (R352, log entry 34). -/
def fmOrder (m : BitVec 256) (s : State) : State :=
  if !s.actsWm ∨ s.fmSession.isNone then s
  else
    let n := m.toNat
    let type := bits n 0 8
    if type = 0x10 ∨ type = 0x11 then s.decideStep type (bits n 64 64)
    else if type ≠ 0x83 then s
    else
      let target := bits n 32 16
      let fence := bits n 8 8 == 1
      let l := [(0, 8, 0x83), (8, 8, bits n 8 8), (16, 16, s.me), (32, 160, bits n 32 160),
        (192, 64, if fence then s.turn + 1000000 else bits n 192 64)]
      let s := { s with flt.fm := s.flt.fm.filter (fun r => r.module != some target) }
      (if fence then s.domain else [target]).foldl (fun s t => s.send (moduleAddr t) clsS 32 l) s

/-- FM_ORDER. -/
def execFmOrder (m : BitVec 256) (s : State) : Host.Outcome State Fault Refusal := done (fmOrder m s)

/-! ### Orders (R495, R496) -/

/-- Act on an order of the watermaster: the action answers 0 done, 1 refused, 2 not applicable. -/
def State.order (s : State) (sender action seq : Nat) (act : State → Nat × State) : State :=
  if s.get F.FLT_CTL_en = 0 then s
  else if sender ≠ s.get F.WM_CTL_wm then s.inc F.ORDER_COUNT_foreign
  else
    let r := act s
    let s := if r.1 = 0 then r.2.inc F.ORDER_COUNT_applied else (r.2.inc F.ORDER_COUNT_refused).faultReport 0x10 action 0 seq
    s.sendWm 0x84 32 [(8, 8, r.1), (96, 32, seq), (128, 64, s.turn)]

/-- FENCE: armed for its apply turn; refused in levee mode (R485). -/
def orderFence (sender target : BitVec 16) (port : BitVec 8) (seq : BitVec 32) (at_ : BitVec 64) (s : State) : State :=
  s.order sender.toNat 1 seq.toNat (fun s =>
    if s.get F.LEV_CTL_mode = 0 then (2, s)
    else (0, s.armFence ⟨if port.toNat = 0xFF then 2 else 1, target.toNat, port.toNat, at_.toNat⟩))

/-- WM_ORDER_FENCE. -/
def execWmOrderFence (sender target : BitVec 16) (port : BitVec 8) (seq : BitVec 32) (at_ : BitVec 64) (s : State) :
    Host.Outcome State Fault Refusal :=
  done (orderFence sender target port seq at_ s)

/-- UNFENCE: applied at the STEP_CLOSE of its step (R494). -/
def orderUnfence (sender target : BitVec 16) (port : BitVec 8) (seq : BitVec 32) (step : BitVec 64) (s : State) : State :=
  s.order sender.toNat 2 seq.toNat (fun s => (0, { s with flt.lifts := s.flt.lifts ++ [(target.toNat, port.toNat, step.toNat)] }))

/-- WM_ORDER_UNFENCE. -/
def execWmOrderUnfence (sender target : BitVec 16) (port : BitVec 8) (seq : BitVec 32) (step : BitVec 64) (s : State) :
    Host.Outcome State Fault Refusal :=
  done (orderUnfence sender target port seq step s)

/-- ABORT: the named collective ends ABORTED with the order's code. -/
def orderAbort (sender : BitVec 16) (id : BitVec 32) (code : BitVec 8) (seq : BitVec 32) (s : State) : State :=
  s.order sender.toNat 3 seq.toNat (fun s =>
    if (s.collOf id.toNat).isSome ∨ s.noContext (fun k => k.cmd.collId == id.toNat) ≠ []
      then (0, s.endAll (fun k => k.cmd.collId == id.toNat) 4 code.toNat) else (1, s))

/-- WM_ORDER_ABORT. -/
def execWmOrderAbort (sender : BitVec 16) (id : BitVec 32) (code : BitVec 8) (seq : BitVec 32) (s : State) : Host.Outcome State Fault Refusal :=
  done (orderAbort sender id code seq s)

/-- REVOKE: revocation of a chunk range (R277); of a completed collective refused (R279). -/
def orderRevoke (sender : BitVec 16) (id first last seq : BitVec 32) (s : State) : State :=
  s.order sender.toNat 4 seq.toNat (fun s => match s.collOf id.toNat with
    | some (x, _) => (0, (s.reopenRange x first.toNat last.toNat 3).settle x)
    | none => (1, s))

/-- WM_ORDER_REVOKE. -/
def execWmOrderRevoke (sender : BitVec 16) (id first last seq : BitVec 32) (s : State) : Host.Outcome State Fault Refusal :=
  done (orderRevoke sender id first last seq s)

/-- A norm set completes without the record of a fenced peer whose shards are lost (R492). -/
def State.dropPeer (s : State) (m : Nat) : State :=
  s.nor.norms.items.foldl (fun s p => if p.2.peers.contains m
    then (s.putNorm p.1 { p.2 with peers := p.2.peers.filter (· != m), parts := p.2.parts.filter (fun q => q.1 != m) }).normRestart p.1 else s) s

/-- STATE_LOST: the shard of this module becomes LOST (R504); for a fenced peer module its norm sets go on without it (R492). -/
def orderStateLost (sender target : BitVec 16) (shard : Fin 1024) (seq : BitVec 32) (s : State) : State :=
  s.order sender.toNat 5 seq.toNat (fun s =>
    if target.toNat ≠ s.me then
      (if s.flt.fences.any (fun f => f.kind == 2 && f.target == target.toNat) then (0, s.dropPeer target.toNat) else (1, s))
    else match s.shard shard with
      | none => (1, s)
      | some h => (0, (s.loseShard shard).stateLost shard 0xFFFF 3 h.t))

/-- WM_ORDER_STATE_LOST. -/
def execWmOrderStateLost (sender target : BitVec 16) (shard : Fin 1024) (seq : BitVec 32) (s : State) : Host.Outcome State Fault Refusal :=
  done (orderStateLost sender target shard seq s)

/-- TAKEOVER (R481): in manager mode the standby takes over; the order comes from the watermaster, or from the fault manager in its session. -/
def orderTakeover (sender : BitVec 16) (fm : Bool) (seq : BitVec 32) (s : State) : State :=
  let from_ := if fm ∧ s.fmSession.isSome then s.get F.WM_CTL_wm else sender.toNat
  s.order from_ 6 seq.toNat (fun s =>
    if s.get F.LEV_CTL_mode = 0 then (2, s) else if s.get F.WM_CTL_role ≠ 2 then (1, s) else (0, s.takeover))

/-- WM_ORDER_TAKEOVER. -/
def execWmOrderTakeover (sender : BitVec 16) (fm : Bool) (seq : BitVec 32) (s : State) : Host.Outcome State Fault Refusal :=
  done (orderTakeover sender fm seq s)

/-! ### Heartbeats (R481) -/

/-- The watermaster sends a heartbeat to the standby. -/
def heartbeatSend (s : State) : State :=
  if !s.actsWm ∨ s.get F.WM_CTL_standby = 0xFFFF then s
  else s.sendMod (s.get F.WM_CTL_standby) 0x85 32 [(64, 64, s.turn), (128, 64, s.get F.NOR_LAST_COMMIT_step)]

/-- WM_HEARTBEAT_SEND. -/
def execWmHeartbeatSend (s : State) : Host.Outcome State Fault Refusal := done (heartbeatSend s)

/-- The standby takes a heartbeat. -/
def heartbeat (sender : BitVec 16) (s : State) : State :=
  if s.get F.WM_CTL_role ≠ 2 ∨ sender.toNat ≠ s.get F.WM_CTL_wm then s else { s with flt.miss := 0, flt.hbAt := s.beat }

/-- WM_HEARTBEAT. -/
def execWmHeartbeat (sender : BitVec 16) (s : State) : Host.Outcome State Fault Refusal := done (heartbeat sender s)

/-- A heartbeat interval passes without one: at the third in a row the standby proposes to fence the watermaster. -/
def heartbeatMiss (s : State) : State :=
  if s.get F.WM_CTL_role ≠ 2 ∨ s.beat < s.flt.hbAt + 1000 * s.get F.WM_CTL_hb then s
  else
    let s := { s with flt.miss := s.flt.miss + 1, flt.hbAt := s.beat }
    if s.flt.miss < 3 then s else s.propose 2 (s.get F.WM_CTL_wm) 0xFF 0

/-- HEARTBEAT_MISS. -/
def execHeartbeatMiss (s : State) : Host.Outcome State Fault Refusal := done (heartbeatMiss s)

/-- A new watermaster announces itself. -/
def announce (sender : BitVec 16) (s : State) : State := s.sets [(F.WM_CTL_wm, sender.toNat), (F.WM_CTL_standby, 0xFFFF)]

/-- WM_ANNOUNCE. -/
def execWmAnnounce (sender : BitVec 16) (s : State) : Host.Outcome State Fault Refusal := done (announce sender s)

/-! ### A block reset of the fault block (R507) -/

/-- Is the register one the fault block's reset keeps? -/
def fltKeeps (a : Nat) : Bool :=
  a == R.WM_CTL || a == R.LEV_CTL || a == R.LEV_CTL2 || a == R.FLT_POLICY || (R.FM_CTL ≤ a && a ≤ R.FM_ADDR1) || a == R.FM_RESEND_COUNT
    || (R.LEV_MEM 0 ≤ a && a ≤ R.LEV_MEM 63) || (R.DOM 0 0 ≤ a && a < R.STG_HIST 0 0 0)

/-- End resilvers, drop proposals and votes, reset the registers of Table 15-5 but those it keeps. -/
def State.faultReset (s : State) : State :=
  let s := s.flt.spares.items.foldl (fun s p => match s.shard p.1 with
    | some h => s.putShard p.1 { h with st := 0 }
    | none => s) s
  let fenced := s.get F.FLT_STATUS_fenced
  { s with flt.spares := [], flt.lends := [], flt.motions := [], flt.ballots := [], flt.short := 0, flt.win := [] }.resetRegs
    (fun a => decide (R.FLT_CTL ≤ a) && decide (a < 0x3800000) && !fltKeeps a) |>.set F.FLT_STATUS_fenced fenced

end Sys2Proof.Machine
end

