-- ==== Sys2Proof/Machine/BlockResets.lean ====
section
/-!
DEFINITION. Block resets (R574): each block's own effect (R80, R115, R136, R164, R288, R325, R355, R385, R408, R443, R478, R507), one after another.
-/
namespace Sys2Proof.Machine
open Sys2Proof

/-- A load that holds a comparator and has not started ends with status HALTED_RESET. -/
def State.haltLoad (s : State) (q : Nat) (k : Coll) : State :=
  let s := k.cmp.toList.foldl State.freeCmp (s.popHead q)
  ((s.complete q k.cmd 2 0 0 CplInfo.none_).unlock_ q).signal k.cmd

/-- The loads accepted that hold a comparator. -/
def State.launchLoads (s : State) : List (Nat × Coll) :=
  s.cp.queues.filterMap (fun (e : Nat × Queue) => (e.2.wait.filter (fun k => !k.cmd.isColl && k.cmp.isSome)).map (fun k => (e.1, k)))

/-- Bit 0: every queue is emptied, every collective ends, every event counter and every word of a command returns
to 0 (R288). Groups, programs and formats stay. -/
def State.cmdReset (s : State) : State :=
  let s := s.haltReset (fun _ => true)
  let s := s.launchLoads.foldl (fun s w => w.2.cmp.toList.foldl State.freeCmp s) s
  let s := { s with cp.queues := [], cp.rr := [], host.qcmd := [] }
  let s := ((List.range 64).foldl State.unlock_ { s with sw.writing := none }).set F.RT_STATUS_loading 0
  let s := s.releaseStale
  s.resetRegs (fun a => 0x200000 ≤ a && a < 0x380000 && !(R.GRP 0 ≤ a && a ≤ R.GRP 255) && !(0x210000 ≤ a && a < 0x310000 && a % 0x4000 == 0))

/-- Bit 1: every context is FREE, every binding released, every collective on an engine ends; retirements stay (R164). The
block's counts return to 0 (R13). -/
def State.engReset (s : State) : State :=
  let s := s.haltReset (fun c => !c.engs.isEmpty)
  { s with
    eng.ctxs := []
    eng.strms := []
    eng.last := []
    eng.reqs := [] }.resetCounts (fun a => 0x400000 ≤ a && a < 0x1000000)

/-- Does a running collective decode a compressed stream? One that only moves it does not (R122). -/
def Coll.decodesSparse (c : Coll) : Bool := c.cmd.sparse && (c.cmd.loadedProg || !(decide (4 ≤ c.cmd.op) && decide (c.cmd.op ≤ 6)))

/-- Bit 2: every slot and every spill allocation is emptied; what used them ends (R80, R115, R136). The user formats and their digest stay. -/
def State.cisReset (s : State) : State :=
  let s := s.haltReset (fun c => s.usesCistern c.cmd || (c.phase != 0 && c.decodesSparse))
  let s := { s with
    cis.slots := []
    cis.regions := [] }
  s.resetRegs (fun a => 0x1000000 ≤ a && a < 0x1400000 && !(R.FMT_DESC 0 ≤ a && a ≤ R.FMT_DESC 31) && !(R.FMT_DIGEST 0 ≤ a && a ≤ R.FMT_DIGEST 3))

/-- A shard after a reset of the noria: no update pends, no snapshot or restore runs (R325). -/
def Shard.halted (h : Shard) : Shard :=
  { h with
    st := if h.st = 4 then 0 else if h.st = 2 ∨ h.st = 3 then 1 else h.st
    skipped := false
    wanted := false
    due := false
    snap := none
    restore := none }

/-- Bit 3: updates end, pending shards return to IDLE, snapshots and restores end (R325). The rules, records and norm sets stay; the digest registers
return to that of the empty table, as the other registers of Table 09-13 do. -/
def State.norReset (s : State) : State :=
  let s := s.haltReset (fun c => c.cmd.op == 0x0C)
  let s := s.nor.shards.items.foldl (fun (s : State) p => s.putShard p.1 p.2.halted) s
  s.resetRegs (fun a => 0x1400000 ≤ a && a < 0x1800000)

/-- Is the register one the memory block's reset keeps: RSV_MODE, MEM_RETAIN, and what the channels' remaps and a migration rest on? -/
def memKeeps (a : Nat) : Bool :=
  (R.RSV_MODE 0 ≤ a && a ≤ R.RSV_MODE 7) || a == R.MEM_RETAIN || a == R.LPD_SPARE || a == R.LPD_MIG || (R.LPD_CH 0 ≤ a && a ≤ R.LPD_CH 127)

/-- Bit 7: collectives on a flume or the turnout end, the cache and the pinned lines are empty (R478). What the levels hold, binding sets and remaps stay. -/
def State.memReset (s : State) : State :=
  let s := s.haltReset (fun c => s.usesMemory c.cmd)
  let d := s.get F.MEM_STATUS_degraded
  let m := s.get F.MEM_STATUS_migrating
  ({ s with rsv.pins := [], rsv.ahead := [] }.resetRegs (fun a => 0x2800000 ≤ a && a < 0x3000000 && !memKeeps a)).sets
    [(F.MEM_STATUS_degraded, d), (F.MEM_STATUS_migrating, m)] |>.resetCounts (fun a => R.LPD_CH 0 ≤ a && a ≤ R.LPD_CH 127)

/-- Bits 8 and 9: comparators are released, and the commands that held them end (R355). -/
def State.cmpReset (s : State) : State :=
  let s := s.haltReset (fun c => c.cmp.isSome || !c.locks.isEmpty)
  let s := s.launchLoads.foldl (fun s w => s.haltLoad w.1 w.2) s
  (List.range 64).foldl State.freeCmp s

/-- The time block goes out of service: the counter stops, and is not locked. -/
def State.timeOff (s : State) : State :=
  { s with det.time.counting := false, det.time.acquired := false }.sets [(F.TIME_CTL_en, 0), (F.TIME_STATUS_locked, 0)]

/-- The effect of block reset `b` (Table 18-5); the block's en bit is 0 after it, and its counts start at 0 (R13), but for AUD_SEQ, which counts parts
since boot (Table 10-9). -/
def State.blockReset (s : State) (b : Nat) : State :=
  match b with
  | 0 => s.cmdReset.set F.CMD_CTL_en 0
  | 1 => s.engReset.set F.ENG_CTL_en 0
  | 2 => s.cisReset.set F.CIS_CTL_en 0
  | 3 => s.norReset.set F.NOR_CTL_en 0
  | 4 => s.switchReset.sets [(F.SW_CTL_en, 0), (F.GR_CTL_en, 0)]
  | 5 => s.headgateReset.set F.HG_CTL_en 0
  | 6 => s.portReset.sets [(F.PT_GCTL_en, 0), (F.SW_CTL_en, 0), (F.GR_CTL_en, 0)]
  | 7 => s.memReset.set F.MEM_CTL_en 0
  | 8 => s.cmpReset.timeOff.resetCounts (fun a => 0x3000000 ≤ a && a < 0x3008000)
  | 9 => (s.cmpReset.set F.AUD_CTL_en 0).resetCounts (fun a => 0x3008000 ≤ a && a < 0x3400000 && a != R.AUD_SEQ)
  | 10 => s.faultReset.set F.FLT_CTL_en 0
  | _ => s

/-- A write of PWR_BRST: the blocks it names, in rising bit order, one after another; ignored and counted while one runs (R574). -/
def State.pwrBrst (s : State) (bits_ : Nat) : State :=
  s.bar (fun s =>
    if s.get F.PWR_STATUS_brst_busy = 1 then (s.inc F.PWR_REJ_COUNT_rej).set F.PWR_REJ_ADDR_addr R.PWR_BRST
    else match bitList bits_ 11 with
      | [] => s
      | b :: bs => ({ s with pwr.brst := b :: bs }.set F.PWR_STATUS_brst_busy 1).blockReset b)

/-- A block reset ends: POWER is raised (R581), and the next one begins. -/
def brstDone (s : State) : State :=
  match s.pwr.brst with
  | [] => s
  | _ :: [] => ({ s with pwr.brst := [] }.set F.PWR_STATUS_brst_busy 0).intEvent 24
  | _ :: b :: bs => ({ s with pwr.brst := b :: bs }.intEvent 24).blockReset b

/-- BLOCK_RESET_DONE. -/
def execBlockResetDone (s : State) : Host.Outcome State Fault Refusal := done (brstDone s)

/-- BRST_COMMAND_PROCESSOR. -/
def execBrstCommandProcessor (s : State) : Host.Outcome State Fault Refusal := done (s.pwrBrst 1)

/-- BRST_ENGINES. -/
def execBrstEngines (s : State) : Host.Outcome State Fault Refusal := done (s.pwrBrst 2)

/-- BRST_CISTERN. -/
def execBrstCistern (s : State) : Host.Outcome State Fault Refusal := done (s.pwrBrst 4)

/-- BRST_NORIA. -/
def execBrstNoria (s : State) : Host.Outcome State Fault Refusal := done (s.pwrBrst 8)

/-- BRST_SWITCH_CORE. -/
def execBrstSwitchCore (s : State) : Host.Outcome State Fault Refusal := done (s.pwrBrst 0x10)

/-- BRST_HEADGATES. -/
def execBrstHeadgates (s : State) : Host.Outcome State Fault Refusal := done (s.pwrBrst 0x20)

/-- BRST_PORTS. -/
def execBrstPorts (s : State) : Host.Outcome State Fault Refusal := done (s.pwrBrst 0x40)

/-- BRST_MEMORY. -/
def execBrstMemory (s : State) : Host.Outcome State Fault Refusal := done (s.pwrBrst 0x80)

/-- BRST_TIME. -/
def execBrstTime (s : State) : Host.Outcome State Fault Refusal := done (s.pwrBrst 0x100)

/-- BRST_AUDIT. -/
def execBrstAudit (s : State) : Host.Outcome State Fault Refusal := done (s.pwrBrst 0x200)

/-- BRST_FAULTS. -/
def execBrstFaults (s : State) : Host.Outcome State Fault Refusal := done (s.pwrBrst 0x400)

end Sys2Proof.Machine
end

