-- ==== Sys2Proof/Machine/FieldLog.lean ====
section
/-!
DEFINITION. The field log (R601 to R609): its image, its flash, and the signed export.
-/
namespace Sys2Proof.Machine
open Sys2Proof

/-! ### The image (Table 19-6) -/

/-- Bytes of the image. -/
def flogBytes : Nat := 0x118000

/-- The 64 bytes of a journal entry (Table 19-7). -/
def JEntry.bytes (e : JEntry) : List Byte :=
  let b := leBytes e.kind 1 ++ leBytes e.sub 1 ++ leBytes e.unit 2 ++ leBytes e.boot 4 ++ leBytes e.secs 8 ++ leBytes e.turn 8 ++ leBytes e.temp 2 ++
    leBytes e.mv 2 ++ leBytes e.sig 4 ++ leBytes e.detail 16 ++ leBytes e.seq 8 ++ leBytes 0 4
  b ++ leBytes (crc32c b) 4

/-- The summary number last written. -/
def Flash.seq (f : Flash) : Nat := (f.sums.map (·.seq)).foldl max 0

/-- The maps section, as the registers have it; spare lanes as of the last training. -/
def State.flogMaps (s : State) : List Byte :=
  (List.range 128).flatMap (fun n => leBytes (s.get (F.ENG_MAP_phys n)) 1)
    ++ (List.range 16).flatMap (fun c => leBytes (bits (s.word (R.COL_STATUS c)).toNat 0 18) 4)
    ++ (List.range 128).flatMap (fun n => leBytes (s.get (F.LPD_CH_phys n) + 256 * s.get (F.LPD_CH_state n)) 2)
    ++ (List.range 16).flatMap (fun i =>
      let used := s.flog.num (0x7D68 + 0x1C0 + 2 * i) 2
      leBytes (if used ≠ 0 then used else s.get (F.SPARE_port (i / 2) (i % 2))) 2)

/-- A byte of the image past its header. -/
def FlogImage.past (g : FlogImage) (off : Nat) : Byte :=
  if 0x7D68 ≤ off ∧ off < 0x7F48 then g.maps.getD (off - 0x7D68) 0
  else if off < 0x8000 then (g.body.rd off 1).headD 0
  else if off < 0x18000 then (((g.perm[(off - 0x8000) / 64]?).map JEntry.bytes).getD []).getD (off % 64) 0
  else if off < flogBytes then
    let slot := (off - 0x18000) / 64
    let oldest := g.n - g.roll.length
    let i := (slot + 16384 - oldest % 16384) % 16384
    (((g.roll[i]?).map JEntry.bytes).getD []).getD (off % 64) 0
  else 0

/-- A byte of the image; beyond its end 0 (R608). -/
def FlogImage.byte (g : FlogImage) (off : Nat) : Byte := if off < 64 then g.head.getD off 0 else g.past off

/-- All bytes of the image. -/
def FlogImage.bytes (g : FlogImage) : List Byte := g.head ++ (List.range (flogBytes - 64)).map (fun i => g.past (64 + i))

/-- The working copy as it stands, with its header (R601). -/
def State.flogImage (s : State) : FlogImage :=
  let h := leBytes 0x474F4C46 4 ++ leBytes 1 2 ++ leBytes 0 2 ++ s.dev ++ leBytes s.flash.seq 8 ++ leBytes (s.get F.FLOG_PTIME_seconds) 8 ++
    leBytes (s.get F.AUD_BOOT_boot) 4 ++ leBytes (s.flash.n % 16384) 2 ++ leBytes s.flash.perm.length 2 ++ leBytes s.flash.next 8 ++
    leBytes (s.flog.num 0x38 4) 4
  let g : FlogImage := ⟨h ++ leBytes 0 4, s.flog, s.flogMaps, s.flash.perm, s.flash.roll, s.flash.n⟩
  let c := crc32c (g.head ++ (List.range (0x8000 - 64)).map (fun i => g.past (64 + i)))
  { g with head := h ++ leBytes c 4 }

/-! ### Each second (R603, R604) -/

/-- One powered second: the temperature of each sensor and the profile in force are counted. -/
def flogSecond (s : State) : State :=
  if s.pwr.off then s
  else
    let temps := (List.range 24).map (fun i => s.get (F.ISL_temp i)) ++ (List.range 8).map (fun k => s.get (F.HBM_STACK_temp k)) ++ [s.get F.COOL_outlet]
    let s := (temps.zipIdx).foldl (fun (s : State) t => s.flogAdd (0x40 + 4 * (34 * t.2 + logBin t.1)) 4) s
    let p := s.get F.PWR_STATUS_profile
    let s := if 1 ≤ p ∧ p ≤ 6 then s.flogAdd (0x11C8 + 8 * (p - 1)) 8 else s
    s.inc F.FLOG_PTIME_seconds

/-- FLOG_SECOND_TICK. -/
def execFlogSecondTick (s : State) : Host.Outcome State Fault Refusal := done (flogSecond s)

/-! ### Flash (R604 to R607) -/

/-- Every attempt to write flash failed. -/
def State.flogFail (s : State) : State := s.set F.FLOG_STATUS_flog_fail 1

/-- The powered second of the last summary. -/
def Flash.lastAt (f : Flash) : Nat := (f.sums.map (·.secs)).foldl max 0

/-- Every 600 powered seconds the summary is written over the older of two copies; `fail` says that every attempt failed. -/
def flogSummary (fail : Bool) (s : State) : State :=
  if s.pwr.off ∨ s.get F.FLOG_PTIME_seconds < s.flash.lastAt + 600 then s
  else if fail then s.flogFail
  else
    let x : Summary := ⟨s.flash.seq + 1, s.flog, s.flash.next, s.get F.FLOG_PTIME_seconds⟩
    { s with flash.sums := (s.flash.sums.filter (fun (y : Summary) => y.seq == s.flash.seq)) ++ [x] }.inc F.FLOG_WRITE_COUNT_summaries

/-- FLOG_SUMMARY_WRITE. -/
def execFlogSummaryWrite (fail : Bool) (s : State) : Host.Outcome State Fault Refusal := done (flogSummary fail s)

/-- Write an entry into its journal in flash. -/
def Flash.write (f : Flash) (e : JEntry) : Flash :=
  if jPermanent e.kind then { f with perm := f.perm ++ [e] }
  else
    let r := f.roll ++ [e]
    { f with roll := r.drop (r.length - 16384), n := f.n + 1 }

/-- The cistern column or engine of a residue unit goes on as degraded (R161, R607). -/
def State.degradeUnit (s : State) (unit : Nat) : State :=
  if unit < 136 then { s with eng.retiring := s.eng.retiring.filter (· != unit) }.degrade 0 unit 0 0
  else
    let c := (unit - 136) / 9
    s.degrade 1 (17 * (c / 2) + 8 * (c % 2)) c ((unit - 136) % 9)

/-- The entry at the head of the queue becomes durable; a retirement or a remap then takes effect (R605). When every attempt fails, it does not,
and the unit goes on as degraded (R607). -/
def flogDurable (fail : Bool) (s : State) : State :=
  match s.journal with
  | [] => s
  | e :: rest =>
    let s := { s with journal := rest }
    if fail then
      let s := s.flogFail
      if e.kind = 2 then s.degradeUnit e.unit else if e.kind = 4 then s.lpdDegrade e.unit else s
    else
      let s := { s with flash := s.flash.write e }.inc F.FLOG_WRITE_COUNT_entries
      if e.kind = 2 then s.retireUnit e.unit else if e.kind = 4 then s.remap e.unit e.detail else s

/-- FLOG_ENTRY_DURABLE. -/
def execFlogEntryDurable (fail : Bool) (s : State) : Host.Outcome State Fault Refusal := done (flogDurable fail s)

/-! ### After power-up (R606) -/

/-- Apply the counts that a journal entry carries to a summary. -/
def State.replayEntry (s : State) (e : JEntry) : State :=
  match e.kind with
  | 1 =>
    let a := flogAt e.unit
    let s := s.flogAdd a 4
    { s with flog := (s.flog.wr (a + 8) (leBytes (s.flog.num (a + 4) 4) 4)).wr (a + 4) (leBytes (min (2 ^ 32 - 1) e.secs) 4) }
  | 2 => { s with flog := s.flog.wr (flogAt e.unit + 12) [1] }
  | 5 =>
    if e.unit < 24 then (if e.sub = 2 then s.flogAdd (0x7F48 + 4 * e.unit) 4 else if e.sub = 4 then s.flogAdd (0x7F48 + 136) 4 else s)
    else if e.unit < 32 then (if e.sub = 3 then s.flogAdd (0x7F48 + 96 + 4 * (e.unit - 24)) 4 else s)
    else if e.sub = 3 then s.flogAdd (0x7F48 + 132) 4 else s
  | 6 => s.flogAdd (0x7F48 + 128) 4
  | 0x0B => s.flogAdd (0x62E8 + 16 * e.unit + 12) 2
  | 0x0C => { s with flog := s.flog.wr (0x7D68 + 0xC0 + 2 * e.unit) (leBytes (e.detail + 0x300) 2) }
  | _ => s

/-- The working copy after power-up: the summary with the higher number, and every entry numbered at or above its next entry. -/
def State.restoreLog (s : State) : State :=
  let x := s.flash.sums.foldl (fun (a : Summary) b => if a.seq ≤ b.seq then b else a) ⟨0, [], 0, 0⟩
  let es := sortBy (fun a b => decide (a.seq ≤ b.seq)) (s.flash.perm ++ s.flash.roll)
  let secs := (es.map (·.secs)).foldl max x.secs
  (es.filter (fun e => x.next ≤ e.seq)).foldl State.replayEntry ({ s with flog := x.body }.set F.FLOG_PTIME_seconds secs)

/-- Restore the maps of retirements and remaps, and the degraded units (R605, R160, R472). -/
def State.restoreMaps (s : State) : State :=
  let s := s.flash.perm.foldl (fun (s : State) e =>
    if e.kind = 2 then s.retireUnit e.unit
    else if e.kind = 4 then
      let free := s.get F.LPD_SPARE_free
      s.sets [(F.LPD_SPARE_free, if bit free (e.detail - 128) then free - 2 ^ (e.detail - 128) else free), (F.LPD_CH_phys e.unit, e.detail),
        (F.LPD_CH_state e.unit, 2)]
    else s) s
  let s := (List.range 280).foldl (fun (s : State) u =>
    if s.flog.num (flogAt u + 12) 1 ≠ 2 then s
    else (if u < 136 then s.set (F.ENG_STATUS_degraded u) 1 else s.set ⟨R.COL_STATUS ((u - 136) / 9), 2 * ((u - 136) % 9), 2⟩ 2).set
      F.ENG_GSTATUS_degraded_any 1) s
  let s := (List.range 128).foldl (fun (s : State) n =>
    if s.flog.num (0x7D68 + 0xC0 + 2 * n + 1) 1 ≠ 3 then s else s.sets [(F.LPD_CH_state n, 3), (F.MEM_STATUS_degraded, 1)]) s
  s.resetRegs (fun a => a == R.PERT 8)

/-! ### Reading and export (R608, R609) -/

/-- A write of FLOG_CTL.export: a snapshot of the working copy at this turn; ignored and counted while one is being built. -/
def flogExport (s : State) : State :=
  s.bar (fun s =>
    if s.get F.FLOG_STATUS_export_busy = 1 then (s.inc F.DBG_REJ_COUNT_rej).set F.DBG_REJ_ADDR_addr R.FLOG_CTL
    else
      let h := leBytes 0x58504C46 4 ++ leBytes 1 2 ++ leBytes 0 2 ++ leBytes flogBytes 4 ++ leBytes 0 4 ++ s.dev ++
        (List.range 4).flatMap (fun n => leBytes (s.word (R.FLOG_NONCE n)).toNat 8)
      { s with flash.exp := some ⟨h, s.flogImage, []⟩ }.sets [(F.FLOG_STATUS_export_busy, 1), (F.FLOG_STATUS_export_ready, 0)])

/-- FLOG_EXPORT_REQUEST. -/
def execFlogExportRequest (s : State) : Host.Outcome State Fault Refusal := done (flogExport s)

/-- The export is built: both signatures of the device attestation key over header and image. -/
def flogExportReady (s : State) : State :=
  match s.flash.exp with
  | none => s
  | some x =>
    if s.get F.FLOG_STATUS_export_busy = 0 then s
    else
      let sig := s.aliasSign (x.head ++ x.image.bytes)
      { s with flash.exp := some { x with sig := sig } }.sets [(F.FLOG_STATUS_export_busy, 0), (F.FLOG_STATUS_export_ready, 1)]

/-- FLOG_EXPORT_READY. -/
def execFlogExportReady (s : State) : Host.Outcome State Fault Refusal := done (flogExportReady s)

/-- A byte of the export. -/
def Export.byte (x : Export) (off : Nat) : Byte :=
  if off < 64 then x.head.getD off 0 else if off < 64 + flogBytes then x.image.byte (off - 64)
  else if off < 64 + flogBytes + 4736 then x.sig.getD (off - 64 - flogBytes) 0 else 0

/-- The 8 bytes at an offset of the image that FLOG_CTL.src selects. -/
def State.flogWord (s : State) (off : Nat) : Nat :=
  let b := fun (i : Nat) => if s.get F.FLOG_CTL_src = 0 then s.flogImage.byte (off + i)
    else if s.get F.FLOG_STATUS_export_ready = 0 then 0 else (s.flash.exp.map (fun x => x.byte (off + i))).getD 0
  leNat ((List.range 8).map b)

/-- A read of FLOG_DATA returns 8 bytes and advances FLOG_ADDR; before ready it returns 0 (R571). -/
def flogRead (s : State) : State :=
  if s.host.d3hot then s
  else if !s.ready then s.emit (.read 0)
  else (s.emit (.read (s.flogWord (8 * s.get F.FLOG_ADDR_addr)))).inc F.FLOG_ADDR_addr

/-- FLOG_DATA_READ. -/
def execFlogDataRead (s : State) : Host.Outcome State Fault Refusal := done (flogRead s)

end Sys2Proof.Machine
end

