-- ==== Sys2Proof/Machine/Spdm.lean ====
section
/-!
DEFINITION. The SPDM responder (R514, R515), enrollment (R517, R518), memory assignment (R522), endpoint roots (R528). Requests are taken decoded;
the head of a response is that of DSP0274 (log entry 35).
-/
namespace Sys2Proof.Machine
open Sys2Proof

/-! ### Responses -/

/-- Send a response: version 1.3, its code, two parameters, its content. It is what CHUNK_GET returns in pieces. -/
def State.spdmOut (s : State) (b : Nat) (ses : Option Nat) (code p1 p2 : Nat) (body : List Byte) : State :=
  let m := leBytes 0x13 1 ++ leBytes code 1 ++ leBytes p1 1 ++ leBytes p2 1 ++ body
  { s with sec.chunks := s.sec.chunks.put (2 * b + 1) m }.emit (.spdm b ses m)

/-- An ERROR response. -/
def State.spdmError (s : State) (b : Nat) (ses : Option Nat) (code : Nat) : State := s.spdmOut b ses 0x7F code 0 []

/-- The session of a number on a binding. -/
def State.session (s : State) (b id : Nat) : Option Session := s.sec.sessions.find? (fun x => x.id == id && x.via == b)

/-- Replace a session. -/
def State.putSession (s : State) (x : Session) : State :=
  { s with sec.sessions := s.sec.sessions.map (fun (y : Session) => if y.id == x.id then x else y) }

/-- End a session. -/
def State.dropSession (s : State) (id : Nat) : State := { s with sec.sessions := s.sec.sessions.filter (fun (y : Session) => y.id != id) }

/-- Does the responder run: stage 1 has booted (R510)? In SCRAP it answers GET_VERSION alone (Table 16-3). -/
def State.spdmUp (s : State) : Bool := !s.pwr.off && s.get F.SEC_STATUS_boot_fail == 0

/-- Answer a request that needs the binding to have negotiated as far as `phase`; one that names a session needs it to be there and secured. -/
def State.spdmAsk (s : State) (b : Nat) (ses : Option Nat) (phase : Nat) (f : State → State) : State :=
  if !s.spdmUp ∨ s.get F.SEC_STATUS_lifecycle = 3 then s
  else if s.sec.neg.rd b < phase then s.spdmError b ses 4
  else if ses.any (fun id => !(s.session b id).any (fun x => x.secured)) then s.spdmError b ses 2
  else f s

/-- The ECDSA chain of certificate slot 0 (R512). -/
def State.chain0 (s : State) : List Byte := Config.certChain 0 s.cdi2

/-! ### Requests of SPDM -/

/-- GET_VERSION: 1.3 and no other; the negotiation begins anew. -/
def spdmVersion (b : Fin 3) (s : State) : State :=
  if !s.spdmUp then s
  else { s with sec.neg := s.sec.neg.wr b.val 1, sec.mlog := s.sec.mlog.drop b.val }.spdmOut b.val none 4 0 0 (leBytes 1 2 ++ leBytes 0x1300 2)

/-- GET_VERSION. -/
def execGetVersion (b : Fin 3) (s : State) : Host.Outcome State Fault Refusal := done (spdmVersion b s)

/-- The capabilities of the responder: bit flags of CERT, CHAL, MEAS with signature, ENCRYPT, MAC, MUT_AUTH, KEY_EX, HBEAT, KEY_UPD, CHUNK. -/
def spdmCaps : Nat := 0x026FD6 ||| 0x20000

/-- GET_CAPABILITIES. -/
def spdmCapabilities (b : Fin 3) (s : State) : State :=
  s.spdmAsk b.val none 1 (fun s => { s with sec.neg := s.sec.neg.wr b.val 2 }.spdmOut b.val none 0x61 0 0 (Config.layout 0 [spdmCaps]))

/-- GET_CAPABILITIES. -/
def execGetCapabilities (b : Fin 3) (s : State) : Host.Outcome State Fault Refusal := done (spdmCapabilities b s)

/-- NEGOTIATE_ALGORITHMS with what the requester offers: ECDSA P-384, SHA-384, secp384r1 and AES-256-GCM are taken (R514), and nothing else. -/
def spdmAlgorithms (b : Fin 3) (asym hash dhe aead : Bool) (s : State) : State :=
  s.spdmAsk b.val none 2 (fun s =>
    if !asym ∨ !hash then s.spdmError b.val none 1
    else { s with sec.neg := s.sec.neg.wr b.val 3 }.spdmOut b.val none 0x63 0 0 (Config.layout 1 [1, 1, b2n dhe, b2n aead]))

/-- NEGOTIATE_ALGORITHMS. -/
def execNegotiateAlgorithms (b : Fin 3) (asym hash dhe aead : Bool) (s : State) : Host.Outcome State Fault Refusal :=
  done (spdmAlgorithms b asym hash dhe aead s)

/-- GET_DIGESTS: the digest of slot 0's chain. -/
def spdmDigests (b : Fin 3) (session : Option (BitVec 32)) (s : State) : State :=
  let ses := session.map (·.toNat)
  s.spdmAsk b.val ses 3 (fun s => s.spdmOut b.val ses 1 0 1 (sha384 s.chain0))

/-- GET_DIGESTS. -/
def execGetDigests (b : Fin 3) (session : Option (BitVec 32)) (s : State) : Host.Outcome State Fault Refusal := done (spdmDigests b session s)

/-- GET_CERTIFICATE: a portion of slot 0's chain and what remains of it. -/
def spdmCertificate (b : Fin 3) (session : Option (BitVec 32)) (slot : Fin 8) (off len : BitVec 16) (s : State) : State :=
  let ses := session.map (·.toNat)
  s.spdmAsk b.val ses 3 (fun s =>
    let c := s.chain0
    let p := (c.drop off.toNat).take len.toNat
    if slot.val ≠ 0 ∨ (off.toNat ≥ c.length ∧ c ≠ []) then s.spdmError b.val ses 1
    else s.spdmOut b.val ses 2 0 0 (leBytes p.length 2 ++ leBytes (c.length - off.toNat - p.length) 2 ++ p))

/-- GET_CERTIFICATE. -/
def execGetCertificate (b : Fin 3) (session : Option (BitVec 32)) (slot : Fin 8) (off len : BitVec 16) (s : State) :
    Host.Outcome State Fault Refusal :=
  done (spdmCertificate b session slot off len s)

/-- Enrolled tenants in ascending id. -/
def State.tenantsById (s : State) : List Tenant := sortBy (fun a b => decide (a.id ≤ b.id)) (s.sec.tenants.items.map (fun (p : Nat × Tenant) => p.2))

/-- The enrollment digest: ids, permissions and key hashes (measurement 8). -/
def State.enrollDigest (s : State) : List Byte :=
  sha384 (s.tenantsById.flatMap (fun t => leBytes t.id 4 ++ leBytes t.perm 1 ++ t.keys.flatMap (fun k => sha384 (k.ec ++ k.pq))))

/-- A measurement block (Table 16-4). -/
def State.measurement (s : State) (k : Nat) : List Byte :=
  match k with
  | 1 => Config.romDigest.toList
  | 2 => sha384 (s.runImage 1).2
  | 3 => sha384 (s.runImage 2).2
  | 4 => sha384 (Config.layout 2 [s.get F.SEC_STATUS_lifecycle, s.get F.SEC_STATUS_debug, s.get F.FW_SVN_fuse])
  | 5 => if s.sec.owner = [] then List.replicate 48 0 else s.sec.owner
  | 6 => sha384 ((List.range 4).flatMap (fun n => leBytes (s.word (R.FMT_DIGEST n)).toNat 8))
  | 7 => sha384 ((List.range 4).flatMap (fun n => leBytes (s.word (R.RULE_DIGEST n)).toNat 8))
  | 8 => s.enrollDigest
  | _ => (Config.assignDigest s.sec.owners).toList

/-- The blocks a request names: 0xFF all, else one. -/
def spdmBlocks (index : Nat) : List Nat := if index = 0xFF then (List.range 9).map (· + 1) else if 1 ≤ index ∧ index ≤ 9 then [index] else []

/-- Append to the transcript of GET_MEASUREMENTS: the session's, or the binding's outside one. -/
def State.measureLog (s : State) (b : Nat) (ses : Option Nat) (m : List Byte) : State :=
  match ses.bind (s.session b) with
  | some x => s.putSession { x with log := x.log ++ m }
  | none => { s with sec.mlog := s.sec.mlog.put b ((s.sec.mlog.find b).getD [] ++ m) }

/-- That transcript. -/
def State.transcript (s : State) (b : Nat) (ses : Option Nat) : List Byte :=
  match ses.bind (s.session b) with
  | some x => x.log
  | none => (s.sec.mlog.find b).getD []

/-- GET_MEASUREMENTS: the blocks as SHA-384 digests, signed by the alias key where the requester asks (R515). -/
def spdmMeasurements (b : Fin 3) (session : Option (BitVec 32)) (index : BitVec 8) (sign : Bool) (nonce : BitVec 256) (s : State) : State :=
  let ses := session.map (·.toNat)
  s.spdmAsk b.val ses 3 (fun s =>
    let n := index.toNat
    if n ≠ 0 ∧ spdmBlocks n = [] then s.spdmError b.val ses 1
    else
      let blocks := (spdmBlocks n).flatMap (fun k => leBytes k 1 ++ s.measurement k)
      let r := s.free 256
      let body := leBytes (spdmBlocks n).length 1 ++ blocks ++ leBytes r.1 32
      let ask := leBytes 0x13 1 ++ leBytes 0xE0 1 ++ leBytes (b2n sign) 1 ++ leBytes n 1 ++ (if sign then leBytes nonce.toNat 32 else [])
      let s := r.2.measureLog b.val ses (ask ++ leBytes 0x6013 2 ++ leBytes (if n = 0 then 9 else 0) 1 ++ leBytes 0 1 ++ body)
      let sig := if sign then (Config.aliasEc s.cdi2 (s.transcript b.val ses)).toList else []
      s.spdmOut b.val ses 0x60 (if n = 0 then 9 else 0) 0 (body ++ sig))

/-- GET_MEASUREMENTS. -/
def execGetMeasurements (b : Fin 3) (session : Option (BitVec 32)) (index : BitVec 8) (sign : Bool) (nonce : BitVec 256) (s : State) :
    Host.Outcome State Fault Refusal :=
  done (spdmMeasurements b session index sign nonce s)

/-- CHALLENGE: the digest of the chain and the alias key's signature over the requester's nonce and the answer. -/
def spdmChallenge (b : Fin 3) (slot : Fin 8) (nonce : BitVec 256) (s : State) : State :=
  s.spdmAsk b.val none 3 (fun s =>
    let r := s.free 256
    let body := sha384 s.chain0 ++ leBytes r.1 32
    if slot.val ≠ 0 then s.spdmError b.val none 1
    else r.2.spdmOut b.val none 3 0 1 (body ++ (Config.aliasEc s.cdi2 (leBytes nonce.toNat 32 ++ body)).toList))

/-- CHALLENGE. -/
def execChallenge (b : Fin 3) (slot : Fin 8) (nonce : BitVec 256) (s : State) : Host.Outcome State Fault Refusal := done (spdmChallenge b slot nonce s)

/-- KEY_EXCHANGE: a session begins, at most 4 at once. -/
def spdmKeyExchange (b : Fin 3) (request : List Byte) (s : State) : State :=
  s.spdmAsk b.val none 3 (fun s =>
    if s.sec.sessions.length ≥ 4 then s.spdmError b.val none 0x0A
    else
      let r := s.free 64
      let id := s.sec.nextSes
      let x : Session := ⟨id, b.val, false, r.1, 0, [], false⟩
      let body := leBytes id 4 ++ Config.spdmKey r.1 request
      { r.2 with
        sec.sessions := r.2.sec.sessions ++ [x]
        sec.nextSes := (id + 1) % 2 ^ 32 }.spdmOut b.val none 0x64 0 0 (body ++ (Config.aliasEc s.cdi2 (s.chain0 ++ request ++ body)).toList))

/-- KEY_EXCHANGE. -/
def execKeyExchange (b : Fin 3) (request : List Byte) (s : State) : Host.Outcome State Fault Refusal := done (spdmKeyExchange b request s)

/-- FINISH: the session is secured when it verifies; with mutual authentication the requester's chain tells the fault manager (R530). -/
def spdmFinish (b : Fin 3) (session : BitVec 32) (chain fin : List Byte) (s : State) : State :=
  if !s.spdmUp ∨ s.get F.SEC_STATUS_lifecycle = 3 then s
  else match s.session b.val session.toNat with
    | none => s.spdmError b.val none 2
    | some x =>
      if x.secured then s.spdmError b.val none 4
      else if !Config.spdmFinish x.eph chain fin then (s.dropSession x.id).spdmError b.val none 6
      else (s.putSession { x with secured := true, fm := chain != [] && Config.ownerSigned s.sec.owner chain }).spdmOut b.val (some x.id) 0x65 0 0 []

/-- FINISH. -/
def execFinish (b : Fin 3) (session : BitVec 32) (chain fin : List Byte) (s : State) : Host.Outcome State Fault Refusal :=
  done (spdmFinish b session chain fin s)

/-- HEARTBEAT within a session. -/
def spdmHeartbeat (b : Fin 3) (session : BitVec 32) (s : State) : State :=
  s.spdmAsk b.val (some session.toNat) 0 (fun s => s.spdmOut b.val (some session.toNat) 0x68 0 0 [])

/-- SPDM_HEARTBEAT. -/
def execSpdmHeartbeat (b : Fin 3) (session : BitVec 32) (s : State) : Host.Outcome State Fault Refusal := done (spdmHeartbeat b session s)

/-- KEY_UPDATE within a session: 1 the requester's key, 2 every key, 3 the verification of the new key. -/
def spdmKeyUpdate (b : Fin 3) (session : BitVec 32) (op tag : BitVec 8) (s : State) : State :=
  s.spdmAsk b.val (some session.toNat) 0 (fun s =>
    if op.toNat < 1 ∨ 3 < op.toNat then s.spdmError b.val (some session.toNat) 1
    else
      let s := match s.session b.val session.toNat with
        | some x => if op.toNat = 3 then s else s.putSession { x with gen := x.gen + 1 }
        | none => s
      s.spdmOut b.val (some session.toNat) 0x69 op.toNat tag.toNat [])

/-- KEY_UPDATE. -/
def execKeyUpdate (b : Fin 3) (session : BitVec 32) (op tag : BitVec 8) (s : State) : Host.Outcome State Fault Refusal :=
  done (spdmKeyUpdate b session op tag s)

/-- END_SESSION: acknowledged within the session, which then ends. -/
def spdmEndSession (b : Fin 3) (session : BitVec 32) (s : State) : State :=
  s.spdmAsk b.val (some session.toNat) 0 (fun s => (s.spdmOut b.val (some session.toNat) 0x6C 0 0 []).dropSession session.toNat)

/-- END_SESSION. -/
def execEndSession (b : Fin 3) (session : BitVec 32) (s : State) : Host.Outcome State Fault Refusal := done (spdmEndSession b session s)

/-- CHUNK_SEND: the chunks of a large request are gathered in order from number 0. -/
def spdmChunkSend (b : Fin 3) (session : Option (BitVec 32)) (handle : BitVec 8) (seq : BitVec 16) (data : List Byte) (s : State) : State :=
  let ses := session.map (·.toNat)
  s.spdmAsk b.val ses 2 (fun s =>
    let due := if seq.toNat = 0 then 0 else s.sec.neg.rd (8 + b.val)
    let old := if seq.toNat = 0 then [] else (s.sec.chunks.find (2 * b.val)).getD []
    if seq.toNat ≠ due then s.spdmError b.val ses 1
    else
      let t := { s with
        sec.neg := s.sec.neg.wr (8 + b.val) (due + 1)
        sec.chunks := s.sec.chunks.put (2 * b.val) (old ++ data) }
      t.spdmOut b.val ses 5 0 handle.toNat (leBytes seq.toNat 2))

/-- CHUNK_SEND. -/
def execChunkSend (b : Fin 3) (session : Option (BitVec 32)) (handle : BitVec 8) (seq : BitVec 16) (data : List Byte) (s : State) :
    Host.Outcome State Fault Refusal :=
  done (spdmChunkSend b session handle seq data s)

/-- CHUNK_GET: a piece of the last response, of the size the requester takes. -/
def spdmChunkGet (b : Fin 3) (session : Option (BitVec 32)) (handle : BitVec 8) (seq : BitVec 16) (size : BitVec 32) (s : State) : State :=
  let ses := session.map (·.toNat)
  s.spdmAsk b.val ses 2 (fun s =>
    let m := (s.sec.chunks.find (2 * b.val + 1)).getD []
    let p := (m.drop (seq.toNat * size.toNat)).take size.toNat
    if p = [] then s.spdmError b.val ses 1
    else s.emit (.spdm b.val ses (leBytes 0x13 1 ++ leBytes 6 1 ++ leBytes (b2n (decide (m.length ≤ (seq.toNat + 1) * size.toNat))) 1 ++
      leBytes handle.toNat 1 ++ leBytes seq.toNat 2 ++ p)))

/-- CHUNK_GET. -/
def execChunkGet (b : Fin 3) (session : Option (BitVec 32)) (handle : BitVec 8) (seq : BitVec 16) (size : BitVec 32) (s : State) :
    Host.Outcome State Fault Refusal :=
  done (spdmChunkGet b session handle seq size s)

/-! ### Vendor-defined requests (R515) -/

/-- The answer to a vendor-defined op: the op, 0 accepted or 1 refused, its data. -/
def State.vendorOut (s : State) (b : Nat) (ses : Option Nat) (op status : Nat) (body : List Byte) : State :=
  s.spdmOut b ses 0x7E 0 0 (leBytes op 1 ++ leBytes status 1 ++ body)

/-- ATTEST_PQ: the ML-DSA chain, and the alias key's signature over the transcript of GET_MEASUREMENTS. -/
def attestPq (b : Fin 3) (session : Option (BitVec 32)) (s : State) : State :=
  let ses := session.map (·.toNat)
  s.spdmAsk b.val ses 3 (fun s =>
    s.vendorOut b.val ses 1 0 (Config.certChain 1 s.cdi2 ++ (Config.aliasPq s.cdi2 (sha384 (s.transcript b.val ses))).toList))

/-- ATTEST_PQ. -/
def execAttestPq (b : Fin 3) (session : Option (BitVec 32)) (s : State) : Host.Outcome State Fault Refusal := done (attestPq b session s)

/-- An op that the owner signs: accepted in a secured session alone; without an owner hash it is refused, and a signature that does not verify
raises SIGNATURE cause 0x0C. `f` answers none where the request is refused. -/
def State.ownerAsk (s : State) (b ses op : Nat) (m ec pq : List Byte) (f : State → Option State) : State :=
  s.spdmAsk b (some ses) 3 (fun s =>
    let no := s.vendorOut b (some ses) op 1 []
    if s.sec.owner = [] then no
    else if !Config.ecdsaOk (Config.ownerEc s.sec.owner) m ec ∨ !Config.mldsaOk (Config.ownerPq s.sec.owner) m pq then
      (s.sigTrap 0x0C 0 0 ⟨5, 0xFFFFFFFF, 0xFF⟩).vendorOut b (some ses) op 1 []
    else match f s with
      | some t => t.vendorOut b (some ses) op 0 []
      | none => no)

/-- Bytes of an enrollment record (Table 16-5). -/
def enrollBytes : Nat := 0x2AE0 + 4627

/-- The signing keys of a record. -/
def enrollKeys (r : List Byte) : List TenKey :=
  (List.range (fieldOf r 5 1)).map (fun i =>
    let k := (r.drop (0x40 + 2704 * i)).take 2704
    ⟨fieldOf k 0 4, (k.drop 4).take 96, (k.drop 100).take 2592⟩)

/-- Is a record well formed: its length, 1 to 4 keys, zeros where it holds nothing? -/
def enrollShape (r : List Byte) : Bool :=
  let n := fieldOf r 5 1
  decide (r.length = enrollBytes ∧ 1 ≤ n ∧ n ≤ 4) && zeros ((r.drop 6).take 2) && zeros ((r.drop 0x1A).take 2)
    && (List.range 4).all (fun i =>
      let k := (r.drop (0x40 + 2704 * i)).take 2704
      zeros (k.drop 2692) && (decide (i < n) || zeros k))

/-- May the tenant of a record be enrolled (R517)? -/
def State.enrollOk (s : State) (r : List Byte) : Bool :=
  let id := fieldOf r 0 4
  let perm := fieldOf r 4 1
  let ks := (enrollKeys r).map (·.id)
  enrollShape r && decide (s.sec.tenants.items.length < 16) && (!bit perm 4 || id == 0) && decide (perm < 64) && (s.tenant id).isNone
    && !ks.contains 0 && (ks.eraseDups.length == ks.length) && ks.all (fun k => (s.keyOwner k).isNone)

/-- Enroll the tenant of a record in the lowest free slot. -/
def State.enroll_ (s : State) (r : List Byte) : State :=
  let t : Tenant := ⟨fieldOf r 0 4, fieldOf r 4 1, fieldOf r 8 18, fieldOf r 0x1C 4, (r.drop 0x20).take 32, enrollKeys r, 0, 2 ^ 63⟩
  let k := ((List.range 16).find? (fun k => (s.sec.tenants.find k).isNone)).getD 15
  { s with sec.tenants := s.sec.tenants.put k t }

/-- ENROLL (R517). -/
def enroll (b : Fin 3) (session : BitVec 32) (record : List Byte) (s : State) : State :=
  s.ownerAsk b.val session.toNat 2 (record.take 0x2A80) ((record.drop 0x2A80).take 96) (record.drop 0x2AE0)
    (fun s => if s.enrollOk record then some (s.enroll_ record) else none)

/-- ENROLL. -/
def execEnroll (b : Fin 3) (session : BitVec 32) (record : List Byte) (s : State) : Host.Outcome State Fault Refusal := done (enroll b session record s)

/-- Does the tenant still hold work, a shard, memory or seeds (R518)? -/
def State.tenantHolds (s : State) (t : Nat) : Bool :=
  s.accepted.any (fun k => k.cmd.tenant == t) || s.nor.shards.items.any (fun p => p.2.st != 0 && p.2.record.tenant == t)
    || (t != 0 && s.sec.owners.any (fun (p : Nat × Nat) => p.2 == t)) || s.det.seeds.items.any (fun p => p.2.tenant == t)
    || (t == 0 && s.sec.tenants.items.any (fun p => p.2.id != 0))

/-- UNENROLL (R518). -/
def unenroll (b : Fin 3) (session tenant : BitVec 32) (ec pq : List Byte) (s : State) : State :=
  s.ownerAsk b.val session.toNat 3 (Config.layout 3 [tenant.toNat]) ec pq (fun s => match s.tenant tenant.toNat with
    | none => none
    | some (k, t) => if s.tenantHolds t.id then none else some { s with sec.tenants := s.sec.tenants.drop k })

/-- UNENROLL. -/
def execUnenroll (b : Fin 3) (session tenant : BitVec 32) (ec pq : List Byte) (s : State) : Host.Outcome State Fault Refusal :=
  done (unenroll b session tenant ec pq s)

/-- The bytes of a granule: its level, base and length. -/
def granuleRange (level g : Nat) : Range := if level = 0 then (0, g * 2 ^ 20, 2 ^ 20) else (level, g * 2 ^ 30, 2 ^ 30)

/-- What bound records, shards, spill regions and the retention pool use. -/
def State.usedRanges (s : State) : List Range :=
  s.binds.items.flatMap (fun p => p.2.tables.items.flatMap (fun q => (BindRec.table q.2).ranges) ++ p.2.chans.items.flatMap (fun q => (BindRec.chan q.2).ranges))
    ++ s.nor.shards.items.flatMap (fun p => (BindRec.shard p.2.record).ranges) ++ (List.range 16).flatMap s.spillRegions
    ++ [(0, s.get F.MEM_RETAIN_base * 2 ^ 20, s.get F.MEM_RETAIN_size * 2 ^ 20)]

/-- May an entry of an ASSIGN stand (R522)? -/
def State.assignOk (s : State) (level g t : Nat) : Bool :=
  let a := granuleRange level g
  (if level = 1 then decide (g < 383) else if level = 2 then decide (g < 3840) else decide (g < 512) && s.scratch g && !s.carveOuts.any a.meets)
    && !s.usedRanges.any a.meets && (s.tenant t).isSome

/-- Give a granule to a tenant: zeros under the new owner's key, unless it has it already. -/
def State.assign1 (s : State) (level g t : Nat) : State :=
  let k := level * 65536 + g
  if s.sec.owners.rd k = t then s
  else
    let a := granuleRange level g
    let lo := memKey level a.2.1
    let m : Mem := ⟨SMap.erase (fun x => lo ≤ x && x < lo + a.2.2) s.mem.bytes, SMap.erase (fun x => lo / 64 ≤ x && x < (lo + a.2.2) / 64) s.mem.bad⟩
    { s with sec.owners := s.sec.owners.wr k t, mem := m }

/-- ASSIGN (R522): the whole list or none of it. -/
def assign (b : Fin 3) (session : BitVec 32) (list : List (Fin 3 × BitVec 16 × BitVec 32)) (ec pq : List Byte) (s : State) : State :=
  s.ownerAsk b.val session.toNat 4 (Config.layout 4 (list.flatMap (fun e => [e.1.val, e.2.1.toNat, e.2.2.toNat]))) ec pq (fun s =>
    if list.all (fun e => s.assignOk e.1.val e.2.1.toNat e.2.2.toNat)
      then some (list.foldl (fun (s : State) e => s.assign1 e.1.val e.2.1.toNat e.2.2.toNat) s) else none)

/-- ASSIGN. -/
def execAssign (b : Fin 3) (session : BitVec 32) (list : List (Fin 3 × BitVec 16 × BitVec 32)) (ec pq : List Byte) (s : State) :
    Host.Outcome State Fault Refusal :=
  done (assign b session list ec pq s)

/-- ENDPOINT_ROOT (R528): at most 8 roots. -/
def endpointRoot (b : Fin 3) (session : BitVec 32) (root ec pq : List Byte) (s : State) : State :=
  s.ownerAsk b.val session.toNat 5 (Config.layout 5 (root.map (·.toNat))) ec pq (fun s =>
    if s.sec.roots.length ≥ 8 then none else some { s with sec.roots := s.sec.roots ++ [root] })

/-- ENDPOINT_ROOT. -/
def execEndpointRoot (b : Fin 3) (session : BitVec 32) (root ec pq : List Byte) (s : State) : Host.Outcome State Fault Refusal :=
  done (endpointRoot b session root ec pq s)

end Sys2Proof.Machine
end

