-- ==== Sys2Proof/Machine/Mailbox.lean ====
section
/-!
DEFINITION. The mailbox (R536): firmware (R510, R513), debug and lifecycle tokens (R531 to R533), the owner hash (R516), data envelopes (R526).
-/
namespace Sys2Proof.Machine
open Sys2Proof

/-- An op ends with a result: MBX_DONE is raised (Table 17-5). -/
def State.mbxEnd (s : State) (result : Nat) (reply : Nat := 0) : State :=
  (s.sets [(F.MBX_STATUS_result, result), (F.MBX_STATUS_reply, reply)]).intEvent 19

/-- The input of an op: the staging bytes at MBX_ARG.offset; none where they do not lie in the staging area. -/
def State.mbxIn (s : State) (len : Nat) : Option (List Byte) :=
  let off := s.get F.MBX_ARG_offset
  if off + len ≤ stagingSize then some (s.host.staging.rd off len) else none

/-- Take the envelope of an op that has no result code for a range fault: one that does not lie in the staging area fails check 1. -/
def State.mbxEnvelope (s : State) (len kind : Nat) : Except State (List Byte × State) :=
  s.takeEnvelope ((s.mbxIn len).getD []) kind none SigAt.mailbox

/-! ### Firmware -/

/-- A firmware image of a kind 5 body: its stage and svn; none where its head is wrong (R510). -/
def fwHead (b : List Byte) : Option (Nat × Nat) :=
  let stage := fieldOf b 0 1
  let ok := decide (b.length ≥ 64 ∧ (stage = 1 ∨ stage = 2)) && zeros ((b.drop 1).take 3) && zeros ((b.drop 8).take 4) && zeros ((b.drop 16).take 48)
    && fieldOf b 12 4 == b.length
  if ok then some (stage, fieldOf b 4 4) else none

/-- A slot with one of its images replaced. -/
def FwSlot.with (f : FwSlot) (stage svn : Nat) (b : List Byte) : FwSlot := if stage = 1 then { f with s1 := some (svn, b) } else { f with s2 := some (svn, b) }

/-- Measure the firmware that runs: FW_DIGEST and FW_SVN.running (R511). -/
def State.measureFw (s : State) : State :=
  (s.setDigest R.FW_DIGEST (sha256 (sha384 (s.runImage 1).2 ++ sha384 (s.runImage 2).2))).set F.FW_SVN_running (s.runImage 2).1

/-- FW_STAGE: write an image into the slot that did not boot; with length 0 select that slot for the next reset (R513). -/
def State.fwStage (s : State) (len : Nat) : State :=
  let slot := 1 - s.get F.SEC_STATUS_boot_slot
  if len = 0 then { s with sec.next := some slot }.mbxEnd 0
  else match s.mbxIn len with
    | none => s.mbxEnd 4
    | some e => match s.takeEnvelope e 5 none SigAt.mailbox with
      | .error t => t.mbxEnd 2
      | .ok (b, t) => match fwHead b with
        | none => t.mbxEnd 4
        | some (stage, svn) =>
          { t with sec.fw := t.sec.fw.put slot (((t.sec.fw.find slot).getD ⟨none, none⟩).with stage svn b) }.mbxEnd 0

/-- SVN_COMMIT: raise the fused minimum to the running image's svn; nothing lowers it (R513). -/
def State.svnCommit (s : State) : State := (s.set F.FW_SVN_fuse (max (s.get F.FW_SVN_fuse) (s.get F.FW_SVN_running))).mbxEnd 0

/-- RECOVER: boot a supplied image at once while boot_fail is 1 (R510). -/
def State.recover (s : State) (len : Nat) : State :=
  if s.get F.SEC_STATUS_boot_fail = 0 then s.mbxEnd 3
  else match s.mbxEnvelope len 5 with
    | .error t => t.mbxEnd 2
    | .ok (b, t) => match fwHead b with
      | none => (t.sigTrap 1 5 0 SigAt.mailbox).mbxEnd 2
      | some (stage, svn) =>
        if svn < t.get F.FW_SVN_fuse then (t.sigTrap 8 5 0 SigAt.mailbox).mbxEnd 2
        else (({ t with sec.live := t.sec.live.with stage svn b }.set F.SEC_STATUS_boot_fail 0).measureFw).mbxEnd 0

/-! ### Debug and lifecycle (R531 to R533) -/

/-- A fresh debug nonce. -/
def State.newNonce (s : State) : State :=
  let a := s.free 64
  let b := a.2.free 64
  (b.2.set F.DBG_NONCE0_nonce a.1).set F.DBG_NONCE1_nonce b.1

/-- A port whose link secret is gone falls to its training table's fail path; one in an OFF entry stays there (Table 13-8). -/
def State.linkLost (s : State) (p : Nat) : State :=
  if s.get (F.PT_CTL_en p) = 0 ∨ s.get F.PT_GCTL_en = 0 ∨ s.action p = 0 then s else s.outcome p outFail

/-- Before level 2 in PROD: every incomplete collective ends ABORTED, every key is erased, the seed sets are emptied (R533). -/
def State.zeroise (s : State) : State :=
  let s := s.endAll (fun _ => true) 4 0x0D
  let ts : OMap Tenant := s.sec.tenants.items.foldl (fun (m : OMap Tenant) p => m.put p.1 { p.2 with trs := [] }) s.sec.tenants
  let s := { s with
    sec.tenants := ts
    sec.secrets := []
    det.seeds := [] }
  (List.range 144).foldl (fun s p => s.linkLost p) s

/-- May the signer of a token ask for the level and the lifecycle (Table 16-8)? The signer is the owner or Huboda; `life` is the target, none for no change. -/
def tokenMay (now level : Nat) (life : Option Nat) (owner : Bool) : Bool :=
  (match life with
    | none => true
    | some t => if now = 0 then t == 1 && !owner else if now = 1 then (t == 2 && !owner) || t == 3 else now == 2 && t == 3 && !owner)
  && decide (level ≤ 2) && (decide (level = 0) || now == 0 || (now == 1 && owner) || (now == 2 && !owner))

/-- Act on a token that passed: the lifecycle moves forward, the level is entered. A level of 0 leaves the level as it is: what debug has
shown stays shown until the next reset (R531). -/
def State.tokenAct (s : State) (level : Nat) (life : Option Nat) : State :=
  let s := if level = 2 ∧ s.get F.SEC_STATUS_lifecycle = 1 then s.zeroise else s
  let s := match life with
    | some t => (s.set F.SEC_STATUS_lifecycle t).journalPut 0x0A t 0 (s.get (F.ISL_temp 22)) (s.get (F.ISL_mv 22)) 0 0
    | none => s
  if level = 0 ∨ level = s.get F.SEC_STATUS_debug then s
  else (s.set F.SEC_STATUS_debug level).journalPut 9 level 0 (s.get (F.ISL_temp 22)) (s.get (F.ISL_mv 22)) 0 0

/-- DEBUG (R532). In TEST the levels are open: a token that names a level alone needs no signature. -/
def State.debugOp (s : State) (len : Nat) : State :=
  let now := s.get F.SEC_STATUS_lifecycle
  if now = 3 then s.mbxEnd 3
  else
    let e := (s.mbxIn len).getD []
    let key := fieldOf e 8 4
    let open_ := decide (now = 0 ∧ e.length = envHead + 64 ∧ fieldOf e (envHead + 33) 1 = 0)
    let r := if open_ then Except.ok (e.drop envHead, s) else s.mbxEnvelope len 7
    match r with
    | .error t => (t.newNonce).mbxEnd 2
    | .ok (b, t) =>
      let level := fieldOf b 32 1
      let life := if fieldOf b 33 1 = 0 ∨ fieldOf b 33 1 = now then none else some (fieldOf b 33 1)
      let bound := b.take 16 == t.dev && (b.drop 16).take 16 == leBytes (t.word R.DBG_NONCE0).toNat 8 ++ leBytes (t.word R.DBG_NONCE1).toNat 8
      if b.length ≠ 64 ∨ !zeros (b.drop 34) then ((t.sigTrap 1 7 key SigAt.mailbox).newNonce).mbxEnd 2
      else if !bound ∨ !tokenMay now level life (key != 0) then ((t.sigTrap 9 7 key SigAt.mailbox).newNonce).mbxEnd 2
      else ((t.tokenAct level life).newNonce).mbxEnd 0

/-! ### The owner hash (R516) -/

/-- SET_OWNER: written once, while it is blank. -/
def State.setOwner (s : State) (len : Nat) : State :=
  match s.mbxIn len with
  | none => s.mbxEnd 3
  | some b => if s.sec.owner ≠ [] ∨ len ≠ 48 then s.mbxEnd 3 else ({ s with sec.owner := b }.set F.SEC_STATUS_owner_set 1).mbxEnd 0

/-! ### Data envelopes (R526) -/

/-- The tenant whose key an envelope names. -/
def State.envTenant (s : State) (e : List Byte) : Option (Nat × Tenant) := (s.keyOwner (fieldOf e 8 4)).map (fun k => (k.1, k.2.1))

/-- The range that the plaintext of a data envelope opens with: level, address, length; none where it is malformed, not the tenant's, or not open to
software (R446). -/
def State.dataRange (s : State) (t : Tenant) (b : List Byte) : Option Range :=
  let level := fieldOf b 0 1
  let addr := fieldOf b 8 8
  let n := fieldOf b 16 8
  let ok := decide (b.length ≥ 24 ∧ n ≤ 2 ^ 20 ∧ s.usable (level, addr, n) = true) && zeros ((b.drop 1).take 7)
    && (n == 0 || s.owns t.id level addr n)
  if ok then some (level, addr, n) else none

/-- DATA_IN: write the payload to the tenant's memory that the plaintext names. -/
def State.dataIn (s : State) (len : Nat) : State :=
  match s.mbxIn len with
  | none => s.mbxEnd 4
  | some e => match s.takeEnvelope e 6 none SigAt.mailbox with
    | .error t => t.mbxEnd 2
    | .ok (b, t) => match (t.envTenant e).bind (fun k => t.dataRange k.2 b) with
      | none => t.mbxEnd 4
      | some a => if b.length ≠ 24 + a.2.2 then t.mbxEnd 4 else (t.memWr a.1 a.2.1 (b.drop 24)).mbxEnd 0

/-- DATA_OUT: read the tenant's memory, and write the reply envelope over unlocked staging bytes (R556). -/
def State.dataOut (s : State) (len : Nat) : State :=
  match s.mbxIn len with
  | none => s.mbxEnd 4
  | some e => match s.takeEnvelope e 6 none SigAt.mailbox with
    | .error t => t.mbxEnd 2
    | .ok (b, t) => match t.envTenant e with
      | none => t.mbxEnd 4
      | some (k, w) => match t.dataRange w b with
        | none => t.mbxEnd 4
        | some a =>
          let off := t.get F.MBX_ARG_offset
          let n := envHead + 32 + a.2.2
          if b.length ≠ 24 ∨ off + n > stagingSize ∨ t.stageLocked off n then t.mbxEnd 4
          else
            let env := t.sealEnvelope w (fieldOf e 8 4) (t.memBytes a.1 a.2.1 a.2.2)
            let t := { t with sec.tenants := t.sec.tenants.put k { w with outCtr := w.outCtr + 1 } }
            (t.stageWrite off env false).mbxEnd 0 env.length

/-! ### Ops -/

/-- A write of MBX_CMD (R536). While boot_fail is 1, ops 1 and 7 alone are answered (R510); else BAR0 must be ready. An op outside Table 16-11 ends with
a result the spec does not give. -/
def State.mbx (s : State) (op len : Nat) : State :=
  if s.host.d3hot then s
  else if s.get F.SEC_STATUS_boot_fail = 1 ∧ op ≠ 1 ∧ op ≠ 7 then s
  else if s.get F.SEC_STATUS_boot_fail = 0 ∧ !s.ready then s
  else match op with
    | 1 => s.fwStage len
    | 2 => s.svnCommit
    | 3 => s.debugOp len
    | 4 => s.dataIn len
    | 5 => s.dataOut len
    | 6 => s.setOwner len
    | 7 => s.recover len
    | _ => (s.free 8).2.mbxEnd (s.free 8).1

/-- FW_STAGE. -/
def execFwStage (len : BitVec 24) (s : State) : Host.Outcome State Fault Refusal := done (s.mbx 1 len.toNat)

/-- SVN_COMMIT. -/
def execSvnCommit (s : State) : Host.Outcome State Fault Refusal := done (s.mbx 2 0)

/-- DEBUG. -/
def execDebug (len : BitVec 24) (s : State) : Host.Outcome State Fault Refusal := done (s.mbx 3 len.toNat)

/-- DATA_IN. -/
def execDataIn (len : BitVec 24) (s : State) : Host.Outcome State Fault Refusal := done (s.mbx 4 len.toNat)

/-- DATA_OUT. -/
def execDataOut (len : BitVec 24) (s : State) : Host.Outcome State Fault Refusal := done (s.mbx 5 len.toNat)

/-- SET_OWNER. -/
def execSetOwner (len : BitVec 24) (s : State) : Host.Outcome State Fault Refusal := done (s.mbx 6 len.toNat)

/-- RECOVER. -/
def execRecover (len : BitVec 24) (s : State) : Host.Outcome State Fault Refusal := done (s.mbx 7 len.toNat)

end Sys2Proof.Machine
end

