-- ==== Sys2Proof/Machine/Resets.lean ====
section
/-!
DEFINITION. Cold and warm reset, the boot of the firmware, power-up and power-down (R510, R571 to R573, Table 18-4).
-/
namespace Sys2Proof.Machine
open Sys2Proof

/-- What every reset keeps (Table 18-4): fuses, firmware slots, the owner hash, the field log in flash; and of the model its output, its queue and the
number of the next free value. -/
def State.kept (s : State) : State :=
  let r := { State.reset with
    sec := { Sec.init with fw := s.sec.fw, owner := s.sec.owner, next := s.sec.next }
    flash := { s.flash with exp := none }
    dbg := { Debug.init with board := s.dbg.board }
    fresh := s.fresh
    out := s.out
    pending := s.pending }
  r.sets [(F.SEC_STATUS_lifecycle, s.get F.SEC_STATUS_lifecycle), (F.SEC_STATUS_owner_set, s.get F.SEC_STATUS_owner_set),
    (F.SEC_STATUS_boot_slot, s.get F.SEC_STATUS_boot_slot), (F.FW_SVN_fuse, s.get F.FW_SVN_fuse), (F.AUD_BOOT_boot, s.get F.AUD_BOOT_boot)]

/-- Every rail goes off (R572): nothing stays but what every reset keeps. -/
def State.railsOff (s : State) (trip : Bool) : State := { s.kept with pwr.off := true, pwr.trip := trip }

/-! ### Boot (R510, R511) -/

/-- The first cause that a slot fails with: an envelope check found at boot (0 none), else an svn below the fused minimum. -/
def State.slotFails (s : State) (slot bad : Nat) : Nat :=
  if bad ≠ 0 then bad
  else if (s.image slot 1).1 < s.get F.FW_SVN_fuse ∨ (s.image slot 2).1 < s.get F.FW_SVN_fuse then 8
  else 0

/-- A slot boots: its images are measured; the journal says which, and whether the other one failed. -/
def State.bootSlot (s : State) (slot : Nat) (fallback : Bool) : State :=
  ((s.set F.SEC_STATUS_boot_slot slot).measureFw).journalPut 7 (slot + 2 * b2n fallback) 0 0 0 0 0

/-- The ROM boots the selected slot, else the other one, else none: boot_fail (R510). `bad` gives what is wrong with a slot's envelopes. -/
def State.boot (s : State) (bad : Nat → Nat) : State :=
  let a := s.sec.next.getD (s.get F.SEC_STATUS_boot_slot)
  let b := 1 - a
  let s := { s with sec.next := none }
  let ca := s.slotFails a (bad a)
  if ca = 0 then s.bootSlot a false
  else
    let s := s.sigTrap ca 5 0 SigAt.mailbox
    let cb := s.slotFails b (bad b)
    if cb = 0 then s.bootSlot b true
    else (s.sigTrap cb 5 0 SigAt.mailbox).set F.SEC_STATUS_boot_fail 1

/-- The reset itself: state falls to its reset values, the boot count rises, the nonce is fresh, the firmware boots, the maps are restored.
THERMTRIP_N stays as it is until V_in is removed (Table 18-9). -/
def State.reboot (s : State) (cold : Bool) (bad : Nat → Nat) : State :=
  let t := ({ s.kept with pwr.trip := s.pwr.trip }.inc F.AUD_BOOT_boot).newNonce
  let t := if cold then t.restoreLog
    else { t with flog := s.flog, journal := s.journal }.set F.FLOG_PTIME_seconds (s.get F.FLOG_PTIME_seconds)
  (t.boot bad).restoreMaps

/-- RESET_N is released after power-up, or after a long hold (R571, R573). -/
def coldReset (badA badB : Fin 6) (s : State) : State := s.reboot true (fun k => if k = 0 then badA.val else badB.val)

/-- COLD_RESET. -/
def execColdReset (badA badB : Fin 6) (s : State) : Host.Outcome State Fault Refusal := done (coldReset badA badB s)

/-- RESET_N is low for 10 µs to 100 ms; the rails must be up (R573). -/
def warmReset (badA badB : Fin 6) (s : State) : State :=
  if s.pwr.off then s else s.reboot false (fun k => if k = 0 then badA.val else badB.val)

/-- WARM_RESET. -/
def execWarmReset (badA badB : Fin 6) (s : State) : Host.Outcome State Fault Refusal := done (warmReset badA badB s)

/-- A write of PWR_RST: the key starts a warm reset, other values are ignored. -/
def pwrRst (key : BitVec 32) (badA badB : Fin 6) (s : State) : State := s.bar (fun s => if key.toNat = 0x5741524D then warmReset badA badB s else s)

/-- PWR_RST. -/
def execPwrRst (key : BitVec 32) (badA badB : Fin 6) (s : State) : Host.Outcome State Fault Refusal := done (pwrRst key badA badB s)

/-- RESET_N is held low for 100 ms: every rail goes off (R572). -/
def longHold (s : State) : State := s.railsOff s.pwr.trip

/-- RESET_N_LONG_HOLD. -/
def execResetNLongHold (s : State) : Host.Outcome State Fault Refusal := done (longHold s)

/-- V_in falls below 36 V: every rail goes off (R566, R572). -/
def vinCritical (mv : BitVec 16) (s : State) : State := if 36000 ≤ mv.toNat then s else s.railsOff false

/-- VIN_CRITICAL. -/
def execVinCritical (mv : BitVec 16) (s : State) : Host.Outcome State Fault Refusal := done (vinCritical mv s)

/-- V_in rises above 63 V: the input protection disconnects the module (R566). -/
def inputOvervoltage (mv : BitVec 16) (s : State) : State := if mv.toNat ≤ 63000 then s else s.railsOff false

/-- INPUT_OVERVOLTAGE. -/
def execInputOvervoltage (mv : BitVec 16) (s : State) : Host.Outcome State Fault Refusal := done (inputOvervoltage mv s)

end Sys2Proof.Machine
end

