-- ==== Sys2Proof/Machine/Power.lean ====
section
/-!
DEFINITION. The power controller (chapter 18): profiles, island clocks, the limiter and the guards, junction and coolant limits, the input.
-/
namespace Sys2Proof.Machine
open Sys2Proof

/-! ### Islands (Table 18-2) -/

/-- The kind of an island: 0 sluice, 1 switch core, 2 reservoir; none for one that is never throttled. -/
def islKind (i : Nat) : Option Nat :=
  if 8 ≤ i ∧ i < 10 then some 1 else if 10 ≤ i ∧ i < 18 then some 0 else if 18 ≤ i ∧ i < 22 then some 2 else none

/-- The nominal clock of a kind, in MHz. -/
def kindNominal (k : Nat) : Nat := if k = 0 then 2000 else if k = 1 then 1600 else 1800

/-- The floor clock of a kind. -/
def kindFloor (k : Nat) : Nat := if k = 0 then 1000 else if k = 1 then 800 else 900

/-- The islands of a kind. -/
def kindIslands (k : Nat) : List Nat := if k = 0 then (List.range 8).map (· + 10) else if k = 1 then [8, 9] else (List.range 4).map (· + 18)

/-- The clock of an island that is never throttled (Table 01-3). -/
def fixedClock (i : Nat) : Nat := if i < 8 then Config.portClock.toNat else if i = 22 then 800 else 1000

/-- The supply of an island at a clock, in mV. -/
def islSupply (i mhz : Nat) : Nat :=
  if i < 8 then 750 else if 10 ≤ i ∧ i < 18 then 680 + 80 * (mhz - 1000) / 1000 else if i = 23 then 800 else 720

/-- The pairs of neighbours: port die and switch core, switch core and sluice, sluice and reservoir (R569, Table 01-4). -/
def neighbours : List (Nat × Nat) :=
  (List.range 8).flatMap (fun p => [(p, 8), (p, 9)]) ++ (List.range 8).flatMap (fun d => [(8, 10 + d), (9, 10 + d)])
    ++ (List.range 8).flatMap (fun d => (List.range 4).map (fun q => (10 + d, 18 + q)))

/-! ### Profiles (R575 to R577) -/

/-- The 128 bytes of a profile's record. -/
def State.profileRec (s : State) (p : Nat) : List Byte := ((s.pwr.table.getD (profileBytes defaultProfiles)).drop (128 * (p - 1))).take 128

/-- The maximum clock of a kind of island. -/
def State.profileMax (s : State) (k : Nat) : Nat := fieldOf (s.profileRec (s.get F.PWR_STATUS_profile)) (4 + 2 * k) 2

/-- The eight points of a kind's curve: temperature in 0.125 °C, clock. -/
def State.profileCurve (s : State) (k : Nat) : List (Int × Nat) :=
  (List.range 8).map (fun i =>
    let o := 0x10 + 32 * k + 4 * i
    (sint 16 (fieldOf (s.profileRec (s.get F.PWR_STATUS_profile)) o 2), fieldOf (s.profileRec (s.get F.PWR_STATUS_profile)) (o + 2) 2))

/-- A curve at a temperature: linear between points, the last point's clock above it, the first one's below it. -/
def curveAt : List (Int × Nat) → Int → Nat
  | [], _ => 0
  | [(_, c)], _ => c
  | (a, c) :: (b, d) :: rest, t =>
    if t ≤ a then c
    else if t ≤ b then ((c : Int) - ((c : Int) - d) * (t - a) / (b - a)).toNat
    else curveAt ((b, d) :: rest) t

/-- The ceiling in force in W: the profile's, PP1's while the input is low or the coolant hot, the current limit (R565, R566, R580). -/
def State.ceiling (s : State) (mv : Nat) : Nat :=
  let own := fieldOf (s.profileRec (s.get F.PWR_STATUS_profile)) 2 2
  let low := if s.get F.PWR_STATUS_vin_low = 1 ∨ s.pwr.outHot then min own (fieldOf (s.profileRec 1) 2 2) else own
  min low (84 * mv / 1000)

/-- A write of PWR_CTL.profile: 0 and 7 are out of range; it takes effect at the next step, or at once while AUD_CTL.en is 0. -/
def profileSelect (p : BitVec 3) (s : State) : State :=
  s.bar (fun s =>
    if p.toNat = 0 ∨ p.toNat = 7 then (s.inc F.PWR_REJ_COUNT_rej).set F.PWR_REJ_ADDR_addr R.PWR_CTL
    else
      let s := s.set F.PWR_CTL_profile p.toNat
      if s.get F.AUD_CTL_en = 0 then s.takeProfile else s)

/-- PROFILE_SELECT. -/
def execProfileSelect (p : BitVec 3) (s : State) : Host.Outcome State Fault Refusal := done (profileSelect p s)

/-! ### Pauses of class C (R581) -/

/-- PWR_STATUS.paused and .neighbour follow the reasons that hold here. -/
def State.reasons (s : State) : State :=
  let any_ := s.pwr.hot != 0 || s.pwr.cool || !s.pwr.apart.isEmpty || s.get F.PWR_STATUS_vin_low == 1
  s.sets [(F.PWR_STATUS_paused, b2n any_), (F.PWR_STATUS_neighbour, b2n (!s.pwr.apart.isEmpty))]

/-- A reason begins: THERMAL_PAUSE, and one event of code 3. -/
def State.pauseOn (s : State) (reason unit temp : Nat) : State := ((s.reasons).pert 3).thermalMsg 0x70 reason unit temp

/-- A reason ends: THERMAL_RESUME when it is the last one. -/
def State.pauseOff (s : State) (reason unit temp : Nat) : State :=
  let s := s.reasons
  if s.classCPaused then s else s.thermalMsg 0x71 reason unit temp

/-! ### The sample of every 10 µs (R578) -/

/-- One step of the limiter for some islands, to no less than their floor. -/
def State.limLower (s : State) (is : List Nat) : State :=
  is.foldl (fun (s : State) i => match islKind i with
    | none => s
    | some k => { s with pwr.lim := s.pwr.lim.wr i (min (kindNominal k - kindFloor k) (s.pwr.lim.rd i + 50)) }) s

/-- Is a kind of island at its floor? -/
def State.kindAtFloor (s : State) (k : Nat) : Bool := (kindIslands k).all (fun i => decide (kindNominal k - kindFloor k ≤ s.pwr.lim.rd i))

/-- Is a kind held by nothing? -/
def State.kindFree (s : State) (k : Nat) : Bool := (kindIslands k).all (fun i => s.pwr.lim.rd i == 0)

/-- The limiter: over the ceiling it lowers sluice, then reservoir, then switch-core islands; below 95 % of it for 100 µs it raises them in reverse. -/
def State.limiter (s : State) (w c : Nat) : State :=
  if w > c then
    match [0, 2, 1].find? (fun k => !s.kindAtFloor k) with
    | some k => { s with pwr.under := 0 }.limLower (kindIslands k)
    | none => { s with pwr.under := 0 }
  else if 100 * w < 95 * c then
    let s := { s with pwr.under := s.pwr.under + 1 }
    if s.pwr.under < 10 then s
    else match [1, 2, 0].find? (fun k => !s.kindFree k) with
      | some k => (kindIslands k).foldl (fun (s : State) i => { s with pwr.lim := s.pwr.lim.wr i (s.pwr.lim.rd i - 50) }) s
      | none => s
  else { s with pwr.under := 0 }

/-- The clock that an island's sample calls for, in steps of 50 MHz and not below its floor; at 105 °C its floor (Table 18-9). -/
def State.wantClock (s : State) (i k : Nat) : Nat :=
  let t := sint 16 (s.get (F.ISL_temp i))
  let f := min (min (s.profileMax k) (curveAt (s.profileCurve k) t)) (kindNominal k - s.pwr.lim.rd i)
  if 840 ≤ t then kindFloor k else max (kindFloor k) (f / 50 * 50)

/-- Set an island's clock and supply; a change is one event of code 4. -/
def State.setClock (s : State) (i mhz : Nat) : State :=
  let s := if s.get (F.ISL_mhz i) = mhz then s else ((s.set (F.ISL_mhz i) mhz).inc (F.ISL_changes i)).pert 4
  s.set (F.ISL_mv i) (islSupply i mhz)

/-- Every throttled island takes the clock its sample calls for. -/
def State.clocks (s : State) : State :=
  (List.range 24).foldl (fun (s : State) i => match islKind i with
    | some k => s.setClock i (s.wantClock i k)
    | none => s.setClock i (fixedClock i)) s

/-- The guard takes an island's clock one step down, to no less than its floor; each step is a THERMAL event (R570, R581). -/
def State.guardStep (s : State) (i k : Nat) : State :=
  let below := max (s.pwr.lim.rd i) (kindNominal k - s.get (F.ISL_mhz i))
  let most := kindNominal k - kindFloor k
  if most ≤ below then s else { s with pwr.lim := s.pwr.lim.wr i (min most (below + 50)) }.intEvent 15

/-- The guard: every throttled island that is 20 °C hotter than a neighbour goes one step down. -/
def State.guardTemp (s : State) : State :=
  let t := fun i => sint 16 (s.get (F.ISL_temp i))
  (List.range 24).foldl (fun (s : State) i => match islKind i with
    | some k =>
      if neighbours.any (fun p => (p.1 == i && decide (t i ≥ t p.2 + 160)) || (p.2 == i && decide (t i ≥ t p.1 + 160))) then s.guardStep i k else s
    | none => s) s

/-- The neighbour limit (R570): over 60 mV or 25 °C a pair's crossings hold; under 50 mV and 20 °C they resume. -/
def State.guardPair (s : State) (p : Nat × Nat) : State :=
  let t := fun i => sint 16 (s.get (F.ISL_temp i))
  let v := fun i => (s.get (F.ISL_mv i) : Int)
  let dt := (t p.1 - t p.2).natAbs
  let dv := (v p.1 - v p.2).natAbs
  let i := if t p.1 ≥ t p.2 then p.1 else p.2
  if !s.pwr.apart.contains p ∧ (dv > 60 ∨ dt > 200) then
    let s := { s with pwr.apart := s.pwr.apart ++ [p] }
    (((s.flogAdd (0x7F48 + 136) 4).journalPut 5 4 i (s.get (F.ISL_temp i)) (s.get (F.ISL_mv i)) 0 (p.1 + 256 * p.2)).intEvent 15).pauseOn 4 i
      (s.get (F.ISL_temp i))
  else if s.pwr.apart.contains p ∧ dv < 50 ∧ dt < 160 then
    let s := { s with pwr.apart := s.pwr.apart.filter (fun (q : Nat × Nat) => q != p) }
    (s.journalPut 5 0x84 i (s.get (F.ISL_temp i)) (s.get (F.ISL_mv i)) 0 (p.1 + 256 * p.2)).pauseOff 4 i (s.get (F.ISL_temp i))
  else s

/-- The junction limit at 110 °C (Table 18-9). -/
def State.guardHot (s : State) (i : Nat) : State :=
  let raw := s.get (F.ISL_temp i)
  let t := sint 16 raw
  if !bit s.pwr.hot i ∧ 880 ≤ t then
    let s := { s with pwr.hot := s.pwr.hot ||| 1 <<< i }
    ((((s.inc (F.ISL_pauses i)).flogAdd (0x7F48 + 4 * i) 4).journalPut 5 2 i raw (s.get (F.ISL_mv i)) 0 0).intEvent 15).pauseOn 2 i raw
  else if bit s.pwr.hot i ∧ t < 800 then
    let s := { s with pwr.hot := s.pwr.hot ^^^ 1 <<< i }
    (s.journalPut 5 0x82 i raw (s.get (F.ISL_mv i)) 0 0).pauseOff 2 i raw
  else s

/-- THERMTRIP_N at 125 °C: its entry is written before the rails fall (R572, R579, R604). -/
def State.thermtrip (s : State) (i : Nat) : State :=
  let e := s.entryNow 6 0 i (s.get (F.ISL_temp i)) (s.get (F.ISL_mv i)) 0 0
  ({ s with flash := { s.flash.write e with next := s.flash.next + 1 } }.emit (.pin "THERMTRIP_N" false)).railsOff true

/-- The current limit of R565 engages or not. -/
def State.currentCap (s : State) (mv : Nat) : State :=
  let cap := decide (84 * mv / 1000 < fieldOf (s.profileRec (s.get F.PWR_STATUS_profile)) 2 2)
  let s := if cap ∧ s.get F.PWR_STATUS_icap = 0 then s.intEvent 24 else s
  s.set F.PWR_STATUS_icap (b2n cap)

/-- A sample: the islands' hottest sensors, the supplies that differ from what was set, the input's voltage, current and mean power. -/
def powerSample (temps : List (BitVec 16)) (mvs : List (Fin 24 × BitVec 12)) (mv ca w : BitVec 16) (s : State) : State :=
  if !s.ready then s
  else
    let s := s.sets [(F.PWR_IN_mv, mv.toNat), (F.PWR_IN_ca, ca.toNat), (F.PWR_IN_w, w.toNat)]
    let s := (temps.zipIdx).foldl (fun (s : State) t => if t.2 < 24 then s.set (F.ISL_temp t.2) t.1.toNat else s) s
    match (List.range 24).find? (fun i => decide (1000 ≤ sint 16 (s.get (F.ISL_temp i)))) with
    | some i => s.thermtrip i
    | none =>
      let s := s.currentCap mv.toNat
      let s := (s.guardTemp).limiter w.toNat (s.ceiling mv.toNat)
      let s := s.clocks
      let s := mvs.foldl (fun (s : State) m => s.set (F.ISL_mv m.1.val) m.2.toNat) s
      let s := neighbours.foldl State.guardPair s
      (List.range 24).foldl State.guardHot s

/-- POWER_SAMPLE. -/
def execPowerSample (temps : List (BitVec 16)) (mvs : List (Fin 24 × BitVec 12)) (mv ca w : BitVec 16) (s : State) :
    Host.Outcome State Fault Refusal :=
  done (powerSample temps mvs mv ca w s)

/-! ### Coolant and input (R566, R580) -/

/-- A sample of the coolant: from 65 °C at the outlet the PP1 ceiling, from 70 °C a pause of class C. -/
def coolantSample (inlet outlet : BitVec 16) (s : State) : State :=
  if !s.ready then s
  else
    let t := sint 16 outlet.toNat
    let s := s.sets [(F.COOL_inlet, inlet.toNat), (F.COOL_outlet, outlet.toNat)]
    let s := if !s.pwr.outHot ∧ 520 ≤ t then { s with pwr.outHot := true }.intEvent 15
      else if s.pwr.outHot ∧ t < 480 then { s with pwr.outHot := false } else s
    if !s.pwr.cool ∧ 560 ≤ t then
      let s := ({ s with pwr.cool := true }.flogAdd (0x7F48 + 132) 4).journalPut 5 3 32 outlet.toNat 0 0 0
      (s.intEvent 15).pauseOn 3 0 outlet.toNat
    else if s.pwr.cool ∧ t < 520 then ({ s with pwr.cool := false }.journalPut 5 0x83 32 outlet.toNat 0 0 0).pauseOff 3 0 outlet.toNat
    else s

/-- COOLANT_SAMPLE. -/
def execCoolantSample (inlet outlet : BitVec 16) (s : State) : Host.Outcome State Fault Refusal := done (coolantSample inlet outlet s)

/-- V_in has stayed below 40 V for 1 ms: the PP1 ceiling, a pause with reason 5, a POWER event. -/
def vinLow (mv : BitVec 16) (s : State) : State :=
  if !s.ready ∨ s.get F.PWR_STATUS_vin_low = 1 ∨ 40000 ≤ mv.toNat then s
  else ((s.sets [(F.PWR_STATUS_vin_low, 1), (F.PWR_IN_mv, mv.toNat)]).intEvent 24).pauseOn 5 0 (8 * mv.toNat / 1000)

/-- VIN_LOW. -/
def execVinLow (mv : BitVec 16) (s : State) : Host.Outcome State Fault Refusal := done (vinLow mv s)

/-- V_in has stayed at 41 V or more for 10 ms: the state ends. -/
def vinRecover (mv : BitVec 16) (s : State) : State :=
  if s.get F.PWR_STATUS_vin_low = 0 ∨ mv.toNat < 41000 then s
  else ((s.sets [(F.PWR_STATUS_vin_low, 0), (F.PWR_IN_mv, mv.toNat)]).intEvent 24).pauseOff 5 0 (8 * mv.toNat / 1000)

/-- VIN_RECOVER. -/
def execVinRecover (mv : BitVec 16) (s : State) : Host.Outcome State Fault Refusal := done (vinRecover mv s)

/-- The power-up sequence completes: memory is zero, the islands are at the clocks of the profile, ready rises (R571, R582). It does not where no
firmware booted, and in SCRAP stage 2 does not start. -/
def powerReady (s : State) : State :=
  if s.pwr.off ∨ s.get F.SEC_STATUS_boot_fail = 1 ∨ s.get F.SEC_STATUS_lifecycle = 3 ∨ s.ready then s
  else
    let clk := fun i => match islKind i with
      | some k => s.profileMax k
      | none => fixedClock i
    ((List.range 24).foldl (fun (s : State) i => s.sets [(F.ISL_mhz i, clk i), (F.ISL_mv i, islSupply i (clk i))]) s).set F.PWR_STATUS_ready 1

/-- POWER_READY. -/
def execPowerReady (s : State) : Host.Outcome State Fault Refusal := done (powerReady s)

end Sys2Proof.Machine
end

