-- ==== Sys2Proof/Machine/RegRead.lean ====
section
/-!
DEFINITION. What a read of a register returns (R543 to R546): the word held, with the fields that show other state worked out at the read.
-/
namespace Sys2Proof.Machine
open Sys2Proof

/-- A field shown at a read: its lowest bit, its width, its value. -/
abbrev Shown := Nat × Nat × Nat

/-- A flag shown at bit `i`. -/
def flagAt (i : Nat) (b : Bool) : Shown := (i, 1, b2n b)

/-! ### Pins (R592, R593, R600) -/

/-- The level of the TMUX signal that a select names (Table 19-3): constants, the turn clock, links that are up, a full crossing, the pause of class C; every
other signal is a pulse or a clock, whose level at a beat is free. -/
def State.tmuxSignal (s : State) (sel : Nat) : Bool :=
  let i := sel % 4096
  match sel / 4096 with
  | 0 => i == 1
  | 1 => bit s.turn (i + 3)
  | 3 => s.get (F.PT_STATUS_up i) == 1
  | 6 => s.crossFull i
  | _ => if sel = 0x4000 then s.classCPaused else Config.tmuxLevel sel s.beat

/-- The select of TMUX pin k (R595). -/
def State.tmuxSel (s : State) (k : Nat) : Nat := bits (s.word (R.TMUX_SEL (k / 4))).toNat (16 * (k % 4)) 16

/-- The level of GPIO pin k: EXTEST before TMUX before GPIO; a pin the device does not drive has the board's level. -/
def State.pinLevel (s : State) (k : Nat) : Bool :=
  if s.dbg.jtag = 3 then bit s.dbg.cells k
  else if s.get F.TMUX_CTL_en = 1 then (if bit (s.get F.TMUX_CTL_pins) k then s.tmuxSignal (s.tmuxSel k) else bit s.dbg.board k)
  else if bit (s.get F.GPIO_DIR_dir) k then bit (s.get F.GPIO_OUT_out) k
  else bit s.dbg.board k

/-- The levels of the 16 pins. -/
def State.pinLevels (s : State) : Nat := ((List.range 16).filter s.pinLevel).foldl (fun a k => a ||| 1 <<< k) 0

/-- Is ALERT_N asserted (R591)? -/
def State.alert (s : State) : Bool :=
  s.intStatus &&& s.get F.ALERT_EN_en != 0 || s.get F.SEC_STATUS_boot_fail == 1 || s.get F.FLOG_STATUS_flog_fail == 1

/-! ### The fields shown, block by block -/

/-- The en bit of row b of GCTL_BLK (R563, Table 17-7). -/
def State.blkOn (s : State) (b : Nat) : Bool :=
  match b with
  | 0 => s.get F.CMD_CTL_en == 1
  | 1 => s.get F.ENG_CTL_en == 1
  | 2 => s.get F.CIS_CTL_en == 1
  | 3 => s.get F.NOR_CTL_en == 1
  | 4 => s.get F.SW_CTL_en == 1
  | 5 => s.get F.GR_CTL_en == 1
  | 6 => s.get F.HG_CTL_en == 1
  | 7 => s.get F.PT_GCTL_en == 1
  | 8 => s.get F.MEM_CTL_en == 1
  | 9 => s.get F.TIME_CTL_en == 1
  | 10 => s.get F.AUD_CTL_en == 1
  | 11 => s.get F.FLT_CTL_en == 1
  | 12 => (List.range 64).any (fun q => s.get (F.Q_CTL_en q) == 1)
  | 13 => (List.range 144).any (fun p => s.get (F.PT_CTL_en p) == 1)
  | _ => false

/-- GCTL_BLK as a number. -/
def State.blkBits (s : State) : Nat := ((List.range 14).filter s.blkOn).foldl (fun a b => a ||| 1 <<< b) 0

/-- The global and the host block (Tables 17-7 to 17-9). -/
def State.shownHost (s : State) (a : Nat) : List Shown :=
  if a = R.GCTL_BLK then [(0, 14, s.blkBits)]
  else if R.STG_MARK 0 ≤ a ∧ a ≤ R.STG_MARK 15 then [(0, 64, bits s.host.marks (8 * (a - R.STG_MARK 0)) 64)]
  else if a = R.INT_STATUS then [(0, 25, s.intStatus)]
  else if a = R.INT_PEND then [(0, 25, s.intPend)]
  else []

/-- The phase a context shows (Table 08-14): 0 while it waits, 1 while it runs, 2 once everything has been taken in and sent, and only
acknowledgements are outstanding. -/
def State.shownPhase (s : State) (c : Coll) : Nat :=
  let g := s.groupOf c
  let nIn := s.chunksIn c.cmd
  let nOut := s.chunksOut c.cmd
  let made := fun (i : Nat) => (c.contributors nIn i).isEmpty || (c.chunk i).reduced || ((c.cmd.routed || c.cmd.op == 4 || c.cmd.op == 5) && c.complete nIn i)
  let down := fun (i : Nat) => c.cmd.routed || g.parent (i % 2) == 0 || (c.receivers nOut g.ranks i).isEmpty || c.hasLeft i
  if c.phase = 0 ∨ c.cmd.op = 0x0B ∨ c.cmd.op = 0x0D ∨ !c.fuse.all (·.ended) then c.phase
  else if (List.range (max nIn nOut)).all (fun i => !(c.chunk i).reopened && made i && down i) && c.kept.all (·.sent) then 2 else 1

/-- The command processor and the program store (Tables 07-15, 08-13, 08-14). -/
def State.shownCmd (s : State) (a : Nat) (i j : Nat) : List Shown :=
  if a = R.CMD_STATUS then [flagAt 0 (s.differ F.CMD_REJ_COUNT_rej F.CMD_REJ_ACK_ack), flagAt 1 (s.differ F.MBR_SEQ_seq F.MBR_ACK_ack)]
  else if a = R.CTX_FREE then [(0, 13, 4096 - s.cp.colls.items.length)]
  else if a = R.PVF_STATUS then [flagAt 0 (s.differ F.PVF_SEQ_seq F.PVF_ACK_ack)]
  else if a = R.PRG_HELD then [(0, 9, s.eng.progs.items.length)]
  else if 0x210000 ≤ a ∧ a < 0x310000 then
    if a = R.Q_STATUS i then
      let n := (s.queue i).cmds.length
      [flagAt 0 (s.differ (F.Q_REJ_COUNT_rej i) (F.Q_REJ_ACK_ack i)), flagAt 2 (256 ≤ n), (3, 3, s.headPhase i), (8, 9, n)]
    else []
  else if R.GRP 0 ≤ a ∧ a ≤ R.GRP 255 then
    match s.group i with
    | some g => [(0, 1, 1), (1, 3, g.tier), (16, 16, (g.members.filter (fun m => !m.fenced)).length),
        (32, 13, (s.accepted.filter (fun c => c.cmd.isColl && c.cmd.group == i)).length)]
    | none => []
  else if R.CTX 0 0 ≤ a ∧ a ≤ R.CTX 7 511 then
    match s.coll (512 * i + j) with
    | some c => [(0, 1, 1), (1, 2, s.shownPhase c), (3, 6, c.queue), (9, 8, c.cmd.group), (32, 32, c.cmd.collId)]
    | none => []
  else []

/-- The logical engine a physical engine serves by itself: none for a spare and for a retired engine. -/
def State.servedBy (s : State) (p : Nat) : Option Nat :=
  if s.get (F.ENG_STATUS_role p) = 0 then some (s.get (F.ENG_STATUS_logical p)) else none

/-- The logical engine whose contexts physical engine p shows, and whether they run on another engine (R140, R157): those of the engine it is attached
to for a spare, none for a free one. -/
def State.shownEngine (s : State) (p : Nat) : Option (Nat × Bool) :=
  match s.eng.attach.find (p / 17), s.servedBy p with
  | some q, none => if s.get (F.ENG_STATUS_role p) = 1 then some (s.get (F.ENG_STATUS_logical q), false) else none
  | some q, some n => some (n, p == q)
  | none, some n => some (n, false)
  | none, none => none

/-- The engines (Tables 05-11, 05-12). -/
def State.shownEng (s : State) (a : Nat) (i j : Nat) : List Shown :=
  if a = R.ENG_GSTATUS then [flagAt 0 (s.differ F.ENG_REJ_COUNT_rej F.ENG_REJ_ACK_ack), flagAt 1 (s.differ F.RES_SEQ_seq F.RES_ACK_ack)]
  else if R.ENG_CTX 135 < a then []
  else if a = R.ENG_CTX i then
    match s.shownEngine i with
    | some e => (List.range 8).map (fun c => (4 * c, 4, if e.2 then 6 else (s.ctxAt e.1 c).st))
    | none => []
  else if a = R.ENG_BIND i j then
    match s.servedBy i with
    | none => []
    | some n => match s.eng.strms.find (16 * n + j) with
      | some b => [(0, 12, if b.coll < 4096 then b.coll else 0), (12, 3, b.ctx), (15, 1, 1), (16, 2, b.mode)]
      | none => []
  else []

/-- Formats, cistern, sparse streams (Tables 02-7, 03-10, 03-13, 04-8). -/
def State.shownCis (s : State) (a : Nat) (i : Nat) : List Shown :=
  if a = R.FNT_STATUS then [flagAt 0 (s.differ F.FNT_SEQ_seq F.FNT_ACK_ack)]
  else if a = R.SPT_STATUS then [flagAt 0 (s.differ F.SPT_SEQ_seq F.SPT_ACK_ack)]
  else if a = R.CIS_STATUS then [flagAt 0 (s.differ F.CIS_REJ_COUNT_rej F.CIS_REJ_ACK_ack), flagAt 1 (s.differ F.CIS_OVF_SEQ_seq F.CIS_OVF_ACK_ack)]
  else if a < 0x1010000 then []
  else if a = R.CIS_OCC i then [(0, 19, s.storeUsed i)]
  else if a = R.CIS_SPILL_OCC_RES i then [(0, 32, (s.homesUsed i 1).1)]
  else if a = R.CIS_SPILL_OCC_HBM i then [(0, 36, (s.homesUsed i 2).1)]
  else if a = R.CIS_SPILL_OCC_LPD i then [(0, 36, (s.homesUsed i 3).1)]
  else []

/-- The noria (Tables 09-12 and 09-13). -/
def State.shownNor (s : State) (a : Nat) (i : Nat) : List Shown :=
  if a = R.NOR_STATUS then
    [flagAt 0 (s.differ F.NOR_REJ_COUNT_rej F.NOR_REJ_ACK_ack), flagAt 1 (s.nor.shards.items.any (fun p => p.2.snap.isSome || p.2.restore.isSome))]
  else if R.NSET 0 ≤ a ∧ a ≤ R.NSET 15 then
    match s.nor.norms.find i with
    | some n => [(0, 1, 1), flagAt 1 (n.complete && s.normPending i n.step), (2, 10, n.peers.length), (12, 10, n.parts.length), (32, 32, n.step)]
    | none => []
  else if a < 0x1410000 then []
  else if R.SHD_STATE 0 ≤ a ∧ a = R.SHD_STATE i then
    match s.nor.shards.find i with
    | some h => [(0, 3, h.st), (3, 1, h.live), flagAt 4 h.snap.isSome, flagAt 5 h.skipped, (16, 16, h.ver h.live), (32, 32, h.step)]
    | none => []
  else if a = R.SHD_STEP i then (s.nor.shards.find i).elim [] (fun h => [(0, 64, h.t)])
  else []

/-- The switch core and the gauge ring (Tables 11-10, 11-11). -/
def State.shownSw (s : State) (a : Nat) (i j : Nat) : List Shown :=
  if a = R.SW_STATUS then [flagAt 0 (s.differ F.SW_REJ_COUNT_rej F.SW_REJ_ACK_ack), flagAt 1 (s.differ F.BSN_SEQ_seq F.BSN_ACK_ack)]
  else if a = R.GR_STATUS then [flagAt 0 (s.differ F.GR_REJ_COUNT_rej F.GR_REJ_ACK_ack), flagAt 1 (262144 ≤ s.sw.grHeld)]
  else if a = R.RT_HELD then [(0, 32, s.heldOf 0), (32, 32, s.heldOf 1)]
  else if 0x1808000 ≤ a ∧ a < 0x1810000 then
    if a = R.BSN_FREE i j then [(0, 20, s.freeBufs i j)]
    else if a = R.BSN_HEAD i j then
      match s.poolHead i j with
      | some k => [(0, 20, k), (24, 16, s.gen (s.tag i j k))]
      | none => [(20, 1, 1)]
    else if a = R.BSN_QUAR i j then [(0, 20, (s.sw.tags.filter (fun e => e.1 / 2 ^ 20 == i * 3 + j && e.2.st == 2)).length)]
    else []
  else if R.MC 0 ≤ a ∧ a ≤ R.MC 4095 then
    match s.coll i with
    | some c => [(0, 1, 1), (1, 8, popCount (c.mcMask 0) 144), (9, 8, popCount (c.mcMask 1) 144),
        (32, 32, (c.parties.map (fun p => p.rcut.getD 0)).foldl max 0)]
    | none => []
  else []

/-- Does class c have a demoted furrow toward port p (R393)? -/
def State.demoted (s : State) (p c : Nat) : Bool :=
  (List.range 161).any (fun src => ((s.furrow (furrowKey src p c)).head?).any (fun d => d.p.red))

/-- The headgates (Tables 12-10, 12-11). -/
def State.shownHg (s : State) (a : Nat) (i : Nat) : List Shown :=
  if a = R.HG_STATUS then [flagAt 0 (s.differ F.HG_REJ_COUNT_rej F.HG_REJ_ACK_ack), flagAt 1 (s.differ F.WIN_SEQ_seq F.WIN_ACK_ack)]
  else if a = R.FLOW_USE then [(0, 17, s.flowsUsed 0), (32, 17, s.flowsUsed 1)]
  else if i < 144 ∧ a = R.HG_PSTATUS i then (List.range 4).map (fun c => flagAt (1 + c) (s.demoted i c))
  else []

/-- The ports (Tables 13-13, 13-14). -/
def State.shownPt (s : State) (a : Nat) (i : Nat) : List Shown :=
  if a = R.PT_GSTATUS then [flagAt 0 (s.differ F.PT_REJ_COUNT_rej F.PT_REJ_ACK_ack)]
  else if i < 144 ∧ a = R.PT_STATUS i then [flagAt 14 (s.sec.secrets.find i).isSome]
  else if i < 144 ∧ a = R.PT_KEY i then [(0, 32, (s.link i).txEpoch)]
  else []

/-- Memory, the turn counter and the audit (Tables 10-12, 10-13, 14-9, 14-10). -/
def State.shownMem (s : State) (a : Nat) (i : Nat) : List Shown :=
  if a = R.MEM_STATUS then [flagAt 0 (s.differ F.MEM_REJ_COUNT_rej F.MEM_REJ_ACK_ack), flagAt 1 (s.differ F.GIX_SEQ_seq F.GIX_ACK_ack)]
  else if a = R.TIME_STATUS then [flagAt 2 (s.differ F.TIME_REJ_COUNT_rej F.TIME_REJ_ACK_ack)]
  else if a = R.TURN_COUNT then [(0, 64, s.turn)]
  else if a = R.STEP_STATUS then [flagAt 1 s.closing]
  else if a = R.CMP_FREE then [(0, 7, s.freeCmps.length)]
  else if a = R.AUD_STATUS then [flagAt 0 (s.differ F.AUD_REJ_COUNT_rej F.AUD_REJ_ACK_ack)]
  else if R.SEED 0 ≤ a ∧ a ≤ R.SEED 15 then
    match s.det.seeds.find i with
    | some k => [(0, 1, 1), (1, 16, k.entropy), (32, 32, k.tenant)]
    | none => []
  else []

/-- Faults, the secure core, power, the debug unit and the field log (Tables 15-13, 16-12, 18-12, 19-9). -/
def State.shownTop (s : State) (a : Nat) (i : Nat) : List Shown :=
  if a = R.FLT_STATUS then
    [flagAt 0 (s.differ F.FLT_REJ_COUNT_rej F.FLT_REJ_ACK_ack), flagAt 2 (s.differ F.SLOST_SEQ_seq F.SLOST_ACK_ack),
      flagAt 4 (!s.flt.spares.items.isEmpty || s.flt.lends.any (fun l => l.next.isSome))]
  else if a = R.LEV_STATUS then [(0, 7, s.live.length), (8, 5, s.flt.motions.length), (32, 32, s.setDig)]
  else if a = R.SEC_STATUS then [flagAt 6 (s.differ F.SIG_SEQ_seq F.SIG_ACK_ack)]
  else if R.TEN 0 ≤ a ∧ a ≤ R.TEN 15 then
    match s.sec.tenants.find i with
    | some t => [(0, 8, t.perm), (8, 1, 1), (9, 3, t.keys.length), (32, 32, t.id)]
    | none => []
  else if a = R.PWR_STATUS then [flagAt 5 (s.differ F.PWR_REJ_COUNT_rej F.PWR_REJ_ACK_ack), flagAt 9 s.classCPaused]
  else if a = R.DBG_STATUS then
    [flagAt 0 (s.differ F.DBG_REJ_COUNT_rej F.DBG_REJ_ACK_ack), flagAt 1 (s.get F.TMUX_CTL_en == 1 && s.get F.TMUX_CTL_pins != 0 && s.dbg.jtag != 3)]
  else if a = R.GPIO_IN then [(0, 16, s.pinLevels)]
  else if a = R.ALERT_STATUS then
    [(0, 25, s.intStatus), (32, 1, s.get F.SEC_STATUS_boot_fail), (33, 1, s.get F.FLOG_STATUS_flog_fail), flagAt 34 s.alert]
  else if a = R.FLOG_STATUS then [(8, 9, s.journal.length)]
  else []

/-- The fields that other state decides, of the register at offset a with its indices. -/
def State.shown (s : State) (a : Nat) (ix : List Nat) : List Shown :=
  let i := ix.headD 0
  let j := (ix.drop 1).headD 0
  if a < 0x200000 then s.shownHost a
  else if a < 0x400000 then s.shownCmd a i j
  else if a < 0x1000000 then s.shownEng a i j
  else if a < 0x1400000 then s.shownCis a i
  else if a < 0x1800000 then s.shownNor a i
  else if a < 0x2000000 then s.shownSw a i j
  else if a < 0x2400000 then s.shownHg a i
  else if a < 0x2800000 then s.shownPt a i
  else if a < 0x3400000 then s.shownMem a i
  else s.shownTop a i

/-- A word with one field replaced. -/
def showField (w : Nat) (f : Shown) : Nat := (w ^^^ (bits w f.1 f.2.1) <<< f.1) ||| (f.2.2 % 2 ^ f.2.1) <<< f.1

/-- Eight bytes of the MSI-X table, 64 entries of 16 bytes, or the PBA (R559); 0 elsewhere. -/
def State.msixWord (s : State) (a : Nat) : Nat :=
  let e := s.msixEntry ((a - 0x108000) / 16)
  if a = 0x108800 then s.host.pba
  else if 0x108400 ≤ a ∨ a < 0x108000 then 0
  else if a % 16 < 8 then e.addr else e.data ||| b2n e.mask <<< 32

/-- What the register at an offset holds for a reader: 0 where no register is (R15). -/
def State.regWord (s : State) (a : Nat) : Nat :=
  match famOf a with
  | none => s.msixWord a
  | some f => (s.shown a ((f.idx a).getD [])).foldl showField (s.word a).toNat

/-- A read of a register (R543), before ready 0 but for PWR_STATUS and SEC_STATUS (R571). -/
def State.readReg (s : State) (a : Nat) : Nat :=
  if s.ready || a == R.PWR_STATUS || a == R.SEC_STATUS then s.regWord a else 0

end Sys2Proof.Machine
end

