-- ==== Sys2Proof/Machine/DataWindow.lean ====
section
/-!
DEFINITION. The data window (R551 to R557): its spaces, the accesses it refuses, reads and writes.
-/
namespace Sys2Proof.Machine
open Sys2Proof

/-- Bytes of a space (Table 17-3). The audit region takes its address modulo 2^28 and so has no end. -/
def spaceSize (sp : Nat) : Nat :=
  if sp = 0 then stagingSize else if sp = 1 then levelSize 0 else if sp = 2 then levelSize 1 else if sp = 3 then levelSize 2
  else if sp = 4 then 2 ^ 21 else if sp = 6 then 2 ^ 23 else 2 ^ 64

/-- Why an access of 8 bytes at DW_ADDR is refused (R553): an err_kind, 0 for an access that is taken. Where several kinds fit, the lowest is
reported. -/
def State.dwRefused (s : State) (sp a : Nat) (wr : Bool) : Nat :=
  let r : Range := (sp - 1, a, 8)
  let level := 1 ≤ sp ∧ sp ≤ 3
  if spaceSize sp ≤ a then 1
  else if sp = 1 ∧ s.scratch (a / 2 ^ 20) = false then 2
  else if level ∧ s.carveOuts.any r.meets then 3
  else if level ∧ s.ownerOf (sp - 1) a ≠ 0 then 4
  else if sp = 0 ∧ wr = false ∧ bit s.host.marks (a / 4096) then 4
  else if sp = 7 ∨ (wr ∧ 4 ≤ sp) then 5
  else if sp = 0 ∧ wr ∧ s.stageLocked a 8 then 6
  else 0

/-- Count a refusal and say which it was (R553, R526, R556). -/
def State.dwRefuse (s : State) (sp a kind : Nat) : State :=
  let s := ((s.inc F.DW_ERR_COUNT_refused).sets [(F.DW_STATUS_err_space, sp), (F.DW_STATUS_err_kind, kind)]).setWord R.DW_ERR_ADDR (BitVec.ofNat 64 a)
  if kind = 4 then s.inc F.SEC_DW_DENY_denied else if kind = 6 then s.inc F.DW_LOCK_COUNT_locked else s

/-- Eight bytes of the audit region: the parts not released lie one after another from AUD_HEAD up. -/
def State.auditBytes (s : State) (a : Nat) : List Byte :=
  let off := (a + 2 ^ 28 - s.get F.AUD_HEAD_addr % 2 ^ 28) % 2 ^ 28
  let all := s.det.audit.parts.items.flatMap (·.2)
  (List.range 8).map (fun i => all.getD (off + i) 0)

/-- What an accepted read returns, and the state after it. A line with an uncorrectable error gives a value the spec does not state. -/
def State.dwFetch (s : State) (sp a : Nat) : Nat × State :=
  match sp with
  | 0 => (s.host.staging.num a 8, s)
  | 4 => (s.cp.rings.num a 8, s)
  | 5 => (leNat (s.auditBytes (a % 2 ^ 28)), s)
  | 6 => (leNat (s.memBytes 0 (gaugeAt 0 + a) 8), s)
  | _ => if s.memBad (sp - 1) a 8 then s.free 64 else (leNat (s.memBytes (sp - 1) a 8), s)

/-- DW_ADDR. -/
def State.dwAddr (s : State) : Nat := 8 * s.get F.DW_ADDR_addr

/-- One read of DW_DATA: its value, and DW_ADDR moves on by 8. -/
def State.dwRead (s : State) : Nat × State :=
  let sp := s.get F.DW_CTRL_space
  let kind := s.dwRefused sp s.dwAddr false
  let r := if kind = 0 then s.dwFetch sp s.dwAddr else (0, s.dwRefuse sp s.dwAddr kind)
  (r.1, r.2.inc F.DW_ADDR_addr)

/-- One write of DW_DATA, and DW_ADDR moves on by 8. -/
def State.dwWrite (s : State) (v : Nat) : State :=
  let sp := s.get F.DW_CTRL_space
  let kind := s.dwRefused sp s.dwAddr true
  let t := if kind ≠ 0 then s.dwRefuse sp s.dwAddr kind
    else if sp = 0 then s.stageWrite s.dwAddr (leBytes v 8) false
    else s.memWr (sp - 1) s.dwAddr (leBytes v 8)
  t.inc F.DW_ADDR_addr

/-- Count an access of a width or an alignment that no register takes (R543, R551). -/
def State.shortAccess (s : State) : State := s.inc F.HOST_BAD_ACCESS_short

/-- Does the function answer a BAR0 read with data: not in D3hot (R540)? Before ready every read but two returns 0 (R571). -/
def State.answers (s : State) : Bool := !s.host.d3hot

/-- `n` reads of DW_DATA. -/
def dwReads : Nat → State → State
  | 0, s => s
  | n + 1, s => dwReads n (let r := s.dwRead; r.2.emit (.read r.1))

/-- A read of DW_DATA, 8 bytes or (with `half`) 4. -/
def dwDataRead (half : Bool) (s : State) : State :=
  if !s.answers then s
  else if !s.ready then s.emit (.read 0)
  else if half then s.shortAccess.emit (.read 0)
  else dwReads 1 s

/-- DW_DATA_READ. -/
def execDwDataRead (half : Bool) (s : State) : Host.Outcome State Fault Refusal := done (dwDataRead half s)

/-- May a BAR0 write to the register at `a` be taken: when ready; and while boot_fail is 1, what ops 1 and 7 of the mailbox need (R510)? -/
def State.takes (s : State) (a : Nat) : Bool :=
  !s.host.d3hot && (s.ready || (s.get F.SEC_STATUS_boot_fail == 1
    && (a == R.MBX_CMD || a == R.MBX_ARG || a == R.DW_CTRL || a == R.DW_ADDR || ((a == R.DW_DATA || a == 0x104000) && s.get F.DW_CTRL_space == 0))))

/-- DW_DATA_WRITE. -/
def execDwDataWrite (v : BitVec 64) (s : State) : Host.Outcome State Fault Refusal :=
  done (if s.takes R.DW_DATA then s.dwWrite v.toNat else s)

/-- The 8-byte words of a byte string. -/
def words8 (b : List Byte) : List Nat := (List.range (b.length / 8)).map (fun i => leNat ((b.drop (8 * i)).take 8))

/-- Is `n` a length that DW_BURST takes? -/
def burstOk (n : Nat) : Bool := n % 8 == 0 && 8 ≤ n && n ≤ 256

/-- A write TLP in DW_BURST (R551). -/
def State.burstWrite (s : State) (data : List Byte) : State :=
  if burstOk data.length then (words8 data).foldl State.dwWrite s else s.shortAccess

/-- A read TLP of `n` bytes in DW_BURST. -/
def State.burstRead (s : State) (n : Nat) : State :=
  if burstOk n then dwReads (n / 8) s else s.shortAccess.emit (.read 0)

/-- A TLP in DW_BURST: a read of so many bytes, or a write of data. -/
def dwBurst (n : Option (Fin 257)) (data : List Byte) (s : State) : State :=
  match n with
  | none => if s.takes 0x104000 then s.burstWrite data else s
  | some n => if !s.answers then s else if !s.ready then s.emit (.read 0) else s.burstRead n.val

/-- DW_BURST. -/
def execDwBurst (n : Option (Fin 257)) (data : List Byte) (s : State) : Host.Outcome State Fault Refusal := done (dwBurst n data s)

/-- DW_STATUS_READ (R557): every earlier write has taken effect, so busy reads 0. -/
def execDwStatusRead (s : State) : Host.Outcome State Fault Refusal :=
  done (if s.answers then s.emit (.read (s.readReg R.DW_STATUS)) else s)

end Sys2Proof.Machine
end

