-- ==== Sys2Proof/Machine/RegWrite.lean ====
section
/-!
DEFINITION. A write of a register (R11 to R15, R545 to R549): the window and the alias it goes through, the block and its en bit, the range of
each field, and what a write sets going beyond the fields it writes.
-/
namespace Sys2Proof.Machine
open Sys2Proof

/-! ### Windows and aliases (R545, R546) -/

/-- How a write acts on a field: base, SET, CLR or TOG. -/
inductive WMode where
  | base | set | clr | tog
  deriving DecidableEq, Repr

/-- The field's value after the write: held value, written bits, width. -/
def WMode.apply (m : WMode) (cur x w : Nat) : Nat :=
  match m with
  | .base => x
  | .set => cur ||| x
  | .clr => cur &&& ((2 ^ w - 1) ^^^ x)
  | .tog => cur ^^^ x

/-- Is the 16 KiB window unaliased (Table 17-2)? -/
def unaliased (w : Nat) : Bool := w == 0x104000 || w == 0x108000 || w == 0x1410000 || w == 0x1810000 || w == 0x1840000 || w == 0x1844000

/-- The register an offset of BAR0 reaches, and how a write there acts. -/
def decodeOffset (a : Nat) : Nat × WMode :=
  let w := a / 0x4000 * 0x4000
  if unaliased w then (a, .base)
  else (w + a % 0x1000, match a % 0x4000 / 0x1000 with
    | 0 => .base
    | 1 => .set
    | 2 => .clr
    | _ => .tog)

/-! ### Blocks (Table 17-1) -/

/-- The en bit that a register's RWL fields belong to, and the registers that count a rejection; none for a block without them. -/
structure RegBlock where
  en    : Option Fld
  count : Fld
  addr  : Fld
  deriving DecidableEq, Repr

/-- The block of a register. -/
def blockOf (a : Nat) : Option RegBlock :=
  if a < 0x200000 then none
  else if 0x210000 ≤ a ∧ a < 0x310000 then
    let q := (a - 0x210000) / 0x4000
    some ⟨some (F.Q_CTL_en q), F.Q_REJ_COUNT_rej q, F.Q_REJ_ADDR_addr q⟩
  else if a < 0x400000 then some ⟨some F.CMD_CTL_en, F.CMD_REJ_COUNT_rej, F.CMD_REJ_ADDR_addr⟩
  else if a < 0x1000000 then some ⟨some F.ENG_CTL_en, F.ENG_REJ_COUNT_rej, F.ENG_REJ_ADDR_addr⟩
  else if a < 0x1400000 then some ⟨some F.CIS_CTL_en, F.CIS_REJ_COUNT_rej, F.CIS_REJ_ADDR_addr⟩
  else if a < 0x1800000 then some ⟨some F.NOR_CTL_en, F.NOR_REJ_COUNT_rej, F.NOR_REJ_ADDR_addr⟩
  else if 0x1860000 ≤ a ∧ a < 0x1870000 then some ⟨some F.GR_CTL_en, F.GR_REJ_COUNT_rej, F.GR_REJ_ADDR_addr⟩
  else if a < 0x2000000 then some ⟨some F.SW_CTL_en, F.SW_REJ_COUNT_rej, F.SW_REJ_ADDR_addr⟩
  else if a < 0x2400000 then some ⟨some F.HG_CTL_en, F.HG_REJ_COUNT_rej, F.HG_REJ_ADDR_addr⟩
  else if a < 0x2700000 then some ⟨some (F.PT_CTL_en ((a - 0x2400000) / 0x4000)), F.PT_REJ_COUNT_rej, F.PT_REJ_ADDR_addr⟩
  else if a < 0x2800000 then some ⟨some F.PT_GCTL_en, F.PT_REJ_COUNT_rej, F.PT_REJ_ADDR_addr⟩
  else if a < 0x3000000 then some ⟨some F.MEM_CTL_en, F.MEM_REJ_COUNT_rej, F.MEM_REJ_ADDR_addr⟩
  else if a < 0x3008000 then some ⟨some F.TIME_CTL_en, F.TIME_REJ_COUNT_rej, F.TIME_REJ_ADDR_addr⟩
  else if a < 0x3400000 then some ⟨some F.AUD_CTL_en, F.AUD_REJ_COUNT_rej, F.AUD_REJ_ADDR_addr⟩
  else if a < 0x3800000 then some ⟨some F.FLT_CTL_en, F.FLT_REJ_COUNT_rej, F.FLT_REJ_ADDR_addr⟩
  else if a < 0x3C00000 then none
  else if a < 0x3E00000 then some ⟨none, F.PWR_REJ_COUNT_rej, F.PWR_REJ_ADDR_addr⟩
  else some ⟨some F.TMUX_CTL_en, F.DBG_REJ_COUNT_rej, F.DBG_REJ_ADDR_addr⟩

/-- Is the block of a register in service? -/
def State.blockOn (s : State) (a : Nat) : Bool := ((blockOf a).bind (fun b => b.en)).any (fun f => s.get f == 1)

/-- Count a rejected write (R548, R549). -/
def State.rejectWrite (s : State) (a : Nat) : State :=
  match blockOf a with
  | some b => (s.inc b.count).set b.addr a
  | none => s.inc F.HOST_BAD_ACCESS_range

/-! ### Ranges (R549) -/

/-- Is a select one that TMUX takes at the debug level (R595, Table 19-3)? -/
def State.tmuxOk (s : State) (sel : Nat) : Bool :=
  let g := sel / 4096
  g ≤ 7 && sel % 4096 ≤ [1, 15, 63, 143, 4, 135, 134, 23].getD g 0 && (if g ≤ 4 then 1 else 2) ≤ s.get F.SEC_STATUS_debug

/-- Is a node one that an analog monitor takes at the debug level (R597, Table 19-4)? -/
def State.amonOk (s : State) (v : Nat) : Bool :=
  v ≤ 24 || (32 ≤ v && v ≤ 43) || (64 ≤ v && v ≤ 127 && s.get F.SEC_STATUS_debug == 2)

/-- Ranges of the command processor, the engines, the cistern and the noria. -/
def rangeLow (a lo v : Nat) : Bool :=
  if a = R.ACK_TIMEOUT then 1 ≤ v && v ≤ 1000000
  else if 0x210000 ≤ a ∧ a < 0x310000 then !(a % 0x4000 == 0 && lo == 2) || v < 144
  else if a = R.KAT_CTL then (lo != 16 || 64 ≤ v) && (lo != 32 || 1 ≤ v)
  else if a = R.NOR_CTL then lo != 8 || (1 ≤ v && v ≤ 200)
  else if 0x1010000 ≤ a ∧ a < 0x1050000 then !(a % 0x4000 == 0 && lo == 16) || v ≤ 512
  else true

/-- Ranges of the switch core, the headgates and the ports. -/
def rangeMid (a lo v : Nat) : Bool :=
  if a = R.GR_CTL then lo != 8 || v ≤ 24
  else if a = R.GR_FILTER then (lo != 8 || v ≤ 160 || v == 255) && (lo != 16 || v < 144 || v == 255)
  else if a = R.DLV_CTL then if lo = 0 then 1 ≤ v else 10 ≤ v
  else if a = R.HG_SAMPLE then 6 ≤ v && v ≤ 20
  else if 0x2000000 ≤ a ∧ a < 0x2240000 then !((a % 0x4000 == 0x68 || a % 0x4000 == 0x78) && lo == 32) || v ≤ 2
  else if 0x2400000 ≤ a ∧ a < 0x2640000 then (!(a % 0x4000 == 0 && lo == 1) || v ≤ 4) && (a % 0x4000 != 0x20 || 100 ≤ v)
  else if R.SPARE 0 0 ≤ a ∧ a ≤ R.SPARE 7 1 then v < 144 || v == 255
  else true

/-- Ranges of memory, time, faults, the secure core, the data window and the debug unit. -/
def State.rangeHigh (s : State) (a lo v : Nat) : Bool :=
  if a = R.MEM_RETAIN then lo != 16 || (1 ≤ v && v ≤ 504)
  else if a = R.LPD_RT_PERIOD then v == 0 || 20000 ≤ v
  else if a = R.LPD_MIG then lo != 0 || (1 ≤ v && v ≤ 32)
  else if a = R.PRD_CTL then lo != 16 || v ≤ 128
  else if a = R.TIME_CTL then (lo != 2 || v < 144 || v == 255) && (lo != 16 || (12 ≤ v && v ≤ 20))
  else if a = R.LAUNCH_LEAD then 1000 ≤ v && v ≤ 1000000000
  else if a = R.LOCK_HOP then 100 ≤ v && v ≤ 10000
  else if a = R.WM_CTL then (lo != 0 || v ≤ 2) && (lo != 48 || (10 ≤ v && v ≤ 10000))
  else if a = R.RSL_CTL then lo != 16 || (1 ≤ v && v ≤ 200)
  else if a = R.MBX_ARG then v % 8 == 0
  else if a = R.TMUX_CTL then lo != 0 || v == 0 || 1 ≤ s.get F.SEC_STATUS_debug
  else if R.TMUX_SEL 0 ≤ a ∧ a ≤ R.TMUX_SEL 3 then s.tmuxOk v
  else if a = R.AMON_SEL then s.amonOk v
  else true

/-- Does a value lie in the range that the field's Meaning gives? -/
def State.fieldOk (s : State) (a lo v : Nat) : Bool :=
  if a = R.DW_CTRL then v ≤ 6 else if a < 0x1800000 then rangeLow a lo v else if a < 0x2800000 then rangeMid a lo v else s.rangeHigh a lo v

/-! ### Fields (R546 to R548) -/

/-- The bits of a register that a write cannot change, though its field is RWL: RSV_MODE_7 [63:56] are RO, and PT_TRAIN_e [19] and [63:56] are
reserved (Table 13-7, Table 14-9). -/
def fixedBits (a : Nat) : Nat :=
  if a = R.RSV_MODE 7 then 0xFF <<< 56 else if R.PT_TRAIN 0 ≤ a ∧ a < R.PT_TRAIN 32 then 0xFF <<< 56 ||| 1 <<< 19 else 0

/-- What one field makes of a write: the state, and whether a rejection is due. `s` is the state before the write. -/
def State.putRegField (s : State) (a : Nat) (m : WMode) (v : Nat) (t : State × Bool) (f : RegField) : State × Bool :=
  if f.acc = .rw ∨ f.acc = .rwl then
    let fixed := fixedBits a
    let cur := bits (s.word a).toNat f.lo f.w
    let x := bits (v ^^^ (v &&& fixed)) f.lo f.w
    let now := m.apply cur x f.w
    let now := (now ^^^ (now &&& bits fixed f.lo f.w)) ||| (cur &&& bits fixed f.lo f.w)
    if m ≠ .base ∧ x = 0 then t
    else if f.acc = .rwl ∧ s.blockOn a ∧ (m ≠ .base ∨ now ≠ cur) then (t.1, true)
    else if !s.fieldOk a f.lo now then (t.1, true)
    else (t.1.set ⟨a, f.lo, f.w⟩ now, t.2)
  else t

/-- Write the RW and RWL fields of a register, and count one rejection where any field is refused. -/
def State.putFields (s : State) (f : RegFam) (a : Nat) (m : WMode) (v : Nat) : State :=
  let r := f.fields.foldl (s.putRegField a m v) (s, false)
  if r.2 then r.1.rejectWrite a else r.1

/-- The word a register's RW and RWL fields would make, before any check. -/
def State.wantWord (s : State) (f : RegFam) (a : Nat) (m : WMode) (v : Nat) : Nat :=
  f.fields.foldl (fun w x => if x.acc = .rw ∨ x.acc = .rwl then showField w (x.lo, x.w, m.apply (bits w x.lo x.w) (bits v x.lo x.w) x.w) else w) (s.word a).toNat

/-! ### Enabling a block -/

/-- May the cistern not be enabled with its spill regions (R116)? -/
def State.cisBad (s : State) : Bool :=
  let all := (List.range 16).flatMap (fun cl => ((s.spillRegions cl).filter (fun a => decide (0 < a.2.2))).map (fun a => (cl, a)))
  let recs := s.binds.items.flatMap (fun p =>
      p.2.tables.items.flatMap (fun q => (BindRec.table q.2).ranges) ++ p.2.chans.items.flatMap (fun q => (BindRec.chan q.2).ranges))
    ++ s.nor.shards.items.flatMap (fun p => (BindRec.shard p.2.record).ranges)
  let owned := s.sec.owners.map (fun (e : Nat × Nat) => granuleRange (e.1 / 65536) (e.1 % 65536))
  all.any (fun a => all.any (fun b => decide (a.1 < b.1) && a.2.meets b.2))
    || all.any (fun a => !a.2.mapped || s.carveOuts.any a.2.meets || (a.2.1 != 0 && (recs.any a.2.meets || owned.any a.2.meets))
      || (a.2.1 == 0 && !(List.range (a.2.2.2 / 2 ^ 20)).all (fun i => s.scratch (a.2.2.1 / 2 ^ 20 + i))))

/-- May the memory block not be enabled (R478)? The regions' modes are those that RSV_MODE holds. -/
def State.memCtlBad (s : State) : Bool :=
  let mode := fun (r : Nat) => bit (s.word (R.RSV_MODE (r / 64))).toNat (r % 64)
  let keep := (List.range (s.get F.MEM_RETAIN_size)).map (fun i => s.get F.MEM_RETAIN_base + i)
  let inSpill := fun (r : Nat) => (List.range 16).any (fun cl =>
    decide (s.get (F.CIS_SPILL_RES_base cl) ≤ r ∧ r < s.get (F.CIS_SPILL_RES_base cl) + s.get (F.CIS_SPILL_RES_size cl)))
  keep.any (fun r => decide (504 ≤ r) || !mode r || inSpill r)
    || (List.range 4).any (fun d => decide (((List.range 128).filter (fun i => !mode (128 * d + i))).length < 8))

/-- Keep an en bit at 0 and say why, or leave it at 1 and clear cfg_bad. -/
def State.gate (s : State) (en bad : Fld) (fails : Bool) : State := if fails then s.sets [(en, 0), (bad, 1)] else s.set bad 0

/-- MEM_CTL.en rises: the modes take effect (R478). -/
def State.memEnabled (s : State) : State :=
  if s.memCtlBad then s.sets [(F.MEM_CTL_en, 0), (F.MEM_STATUS_cfg_bad, 1)]
  else { s with rsv.modes := (List.range 8).foldl (fun m i => SMap.set (fun j => regInit (R.RSV_MODE j)) m i (s.word (R.RSV_MODE i))) s.rsv.modes }.set
    F.MEM_STATUS_cfg_bad 0

/-- HG_CTL.en rises: every meter's buckets are full (R397). -/
def State.hgEnabled (s : State) : State :=
  (List.range 144).foldl (fun s p => (s.fillMeter p 0).fillMeter p 1) s

/-- The fault block cannot be enabled in levee mode with fewer than two members (R485). -/
def State.fltBad (s : State) : Bool := s.get F.LEV_CTL_mode == 0 && decide (s.leveeSet.length < 2)

/-- What an en bit that has changed sets going; `t` is the state before the write. -/
def State.enChanged (s t : State) (a : Nat) : State :=
  let rose := fun (f : Fld) => t.get f == 0 && s.get f == 1
  let fell := fun (f : Fld) => t.get f == 1 && s.get f == 0
  if a = R.CIS_CTL then if rose F.CIS_CTL_en then s.gate F.CIS_CTL_en F.CIS_STATUS_cfg_bad s.cisBad else s
  else if a = R.MEM_CTL then if rose F.MEM_CTL_en then s.memEnabled else s
  else if a = R.FLT_CTL then if rose F.FLT_CTL_en then s.gate F.FLT_CTL_en F.FLT_STATUS_cfg_bad s.fltBad else s
  else if a = R.SW_CTL then if rose F.SW_CTL_en && s.me == 0xFFFF then s.set F.SW_CTL_en 0 else s
  else if a = R.GR_CTL then if rose F.GR_CTL_en then { s with sw.grSeen := [] } else s
  else if a = R.HG_CTL then if rose F.HG_CTL_en then s.hgEnabled else s
  else if a = R.PT_GCTL then
    if rose F.PT_GCTL_en then (List.range 144).foldl State.portStart s
    else if fell F.PT_GCTL_en then (List.range 144).foldl (fun s p => if s.get (F.PT_CTL_en p) = 1 then s.portOff p else s) s
    else s
  else if 0x2400000 ≤ a ∧ a < 0x2640000 ∧ a % 0x4000 = 0 then
    let p := (a - 0x2400000) / 0x4000
    if rose (F.PT_CTL_en p) then s.portStart p else if fell (F.PT_CTL_en p) then s.portOff p else s
  else if a = R.TIME_CTL then if rose F.TIME_CTL_en then timeEnable (s.set F.TIME_CTL_en 0) else if fell F.TIME_CTL_en then s.timeOff else s
  else s

/-! ### Writes with an effect of their own -/

/-- Software writes v to INT_EOI (R559). -/
def State.eoi (s : State) (v : Nat) : State := if bit s.intLines v then s.msixTrigger v else s

/-- Is a cause of Table 17-5 an event cause? -/
def eventCause (k : Nat) : Bool := (11 ≤ k && k ≤ 16) || k == 19 || k == 20 || k == 24

/-- A register of the host block that a write does not reach as a plain field. -/
def State.ownHost (s : State) (a : Nat) (m : WMode) (v : Nat) : Option State :=
  if a = R.DW_DATA then some (if m = .base then s.dwWrite v else s.shortAccess)
  else if a = R.INT_EOI then some (if m = .base then s.eoi (v % 64) else s)
  else if R.INT_MAP 25 ≤ a ∧ a ≤ R.INT_MAP 63 then some s
  else if R.INT_EVT 0 ≤ a ∧ a ≤ R.INT_EVT_ACK 31 then if eventCause ((a - R.INT_EVT 0) / 16) then none else some s
  else none

/-- A register of a queue's page: Q_RESTART, and the words of a command. -/
def State.ownQueue (s : State) (a : Nat) (m : WMode) (v : Nat) : Option State :=
  let q := (a - 0x210000) / 0x4000
  let o := a % 0x4000
  if o = 0x28 then some (if m = .base ∧ bit v 0 then s.set (F.Q_STATUS_stopped q) 0 else s)
  else if 0x80 ≤ o ∧ o < 0xB8 then
    some (if m = .base then { s with host.qcmd := SMap.set (fun _ => (0 : Word)) s.host.qcmd (8 * q + (o - 0x80) / 8) (BitVec.ofNat 64 v) } else s)
  else if o = 0xB8 then some (if m = .base ∧ q < 64 then hostSubmit (Fin.ofNat 64 q) (BitVec.ofNat 64 v) s else s)
  else none

/-- A register of chapters 9 to 13 with an effect of its own. `w` is the word the write would leave. -/
def State.ownMid (s : State) (a : Nat) (m : WMode) (v w : Nat) : Option State :=
  if a = R.SNAP_REQ then some (if m = .base then snapReq (Fin.ofNat 1024 v) s else s)
  else if a = R.NOR_RESTORE then some (if m = .base then norRestore (Fin.ofNat 1024 v) (BitVec.ofNat 8 (bits v 10 8)) s else s)
  else if a = R.GR_TAIL then some (grTailWrite (BitVec.ofNat 18 w) s)
  else if 0x2000000 ≤ a ∧ a < 0x2240000 ∧ 0x18 ≤ a % 0x4000 ∧ a % 0x4000 < 0x58 then
    let p := (a - 0x2000000) / 0x4000
    if (a % 0x4000 - 0x18) / 0x20 = s.get (F.HG_PSTATUS_active p) then some (s.rejectWrite a) else none
  else if 0x2400000 ≤ a ∧ a < 0x2640000 ∧ a % 0x4000 = 0x18 then
    if s.blockOn a = false ∧ bits w 0 6 + bits w 8 6 + bits w 16 6 + bits w 24 6 > 64 then some (s.rejectWrite a) else none
  else none

/-- A register of the step counter, the levee, the mailbox and power with an effect of its own. -/
def State.ownHigh (s : State) (a : Nat) (m : WMode) (v w : Nat) : Option State :=
  if a = R.STEP_CTR then some (if m = .base then stepCtrWrite (BitVec.ofNat 64 w) s
    else if v = 0 then s else if s.get F.AUD_CTL_en = 1 then s.rejectWrite a else stepCtrWrite (BitVec.ofNat 64 w) s)
  else if a = R.LEV_SELF then some (if m = .base ∧ bit v 0 then levSelf s else s)
  else if a = R.MBX_CMD then some (if m = .base then s.mbx (v % 256) (bits v 16 24) else s)
  else if a = R.PWR_BRST then some (if m = .base then s.pwrBrst v else s)
  else if a = R.PWR_RST then some (if m = .base then pwrRst (BitVec.ofNat 32 v) 0 0 s else s)
  else if a = R.PWR_CTL then some (profileSelect (BitVec.ofNat 3 w) s)
  else none

/-- A write that goes its own way, if the register has one. -/
def State.ownWrite (s : State) (f : RegFam) (a : Nat) (m : WMode) (v : Nat) : Option State :=
  let w := s.wantWord f a m v
  if a < 0x200000 then s.ownHost a m v
  else if 0x210000 ≤ a ∧ a < 0x310000 then s.ownQueue a m v
  else if a < 0x3000000 then s.ownMid a m v w
  else s.ownHigh a m v w

/-- What follows once the fields are written; `t` is the state before. -/
def State.wrote (s t : State) (a : Nat) (m : WMode) (v : Nat) : State :=
  if a = R.AUD_EXPORT_ACK then s.auditExport (s.get F.AUD_EXPORT_ACK_released)
  else if 0x2000000 ≤ a ∧ a < 0x2240000 ∧ 0x58 ≤ a % 0x4000 ∧ a % 0x4000 < 0x88 then
    let p := (a - 0x2000000) / 0x4000
    let j := (a % 0x4000 - 0x58) / 8
    if j < 2 then s.setDeficit p j 0 else s.fillMeter p ((j - 2) / 2)
  else if a = R.RSL_CTL then if m = .base ∧ bit v 10 then rslStart s else s
  else if a = R.FLOG_CTL then if m = .base ∧ bit v 1 then flogExport s else s
  else s.enChanged t a

/-- A write of an 8-byte value to a register. -/
def State.regWrite (s : State) (m : WMode) (a v : Nat) : State :=
  match famOf a with
  | none => s
  | some f => match s.ownWrite f a m v with
    | some t => t
    | none => (s.putFields f a m v).wrote s a m v

end Sys2Proof.Machine
end

