-- ==== Sys2Proof/Machine/Debugger.lean ====
section
/-!
DEFINITION. The SMBus target and the JTAG port (R589, R590, R599, R600, R531).
-/
namespace Sys2Proof.Machine
open Sys2Proof

/-! ### SMBus -/

/-- Answer a block read with 8 bytes; a module without power answers nothing. -/
def State.smb (s : State) (v : Nat) : State := if s.pwr.off then s else s.emit (.reply "SMB" (leBytes v 8))

/-- The hottest of `n` sensors, with its temperature: a tie goes to the lowest (signed readings). -/
def hottest (temp : Nat → Nat) (n : Nat) : Nat :=
  (List.range n).foldl (fun h i => if sint 16 (temp h) < sint 16 (temp i) then i else h) 0

/-- SMB_GCTL_ID. -/
def execSmbGctlId (s : State) : Host.Outcome State Fault Refusal := done (s.smb (s.regWord R.GCTL_ID))

/-- SMB_PWR_STATUS. -/
def execSmbPwrStatus (s : State) : Host.Outcome State Fault Refusal := done (s.smb (s.regWord R.PWR_STATUS))

/-- SMB_PWR_IN. -/
def execSmbPwrIn (s : State) : Host.Outcome State Fault Refusal := done (s.smb (s.regWord R.PWR_IN))

/-- SMB_COOL. -/
def execSmbCool (s : State) : Host.Outcome State Fault Refusal := done (s.smb (s.regWord R.COOL))

/-- SMB_HOTTEST_ISLAND. -/
def execSmbHottestIsland (s : State) : Host.Outcome State Fault Refusal :=
  let i := hottest (fun i => s.get (F.ISL_temp i)) 24
  done (s.smb (s.get (F.ISL_temp i) + i * 2 ^ 16))

/-- SMB_HOTTEST_STACK. -/
def execSmbHottestStack (s : State) : Host.Outcome State Fault Refusal :=
  let i := hottest (fun i => s.get (F.HBM_STACK_temp i)) 8
  done (s.smb (s.get (F.HBM_STACK_temp i) + i * 2 ^ 16))

/-- SMB_ALERT_STATUS. -/
def execSmbAlertStatus (s : State) : Host.Outcome State Fault Refusal := done (s.smb (s.regWord R.ALERT_STATUS))

/-- SMB_FLOG_PTIME. -/
def execSmbFlogPtime (s : State) : Host.Outcome State Fault Refusal := done (s.smb (s.regWord R.FLOG_PTIME))

/-- SMB_OTHER: any other command, and any write, is not acknowledged. -/
def execSmbOther (s : State) : Host.Outcome State Fault Refusal := done (if s.pwr.off then s else s.emit (.reply "SMB_NACK" []))

/-! ### JTAG -/

/-- Take a JTAG instruction. -/
def State.jtag (s : State) (ir : Nat) : State := { s with dbg.jtag := ir }

/-- What the scan output returns. -/
def State.tdo (s : State) (b : List Byte) : State := s.emit (.reply "TDO" b)

/-- The debug level (R531). -/
def State.debugLevel (s : State) : Nat := s.get F.SEC_STATUS_debug

/-- IDCODE. -/
def execIdcode (s : State) : Host.Outcome State Fault Refusal :=
  done (if s.pwr.off then s else (s.jtag 0).tdo (leBytes (s.regWord R.JTAG_ID) 4))

/-- BYPASS. -/
def execBypass (s : State) : Host.Outcome State Fault Refusal := done (if s.pwr.off then s else s.jtag 1)

/-- SAMPLE/PRELOAD: the pins are sampled (GPIO, then ALERT_N and THERMTRIP_N) and the boundary cells loaded. -/
def samplePreload (cells board : BitVec 16) (s : State) : State :=
  if s.pwr.off then s
  else if s.debugLevel = 0 then s.jtag 1
  else
    let t := { s with dbg.board := board.toNat }.jtag 2
    { t with dbg.cells := cells.toNat }.tdo (leBytes t.pinLevels 2 ++ [if t.alert then 0 else 1, if t.pwr.trip then 0 else 1])

/-- SAMPLE_PRELOAD. -/
def execSamplePreload (cells board : BitVec 16) (s : State) : Host.Outcome State Fault Refusal := done (samplePreload cells board s)

/-- EXTEST is entered only while every block is disabled (R600). -/
def extest (s : State) : State :=
  if s.pwr.off then s
  else if s.debugLevel = 0 then s.jtag 1
  else if s.blkBits ≠ 0 then (((s.inc F.DBG_REJ_COUNT_rej).set F.DBG_REJ_ADDR_addr 0x03E00078)).jtag 1
  else s.jtag 3

/-- EXTEST. -/
def execExtest (s : State) : Host.Outcome State Fault Refusal := done (extest s)

/-- A read of a register, with what the read itself does: DW_DATA and FLOG_DATA move on. -/
def State.regRead (s : State) (a : Nat) : Nat × State :=
  if a = R.DW_DATA then s.dwRead
  else if a = R.FLOG_DATA then (s.flogWord (8 * s.get F.FLOG_ADDR_addr), s.inc F.FLOG_ADDR_addr)
  else (s.regWord a, s)

/-- An access at debug level 2 (R531). HBM and LPDDR hold ciphertext, which cannot be read in PROD (R533); what an internal scan chain holds the spec
does not say. -/
def State.scanAccess (s : State) : Scan → State
  | .chain => let r := s.free 64; r.2.tdo (leBytes r.1 8)
  | .readReg a => let r := s.regRead a.toNat; r.2.tdo (leBytes r.1 8)
  | .writeReg a v => s.regWrite .base a.toNat v.toNat
  | .readMem level a =>
    let r := if (level.val ≠ 0 ∧ s.get F.SEC_STATUS_lifecycle = 1) ∨ levelSize level.val < a.toNat + 8 ∨ s.memBad level.val a.toNat 8 then s.free 64
      else (leNat (s.memBytes level.val a.toNat 8), s)
    r.2.tdo (leBytes r.1 8)
  | .writeMem level a v => if a.toNat + 8 ≤ levelSize level.val then s.memWr level.val a.toNat (leBytes v.toNat 8) else s

/-- Internal scan, and register and memory access. -/
def internalScan (x : Scan) (s : State) : State :=
  if s.pwr.off then s else if s.debugLevel ≠ 2 then s.jtag 1 else (s.jtag 4).scanAccess x

/-- INTERNAL_SCAN. -/
def execInternalScan (x : Scan) (s : State) : Host.Outcome State Fault Refusal := done (internalScan x s)

end Sys2Proof.Machine
end

