-- ==== Sys2Proof/Machine/Egress.lean ====
section
/-!
DEFINITION. Packets leave their furrows: to a port's link, to a cluster, or over the control ring to the management die (R33, R391).
-/
namespace Sys2Proof.Machine
open Sys2Proof

/-- The port a message to the command processor comes from: one of this module's endpoints, else no port. -/
def State.senderPort (s : State) (k : Packet) : Nat := if k.src / 256 = s.me then k.src % 256 else 0xFF

/-- A packet reaches its destination in the module. A class M message of Table 13-6 for the device is handled as if it had come from its port alone
(R33, R436); every other packet is given to the cluster or to the management die. -/
def State.arrive (s : State) (dest : Nat) (k : Packet) : State :=
  let at_ := fun (o n : Nat) => leNat ((k.data.drop o).take n)
  if dest = 0xFF ∧ k.cls = clsM ∧ at_ 0 1 = 0x60 ∧ k.data.length = 72 then submit (s.senderPort k) (at_ 1 1) (at_ 2 2) ⟨at_ 8 64⟩ s
  else if dest = 0xFF ∧ k.cls = clsM ∧ at_ 0 1 = 0x63 ∧ k.data.length ≥ 16 then
    putData (s.senderPort k) (at_ 2 2) (at_ 4 4) (at_ 8 8) (k.data.drop 16) s
  else s.emit (.packet dest k.cls k.bytes)

/-- The headgate of a port starts a packet, or a crossing to a cluster (144 on) or to management (160) takes one. -/
def packetStart (out : Fin 161) (bf : Option BasinFault) (s : State) : State :=
  if out.val < 144 then
    let p := out.val
    if !s.portFree p then s
    else
      let s := (s.furrowsTo p).foldl State.noteHolds s
      match findMap? (fun c => (s.choose p c).map (fun r => (c, r))) (s.classOrder p) with
      | none => s
      | some (c, (src, d), t) =>
        let t := (t.inc (F.PC_OUT_PKT_count p c)).inc (F.PC_OUT_BYTE_count p c) d.p.size
        let t := if d.demoted then t.inc (F.PC_DEMOTE_count p c) else t
        let t := if s.get F.HG_CTL_en = 1 then t.shaperTake p c d.p.size else t
        (t.depart src p d (s.lastFurrow p d.p) bf).sendPacket p d.p
  else
    let dest := if out.val = 160 then 0xFF else 0xE0 + (out.val - 144)
    let s := (s.furrowsTo dest).foldl State.noteHolds s
    match findMap? (fun c => s.roundRobin out c (s.heads dest c)) [0, 1, 3, 2] with
    | none => s
    | some ((src, d), t) => (t.depart src dest d true bf).arrive dest d.p

/-- PACKET_START. -/
def execPacketStart (out : Fin 161) (bf : Option BasinFault) (s : State) : Host.Outcome State Fault Refusal := done (packetStart out bf s)

end Sys2Proof.Machine
end

