-- ==== Sys2Proof/Machine/EngEvents.lean ====
section
/-!
DEFINITION. What happens at the engines without an instruction: waits that end (R230, R232), memory operations that complete (R225, R227, R229,
R456, R458), the spare engine (R156, R157), and the known-answer self-test (R163).
-/
namespace Sys2Proof.Machine
open Sys2Proof

/-! ### Operations that take effect -/

/-- An operation of a context takes effect (R229): SIGEVs that waited for it and for every earlier one add their increments (R231), and a RUN
whose last operation it is ends. -/
def State.opDone (s : State) (eng ctx op : Nat) : State :=
  let c := s.ctxAt eng ctx
  let left := c.open_.erase op
  let due := c.sigs.filter (fun g => !left.any (fun o => o < g.before))
  let s := s.putCtx eng ctx { c with open_ := left, sigs := c.sigs.filter (fun g => left.any (fun o => o < g.before)) }
  let s := due.foldl (fun s g => s.evtAdd g.event g.inc) s
  match c.coll with
  | some x => if c.st = 5 then s.runDone x else s
  | none => s

/-- WAITEV completes once its counter has reached the threshold (R230). -/
def waitevComplete (eng : Fin 128) (ctx : Fin 8) (s : State) : State :=
  let c := s.ctxAt eng ctx
  match c.wait with
  | .event n t => if s.evtMet n t then s.putCtx eng ctx { c with st := 1, wait := .none } else s
  | _ => s

/-- WAITEV_COMPLETE. -/
def execWaitevComplete (eng : Fin 128) (ctx : Fin 8) (s : State) : Host.Outcome State Fault Refusal := done (waitevComplete eng ctx s)

/-- FENCE completes once every earlier operation of its context has taken effect (R232). -/
def fenceComplete (eng : Fin 128) (ctx : Fin 8) (s : State) : State :=
  let c := s.ctxAt eng ctx
  match c.wait with
  | .fence _ => if c.open_.isEmpty then s.putCtx eng ctx { c with st := 1, wait := .none } else s
  | _ => s

/-- FENCE_COMPLETE. -/
def execFenceComplete (eng : Fin 128) (ctx : Fin 8) (s : State) : Host.Outcome State Fault Refusal := done (fenceComplete eng ctx s)

/-! ### Rows and flumes -/

/-- Is a request that of gathered rows for a stream? -/
def Req.landsIn (r : Req) (eng k : Nat) : Bool :=
  match r.want with
  | .rows q _ _ _ _ _ => r.eng == eng && q == k
  | _ => false

/-- Gathered rows land in their landing buffer, back to back in the order of the GATHs of the stream (R225); a poison row is an origin of cause
0x05 (R459). Of its rows that the predictor had not placed, `misses` were not in the cache (R463). -/
def gathLand (eng : Fin 128) (k : Fin 16) (misses : Nat) (s : State) : State :=
  match s.eng.reqs.find? (fun r => r.landsIn eng k), s.strm eng k with
  | some r, some t =>
    match r.want with
    | .rows _ data bad fmt served rowB =>
      if s.stuck (flumeOf (eng / 8) true) then s
      else
      let late := served.filter (fun x => !s.placed x rowB)
      let s := served.foldl (fun s x => s.useRow x rowB) (s.predictorMiss (min misses late.length))
      let c := s.ctxAt eng r.ctx
      let s := { s with eng.reqs := s.eng.reqs.erase r }
      let s := s.putStrm eng k { t with land := t.land ++ data, rowsDue := t.rowsDue - data.length }
      let s := s.origins c.coll (bad.map (fun i =>
        (⟨5, 4, false, 0, eng, r.ctx, i, fmt, 0x68, 0xFF, c.chunk, c.elemIx + i⟩ : Origin)))
      s.opDone eng r.ctx r.op
    | _ => s
  | _, _ => s

/-- GATH_ROWS_LANDED. -/
def execGathRowsLanded (eng : Fin 128) (k : Fin 16) (misses : Nat) (s : State) : Host.Outcome State Fault Refusal :=
  done (gathLand eng k misses s)

/-- The bytes a flume read request brings: at most 256, what the sequence still holds, and what the buffer has room for (R456). -/
def flumeRoom (t : Strm) (r : ChanRec) : Nat := min 256 (min (r.total - t.seqDone) (t.cap - (t.land.length + t.rowsDue)))

/-- A flume read request completes: its bytes join the landing buffer in the order of the sequence (R456). `err` is what ECC found in its first
line; `miss`: the predictor, when it serves the channel, had not placed the row (R463). -/
def flumeRead (eng : Fin 128) (k : Fin 16) (err : Fin 3) (miss : Bool) (s : State) : State :=
  match s.strm eng k with
  | some t => match t.chan with
    | some r =>
      if r.dir ≠ 0 ∨ s.stuck (flumeOf (eng / 8) true) then s
      else
        let n := flumeRoom t r
        let a := r.addr t.seqDone
        let s := if n = 0 then s else s.memError r.level a err
        let s := if n = 0 ∨ !bit r.predict 0 ∨ r.level ≠ 2 then s else if miss ∧ !s.placed a n then s.predictorMiss 1 else s.useRow a n
        let bs := (List.range n).flatMap (fun i => s.memRd r.level (r.addr (t.seqDone + i)) 1)
        s.putStrm eng k { t with land := t.land ++ bs, seqDone := t.seqDone + n }
    | none => s
  | none => s

/-- FLUME_READ_COMPLETE. -/
def execFlumeReadComplete (eng : Fin 128) (k : Fin 16) (err : Fin 3) (miss : Bool) (s : State) : Host.Outcome State Fault Refusal :=
  done (flumeRead eng k err miss s)

/-- The oldest write of a channel completes at its memory level (R229, R456): its bytes go to the sequence in order; bytes past the end of the
sequence have no address and are not written. -/
def flumeWrite (eng : Fin 128) (k : Fin 16) (s : State) : State :=
  match s.strm eng k with
  | some t => match t.chan, t.wops with
    | some r, (op, n) :: rest =>
      if r.dir ≠ 1 ∨ s.stuck (flumeOf (eng / 8) false) then s
      else
        let s := (((t.out.take n).zipIdx).foldl (fun s b =>
          if t.seqDone + b.2 < r.total then s.memWr r.level (r.addr (t.seqDone + b.2)) [b.1] else s) s)
        let s := s.putStrm eng k { t with out := t.out.drop n, wops := rest, seqDone := t.seqDone + n }
        s.opDone eng t.ctx op
    | _, _ => s
  | none => s

/-- FLUME_WRITE_COMPLETE. -/
def execFlumeWriteComplete (eng : Fin 128) (k : Fin 16) (s : State) : Host.Outcome State Fault Refusal := done (flumeWrite eng k s)

/-- The slot a request adds to. -/
def Req.slot (r : Req) : Option (TableRec × Nat × Nat) :=
  match r.want with
  | .add t row col _ _ _ => some (t, row, col)
  | _ => none

/-- The number of a request's operation still outstanding beside it. -/
def State.opBusy (s : State) (r : Req) : Bool := s.eng.reqs.any (fun q => q.eng == r.eng && q.ctx == r.ctx && q.op == r.op)

/-- Request `n` of the turnout completes (R227, R458): the contribution enters its slot, after every earlier request to that slot. `err` is what
ECC found in the slot's line; `miss`: the predictor, when it serves the table, had not placed the row (R463). -/
def turnoutComplete (n : Nat) (err : Fin 3) (miss : Bool) (s : State) : State :=
  match s.eng.reqs[n]? with
  | none => s
  | some r =>
    match r.want with
    | .add t row col fmt b pz =>
      if (s.eng.reqs.take n).any (fun q => q.slot == r.slot) ∨ s.stuck (flumeOf (r.eng / 8) false) then s
      else
        let c := s.ctxAt r.eng r.ctx
        let s := { s with eng.reqs := s.eng.reqs.eraseIdx n }
        let a := t.base + (row * t.cols + col) * 64
        let s := s.memError t.level a err
        let s := if !bit t.predict 0 ∨ t.level ≠ 2 then s else if miss ∧ !s.placed a 64 then s.predictorMiss 1 else s.useRow a 64
        let s := s.scatterEnter c.coll c.chunk (row * t.cols + col) (r.eng / 8) t row col ((s.fmt fmt).decode b) pz
        if s.opBusy r then s else s.opDone r.eng r.ctx r.op
    | _ => s

/-- TURNOUT_REQUEST_COMPLETE. -/
def execTurnoutRequestComplete (n : Nat) (err : Fin 3) (miss : Bool) (s : State) : Host.Outcome State Fault Refusal :=
  done (turnoutComplete n err miss s)

/-! ### The spare engine (R156, R157) -/

/-- The physical number of a die's spare engine. -/
def spareOf (die : Nat) : Nat := 17 * die + 16

/-- The lowest stopped engine of a die (Table 05-8, row 2). -/
def State.waitingEngine (s : State) (die : Nat) : Option Nat :=
  (s.eng.stopped.filter (fun p => p / 17 == die)).foldl (fun b p => match b with
    | none => some p
    | some q => some (min p q)) none

/-- The spare attaches to the lowest stopped engine of its die and runs its contexts from their precise points; with none stopped, it takes over an
engine whose retirement waits for its return point (R160). -/
def spareAttach (die : Fin 8) (s : State) : State :=
  let sp := spareOf die
  match s.waitingEngine die with
  | none => match s.eng.retiring.find? (fun (p : Nat) => p / 17 == die.val && s.mayTakeOver p) with
    | some p => s.takeOver p
    | none => s
  | some ph =>
    if (s.eng.attach.find die).isSome ∨ s.get (F.ENG_STATUS_role sp) ≠ 1 then s
    else
      let s := { s with eng.attach := s.eng.attach.put die ph, eng.stopped := s.eng.stopped.filter (· != ph) }
      (s.sets [(F.ENG_STATUS_attached ph, 1), (F.ENG_STATUS_peer ph, sp), (F.ENG_STATUS_attached sp, 1),
        (F.ENG_STATUS_peer sp, ph)]).pert 8

/-- SPARE_ATTACH. -/
def execSpareAttach (die : Fin 8) (s : State) : Host.Outcome State Fault Refusal := done (spareAttach die s)

/-- The spare detaches when all 8 contexts have reached a return point, and the engine resumes; from an engine that is to be retired it does not detach
(R160). -/
def spareDetach (die : Fin 8) (s : State) : State :=
  let sp := spareOf die
  match s.eng.attach.find die with
  | none => s
  | some ph =>
    if !s.atReturn ph ∨ s.eng.retiring.contains ph then s
    else
      ({ s with eng.attach := s.eng.attach.drop die }.sets [(F.ENG_STATUS_attached ph, 0), (F.ENG_STATUS_peer ph, 0xFF),
        (F.ENG_STATUS_attached sp, 0), (F.ENG_STATUS_peer sp, 0xFF)]).pert 8

/-- SPARE_DETACH. -/
def execSpareDetach (die : Fin 8) (s : State) : Host.Outcome State Fault Refusal := done (spareDetach die s)

/-! ### Known-answer self-test (R163) -/

/-- The 5 °C bin of an island temperature in 0.125 °C units, as a bit number; the bins begin at −512 °C (log entry 52). -/
def tempBin (t : Nat) : Nat := ((sint 16 t + 4096) / 40).toNat

/-- The logical engine whose contexts a physical engine runs (R156, R157): its own while no spare is attached to it, that of the engine it is
attached to for a spare; none for a free spare. -/
def State.runs (s : State) (ph : Nat) : Option Nat :=
  if s.get (F.ENG_STATUS_role ph) = 1 then (s.eng.attach.find (ph / 17)).map (fun p => s.get (F.ENG_STATUS_logical p))
  else if s.eng.attach.find (ph / 17) = some ph then none else some (s.get (F.ENG_STATUS_logical ph))

/-- May an engine run a burst: self-test on, not retired, no READY context, and within a pass or allowed to start one? -/
def State.katMay (s : State) (ph : Nat) : Bool :=
  let idle := match s.runs ph with
    | some n => (List.range 8).all (fun i => (s.ctxAt n i).st != 1)
    | none => true
  let start := s.eng.katN.rd ph != 0 || s.eng.katAt.rd ph == 0 ||
    decide (s.get F.FLOG_PTIME_seconds + 1 ≥ s.eng.katAt.rd ph + s.get F.KAT_CTL_period) ||
    !bit (s.eng.katBins.rd ph) (tempBin (s.sluiceTemp (ph / 17)))
  s.get F.KAT_CTL_en == 1 && s.get (F.ENG_STATUS_role ph) != 2 && idle && start

/-- One burst on an engine: `sig` is its pattern signature when its answer differs, `late` the issues it delayed. -/
def katBurst (ph : Fin 136) (ok : Bool) (sig : BitVec 32) (late : Nat) (s : State) : State :=
  if !s.katMay ph then s
  else
    let n := s.eng.katN.rd ph
    let s := if n = 0 then { s with eng.katAt := s.eng.katAt.wr ph (s.get F.FLOG_PTIME_seconds + 1) } else s
    let s := (s.inc F.KAT_DELAY_COUNT_delay late).pert 10 late
    let s := if n + 1 = 1024 then
        let b := s.eng.katBins.rd ph
        { s with eng.katN := s.eng.katN.wr ph 0, eng.katBins := s.eng.katBins.wr ph (b ||| 1 <<< tempBin (s.sluiceTemp (ph / 17))) }.inc
          F.KAT_PASS_COUNT_pass
      else { s with eng.katN := s.eng.katN.wr ph (n + 1) }
    if ok then s
    else s.residue none 0 ph (s.get (F.ENG_STATUS_logical ph)) 0 0 3 sig.toNat 0

/-- KAT_BURST. -/
def execKatBurst (ph : Fin 136) (ok : Bool) (sig : BitVec 32) (late : Nat) (s : State) : Host.Outcome State Fault Refusal :=
  done (katBurst ph ok sig late s)

end Sys2Proof.Machine
end

