-- ==== Sys2Proof/Machine/HostRegs.lean ====
section
/-!
DEFINITION. The host's commands (chapter 17): resets and power states of the function, MSI-X, register writes at any offset and width, and the
enables that check their configuration.
-/
namespace Sys2Proof.Machine
open Sys2Proof

/-! ### The function's identity (R537) -/

/-- The Type 0 configuration header of the function: what it reports of its identity. -/
structure ConfigHeader where
  vendor    : Nat
  device    : Nat
  revision  : Nat
  classCode : Nat
  subVendor : Nat
  subSystem : Nat
  deriving DecidableEq, Repr

/-- What the function reports: vendor and revision are GCTL_ID's, the subsystem's identity the function's own. No command writes it. -/
def State.configHeader (s : State) : ConfigHeader :=
  let v := s.get F.GCTL_ID_vendor
  ⟨v, 0x4810, s.get F.GCTL_ID_stepping, 0x120000, v, 0x4810⟩

/-! ### The function's own resets and power states (R540, R541) -/

/-- What a Function Level Reset, a hot reset and a loss of the link each do: configuration space, MSI-X and the host block's registers return to
reset; staging, marks, locks, queues and every other block stay. -/
def State.functionReset (s : State) : State :=
  let t := { s with
    host := { HostIf.init with
      qcmd := s.host.qcmd
      staging := s.host.staging
      marks := s.host.marks
      locks := s.host.locks
      held := s.host.held } }
  (t.resetRegs (fun a => 0x100000 ≤ a && a < 0x200000)).set F.GCTL_strict 0

/-- FUNCTION_LEVEL_RESET. -/
def execFunctionLevelReset (s : State) : Host.Outcome State Fault Refusal := done s.functionReset

/-- PCIE_HOT_RESET. -/
def execPcieHotReset (s : State) : Host.Outcome State Fault Refusal := done s.functionReset

/-- PCIE_LINK_LOSS, or PCIE_PERST_N asserted (R587). -/
def execPcieLinkLoss (s : State) : Host.Outcome State Fault Refusal := done s.functionReset

/-- Act on every vector held in the PBA. -/
def State.releaseAll (s : State) : State := (bitList s.host.pba 64).foldl State.msixRelease s

/-- D3HOT_ENTRY. -/
def execD3hotEntry (s : State) : Host.Outcome State Fault Refusal := done { s with host.d3hot := true }

/-- D0_ENTRY: the messages held are sent. -/
def execD0Entry (s : State) : Host.Outcome State Fault Refusal := done (State.releaseAll { s with host.d3hot := false })

/-! ### MSI-X (R559) -/

/-- Bus Master Enable is written. -/
def busMasterEnable (on : Bool) (s : State) : State :=
  let t := { s with host.busMaster := on }
  if on then t.releaseAll else t

/-- BUS_MASTER_ENABLE. -/
def execBusMasterEnable (on : Bool) (s : State) : Host.Outcome State Fault Refusal := done (busMasterEnable on s)

/-- Put an entry of the MSI-X table. -/
def State.putMsix (s : State) (v : Nat) (e : MsixEntry) : State := { s with host.msix := SMap.set (fun _ => MsixEntry.init) s.host.msix v e }

/-- Mask or unmask one vector, or (with none) the function. -/
def msixMask (vector : Option (Fin 64)) (masked : Bool) (s : State) : State :=
  match vector with
  | none =>
    let t := { s with host.fnMask := masked }
    if masked then t else t.releaseAll
  | some v => s.bar (fun s =>
      let t := s.putMsix v.val { s.msixEntry v.val with mask := masked }
      if masked then t else t.msixRelease v.val)

/-- MSIX_UNMASK. -/
def execMsixUnmask (vector : Option (Fin 64)) (masked : Bool) (s : State) : Host.Outcome State Fault Refusal := done (msixMask vector masked s)

/-- The moderation gap of a vector ends: a trigger held there sends one message if the line is still 1. -/
def moderationExpire (v : Fin 64) (s : State) : State :=
  if !bit s.host.gapOpen v.val then s
  else
    let off := fun (x : Nat) => x &&& (2 ^ 64 - 1 - 1 <<< v.val)
    let held := bit s.host.gapHeld v.val
    let t := { s with host.gapOpen := off s.host.gapOpen, host.gapHeld := off s.host.gapHeld }
    if held && bit t.intLines v.val then t.msixTrigger v.val else t

/-- INT_MODERATION_EXPIRE. -/
def execIntModerationExpire (v : Fin 64) (s : State) : Host.Outcome State Fault Refusal := done (moderationExpire v s)

/-- INT_EOI. -/
def execIntEoi (v : Fin 64) (s : State) : Host.Outcome State Fault Refusal := done (s.bar (fun s => s.eoi v.val))

/-- One dword of the MSI-X table: address low and high, data, vector control. -/
def State.msixDword (s : State) (off x : Nat) : State :=
  let v := off / 16
  let e := s.msixEntry v
  match off % 16 / 4 with
  | 0 => s.putMsix v { e with addr := e.addr / 2 ^ 32 * 2 ^ 32 + x }
  | 1 => s.putMsix v { e with addr := e.addr % 2 ^ 32 + x * 2 ^ 32 }
  | 2 => s.putMsix v { e with data := x }
  | _ =>
    let t := s.putMsix v { e with mask := bit x 0 }
    if bit x 0 then t else t.msixRelease v

/-! ### Register writes -/

/-- One 8-byte write at an offset of BAR0. -/
def State.writeWord (s : State) (a v : Nat) : State :=
  let d := decodeOffset a
  if s.takes d.1 then s.regWrite d.2 d.1 v else s

/-- Is a register mapped at the offset (R543)? -/
def mapped (a : Nat) : Bool := (famOf (decodeOffset (a / 8 * 8)).1).isSome

/-- The dwords of a byte string with their offsets. -/
def dwords (a : Nat) (b : List Byte) : List (Nat × Nat) := (List.range (b.length / 4)).map (fun i => (a + 4 * i, leNat ((b.drop (4 * i)).take 4)))

/-- A write TLP at an offset of BAR0 (R543): the MSI-X table takes dwords, DW_BURST takes bursts, a register takes whole words in ascending
order; any other write at a mapped offset is ignored and counted. -/
def State.hostWrite (s : State) (a : Nat) (data : List Byte) : State :=
  if 0x104000 ≤ a ∧ a < 0x104100 then if s.takes 0x104000 then s.burstWrite data else s
  else if 0x108000 ≤ a ∧ a < 0x10C000 then
    s.bar (fun s => if a % 4 ≠ 0 ∨ data.length % 4 ≠ 0 then s.shortAccess
      else (dwords (a - 0x108000) data).foldl (fun s x => if x.1 < 0x400 then s.msixDword x.1 x.2 else s) s)
  else if a % 8 = 0 ∧ data.length % 8 = 0 then ((words8 data).zipIdx).foldl (fun s x => s.writeWord (a + 8 * x.2) x.1) s
  else if mapped a then s.bar State.shortAccess
  else s

/-- REGISTER_WRITE. -/
def execRegisterWrite (addr : BitVec 26) (data : List Byte) (s : State) : Host.Outcome State Fault Refusal := done (s.hostWrite addr.toNat data)

/-- REGISTER_ALIAS_WRITE: the SET, CLR or TOG alias of the register at a base offset. -/
def execRegisterAliasWrite (addr : BitVec 26) (kind : Fin 3) (v : BitVec 64) (s : State) : Host.Outcome State Fault Refusal :=
  done (s.writeWord (addr.toNat + 0x1000 * (kind.val + 1)) v.toNat)

/-- Is the offset that of a register software acknowledges with (R550)? -/
def ackReg (a : Nat) : Bool :=
  [R.FNT_ACK, R.CIS_OVF_ACK, R.SPT_ACK, R.RES_ACK, R.PVF_ACK, R.MBR_ACK, R.SLOST_ACK, R.BSN_ACK, R.WIN_ACK, R.SIG_ACK, R.GIX_ACK, R.CMD_REJ_ACK,
    R.ENG_REJ_ACK, R.CIS_REJ_ACK, R.NOR_REJ_ACK, R.SW_REJ_ACK, R.GR_REJ_ACK, R.HG_REJ_ACK, R.PT_REJ_ACK, R.MEM_REJ_ACK, R.TIME_REJ_ACK,
    R.AUD_REJ_ACK, R.FLT_REJ_ACK, R.PWR_REJ_ACK, R.DBG_REJ_ACK].contains a
    || (0x210000 ≤ a && a < 0x310000 && a == R.Q_REJ_ACK ((a - 0x210000) / 0x4000))
    || (R.INT_EVT_ACK 0 ≤ a && a ≤ R.INT_EVT_ACK 31 && a == R.INT_EVT_ACK ((a - R.INT_EVT_ACK 0) / 16))

/-- Software writes a count to an acknowledgement register. -/
def recordAck (addr : BitVec 26) (v : BitVec 32) (s : State) : State :=
  if ackReg addr.toNat then s.bar (fun s => s.regWrite .base addr.toNat v.toNat) else s

/-- RECORD_ACK_WRITE. -/
def execRecordAckWrite (addr : BitVec 26) (v : BitVec 32) (s : State) : Host.Outcome State Fault Refusal := done (recordAck addr v s)

/-- Software sets the en bit, bit 0, of a control register. -/
def State.enable (s : State) (a : Nat) : State := s.bar (fun s => s.regWrite .set a 1)

/-- CISTERN_ENABLE. -/
def execCisternEnable (s : State) : Host.Outcome State Fault Refusal := done (s.enable R.CIS_CTL)

/-- MEMORY_ENABLE. -/
def execMemoryEnable (s : State) : Host.Outcome State Fault Refusal := done (s.enable R.MEM_CTL)

/-- FAULT_ENABLE. -/
def execFaultEnable (s : State) : Host.Outcome State Fault Refusal := done (s.enable R.FLT_CTL)

/-- SWITCH_ENABLE. -/
def execSwitchEnable (s : State) : Host.Outcome State Fault Refusal := done (s.enable R.SW_CTL)

/-- TMUX_ENABLE. -/
def execTmuxEnable (s : State) : Host.Outcome State Fault Refusal := done (s.enable R.TMUX_CTL)

end Sys2Proof.Machine
end

