-- ==== Sys2Proof/Machine/Scalar.lean ====
section
/-!
DEFINITION. The scalar instructions (R187, Table 06-8).
-/
namespace Sys2Proof.Machine
open Sys2Proof

/-- A scalar instruction's body: S[sd] takes the result of the operands S[sa], S[sb], S[sd]. -/
def scalarBody (f : LS) (fn : Nat → Nat → Nat → Nat) (s : State) (c : Ctx) : Act :=
  .next s (c.setSc f.sd.toNat (fn (c.sc f.sa.toNat) (c.sc f.sb.toNat) (c.sc f.sd.toNat))) []

/-- Issue a scalar instruction. -/
def scalar (a : Site) (op : BitVec 8) (f : LS) (fn : Nat → Nat → Nat → Nat) (s : State) : State :=
  issue a (f.word op) 0 (.sc f.sd.toNat) (scalarBody f fn) s

/-- The immediate sign-extended to 64 bits. -/
def simm (f : LS) : Nat := uint 64 (sint 32 f.imm.toNat)

/-- SMOVI: imm sign-extended. -/
def execSmovi (a : Site) (f : LS) (s : State) : Host.Outcome State Fault Refusal :=
  done (scalar a 0x30 f (fun _ _ _ => simm f) s)

/-- SMOVHI: cat(imm, S[sd][31:0]). -/
def execSmovhi (a : Site) (f : LS) (s : State) : Host.Outcome State Fault Refusal :=
  done (scalar a 0x31 f (fun _ _ d => catBits f.imm.toNat d 32) s)

/-- SADD. -/
def execSadd (a : Site) (f : LS) (s : State) : Host.Outcome State Fault Refusal :=
  done (scalar a 0x32 f (fun x y _ => x + y) s)

/-- SADDI. -/
def execSaddi (a : Site) (f : LS) (s : State) : Host.Outcome State Fault Refusal :=
  done (scalar a 0x33 f (fun x _ _ => x + simm f) s)

/-- SSUB. -/
def execSsub (a : Site) (f : LS) (s : State) : Host.Outcome State Fault Refusal :=
  done (scalar a 0x34 f (fun x y _ => uint 64 ((x : Int) - y)) s)

/-- SMUL: the low 64 bits. -/
def execSmul (a : Site) (f : LS) (s : State) : Host.Outcome State Fault Refusal :=
  done (scalar a 0x35 f (fun x y _ => x * y) s)

/-- SAND. -/
def execSand (a : Site) (f : LS) (s : State) : Host.Outcome State Fault Refusal :=
  done (scalar a 0x36 f (fun x y _ => x &&& y) s)

/-- SOR. -/
def execSor (a : Site) (f : LS) (s : State) : Host.Outcome State Fault Refusal :=
  done (scalar a 0x37 f (fun x y _ => x ||| y) s)

/-- SXOR. -/
def execSxor (a : Site) (f : LS) (s : State) : Host.Outcome State Fault Refusal :=
  done (scalar a 0x38 f (fun x y _ => x ^^^ y) s)

/-- SSHLI: S[sa] shifted left by imm[5:0]. -/
def execSshli (a : Site) (f : LS) (s : State) : Host.Outcome State Fault Refusal :=
  done (scalar a 0x39 f (fun x _ _ => x <<< bits f.imm.toNat 0 6) s)

/-- SSHRI: S[sa] shifted right by imm[5:0], zeros from the left. -/
def execSshri (a : Site) (f : LS) (s : State) : Host.Outcome State Fault Refusal :=
  done (scalar a 0x3A f (fun x _ _ => x >>> bits f.imm.toNat 0 6) s)

end Sys2Proof.Machine
end

