-- ==== Sys2Proof/Machine/Dispatch.lean ====
section
/-!
DEFINITION. The meaning of each command, one arm per constructor of Instr.
-/
namespace Sys2Proof.Machine
open Sys2Proof

/-- The effect of a command on everything but the queue of waiting commands. -/
def exec (i : Instr) (s : State) : Host.Outcome State Fault Refusal :=
  match i with
  | .srecv at_ f => Sys2Proof.Machine.execSrecv at_ f s
  | .ssend at_ f => Sys2Proof.Machine.execSsend at_ f s
  | .speek at_ f => Sys2Proof.Machine.execSpeek at_ f s
  | .vadd at_ f => Sys2Proof.Machine.execVadd at_ f s
  | .vsub at_ f => Sys2Proof.Machine.execVsub at_ f s
  | .vmul at_ f => Sys2Proof.Machine.execVmul at_ f s
  | .vfma at_ f => Sys2Proof.Machine.execVfma at_ f s
  | .vmax at_ f => Sys2Proof.Machine.execVmax at_ f s
  | .vmin at_ f => Sys2Proof.Machine.execVmin at_ f s
  | .vabs at_ f => Sys2Proof.Machine.execVabs at_ f s
  | .vcvt at_ f => Sys2Proof.Machine.execVcvt at_ f s
  | .vcmp at_ f => Sys2Proof.Machine.execVcmp at_ f s
  | .vand at_ f => Sys2Proof.Machine.execVand at_ f s
  | .vor at_ f => Sys2Proof.Machine.execVor at_ f s
  | .vxor at_ f => Sys2Proof.Machine.execVxor at_ f s
  | .vandn at_ f => Sys2Proof.Machine.execVandn at_ f s
  | .vshl at_ f => Sys2Proof.Machine.execVshl at_ f s
  | .vshr at_ f => Sys2Proof.Machine.execVshr at_ f s
  | .vsra at_ f => Sys2Proof.Machine.execVsra at_ f s
  | .vmov at_ f => Sys2Proof.Machine.execVmov at_ f s
  | .vbcast at_ f => Sys2Proof.Machine.execVbcast at_ f s
  | .vlane at_ f => Sys2Proof.Machine.execVlane at_ f s
  | .viota at_ f => Sys2Proof.Machine.execViota at_ f s
  | .plog at_ f => Sys2Proof.Machine.execPlog at_ f s
  | .smovi at_ f => Sys2Proof.Machine.execSmovi at_ f s
  | .smovhi at_ f => Sys2Proof.Machine.execSmovhi at_ f s
  | .sadd at_ f => Sys2Proof.Machine.execSadd at_ f s
  | .saddi at_ f => Sys2Proof.Machine.execSaddi at_ f s
  | .ssub at_ f => Sys2Proof.Machine.execSsub at_ f s
  | .smul at_ f => Sys2Proof.Machine.execSmul at_ f s
  | .sand at_ f => Sys2Proof.Machine.execSand at_ f s
  | .sor at_ f => Sys2Proof.Machine.execSor at_ f s
  | .sxor at_ f => Sys2Proof.Machine.execSxor at_ f s
  | .sshli at_ f => Sys2Proof.Machine.execSshli at_ f s
  | .sshri at_ f => Sys2Proof.Machine.execSshri at_ f s
  | .cacc at_ f => Sys2Proof.Machine.execCacc at_ f s
  | .cmerge at_ f => Sys2Proof.Machine.execCmerge at_ f s
  | .crnd at_ f => Sys2Proof.Machine.execCrnd at_ f s
  | .cxport at_ f => Sys2Proof.Machine.execCxport at_ f s
  | .cclr at_ f => Sys2Proof.Machine.execCclr at_ f s
  | .vsort at_ f => Sys2Proof.Machine.execVsort at_ f s
  | .topk at_ f => Sys2Proof.Machine.execTopk at_ f s
  | .mergek at_ f => Sys2Proof.Machine.execMergek at_ f s
  | .vcompress at_ f => Sys2Proof.Machine.execVcompress at_ f s
  | .vexpand at_ f => Sys2Proof.Machine.execVexpand at_ f s
  | .vselect at_ f => Sys2Proof.Machine.execVselect at_ f s
  | .spdec at_ f => Sys2Proof.Machine.execSpdec at_ f s
  | .spenc at_ f => Sys2Proof.Machine.execSpenc at_ f s
  | .prune at_ f => Sys2Proof.Machine.execPrune at_ f s
  | .gath at_ f => Sys2Proof.Machine.execGath at_ f s
  | .scadd at_ f => Sys2Proof.Machine.execScadd at_ f s
  | .rngk at_ f => Sys2Proof.Machine.execRngk at_ f s
  | .waitev at_ f => Sys2Proof.Machine.execWaitev at_ f s
  | .sigev at_ f => Sys2Proof.Machine.execSigev at_ f s
  | .fence at_ f => Sys2Proof.Machine.execFence at_ f s
  | .lock at_ f => Sys2Proof.Machine.execLock at_ f s
  | .loop at_ f => Sys2Proof.Machine.execLoop at_ f s
  | .brp at_ f => Sys2Proof.Machine.execBrp at_ f s
  | .halt at_ f => Sys2Proof.Machine.execHalt at_ f s
  | .waitevComplete eng ctx => Sys2Proof.Machine.execWaitevComplete eng ctx s
  | .fenceComplete eng ctx => Sys2Proof.Machine.execFenceComplete eng ctx s
  | .gathRowsLanded eng k misses => Sys2Proof.Machine.execGathRowsLanded eng k misses s
  | .flumeReadComplete eng k err miss => Sys2Proof.Machine.execFlumeReadComplete eng k err miss s
  | .flumeWriteComplete eng k => Sys2Proof.Machine.execFlumeWriteComplete eng k s
  | .turnoutRequestComplete n err miss => Sys2Proof.Machine.execTurnoutRequestComplete n err miss s
  | .spareAttach die => Sys2Proof.Machine.execSpareAttach die s
  | .spareDetach die => Sys2Proof.Machine.execSpareDetach die s
  | .katBurst ph ok sig late => Sys2Proof.Machine.execKatBurst ph ok sig late s
  | .hostCmdSubmit q w => Sys2Proof.Machine.execHostCmdSubmit q w s
  | .cmdSubmit port q tag c => Sys2Proof.Machine.execCmdSubmit port q tag c s
  | .allreduce q engs => Sys2Proof.Machine.execAllreduce q engs s
  | .reduceScatter q engs => Sys2Proof.Machine.execReduceScatter q engs s
  | .reduce q engs => Sys2Proof.Machine.execReduce q engs s
  | .allgather q engs => Sys2Proof.Machine.execAllgather q engs s
  | .broadcast q engs => Sys2Proof.Machine.execBroadcast q engs s
  | .alltoall q engs => Sys2Proof.Machine.execAlltoall q engs s
  | .dispatch q engs => Sys2Proof.Machine.execDispatch q engs s
  | .idxGather q engs => Sys2Proof.Machine.execIdxGather q engs s
  | .poolGather q engs => Sys2Proof.Machine.execPoolGather q engs s
  | .scatterAdd q engs => Sys2Proof.Machine.execScatterAdd q engs s
  | .barrier q => Sys2Proof.Machine.execBarrier q s
  | .fusedUpdate q engs => Sys2Proof.Machine.execFusedUpdate q engs s
  | .run q engs => Sys2Proof.Machine.execRun q engs s
  | .loadProgram q => Sys2Proof.Machine.execLoadProgram q s
  | .unloadProgram q => Sys2Proof.Machine.execUnloadProgram q s
  | .loadFormats q => Sys2Proof.Machine.execLoadFormats q s
  | .loadRules q => Sys2Proof.Machine.execLoadRules q s
  | .loadGroup q => Sys2Proof.Machine.execLoadGroup q s
  | .unloadGroup q => Sys2Proof.Machine.execUnloadGroup q s
  | .eventAdd q => Sys2Proof.Machine.execEventAdd q s
  | .loadRoutes q => Sys2Proof.Machine.execLoadRoutes q s
  | .loadTableBind q => Sys2Proof.Machine.execLoadTableBind q s
  | .loadSeeds q => Sys2Proof.Machine.execLoadSeeds q s
  | .loadProfile q => Sys2Proof.Machine.execLoadProfile q s
  | .cmdResourcesGranted q => Sys2Proof.Machine.execCmdResourcesGranted q s
  | .turnLaunch q => Sys2Proof.Machine.execTurnLaunch q s
  | .chunkReceive port h dsts miss => Sys2Proof.Machine.execChunkReceive port h dsts miss s
  | .haltedChunkReceive port h => Sys2Proof.Machine.execHaltedChunkReceive port h s
  | .ackReceive port a => Sys2Proof.Machine.execAckReceive port a s
  | .revokeReceive port id first last reason => Sys2Proof.Machine.execRevokeReceive port id first last reason s
  | .reissueReqReceive port id first last reason => Sys2Proof.Machine.execReissueReqReceive port id first last reason s
  | .ackTimeout x port => Sys2Proof.Machine.execAckTimeout x port s
  | .quorumWait x chunk begun miss => Sys2Proof.Machine.execQuorumWait x chunk begun miss s
  | .evtWrite n v => Sys2Proof.Machine.execEvtWrite n v s
  | .qRestart q restart => Sys2Proof.Machine.execQRestart q restart s
  | .normPart re port set sender step record => Sys2Proof.Machine.execNormPart re port set sender step record s
  | .normPeerTimeout set peer => Sys2Proof.Machine.execNormPeerTimeout set peer s
  | .updatePassStart x miss => Sys2Proof.Machine.execUpdatePassStart x miss s
  | .commit step turn => Sys2Proof.Machine.execCommit step turn s
  | .commitApply step => Sys2Proof.Machine.execCommitApply step s
  | .discard step => Sys2Proof.Machine.execDiscard step s
  | .commitAck type sender step => Sys2Proof.Machine.execCommitAck type sender step s
  | .snapAck status seg t object => Sys2Proof.Machine.execSnapAck status seg t object s
  | .snapshotTimeout n => Sys2Proof.Machine.execSnapshotTimeout n s
  | .snapReq n => Sys2Proof.Machine.execSnapReq n s
  | .norRestore n port => Sys2Proof.Machine.execNorRestore n port s
  | .restoreSegment n last seg t object ct tag => Sys2Proof.Machine.execRestoreSegment n last seg t object ct tag s
  | .stepClose step hot => Sys2Proof.Machine.execStepClose step hot s
  | .stepRecordWrite step => Sys2Proof.Machine.execStepRecordWrite step s
  | .stepDigest sender step status => Sys2Proof.Machine.execStepDigest sender step status s
  | .stepCtrWrite v => Sys2Proof.Machine.execStepCtrWrite v s
  | .gctlStrictWrite v => Sys2Proof.Machine.execGctlStrictWrite v s
  | .timeExchangeTimer sub => Sys2Proof.Machine.execTimeExchangeTimer sub s
  | .timeReq port exch t1 sub2 sub3 => Sys2Proof.Machine.execTimeReq port exch t1 sub2 sub3 s
  | .timeResp exch t1 t2 t3 sub4 => Sys2Proof.Machine.execTimeResp exch t1 t2 t3 sub4 s
  | .trefPulse => Sys2Proof.Machine.execTrefPulse s
  | .timeEnable => Sys2Proof.Machine.execTimeEnable s
  | .lockArrive port h count seq id => Sys2Proof.Machine.execLockArrive port h count seq id s
  | .lockRelease port h seq id tRel => Sys2Proof.Machine.execLockRelease port h seq id tRel s
  | .lockReleaseFire x h => Sys2Proof.Machine.execLockReleaseFire x h s
  | .packetHeaderTake src h data bf => Sys2Proof.Machine.execPacketHeaderTake src h data bf s
  | .bufferGrant die bf => Sys2Proof.Machine.execBufferGrant die bf s
  | .packetStart out bf => Sys2Proof.Machine.execPacketStart out bf s
  | .freelistRebuildDone die k => Sys2Proof.Machine.execFreelistRebuildDone die k s
  | .grTailWrite v => Sys2Proof.Machine.execGrTailWrite v s
  | .calBankSwitch port => Sys2Proof.Machine.execCalBankSwitch port s
  | .starvePromote port cls src => Sys2Proof.Machine.execStarvePromote port cls src s
  | .meterMark port m => Sys2Proof.Machine.execMeterMark port m s
  | .dlvReportSend src cls mc tree id => Sys2Proof.Machine.execDlvReportSend src cls mc tree id s
  | .dlvReport module src cls mc tree dst coll n => Sys2Proof.Machine.execDlvReport module src cls mc tree dst coll n s
  | .telemetrySample => Sys2Proof.Machine.execTelemetrySample s
  | .shaperMeterWrite port which v => Sys2Proof.Machine.execShaperMeterWrite port which v s
  | .dataFlit port f => Sys2Proof.Machine.execDataFlit port f s
  | .seal port f => Sys2Proof.Machine.execSeal port f s
  | .retry port f => Sys2Proof.Machine.execRetry port f s
  | .init port f => Sys2Proof.Machine.execInit port f s
  | .keyx port f => Sys2Proof.Machine.execKeyx port f s
  | .train port f => Sys2Proof.Machine.execTrain port f s
  | .replayTimeout port => Sys2Proof.Machine.execReplayTimeout port s
  | .rekey port => Sys2Proof.Machine.execRekey port s
  | .portEnable port => Sys2Proof.Machine.execPortEnable port s
  | .trainTimeout port => Sys2Proof.Machine.execTrainTimeout port s
  | .detect port ok => Sys2Proof.Machine.execDetect port ok s
  | .eq port ok => Sys2Proof.Machine.execEq port ok s
  | .lanetest port bad => Sys2Proof.Machine.execLanetest port bad s
  | .align port ok => Sys2Proof.Machine.execAlign port ok s
  | .keychk port same => Sys2Proof.Machine.execKeychk port same s
  | .activeFail port align => Sys2Proof.Machine.execActiveFail port align s
  | .hold port => Sys2Proof.Machine.execHold port s
  | .ethTrain port ok => Sys2Proof.Machine.execEthTrain port ok s
  | .ethLock port ok => Sys2Proof.Machine.execEthLock port ok s
  | .goeData port seq ack h data bad => Sys2Proof.Machine.execGoeData port seq ack h data bad s
  | .goeAck port ack retry bad => Sys2Proof.Machine.execGoeAck port ack retry bad s
  | .goeKeyExchange port no n frag => Sys2Proof.Machine.execGoeKeyExchange port no n frag s
  | .goeInit port seq ack mode peer => Sys2Proof.Machine.execGoeInit port seq ack mode peer s
  | .goeReplayTimeout port => Sys2Proof.Machine.execGoeReplayTimeout port s
  | .pfcFrame port enable quanta => Sys2Proof.Machine.execPfcFrame port enable quanta s
  | .pfcPauseExpire port cls => Sys2Proof.Machine.execPfcPauseExpire port cls s
  | .frameNotAccepted port => Sys2Proof.Machine.execFrameNotAccepted port s
  | .dataPut port tag n off data => Sys2Proof.Machine.execDataPut port tag n off data s
  | .lpddrRetrainWindow => Sys2Proof.Machine.execLpddrRetrainWindow s
  | .retrainEnd waited => Sys2Proof.Machine.execRetrainEnd waited s
  | .retrainTimeout => Sys2Proof.Machine.execRetrainTimeout s
  | .migrationPageCopy bad => Sys2Proof.Machine.execMigrationPageCopy bad s
  | .hbmTempSample k temp => Sys2Proof.Machine.execHbmTempSample k temp s
  | .scrubRead lpd err => Sys2Proof.Machine.execScrubRead lpd err s
  | .predictorEpoch hot => Sys2Proof.Machine.execPredictorEpoch hot s
  | .trapNotice m => Sys2Proof.Machine.execTrapNotice m s
  | .faultReport m => Sys2Proof.Machine.execFaultReport m s
  | .straggler m => Sys2Proof.Machine.execStraggler m s
  | .fmOrder m => Sys2Proof.Machine.execFmOrder m s
  | .fmResendTimeout k => Sys2Proof.Machine.execFmResendTimeout k s
  | .orderAck m => Sys2Proof.Machine.execOrderAck m s
  | .wmOrderFence sender target port seq at_ => Sys2Proof.Machine.execWmOrderFence sender target port seq at_ s
  | .wmOrderUnfence sender target port seq step => Sys2Proof.Machine.execWmOrderUnfence sender target port seq step s
  | .wmOrderAbort sender id code seq => Sys2Proof.Machine.execWmOrderAbort sender id code seq s
  | .wmOrderRevoke sender id first last seq => Sys2Proof.Machine.execWmOrderRevoke sender id first last seq s
  | .wmOrderStateLost sender target shard seq => Sys2Proof.Machine.execWmOrderStateLost sender target shard seq s
  | .wmOrderTakeover sender fm seq => Sys2Proof.Machine.execWmOrderTakeover sender fm seq s
  | .fenceApply => Sys2Proof.Machine.execFenceApply s
  | .wmHeartbeatSend => Sys2Proof.Machine.execWmHeartbeatSend s
  | .wmHeartbeat sender => Sys2Proof.Machine.execWmHeartbeat sender s
  | .heartbeatMiss => Sys2Proof.Machine.execHeartbeatMiss s
  | .wmAnnounce sender => Sys2Proof.Machine.execWmAnnounce sender s
  | .leveeHoldExpire port => Sys2Proof.Machine.execLeveeHoldExpire port s
  | .levSelf => Sys2Proof.Machine.execLevSelf s
  | .leveePropose sender kind target port self round seq digest => Sys2Proof.Machine.execLeveePropose sender kind target port self round seq digest s
  | .leveeProbe sender proposer seq => Sys2Proof.Machine.execLeveeProbe sender proposer seq s
  | .leveeProbeAck sender proposer seq => Sys2Proof.Machine.execLeveeProbeAck sender proposer seq s
  | .leveeProbeTimeout proposer seq => Sys2Proof.Machine.execLeveeProbeTimeout proposer seq s
  | .leveeVote sender proposer vote seq => Sys2Proof.Machine.execLeveeVote sender proposer vote seq s
  | .leveeRoundTimeout seq => Sys2Proof.Machine.execLeveeRoundTimeout seq s
  | .leveeDecide kind target port apply => Sys2Proof.Machine.execLeveeDecide kind target port apply s
  | .shardHash sender outcome shard pshard step t hash => Sys2Proof.Machine.execShardHash sender outcome shard pshard step t hash s
  | .partnerWaitExpire step => Sys2Proof.Machine.execPartnerWaitExpire step s
  | .partnerVerdict sender step matched mismatched missing lowest => Sys2Proof.Machine.execPartnerVerdict sender step matched mismatched missing lowest s
  | .resilverStart => Sys2Proof.Machine.execResilverStart s
  | .resilverReq sender shard pshard seq => Sys2Proof.Machine.execResilverReq sender shard pshard seq s
  | .resilverSeg sender last seg t seq data => Sys2Proof.Machine.execResilverSeg sender last seg t seq data s
  | .resilverAck sender status seg t seq => Sys2Proof.Machine.execResilverAck sender status seg t seq s
  | .resilverTimeout n => Sys2Proof.Machine.execResilverTimeout n s
  | .getVersion binding => Sys2Proof.Machine.execGetVersion binding s
  | .getCapabilities binding => Sys2Proof.Machine.execGetCapabilities binding s
  | .negotiateAlgorithms binding asym hash dhe aead => Sys2Proof.Machine.execNegotiateAlgorithms binding asym hash dhe aead s
  | .getDigests binding session => Sys2Proof.Machine.execGetDigests binding session s
  | .getCertificate binding session slot off len => Sys2Proof.Machine.execGetCertificate binding session slot off len s
  | .challenge binding slot nonce => Sys2Proof.Machine.execChallenge binding slot nonce s
  | .getMeasurements binding session index sign nonce => Sys2Proof.Machine.execGetMeasurements binding session index sign nonce s
  | .keyExchange binding request => Sys2Proof.Machine.execKeyExchange binding request s
  | .finish binding session chain fin => Sys2Proof.Machine.execFinish binding session chain fin s
  | .spdmHeartbeat binding session => Sys2Proof.Machine.execSpdmHeartbeat binding session s
  | .keyUpdate binding session op tag => Sys2Proof.Machine.execKeyUpdate binding session op tag s
  | .endSession binding session => Sys2Proof.Machine.execEndSession binding session s
  | .chunkSend binding session handle seq data => Sys2Proof.Machine.execChunkSend binding session handle seq data s
  | .chunkGet binding session handle seq size => Sys2Proof.Machine.execChunkGet binding session handle seq size s
  | .attestPq binding session => Sys2Proof.Machine.execAttestPq binding session s
  | .enroll binding session record => Sys2Proof.Machine.execEnroll binding session record s
  | .unenroll binding session tenant ec pq => Sys2Proof.Machine.execUnenroll binding session tenant ec pq s
  | .assign binding session list ec pq => Sys2Proof.Machine.execAssign binding session list ec pq s
  | .endpointRoot binding session root ec pq => Sys2Proof.Machine.execEndpointRoot binding session root ec pq s
  | .fwStage len => Sys2Proof.Machine.execFwStage len s
  | .svnCommit => Sys2Proof.Machine.execSvnCommit s
  | .debug len => Sys2Proof.Machine.execDebug len s
  | .dataIn len => Sys2Proof.Machine.execDataIn len s
  | .dataOut len => Sys2Proof.Machine.execDataOut len s
  | .setOwner len => Sys2Proof.Machine.execSetOwner len s
  | .recover len => Sys2Proof.Machine.execRecover len s
  | .functionLevelReset => Sys2Proof.Machine.execFunctionLevelReset s
  | .pcieHotReset => Sys2Proof.Machine.execPcieHotReset s
  | .pcieLinkLoss => Sys2Proof.Machine.execPcieLinkLoss s
  | .d0Entry => Sys2Proof.Machine.execD0Entry s
  | .busMasterEnable on => Sys2Proof.Machine.execBusMasterEnable on s
  | .msixUnmask vector masked => Sys2Proof.Machine.execMsixUnmask vector masked s
  | .intModerationExpire v => Sys2Proof.Machine.execIntModerationExpire v s
  | .intEoi v => Sys2Proof.Machine.execIntEoi v s
  | .dwDataRead half => Sys2Proof.Machine.execDwDataRead half s
  | .dwDataWrite v => Sys2Proof.Machine.execDwDataWrite v s
  | .dwBurst n data => Sys2Proof.Machine.execDwBurst n data s
  | .dwStatusRead => Sys2Proof.Machine.execDwStatusRead s
  | .recordAckWrite addr v => Sys2Proof.Machine.execRecordAckWrite addr v s
  | .registerAliasWrite addr kind v => Sys2Proof.Machine.execRegisterAliasWrite addr kind v s
  | .registerWrite addr data => Sys2Proof.Machine.execRegisterWrite addr data s
  | .cisternEnable => Sys2Proof.Machine.execCisternEnable s
  | .memoryEnable => Sys2Proof.Machine.execMemoryEnable s
  | .faultEnable => Sys2Proof.Machine.execFaultEnable s
  | .switchEnable => Sys2Proof.Machine.execSwitchEnable s
  | .tmuxEnable => Sys2Proof.Machine.execTmuxEnable s
  | .coldReset badA badB => Sys2Proof.Machine.execColdReset badA badB s
  | .warmReset badA badB => Sys2Proof.Machine.execWarmReset badA badB s
  | .pwrRst key badA badB => Sys2Proof.Machine.execPwrRst key badA badB s
  | .powerReady => Sys2Proof.Machine.execPowerReady s
  | .brstCommandProcessor => Sys2Proof.Machine.execBrstCommandProcessor s
  | .brstEngines => Sys2Proof.Machine.execBrstEngines s
  | .brstCistern => Sys2Proof.Machine.execBrstCistern s
  | .brstNoria => Sys2Proof.Machine.execBrstNoria s
  | .brstSwitchCore => Sys2Proof.Machine.execBrstSwitchCore s
  | .brstHeadgates => Sys2Proof.Machine.execBrstHeadgates s
  | .brstPorts => Sys2Proof.Machine.execBrstPorts s
  | .brstMemory => Sys2Proof.Machine.execBrstMemory s
  | .brstTime => Sys2Proof.Machine.execBrstTime s
  | .brstAudit => Sys2Proof.Machine.execBrstAudit s
  | .brstFaults => Sys2Proof.Machine.execBrstFaults s
  | .blockResetDone => Sys2Proof.Machine.execBlockResetDone s
  | .profileSelect p => Sys2Proof.Machine.execProfileSelect p s
  | .powerSample temps mvs mv ca w => Sys2Proof.Machine.execPowerSample temps mvs mv ca w s
  | .coolantSample inlet outlet => Sys2Proof.Machine.execCoolantSample inlet outlet s
  | .vinLow mv => Sys2Proof.Machine.execVinLow mv s
  | .vinRecover mv => Sys2Proof.Machine.execVinRecover mv s
  | .vinCritical mv => Sys2Proof.Machine.execVinCritical mv s
  | .smbGctlId => Sys2Proof.Machine.execSmbGctlId s
  | .smbPwrStatus => Sys2Proof.Machine.execSmbPwrStatus s
  | .smbPwrIn => Sys2Proof.Machine.execSmbPwrIn s
  | .smbCool => Sys2Proof.Machine.execSmbCool s
  | .smbHottestIsland => Sys2Proof.Machine.execSmbHottestIsland s
  | .smbHottestStack => Sys2Proof.Machine.execSmbHottestStack s
  | .smbAlertStatus => Sys2Proof.Machine.execSmbAlertStatus s
  | .smbFlogPtime => Sys2Proof.Machine.execSmbFlogPtime s
  | .smbOther => Sys2Proof.Machine.execSmbOther s
  | .idcode => Sys2Proof.Machine.execIdcode s
  | .bypass => Sys2Proof.Machine.execBypass s
  | .samplePreload cells board => Sys2Proof.Machine.execSamplePreload cells board s
  | .extest => Sys2Proof.Machine.execExtest s
  | .internalScan x => Sys2Proof.Machine.execInternalScan x s
  | .flogSecondTick => Sys2Proof.Machine.execFlogSecondTick s
  | .flogSummaryWrite fail => Sys2Proof.Machine.execFlogSummaryWrite fail s
  | .flogEntryDurable fail => Sys2Proof.Machine.execFlogEntryDurable fail s
  | .flogExportRequest => Sys2Proof.Machine.execFlogExportRequest s
  | .flogExportReady => Sys2Proof.Machine.execFlogExportReady s
  | .flogDataRead => Sys2Proof.Machine.execFlogDataRead s
  | .lockParticipantTimeout x h who => Sys2Proof.Machine.execLockParticipantTimeout x h who s
  | .driftMonitorFlag n => Sys2Proof.Machine.execDriftMonitorFlag n s
  | .trefInLoss => Sys2Proof.Machine.execTrefInLoss s
  | .idleFlit port f => Sys2Proof.Machine.execIdleFlit port f s
  | .inputOvervoltage mv => Sys2Proof.Machine.execInputOvervoltage mv s
  | .resetNLongHold => Sys2Proof.Machine.execResetNLongHold s
  | .d3hotEntry => Sys2Proof.Machine.execD3hotEntry s
  | .managementPortChange port up => Sys2Proof.Machine.execManagementPortChange port up s

end Sys2Proof.Machine
end

