-- ==== Sys2Proof/Machine/Tick.lean ====
section
/-!
DEFINITION. One pulse of the turn clock while no command waits: the counters move, FIFOs drain, open seal blocks are filled, a load of a routing bank
completes, a reserved op at the head of a queue is rejected, and what waited for credit crosses (log entry 36).
-/
namespace Sys2Proof.Machine
open Sys2Proof

/-- The engine-output crossings drain (R146, R31). -/
def State.drainOut (s : State) : State := (List.range 8).foldl State.drainDie s

/-- What waited for credit and may cross now goes on as the next commands (R29). -/
def State.crossOn (s : State) : State :=
  let r := s.crossNow
  { s with
    xing.held := r.2
    pending := s.pending ++ r.1 }

/-- An open seal block of a port is filled with idle flits when nothing else is to be sent (R418). -/
def State.fillSeals (s : State) : State := (s.links.map (·.1)).foldl State.fillSeal s

/-- One pulse of the turn clock. Without power nothing moves. -/
def idle (s : State) : State :=
  if s.pwr.off then s
  else
    let t := s.tick
    (({ t with beat := t.beat + 1 }.drainOut.stallTurn).fillSeals.routesDone).rejectReserved.crossOn

end Sys2Proof.Machine
end

