-- ==== Sys2Proof/Safety.lean ====
section
/-!
DEFINITION. What counts as a safe step: one that neither faults nor is refused; and the frame of the interrupt lines, in the terms the
statements use.
-/
namespace Sys2Proof.Machine

/-- The step answers a next state. -/
def Safe (s : State) : Prop := ∃ t, step s = .next t

/-- Is the register one of INT_VEC_v, where the messages a vector has sent are counted (Table 17-9)? -/
def isVecReg (a : Nat) : Prop := ∃ v < 64, a = R.INT_VEC v

/-- `t` is `u` but for what the delivery of interrupts moves (R559): the interrupt lines as last seen, the PBA and the moderation gaps, the
INT_VEC counts, and the MSI-X messages that leave. Everything else of the state is that of `u`. -/
structure Settled (u t : State) : Prop where
  rest  : t = { u with regs := t.regs, host := t.host, out := t.out }
  words : ∀ a, ¬ isVecReg a → t.word a = u.word a
  hostf : t.host = { u.host with lines := t.host.lines, pba := t.host.pba, gapOpen := t.host.gapOpen, gapHeld := t.host.gapHeld }
  outs  : ∃ l, t.out = u.out ++ l ∧ ∀ o ∈ l, ∃ v a d, o = .msix v a d

/-- The context an instruction issues in, in state RUN (Table 05-3). -/
def State.running (s : State) (a : Site) : Ctx := { s.ctxAt a.eng a.ctx with st := 1 }

/-- A context whose next instruction is the one behind this. -/
def Ctx.onward (c : Ctx) : Ctx := { c with pc := c.pc + 1 }

/-- May an instruction whose word is `w` issue at a site where no hardware error meets it? -/
def State.issues (s : State) (a : Site) (w : BitVec 64) : Prop := s.canIssue a w = true ∧ a.hw = .none

end Sys2Proof.Machine
end

