-- ==== Sys2Proof/Certificates/Slice0/Obligations.lean ====
section
/-!
DEFINITION. The statements about the block: what each command does and leaves alone, rule by rule, and what every step keeps.
-/
open Sys2Proof Sys2Proof.Machine

/-- The queue of commands is first in, first out; log entry 36 for the empty queue. -/
def Obligations.StepRunsFront : Prop :=
  ∀ (c : Instr) (s : State) (rest : List Instr),
    step { s with pending := c :: rest } = exec c { s with pending := rest } ∧
    (s.pending = [] → ∃ t, step s = .next t ∧ Settled (idle s) t) ∧
    (s.pending = [] → s.pwr.off = true → ∃ t, step s = .next t ∧ Settled s t)

/-- R11, R24, R47, R571, R573: the state after cold reset. -/
def Obligations.ResetState : Prop :=
  (∀ a, State.reset.word a = regInit a) ∧
  (∀ f ∈ [F.CMD_CTL_en, F.ENG_CTL_en, F.CIS_CTL_en, F.NOR_CTL_en, F.SW_CTL_en, F.GR_CTL_en, F.HG_CTL_en, F.PT_GCTL_en, F.MEM_CTL_en, F.TIME_CTL_en,
    F.AUD_CTL_en, F.FLT_CTL_en, F.TMUX_CTL_en, F.PWR_STATUS_ready, F.STEP_STATUS_strict, F.INT_EN_en, F.SEC_STATUS_debug, F.SEC_STATUS_boot_fail],
    State.reset.get f = 0) ∧
  State.reset.get F.PWR_STATUS_profile = 3 ∧ (∀ k < 25, State.reset.get (F.INT_MAP_vector k) = k) ∧
  (∀ k < 32, (State.reset.word (R.FMT_DESC k)).toNat = builtinDesc k) ∧
  (∀ n < 128, State.reset.get (F.ENG_MAP_phys n) = 17 * (n / 16) + n % 16) ∧
  (∀ d < 8, State.reset.get (F.ENG_STATUS_role (17 * d + 16)) = 1 ∧ State.reset.get (F.ENG_STATUS_role (17 * d)) = 0) ∧
  (∀ v, (State.reset.msixEntry v).mask = true) ∧ State.reset.host.pba = 0 ∧ State.reset.host.d3hot = false ∧
  (∀ n, State.reset.shard n = none) ∧ (∀ n ∈ [0, 511, 512, 4095], State.reset.get (evt n) = 0) ∧ (∀ q, (State.reset.queue q).cmds = []) ∧
  State.reset.cis.slots = [] ∧ State.reset.sec.tenants = [] ∧ State.reset.sec.owner = [] ∧
  (∀ level a n, State.reset.memBytes level a n = List.replicate n 0) ∧ State.reset.mem.bytes.wf = true ∧
  State.reset.turn = 0 ∧ State.reset.out = [] ∧ State.reset.pending = [] ∧ State.reset.host.lines = State.reset.intLines

/-- R165, R166, R199: the worked words of the encoding tables. -/
def Obligations.InstructionWords : Prop :=
  ∀ (a : Site) (low : BitVec 56),
    (∀ e ∈ [((0x1328445080000000 : BitVec 64), Instr.vfma a ⟨5, 1, 2, 5, 1, 0, 0, 0, 0, 0⟩),
        (0x4040002180200000, .cacc a ⟨8, 0, 1, 3, 0, 0, 0, 2, 0, 0, 0, 0, 0⟩),
        (0x4248002080200400, .crnd a ⟨9, 0, 1, 1, 0, 0, 0, 2, 0, 0, 0, 1, 0⟩),
        (0x6801004002008000, .gath a ⟨4, 0, 2, 0, 0, 1, 0, 0, 8⟩),
        (0x800001F000000002, .loop a ⟨31, 2⟩),
        (0x0134100180000000, .srecv a ⟨6, 8, 1, 0, 0, 0, 0, 3, 0, 0, 0⟩)],
      decodeSluice a e.1 = some e.2 ∧ encodeSluice e.2 = some e.1) ∧
    decodeSluice a ((0x00 : BitVec 8) ++ low) = none ∧ decodeSluice a ((0xFF : BitVec 8) ++ low) = none ∧
    decodeSluice a 0x3212300100000000 = none ∧ decodeSluice a 0x8000010000000000 ≠ none ∧ decodeSluice a 0x8000010800000000 = none

/-- R165 to R169, R199: the round trip in both directions. -/
def Obligations.RoundTrip : Prop :=
  (∀ (i : Instr) (a : Site) (w : BitVec 64), i.site = some a → encodeSluice i = some w → decodeSluice a w = some i) ∧
  (∀ (i : Instr) (a : Site) (w : BitVec 64), decodeSluice a w = some i → i.site = some a ∧ encodeSluice i = some w) ∧
  (∀ (i : Instr), (i.site = none ↔ encodeSluice i = none) ∧ (i.opcode = none ↔ encodeSluice i = none)) ∧
  (∀ (i : Instr) (w : BitVec 64), encodeSluice i = some w → i.opcode = some (w.extractLsb' 56 8))

/-- R558, R559: an invariant of every step, whatever command it runs. -/
def Obligations.LinesFollowCauses : Prop :=
  (∀ s : State, Safe s) ∧
  (∀ s t : State, s.host.lines = s.intLines → step s = .next t → t.host.lines = t.intLines) ∧
  (∀ (c : Instr) (s t : State), exec c s = .next t → t.host.lines = t.intLines)

/-- R559: what a rise of a vector's line does. -/
def Obligations.InterruptDelivery : Prop :=
  ∀ (u : State),
    let rises := fun v => bit u.intLines v && !bit u.host.lines v
    let held := fun v => u.host.fnMask || !u.host.busMaster || (u.msixEntry v).mask || u.host.d3hot
    let sends := fun v => rises v && !held v && !bit u.host.gapOpen v
    ∃ t : State, done u = .next t ∧ Settled u t ∧ t.host.lines = u.intLines ∧
      t.out = u.out ++ ((List.range 64).filter sends).map (fun v => .msix v (u.msixEntry v).addr (u.msixEntry v).data) ∧
      ∀ v < 64,
        bit t.host.pba v = (bit u.host.pba v || (rises v && held v)) ∧
        bit t.host.gapHeld v = (bit u.host.gapHeld v || (rises v && !held v && bit u.host.gapOpen v)) ∧
        bit t.host.gapOpen v = (bit u.host.gapOpen v || (sends v && u.get (F.INT_VEC_gap v) != 0)) ∧
        t.get (F.INT_VEC_gap v) = u.get (F.INT_VEC_gap v) ∧
        t.get (F.INT_VEC_sent v) = (u.get (F.INT_VEC_sent v) + b2n (sends v)) % 2 ^ 32

/-- R187, Table 06-8: the eleven scalar instructions complete with the result of the table in S[sd], and change nothing else. -/
def Obligations.ScalarResults : Prop :=
  ∀ (s : State) (a : Site) (f : LS),
    let c := s.running a
    let x := c.sc f.sa.toNat
    let y := c.sc f.sb.toNat
    let d := c.sc f.sd.toNat
    let imm := f.imm.toNat + (if f.imm.toNat < 2 ^ 31 then 0 else 2 ^ 64 - 2 ^ 32)
    let n := f.imm.toNat % 64
    ∀ e ∈ ([(0x30, .smovi a f, imm), (0x31, .smovhi a f, 2 ^ 32 * f.imm.toNat + d % 2 ^ 32), (0x32, .sadd a f, x + y),
        (0x33, .saddi a f, x + imm), (0x34, .ssub a f, x + (2 ^ 64 - y % 2 ^ 64)), (0x35, .smul a f, x * y), (0x36, .sand a f, x &&& y),
        (0x37, .sor a f, x ||| y), (0x38, .sxor a f, x ^^^ y), (0x39, .sshli a f, x * 2 ^ n), (0x3A, .sshri a f, x / 2 ^ n)] :
        List (BitVec 8 × Instr × Nat)),
      s.issues a (f.word e.1) →
        ∃ t, exec e.2.1 s = .next t ∧ Settled (s.commits a (c.setSc f.sd.toNat (e.2.2 % 2 ^ 64)).onward) t

/-- R173 to R175, R178, R179: an arithmetic instruction completes; each enabled element of V[vd] is what the arithmetic unit gives, a disabled one keeps its
lanes, and the results' first-NaN origins are taken. -/
def Obligations.VectorArithmetic : Prop :=
  ∀ (s : State) (a : Site) (f : LV),
    let c := s.running a
    let k := f.fmt.toNat
    let fm := s.fmt k
    ∀ e ∈ ([(0x10, .vadd a f, fun m r x y _ => laneAdd fm m r x y), (0x11, .vsub a f, fun m r x y _ => laneSub fm m r x y),
        (0x12, .vmul a f, fun m r x y _ => laneMul fm m r x y), (0x13, .vfma a f, fun m r x y z => laneFma fm m r x y z),
        (0x14, .vmax a f, fun _ _ x y _ => laneMaxMin fm true x y), (0x15, .vmin a f, fun _ _ x y _ => laneMaxMin fm false x y),
        (0x16, .vabs a f, fun _ _ x _ _ => laneAbs fm x)] :
        List (BitVec 8 × Instr × (Nat → Nat → Lane → Lane → Lane → LaneRes))),
      s.issues a (f.word e.1) →
        let y := fun i => if f.bs.toNat = 1 then (⟨c.sc (f.vb.toNat % 16) % 2 ^ fm.width, false⟩ : Lane) else c.elem fm f.vb.toNat i
        let res := fun i =>
          if c.enabled f.pg.toNat k i then
            some (e.2.2 f.rnd.toNat (s.rndV c f i) (c.elem fm f.va.toNat i) (y i) (c.elem fm f.vc.toNat i))
          else none
        let c' := c.setReg f.vd.toNat (putElems fm (c.reg f.vd.toNat) (fun i => (res i).map LaneRes.lane))
        ∃ t, exec e.2.1 s = .next t ∧
          Settled ((s.commits a c'.onward).origins c.coll (originsOf c a e.1.toNat k res)) t

/-- R183, R184: bitwise and shift instructions complete, on all 32 or 64 bits of each enabled element; an amount of W or more shifts everything out. -/
def Obligations.BitwiseAndShift : Prop :=
  ∀ (s : State) (a : Site) (f : LV),
    let c := s.running a
    let k := f.fmt.toNat
    let w := if is64 k then 64 else 32
    let isel := bit f.ext.toNat 6
    let amt := fun (y : Nat) => if isel then bits f.ext.toNat 0 6 else y % 256
    ∀ e ∈ ([(0x20, .vand a f, true, fun x y => x &&& y), (0x21, .vor a f, true, fun x y => x ||| y), (0x22, .vxor a f, true, fun x y => x ^^^ y),
        (0x23, .vandn a f, true, fun x y => x &&& (2 ^ w - 1 - y % 2 ^ w)), (0x24, .vshl a f, !isel, fun x y => x * 2 ^ amt y),
        (0x25, .vshr a f, !isel, fun x y => x / 2 ^ amt y), (0x26, .vsra a f, !isel, fun x y => uint w (sint w x / (2 : Int) ^ amt y))] :
        List (BitVec 8 × Instr × Bool × (Nat → Nat → Nat))),
      s.issues a (f.word e.1) →
        let res := fun i =>
          if c.enabled f.pg.toNat k i then
            let x := rawElem k (c.reg f.va.toNat) i
            let y := c.rawB (s.fmt k) f.vb.toNat f.bs.toNat i
            some (⟨e.2.2.2 (x.bits % 2 ^ w) y.bits % 2 ^ w, x.pois || (e.2.2.1 && y.pois)⟩ : Lane)
          else none
        ∃ t, exec e.2.1 s = .next t ∧
          Settled (s.commits a (c.setReg f.vd.toNat (putRaw k (c.reg f.vd.toNat) res)).onward) t

/-- R180, R181, R185, R218: the move instructions and VCVT complete with the elements the rules name. -/
def Obligations.MovesAndConversion : Prop :=
  ∀ (s : State) (a : Site) (f : LV),
    let c := s.running a
    let k := f.fmt.toNat
    let fm := s.fmt k
    let on := fun i => c.enabled f.pg.toNat k i
    let y := fun i => if f.bs.toNat = 1 then (⟨c.sc (f.vb.toNat % 16) % 2 ^ fm.width, false⟩ : Lane) else c.elem fm f.vb.toNat i
    let iota := fun (i : Nat) => uint 32 ((c.sc (f.va.toNat % 16) % 2 ^ 32 : Nat) + (i : Int) * sint 16 (f.ext.toNat % 2 ^ 16))
    let puts := fun (g : Fmt) (new : Nat → Option Lane) => c.setReg f.vd.toNat (putElems g (c.reg f.vd.toNat) new)
    (∀ e ∈ ([(0x27, .vmov a f, puts fm (fun i => if on i then some (c.elem fm f.va.toNat i) else none)),
        (0x28, .vbcast a f, puts fm (fun i => if on i then some ⟨c.sc (f.va.toNat % 16) % 2 ^ fm.width, false⟩ else none)),
        (0x2A, .viota a f, puts (builtinFmt 13) (fun i => if c.enabled f.pg.toNat 13 i then some ⟨iota i, false⟩ else none)),
        (0x5A, .vselect a f, puts fm (fun i => some (if on i then c.elem fm f.va.toNat i else y i)))] : List (BitVec 8 × Instr × Ctx)),
      s.issues a (f.word e.1) → ∃ t, exec e.2.1 s = .next t ∧ Settled (s.commits a e.2.2.onward) t) ∧
    (s.issues a (f.word 0x17) →
      let dst := bits f.ext.toNat 15 5
      let half := bits f.ext.toNat 14 1
      let src := fun j =>
        if is64 k = is64 dst then some j
        else if is64 dst then some (64 * half + j)
        else if j / 64 = half then some (j - 64 * half) else none
      let res := fun j =>
        if c.enabled f.pg.toNat dst j then
          (src j).map (fun i => laneCvt fm (s.fmt dst) f.rnd.toNat (s.rndV c f j) (c.elem fm f.va.toNat i))
        else none
      ∃ t, exec (.vcvt a f) s = .next t ∧
        Settled ((s.commits a (puts (s.fmt dst) (fun i => (res i).map LaneRes.lane)).onward).origins c.coll
          (originsOf c a 0x17 dst res)) t)

/-- R182, R185, R186: VCMP, PLOG and VLANE complete; P0 ignores writes (Table 05-2). -/
def Obligations.PredicatesAndLanes : Prop :=
  ∀ (s : State) (a : Site) (f : LV),
    let c := s.running a
    let k := f.fmt.toNat
    let fm := s.fmt k
    let y := fun i => if f.bs.toNat = 1 then (⟨c.sc (f.vb.toNat % 16) % 2 ^ fm.width, false⟩ : Lane) else c.elem fm f.vb.toNat i
    let rel := fun i => relHolds (bits f.ext.toNat 17 3) (cmpElems fm (c.elem fm f.va.toNat i) (y i))
    let pd := f.vd.toNat % 8
    let pa := c.pr (f.va.toNat % 8)
    let pb := c.pr (f.vb.toNat % 8)
    let func := f.ext.toNat % 4
    let el := c.elem fm f.va.toNat (f.ext.toNat % 128)
    (s.issues a (f.word 0x18) → ∃ t p, exec (.vcmp a f) s = .next t ∧ Settled (s.commits a (c.setPr pd p).onward) t ∧
      ∀ j < 128, bit p j = (let i := if is64 k then j / 2 else j; if c.enabled f.pg.toNat k i then rel i else bit (c.pr pd) j)) ∧
    (s.issues a (f.word 0x2B) → ∃ t p, exec (.plog a f) s = .next t ∧ Settled (s.commits a (c.setPr pd p).onward) t ∧
      ∀ j < 128, bit p j =
        (if func = 0 then bit pa j && bit pb j else if func = 1 then bit pa j || bit pb j
          else if func = 2 then bit pa j != bit pb j else bit pa j && !bit pb j)) ∧
    (s.issues a (f.word 0x29) → ∃ t, exec (.vlane a f) s = .next t ∧
      Settled (s.commits a (c.setSc (f.vd.toNat % 16)
        (if el.pois then 0 else if fm.kind = 3 then uint 64 (sint fm.width el.bits) else el.bits)).onward) t)

/-- R212 to R214, R216, R217: the sort, top-k and filter instructions complete. -/
def Obligations.SortAndFilter : Prop :=
  ∀ (s : State) (a : Site) (f : LV),
    let c := s.running a
    let k := f.fmt.toNat
    let fm := s.fmt k
    let on := c.enabledList f.pg.toNat k
    let old := c.entry fm f.va.toNat
    let sk := bits f.ext.toNat 17 3
    let j := bits f.ext.toNat 14 3
    let desc := bit f.ext.toNat 13
    let n := bits f.ext.toNat 13 7 + 1
    let best := bestOf fm (bits f.ext.toNat 12 1) (bits f.ext.toNat 11 1) n
    let sd := bits f.ext.toNat 16 4
    (s.issues a (f.word 0x50) → ∃ t out, exec (.vsort a f) s = .next t ∧
      Settled (s.commits a (c.setEntries fm f.vd.toNat ((List.range 128).map out)).onward) t ∧
      ∀ i < 128, bit i j = false →
        let p := i + 2 ^ j
        let lo := if sortBefore fm (old p) (old i) then old p else old i
        let hi := if sortBefore fm (old p) (old i) then old i else old p
        if bit i sk = desc then out i = lo ∧ out p = hi else out i = hi ∧ out p = lo) ∧
    (s.issues a (f.word 0x51) → ∃ t, exec (.topk a f) s = .next t ∧
      let run := if bit f.ext.toNat 10 then [] else (List.range n).map (c.entry fm f.vd.toNat)
      Settled (s.commits a (c.setEntries fm f.vd.toNat (best (run ++ on.map old))).onward) t) ∧
    (s.issues a (f.word 0x52) → ∃ t, exec (.mergek a f) s = .next t ∧
      Settled (s.commits a (c.setEntries fm f.vd.toNat
        (best ((List.range 128).map old ++ (List.range 128).map (c.entry fm f.vb.toNat)))).onward) t) ∧
    (s.issues a (f.word 0x58) → ∃ t, exec (.vcompress a f) s = .next t ∧
      Settled (s.commits a ((c.setReg f.vd.toNat (putElems fm (c.reg f.vd.toNat) (fun m =>
        some (match on[m]? with
          | some i => c.elem fm f.va.toNat i
          | none => ⟨0, false⟩)))).setSc sd on.length).onward) t) ∧
    (s.issues a (f.word 0x59) → ∃ t new, exec (.vexpand a f) s = .next t ∧
      Settled (s.commits a ((c.setReg f.vd.toNat (putElems fm (c.reg f.vd.toNat) new)).setSc sd on.length).onward) t ∧
      (∀ (m i : Nat), on[m]? = some i → new i = some (c.elem fm f.va.toNat m)) ∧
      (∀ i < nElems k, c.enabled f.pg.toNat k i = false → new i = none))

/-- R220 to R222: SPDEC, SPENC and PRUNE complete; every register they do not name keeps its lanes. -/
def Obligations.SparseInstructions : Prop :=
  ∀ (s : State) (a : Site) (f : LV),
    let c := s.running a
    let fm := s.fmt f.fmt.toNat
    let lay := spLay f
    let g := layG lay
    let n := layN lay
    let base := fun q => c.sc (spBase f) + g * q
    let len := c.sc (spLen f)
    (s.issues a (f.word 0x60) →
      let m := c.reg (f.va.toNat + 1)
      let code := fun q => if metaBad m q then 0 else groupCheck lay (metaMap lay m q) (base q) len none
      let slot := c.elem fm f.va.toNat
      let dense := fun j =>
        let q := j / g
        if metaBad m q then slot (n * q)
        else if code q ≠ 0 then (⟨(slotPoison fm false (code q)).bits, (slotPoison fm false (code q)).pois⟩ : Lane)
        else if bit (metaMap lay m q) (j % g) then slot (n * q + popCount (metaMap lay m q) (j % g)) else ⟨0, false⟩
      let bad := (List.range 64).filterMap (fun q =>
        if code q = 0 then none else some (⟨code q, q, metaMap lay m q, 0⟩ : BadGroup))
      let u := s.blockTraps a c 0x60 f bad (fun q => (List.range g).map (g * q + ·))
      ∃ (t : State) (c' : Ctx), exec (.spdec a f) s = .next t ∧ Settled ((u.1.commits a c'.onward).origins c.coll u.2) t ∧
        c' = { c with v := c'.v } ∧
        (∀ r < denseRegs lay, c'.reg (f.vd.toNat + r) = putElems fm zeroReg (fun i => some (dense (128 * r + i)))) ∧
        (∀ x, (∀ r < denseRegs lay, x % 32 ≠ (f.vd.toNat + r) % 32) → c'.reg x = c.reg x)) ∧
    (s.issues a (f.word 0x61) →
      let v := fun q i => c.elem fm (f.va.toNat + (g * q + i) / 128) ((g * q + i) % 128)
      let map := fun q => if spMsk f then metaMap lay (c.reg f.vb.toNat) q else nonzeroMap fm g (base q) len (v q)
      let code := fun q => groupCheck lay (map q) (base q) len none
      let kept := fun q => if code q ≠ 0 then badMap lay (map q) (base q) len else map q
      let value := fun j =>
        let q := j / n
        if code q ≠ 0 then (⟨(slotPoison fm false (code q)).bits, (slotPoison fm false (code q)).pois⟩ : Lane)
        else match (bitList (map q) g)[j % n]? with
          | some i => v q i
          | none => ⟨0, false⟩
      let bad := (List.range 64).filterMap (fun q => if code q = 0 then none else some (⟨code q, q, map q, 0⟩ : BadGroup))
      let u := s.blockTraps a c 0x61 f bad (fun q => (List.range n).map (n * q + ·))
      ∃ t, exec (.spenc a f) s = .next t ∧
        Settled ((u.1.commits a ((c.setReg f.vd.toNat
          (putElems fm zeroReg (fun j => some (if j < 64 * n then value j else ⟨0, false⟩)))).setReg (f.vd.toNat + 1)
          (metaReg lay ((List.range 64).map kept) ((List.range 64).map (fun q => code q != 0)))).onward).origins c.coll u.2) t) ∧
    (s.issues a (f.word 0x62) →
      let mag := fun q i => pruneMag fm (c.elem fm (f.va.toNat + (g * q + i) / 128) ((g * q + i) % 128))
      ∃ t, exec (.prune a f) s = .next t ∧
        Settled (s.commits a (c.setReg f.vd.toNat
          (metaReg lay ((List.range 64).map (fun q => pruneMap n (min g (len - base q)) (mag q))) [])).onward) t)

/-- R202 to R207: SRECV and SPEEK complete while their stream has the data. The rank in the status of a read that finds no data left is a free value
(log entry 17, the model's choice of form; the spec states none). -/
def Obligations.StreamReads : Prop :=
  ∀ (s : State) (a : Site) (f : LT) (t0 t1 : Strm) (g : Got) (skipped : List Seg),
    let c := s.running a
    let k := f.stream.toNat
    let fm := s.fmt f.fmt.toNat
    let n := modeBytes fm t0.smode t0.lay t0.mx
    let base := c.sc f.sBase.toNat
    let d := decodeGot fm t0 g base (c.sc f.sN.toNat) (s.maskOf c.coll k t0.lay base)
    let st := recvStatus s k d.count g
    let w := if f.wc = 1 then st.2 else s
    let c1 := if f.wc = 1 then (c.setRegs f.v.toNat d.regs).setSc f.sd.toNat st.1 else c.setRegs f.v.toNat d.regs
    let opens := f.edge = 1 ∧ s.windowFull a c = true
    s.strm a.eng k = some t0 →
    (s.issues a (f.word 0x01) → opens ∨ s.take a.eng c k n (f.edge == 1) none = none →
      ∃ t, exec (.srecv a f) s = .next t ∧ Settled (s.putCtx a.eng a.ctx { s.ctxAt a.eng a.ctx with st := 3 }) t) ∧
    (s.issues a (f.word 0x01) → ¬ opens → s.take a.eng c k n (f.edge == 1) none = some (g, t1, skipped) →
      let elem := elemAtOff fm t0 g.off
      let port := (g.from_.map (·.2)).getD 0xFF
      let c2 := { c1 with pos := c1.pos.wr k (c1.pos.rd k + g.bytes.length) }
      let c3 := if k < 4 then { c2 with chunk := g.chunk, elemIx := elem } else c2
      let u := ((w.putStrm a.eng k t1).skipSegs skipped).inc F.MX_INF_COUNT_mxinf d.inf
      let u := if t0.smode = 3 ∧ d.count > 0 then u.inc F.SPT_BLOCK_COUNT_blocks else u
      let u := u.sparseTraps c.coll g.chunk port a.eng a.ctx f.fmt.toNat t0.lay t0.mx d.bad
      ∃ t, exec (.srecv a f) s = .next t ∧
        Settled ((u.commits a c3.onward).origins c.coll (laneOrigins a 0x01 f.fmt.toNat port g.chunk elem false d.os)) t) ∧
    (s.issues a (f.word 0x03) → s.take a.eng c k n false none = none →
      ∃ t, exec (.speek a f) s = .next t ∧ Settled (s.putCtx a.eng a.ctx { s.ctxAt a.eng a.ctx with st := 3 }) t) ∧
    (s.issues a (f.word 0x03) → s.take a.eng c k n false none = some (g, t1, skipped) →
      ∃ t, exec (.speek a f) s = .next t ∧ Settled (w.commits a c1.onward) t ∧ ∀ x, t.strm a.eng x = s.strm a.eng x)

/-- R208 to R210: SSEND completes to a port with credit, to a store region, and to a flume queue with room; else its context waits. The generator values
of an SSEND in mode SR are free (log entry 18, the model's choice of form; the spec states no element index). -/
def Obligations.StreamSends : Prop :=
  ∀ (s : State) (a : Site) (f : LT) (t0 t : Strm),
    let c := s.running a
    let k := f.stream.toNat
    let fm := s.fmt f.fmt.toNat
    let n := modeBytes fm t0.smode t0.lay t0.mx
    let port := k = 4 ∨ k = 5
    let fence := fun (c : Ctx) => bit c.fab (k - 4)
    let used := fun (c : Ctx) => { c with fab := c.fab ^^^ (c.fab &&& 1 <<< (k - 4)) }
    let p : State × Ctx := if port ∧ t0.lacks n then ((s.putStrm a.eng k (t0.close (fence c))).collectOut t0.coll, used c) else (s, c)
    let rs := sendRs p.1 f
    let first := t.out.length / max 1 (blockBytes fm t.mx t.lay) * 64
    let e := encodeRegs fm t f.rnd.toNat rs.1 (p.2.sc f.sBase.toNat) (p.2.sc f.sN.toNat) first (p.2.reg f.v.toNat) (p.2.reg (f.v.toNat + 1))
    let chunk := if k < 8 then t.outIdx else 0
    let u := rs.2.sparseTraps p.2.coll chunk 0xFF a.eng a.ctx f.fmt.toNat t.lay t.mx e.bad
    let c1 := { p.2 with pos := p.2.pos.wr k (p.2.pos.rd k + e.data.length) }
    let os := laneOrigins a 0x02 f.fmt.toNat 0xFF chunk (elemAtOff fm t t.out.length) true e.os
    let sent := { t with out := t.out ++ e.data, outPois := t.outPois || e.pois, level := t.level + credit e.data.length }
    let after := fun (u : State) (c1 : Ctx) => (s.commitsFrom u a c1.onward).origins c1.coll os
    let waits := { s.ctxAt a.eng a.ctx with st := 3 }
    s.strm a.eng k = some t0 → s.issues a (f.word 0x02) →
    (port → t0.level + credit n ≤ 16384 → p.1.strm a.eng k = none →
      ∃ v, exec (.ssend a f) s = .next v ∧ Settled (s.commitsFrom p.1 a p.2.onward) v) ∧
    (port → t0.level + credit n ≤ 16384 → p.1.strm a.eng k = some t → f.edge ≠ 1 →
      ∃ v, exec (.ssend a f) s = .next v ∧ Settled (after (u.putStrm a.eng k sent) c1) v) ∧
    (port → t0.level + credit n ≤ 16384 → p.1.strm a.eng k = some t → f.edge = 1 →
      ∃ v, exec (.ssend a f) s = .next v ∧
        Settled ((after (u.putStrm a.eng k (sent.close (fence p.2))) (used c1)).collectOut t.coll) v) ∧
    (¬ port → t = t0 → t0.mode = 2 →
      ∃ v, exec (.ssend a f) s = .next v ∧ Settled (after (u.regionWr a.eng t0 (c.pos.rd k) e.data) c1) v) ∧
    (¬ port → t = t0 → t0.mode ≠ 2 → t0.out.length + n ≤ t0.cap →
      ∃ v, exec (.ssend a f) s = .next v ∧
        Settled (after (u.putStrm a.eng k { t0 with out := t0.out ++ e.data, wops := t0.wops ++ [(c.issued, e.data.length)] })
          { c1 with open_ := c.open_ ++ [c.issued] }) v) ∧
    ((port ∧ t0.level + credit n > 16384) ∨ (¬ port ∧ t0.mode ≠ 2 ∧ t0.out.length + n > t0.cap) →
      ∃ v, exec (.ssend a f) s = .next v ∧ Settled (s.putCtx a.eng a.ctx waits) v)

/-- R190, R195 to R197: CACC, CRND and CCLR complete. -/
def Obligations.CisternAccumulateRoundClear : Prop :=
  ∀ (s : State) (a : Site) (f : LC),
    let c := s.running a
    let k := f.fmt.toNat
    let base := c.sc f.sSlot.toNat
    let r := s.region c.owner (a.eng / 8) f.region.toNat
    let on := c.enabledList f.pg.toNat k
    let key := fun i => slotOf a c f.region.toNat (base + i)
    let here := fun (n : Nat) => s.visits a c f.region.toNat base n
    (∀ n, (∀ i < n, ∀ g, s.cis.regions.find (regionKey c.owner (a.eng / 8) f.region.toNat) = some g → g.spilled (base + i) = none) → here n = s) ∧
    (s.issues a (f.word 0x40) →
      let u := on.foldl (accOne a c f 0) (here (if f.fold = 1 then 1 else nElems k), [])
      ∃ t, exec (.cacc a f) s = .next t ∧ Settled ((s.commitsFrom u.1 a c.onward).origins c.coll u.2) t) ∧
    (s.issues a (f.word 0x42) → s.slotsReady a c r f.region.toNat (on.map (base + ·)) = true →
      let h := here (nElems k)
      let out := fun i => (slotOut r (h.slotRd (key i)) (h.fmt k) f.rnd.toNat
        (rndOf f.rnd.toNat c.rngKey c.tau (h.stepOf c.coll) (c.sc f.sAux.toNat + i)))
      let cleared := if f.clr = 1 then on.foldl (fun u i => u.slotWr (key i) Slot.empty) h else h
      let c' := c.setReg f.v.toNat (putElems (s.fmt k) (c.reg f.v.toNat)
        (fun i => if i ∈ on then some (out i).1.lane else none))
      ∃ t os, exec (.crnd a f) s = .next t ∧ Settled ((s.commitsFrom cleared a c'.onward).origins c.coll os) t ∧
        ((∀ i ∈ on, (out i).1.cause = 0 ∧ (out i).2 = 0) → os = [])) ∧
    (s.issues a (f.word 0x42) → s.slotsReady a c r f.region.toNat (on.map (base + ·)) = false →
      ∃ t, exec (.crnd a f) s = .next t ∧ Settled (s.putCtx a.eng a.ctx { s.ctxAt a.eng a.ctx with st := 2 }) t) ∧
    (s.issues a (f.word 0x44) →
      let h := here (f.cnt.toNat + 1)
      ∃ t u : State, exec (.cclr a f) s = .next t ∧ Settled (s.commitsFrom u a c.onward) t ∧ u = { h with cis.slots := u.cis.slots } ∧
        (∀ i ≤ f.cnt.toNat, u.slotRd (key i) = Slot.empty) ∧ (∀ q, (∀ i ≤ f.cnt.toNat, q ≠ key i) → u.slotRd q = h.slotRd q))

/-- R87, R91, R96, R97: what one contribution and one merged record do to the slots. -/
def Obligations.SlotEntryAndMerge : Prop :=
  ∀ (s : State) (a : Site) (c : Ctx) (f : LC) (os : List Origin) (e slot elem : Nat) (rec : Rec) (bad : Bool),
    let k := f.fmt.toNat
    let fm := s.fmt k
    let r := s.region c.owner (a.eng / 8) f.region.toNat
    let x := Exact.ofIdx r.fmt
    let va := c.elem fm f.v.toNat e
    let vb := c.elem fm f.vb.toNat e
    let key := slotOf a c f.region.toNat (if f.fold = 1 then c.sc f.sSlot.toNat else c.sc f.sSlot.toNat + e)
    let z := s.slotRd key
    let val := if f.prod = 1 then productVal x fm va.bits vb.bits else (fm.decode va.bits, false, false)
    let mkey := slotOf a c f.region.toNat slot
    (r.ordered = false → s.passes c z.count 1 = false →
      let u := (accOne a c f 0 (s, os) e).1
      u.slotRd key = (z.enter x val.1 (va.pois || (f.prod == 1 && vb.pois)) val.2.1).slot ∧
        (∀ q, q ≠ key → u.slotRd q = s.slotRd q) ∧ u.eng = s.eng ∧ u.mem = s.mem) ∧
    (s.passes c (s.slotRd mkey).count rec.cnt = false →
      let u := mergeOne a c x f.region.toNat s slot elem rec bad
      u.slotRd mkey = ((s.slotRd mkey).merge x rec).slot ∧ (∀ q, q ≠ mkey → u.slotRd q = s.slotRd q) ∧
        u.eng = s.eng ∧ u.mem = s.mem)

/-- R193, R194, R196: CMERGE from an exact region's records, CXPORT to its three kinds of stream, and where they wait. -/
def Obligations.CisternMergeExport : Prop :=
  ∀ (s : State) (a : Site) (f : LC) (t0 t1 : Strm) (items : List (Rec × Bool)) (m chunk : Nat),
    let c := s.running a
    let k := f.stream.toNat
    let base := c.sc f.sSlot.toNat
    let r := s.region c.owner (a.eng / 8) f.region.toNat
    let x := Exact.ofIdx r.fmt
    let n := f.cnt.toNat + 1
    let h := s.visits a c f.region.toNat base n
    let got := s.mergeItems a c k x r.ordered n (if x = .c2176 then 8 else 4)
    let most := n * (if r.ordered then (if x = .c2176 then 8 else 4) else 8 * x.fullLen)
    let ready := s.slotsReady a c r f.region.toNat ((List.range n).map (base + ·))
    let e := (List.range n).foldl (exportOne a c f r (f.clr == 1) 0) (h, [], [])
    let c1 := { c with pos := c.pos.wr k (c.pos.rd k + e.2.1.length) }
    let waits := fun (code : Nat) => s.putCtx a.eng a.ctx { s.ctxAt a.eng a.ctx with st := code }
    (s.issues a (f.word 0x41) → got = some (items, t1, m, chunk) → r.ordered = false →
      let c' := { c with pos := c.pos.wr k (c.pos.rd k + m), chunk := if k < 4 then chunk else c.chunk, elemIx := if k < 4 then 0 else c.elemIx }
      let u := (items.zipIdx).foldl (fun u p => mergeOne a c' x f.region.toNat u (base + p.2) p.2 p.1.1 p.1.2) (h.putStrm a.eng k t1)
      ∃ t, exec (.cmerge a f) s = .next t ∧ Settled (s.commitsFrom u a c'.onward) t) ∧
    (s.issues a (f.word 0x41) → got = some (items, t1, m, chunk) → r.ordered = true →
      let c' := { c with pos := c.pos.wr k (c.pos.rd k + m), chunk := if k < 4 then chunk else c.chunk, elemIx := if k < 4 then 0 else c.elemIx }
      let u := (items.zipIdx).foldl (fun (u : State × List Origin) p =>
        let key := slotOf a c' f.region.toNat (base + p.2)
        if u.1.passes c' (stackLeaves (u.1.slotRd key).stack) 1 then (u.1.overCount c' 4, u.2)
        else
          let q := u.1.leafPush key c'.chunk (x == .c2176) p.1.1.val
          (q.2, u.2 ++ List.replicate q.1 (c'.origin a 0x41 r.fmt p.2 p.2 ⟨0, false, 1, 1⟩))) (h.putStrm a.eng k t1, [])
      ∃ t, exec (.cmerge a f) s = .next t ∧ Settled ((s.commitsFrom u.1 a c'.onward).origins c.coll u.2) t) ∧
    (s.issues a (f.word 0x41) → got = none → ∃ t, exec (.cmerge a f) s = .next t ∧ Settled (waits 3) t) ∧
    (s.issues a (f.word 0x43) → s.strm a.eng k = some t0 → ready = false →
      ∃ t, exec (.cxport a f) s = .next t ∧ Settled (waits 2) t) ∧
    (s.issues a (f.word 0x43) → s.strm a.eng k = some t0 → ready = true →
      (k < 8 ∧ t0.level + credit most > 16384) ∨ (8 ≤ k ∧ t0.mode = 3 ∧ t0.out.length + most > t0.cap) →
      ∃ t, exec (.cxport a f) s = .next t ∧ Settled (waits 3) t) ∧
    (s.issues a (f.word 0x43) → s.strm a.eng k = some t0 → ready = true → k < 8 → t0.level + credit most ≤ 16384 →
      let t1 := { t0 with out := t0.out ++ e.2.1, outUp := true, outRecs := t0.outRecs + n, level := t0.level + credit e.2.1.length }
      let full := match c.coll.bind e.1.coll with
        | some q => decide (t1.outRecs ≥ e.1.shareOf q a.eng t1.outIdx)
        | none => false
      let fence := bit c.fab (k - 4)
      (full = false → ∃ t, exec (.cxport a f) s = .next t ∧
        Settled ((s.commitsFrom (e.1.putStrm a.eng k t1) a c1.onward).origins c.coll e.2.2) t) ∧
      (full = true → ∃ t, exec (.cxport a f) s = .next t ∧
        Settled (((s.commitsFrom (e.1.putStrm a.eng k (t1.close fence)) a
          { c1 with fab := c1.fab ^^^ (c1.fab &&& 1 <<< (k - 4)) }.onward).origins c.coll e.2.2).collectOut t0.coll) t)) ∧
    (s.issues a (f.word 0x43) → s.strm a.eng k = some t0 → ready = true → 8 ≤ k → t0.mode = 2 →
      ∃ t, exec (.cxport a f) s = .next t ∧
        Settled ((s.commitsFrom (e.1.regionWr a.eng t0 (c.pos.rd k) e.2.1) a c1.onward).origins c.coll e.2.2) t) ∧
    (s.issues a (f.word 0x43) → s.strm a.eng k = some t0 → ready = true → 8 ≤ k → t0.mode = 3 → t0.out.length + most ≤ t0.cap →
      ∃ t, exec (.cxport a f) s = .next t ∧
        Settled ((s.commitsFrom (e.1.putStrm a.eng k { t0 with out := t0.out ++ e.2.1, wops := t0.wops ++ [(c.issued, e.2.1.length)] }) a
          { c1 with open_ := c.open_ ++ [c.issued] }.onward).origins c.coll e.2.2) t)

/-- R225, R226, R228: GATH, SCADD and RNGK complete. -/
def Obligations.GatherScatterAndGenerator : Prop :=
  ∀ (s : State) (a : Site) (f : LG) (v : LV) (t0 : Strm) (tb : TableRec),
    let c := s.running a
    let k := f.stream.toNat
    let on := c.enabledList f.pg.toNat 13
    let due := on.length * tb.rowBytes
    (s.issues a (f.word 0x68) → s.strm a.eng k = some t0 → s.tableAt c f.tbl.toNat = some tb →
      t0.land.length + t0.rowsDue + due ≤ t0.cap →
      let r := on.foldl (gathOne a c f tb) (s, [], [])
      let rows := (on.filter (fun i => !r.2.2.contains i)).map (fun i => (c.index f.va.toNat i).1)
      let v := if s.turnoutQueue (a.eng / 8) = 0 then r.1 else r.1.lookAhead tb rows
      let u := v.putStrm a.eng k { t0 with rowsDue := t0.rowsDue + due }
      let served := if v.predicted tb then rows.map (fun i => (v.rowPlace tb i).2) else []
      let q : Req := ⟨a.eng, a.ctx, c.issued, .rows k r.2.1 r.2.2 tb.fmt served tb.rowBytes⟩
      ∃ t, exec (.gath a f) s = .next t ∧
        Settled ({ u with eng.reqs := u.eng.reqs ++ [q] }.commits a { c with open_ := c.open_ ++ [c.issued] }.onward) t) ∧
    (s.issues a (f.word 0x68) → s.strm a.eng k = some t0 → s.tableAt c f.tbl.toNat = some tb →
      t0.land.length + t0.rowsDue + due > t0.cap →
      ∃ t, exec (.gath a f) s = .next t ∧ Settled (s.putCtx a.eng a.ctx { s.ctxAt a.eng a.ctx with st := 3 }) t) ∧
    (s.issues a (f.word 0x69) → s.tableAt c f.tbl.toNat = some tb → ∃ t, exec (.scadd a f) s = .next t ∧
      (s.turnoutRoom (a.eng / 8) = false → Settled (s.putCtx a.eng a.ctx { s.ctxAt a.eng a.ctx with st := 3 }) t)) ∧
    (∀ u : State, u.turnoutQueue (a.eng / 8) = 0 → u.turnoutRoom (a.eng / 8) = true) ∧
    (s.issues a (f.word 0x69) → s.tableAt c f.tbl.toNat = some tb → s.turnoutRoom (a.eng / 8) = true →
      let row := fun i => if f.shape = 0 then (c.lane f.va.toNat i).bits % 2 ^ 32 else c.sc f.sRow.toNat
      let col := fun i => if f.shape = 0 then c.sc f.sCol.toNat else c.sc f.sCol.toNat + i
      let bad := fun i => decide (f.shape = 0) && (c.lane f.va.toNat i).pois || decide (row i ≥ tb.rows) || decide (col i ≥ tb.cols)
      let lanes := c.enabledList f.pg.toNat f.fmt.toNat
      let reqs := (lanes.filter (fun i => !bad i)).map (fun i =>
        let e := c.elem (s.fmt f.fmt.toNat) f.vb.toNat i
        (⟨a.eng, a.ctx, c.issued, .add tb (row i) (col i) f.fmt.toNat e.bits e.pois⟩ : Req))
      ∃ t u : State, exec (.scadd a f) s = .next t ∧
        Settled ({ u with eng.reqs := s.eng.reqs ++ reqs }.commits a
          { c with open_ := if reqs = [] then c.open_ else c.open_ ++ [c.issued] }.onward) t ∧
        u = { s with regs := u.regs, out := u.out } ∧ ((∀ i ∈ lanes, bad i = false) → u = s)) ∧
    (s.issues a (v.word 0x70) → bit v.ext.toNat 19 = false →
      ∃ t, exec (.rngk a v) s = .next t ∧
        Settled (s.commits a { c with rngKey := s.seedKeyOf c (bits v.ext.toNat 15 4), tau := c.sc (v.va.toNat % 16) % 2 ^ 32 }.onward) t) ∧
    (s.issues a (v.word 0x70) → bit v.ext.toNat 19 = true →
      ∃ t, exec (.rngk a v) s = .next t ∧
        Settled (s.commits a (c.setReg v.vd.toNat (putElems (builtinFmt 13) (c.reg v.vd.toNat) (fun i =>
          if c.enabled v.pg.toNat 13 i then
            some ⟨rndOf 4 c.rngKey c.tau (s.stepOf c.coll) (c.sc v.sx.toNat + i), false⟩ else none))).onward) t)

/-- R230 to R236: the synchronisation and control instructions complete. -/
def Obligations.SynchronisationAndControl : Prop :=
  ∀ (s : State) (a : Site) (f : LK) (l : LL),
    let c := s.running a
    let n := s.eventOf c f.h.toNat
    let t0 := (c.sc f.sa.toNat + f.imm.toNat) % 2 ^ 32
    let p := c.pr f.p.toNat % 2 ^ 128
    let cf := if f.fab = 1 then { c with fab := 3 } else c
    let test := (f.cond = 0 ∧ p ≠ 0) ∨ (f.cond = 1 ∧ p = 2 ^ 128 - 1) ∨ (f.cond = 2 ∧ p = 0)
    (s.issues a (f.word 0x78) → (s.get (evt n) + 2 ^ 32 - t0) % 2 ^ 32 < 2 ^ 31 →
      ∃ t, exec (.waitev a f) s = .next t ∧ Settled (s.commits a c.onward) t) ∧
    (s.issues a (f.word 0x78) → ¬ (s.get (evt n) + 2 ^ 32 - t0) % 2 ^ 32 < 2 ^ 31 →
      ∃ t, exec (.waitev a f) s = .next t ∧ Settled (s.commits a { c with st := 4, wait := .event n t0 }.onward) t) ∧
    (s.issues a (f.word 0x79) → c.open_ = [] →
      ∃ t, exec (.sigev a f) s = .next t ∧ Settled (s.commitsFrom (s.evtAdd n f.imm.toNat) a c.onward) t) ∧
    (s.issues a (f.word 0x79) → c.open_ ≠ [] →
      ∃ t, exec (.sigev a f) s = .next t ∧ Settled (s.commits a { c with sigs := c.sigs ++ [(⟨n, f.imm.toNat, c.issued⟩ : SigWait)] }.onward) t) ∧
    (s.issues a (f.word 0x7A) → c.open_ = [] → ∃ t, exec (.fence a f) s = .next t ∧ Settled (s.commits a cf.onward) t) ∧
    (s.issues a (f.word 0x7A) → c.open_ ≠ [] →
      ∃ t, exec (.fence a f) s = .next t ∧ Settled (s.commits a { cf with st := 4, wait := .fence (f.fab == 1) }.onward) t) ∧
    (s.issues a (f.word 0x7B) → ∃ t, exec (.lock a f) s = .next t ∧
      Settled ((s.commits a { c with st := 4, wait := .lock f.h.toNat (f.wc == 1) f.sd.toNat }.onward).lockEnter a f) t) ∧
    (s.issues a (l.word 0x80) → ∃ t, exec (.loop a l) s = .next t ∧
      Settled (s.commits a { c with pc := c.pc + 1, loops := (⟨c.pc + 1, c.pc + l.imm.toNat % 2 ^ 12, l.trips.toNat⟩ : LoopFrame) :: c.loops }) t) ∧
    (s.issues a (f.word 0x81) → test → ∃ t, exec (.brp a f) s = .next t ∧ Settled (s.commits a { c with pc := c.pc + 1 + f.imm.toNat }) t) ∧
    (s.issues a (f.word 0x81) → ¬ test → ∃ t, exec (.brp a f) s = .next t ∧ Settled (s.commits a { c with pc := c.pc + 1 }) t) ∧
    (s.issues a (f.word 0x82) →
      let u := s.commits a { c with st := 5 }.onward
      ∃ t, exec (.halt a f) s = .next t ∧ Settled (match c.coll with
        | some x => u.runDone x
        | none => u) t)

/-- R139, R152, R154, R156, Table 05-8: issue, failed checks, register-file words. -/
def Obligations.IssueAndChecks : Prop :=
  ∀ (s : State) (a : Site) (f : LV) (lanes reg lane : Nat),
    (∀ (i : Instr) (w : BitVec 64), i.site = some a → encodeSluice i = some w → s.canIssue a w = false → ∃ t, exec i s = .next t ∧ Settled s t) ∧
    (let c := s.running a
     let k := f.fmt.toNat
     let result := fun (u : State) (c : Ctx) (i : Nat) =>
       if c.enabled f.pg.toNat k i then
         some (laneAdd (u.fmt k) f.rnd.toNat (u.rndV c f i) (c.elem (u.fmt k) f.va.toNat i)
           (if f.bs.toNat = 1 then ⟨c.sc (f.vb.toNat % 16) % 2 ^ (u.fmt k).width, false⟩ else c.elem (u.fmt k) f.vb.toNat i))
       else none
     let sum := fun (u : State) (c : Ctx) => c.setReg f.vd.toNat (putElems (u.fmt k) (c.reg f.vd.toNat) (fun i => (result u c i).map LaneRes.lane))
     let ph := s.physOf a.eng
     let er := s.runsOn ph
     let sp := 17 * (ph / 17) + 16
     let spare := s.get (F.ENG_STATUS_role sp) = 1 ∧ s.get (F.ENG_STATUS_degraded er) = 0 ∧ er ≠ sp
     let sig := c.failed ||| signature 0x10 k a.ctx lanes
     let c0 := { c with tries := 0, failed := 0 }
     s.canIssue a (f.word 0x10) = true →
     (a.hw = .check lanes →
       (spare → ∃ t, exec (.vadd a f) s = .next t ∧ ph ∈ t.eng.stopped ∧
         let u := (s.putCtx a.eng a.ctx c0).engResidue a c 0 sig
         Settled { u with eng.stopped := if u.eng.stopped.contains ph then u.eng.stopped else u.eng.stopped ++ [ph] } t) ∧
       (¬ spare → c.tries < 2 → ∃ t, exec (.vadd a f) s = .next t ∧
         Settled (s.putCtx a.eng a.ctx { c with tries := c.tries + 1, failed := sig }) t) ∧
       (¬ spare → 2 ≤ c.tries → ∃ t, exec (.vadd a f) s = .next t ∧
         let c' := if lanes = 0 then sum s c0 else (sum s c0).setReg f.vd.toNat (spoil (s.fmt k) lanes ((sum s c0).reg f.vd.toNat))
         Settled (((s.commits a c'.onward).origins c.coll (originsOf c0 a 0x10 k (result s c0))).engResidue a c 2 sig) t)) ∧
     (a.hw = .none → 0 < c.tries → ∃ t, exec (.vadd a f) s = .next t ∧
       let u := s.commits a (sum s c0).onward
       Settled ((u.engResidue a c 1 c.failed).origins c.coll (originsOf c a 0x10 k (result s c))) t) ∧
     (∀ e, Hw.fileWord a.hw = some e →
       let r := Hw.spoilt a.hw (s.engineEcc a.eng e.1 e.2) c
       let u := r.1.putCtx a.eng a.ctx r.2
       (e.2 = false → r.2 = c) ∧
       ∃ t, exec (.vadd a f) s = .next t ∧
         Settled ((u.commits a (sum u r.2).onward).origins r.2.coll (originsOf r.2 a 0x10 k (result u r.2))) t) ∧
     (∀ u : State, let r := Hw.spoilt (.word reg lane true) u c
       (∀ p ∈ (r.2.reg reg).zipIdx, p.2 / 2 = lane / 2 → p.1.pois = true) ∧ ∀ x, x % 32 ≠ reg % 32 → r.2.reg x = c.reg x))

/-- R156, R157, R160, R230, R232: the waits of a context end, and the spare attaches and detaches. -/
def Obligations.EngineWaitsAndSpare : Prop :=
  ∀ (s : State) (eng : Fin 128) (ctx : Fin 8) (die : Fin 8) (n th ph : Nat) (fab : Bool),
    let c := s.ctxAt eng ctx
    let sp := spareOf die
    (c.wait = .event n th → s.evtMet n th = true → ∃ t, exec (.waitevComplete eng ctx) s = .next t ∧
      Settled (s.putCtx eng ctx { c with st := 1, wait := .none }) t) ∧
    (c.wait = .fence fab → c.open_ = [] → ∃ t, exec (.fenceComplete eng ctx) s = .next t ∧
      Settled (s.putCtx eng ctx { c with st := 1, wait := .none }) t) ∧
    (s.waitingEngine die = some ph → s.eng.attach.find die = none → s.get (F.ENG_STATUS_role sp) = 1 →
      ∃ t, exec (.spareAttach die) s = .next t ∧
        Settled (({ s with eng.attach := s.eng.attach.put die ph, eng.stopped := s.eng.stopped.filter (· ≠ ph) }.sets
          [(F.ENG_STATUS_attached ph, 1), (F.ENG_STATUS_peer ph, sp), (F.ENG_STATUS_attached sp, 1), (F.ENG_STATUS_peer sp, ph)]).pert 8) t) ∧
    (s.waitingEngine die = none → s.eng.retiring.find? (fun p => p / 17 == die.val && s.mayTakeOver p) = some ph →
      ∃ t, exec (.spareAttach die) s = .next t ∧ Settled (s.takeOver ph) t) ∧
    (s.eng.attach.find die = some ph → ph ∉ s.eng.retiring →
      (∀ i < 8, s.returnPoint (s.get (F.ENG_STATUS_logical ph)) (s.ctxAt (s.get (F.ENG_STATUS_logical ph)) i) = true) →
      ∃ t, exec (.spareDetach die) s = .next t ∧
        Settled (({ s with eng.attach := s.eng.attach.drop die }.sets [(F.ENG_STATUS_attached ph, 0), (F.ENG_STATUS_peer ph, 0xFF),
          (F.ENG_STATUS_attached sp, 0), (F.ENG_STATUS_peer sp, 0xFF)]).pert 8) t)

/-- R163, R225, R227, R229, R456, R458: what the completion of an engine's memory operation does, and a known-answer burst. -/
def Obligations.EngineMemoryCompletions : Prop :=
  ∀ (s : State) (eng : Fin 128) (k : Fin 16) (misses n : Nat) (err : Fin 3) (miss ok : Bool) (ph : Fin 136) (sig : BitVec 32) (late : Nat)
    (r : Req) (t0 : Strm) (ch : ChanRec) (rest : List (Nat × Nat)) (op m : Nat),
    let reads := s.stuck (flumeOf (eng / 8) true) = false
    let writes := fun (cluster : Nat) => s.stuck (flumeOf cluster false) = false
    (¬ reads → (∃ t, exec (.gathRowsLanded eng k misses) s = .next t ∧ Settled s t) ∧
      ∃ t, exec (.flumeReadComplete eng k err miss) s = .next t ∧ Settled s t) ∧
    (¬ writes (eng / 8) → ∃ t, exec (.flumeWriteComplete eng k) s = .next t ∧ Settled s t) ∧
    (s.eng.reqs[n]? = some r → ¬ writes (r.eng / 8) → ∃ t, exec (.turnoutRequestComplete n err miss) s = .next t ∧ Settled s t) ∧
    (∀ q data bad fmt served rowB, reads → s.eng.reqs.find? (fun r => r.landsIn eng k) = some r → s.strm eng k = some t0 →
      r.want = .rows q data bad fmt served rowB →
      let late := served.filter (fun a => !s.placed a rowB)
      let u := served.foldl (fun u a => u.useRow a rowB) (s.predictorMiss (min misses late.length))
      let c := u.ctxAt eng r.ctx
      let u := { u with eng.reqs := u.eng.reqs.erase r }.putStrm eng k
        { t0 with land := t0.land ++ data, rowsDue := t0.rowsDue - data.length }
      ∃ t, exec (.gathRowsLanded eng k misses) s = .next t ∧
        Settled ((u.origins c.coll (bad.map (fun i =>
          (⟨5, 4, false, 0, eng, r.ctx, i, fmt, 0x68, 0xFF, c.chunk, c.elemIx + i⟩ : Origin)))).opDone eng r.ctx r.op) t) ∧
    (reads → s.strm eng k = some t0 → t0.chan = some ch → ch.dir = 0 →
      let n := min 256 (min (ch.total - t0.seqDone) (t0.cap - (t0.land.length + t0.rowsDue)))
      let u := if n = 0 then s else s.memError ch.level (ch.addr t0.seqDone) err
      let served := n ≠ 0 ∧ bit ch.predict 0 = true ∧ ch.level = 2
      let u := if served then
        (if miss = true ∧ u.placed (ch.addr t0.seqDone) n = false then u.predictorMiss 1 else u.useRow (ch.addr t0.seqDone) n) else u
      ∃ t, exec (.flumeReadComplete eng k err miss) s = .next t ∧
        Settled (u.putStrm eng k { t0 with
          land := t0.land ++ (List.range n).flatMap (fun i => u.memRd ch.level (ch.addr (t0.seqDone + i)) 1)
          seqDone := t0.seqDone + n }) t) ∧
    (writes (eng / 8) → s.strm eng k = some t0 → t0.chan = some ch → ch.dir = 1 → t0.wops = (op, m) :: rest →
      let u := ((t0.out.take m).zipIdx).foldl (fun u b =>
        if t0.seqDone + b.2 < ch.total then u.memWr ch.level (ch.addr (t0.seqDone + b.2)) [b.1] else u) s
      ∃ t, exec (.flumeWriteComplete eng k) s = .next t ∧
        Settled ((u.putStrm eng k { t0 with out := t0.out.drop m, wops := rest, seqDone := t0.seqDone + m }).opDone eng t0.ctx op) t) ∧
    (∀ tb row col fmt b pz, s.eng.reqs[n]? = some r → r.want = .add tb row col fmt b pz →
      (∀ q ∈ s.eng.reqs.take n, q.slot ≠ r.slot) → writes (r.eng / 8) →
      let c := s.ctxAt r.eng r.ctx
      let a := tb.base + (row * tb.cols + col) * 64
      let u := { s with eng.reqs := s.eng.reqs.eraseIdx n }.memError tb.level a err
      let u := if bit tb.predict 0 = true ∧ tb.level = 2 then
        (if miss = true ∧ u.placed a 64 = false then u.predictorMiss 1 else u.useRow a 64) else u
      let u := u.scatterEnter c.coll c.chunk (row * tb.cols + col) (r.eng / 8) tb row col ((u.fmt fmt).decode b) pz
      ∃ t, exec (.turnoutRequestComplete n err miss) s = .next t ∧
        Settled (if u.opBusy r then u else u.opDone r.eng r.ctx r.op) t) ∧
    (s.katMay ph = false → ∃ t, exec (.katBurst ph ok sig late) s = .next t ∧ Settled s t) ∧
    (s.katMay ph = true →
      let n := s.eng.katN.rd ph
      let first := if n = 0 then { s with eng.katAt := s.eng.katAt.wr ph (s.get F.FLOG_PTIME_seconds + 1) } else s
      let u := (first.inc F.KAT_DELAY_COUNT_delay late).pert 10 late
      let bin := 1 <<< tempBin (u.sluiceTemp (ph / 17))
      let last := { u with eng.katN := u.eng.katN.wr ph 0, eng.katBins := u.eng.katBins.wr ph (u.eng.katBins.rd ph ||| bin) }.inc F.KAT_PASS_COUNT_pass
      let v := if n + 1 = 1024 then last else { u with eng.katN := u.eng.katN.wr ph (n + 1) }
      ∃ t, exec (.katBurst ph ok sig late) s = .next t ∧
        Settled (if ok then v else v.residue none 0 ph (v.get (F.ENG_STATUS_logical ph)) 0 0 3 sig.toNat 0) t)

/-- R264 to R282: what becomes of a chunk that arrives. A chunk may not open while class C work is paused (R476) or every window holds one (R35). -/
def Obligations.ChunkReceived : Prop :=
  ∀ (s : State) (port : Fin 144) (h : ChunkIn) (dsts : List Nat) (miss : List Miss) (x : Nat) (c : Coll) (t0 : Nat) (p : Party) (k r code : Nat),
    let path := s.chunkPath port h.id
    let becomes := fun (u : State) => ∃ t, exec (.chunkReceive port h dsts miss) s = .next t ∧ Settled u t
    (s.stuck path = true → becomes { s with xing.held := s.xing.held ++ [(path, .chunkReceive port h dsts miss)] }) ∧
    (s.stuck path = false →
      (s.collOf h.id = none → becomes (if s.waitsFor h.id then s else s.membership none h.id h.chunk h.rank port 7 0xFFFF h.wire)) ∧
      (s.collOf h.id = some (x, c) → c.phase = 0 → becomes s) ∧
      (s.collOf h.id = some (x, c) → c.phase ≠ 0 →
        ((s.groupOf c).parentTree port = some t0 →
          becomes (if c.cmd.routed then s.remoteChunk x port c h dsts else s.parentChunk x t0 port h)) ∧
        ((s.groupOf c).parentTree port = none → c.partyAt port h.chunk = none →
          becomes (s.membership (some x) h.id h.chunk h.rank port 1 c.cmd.group h.wire)) ∧
        ((s.groupOf c).parentTree port = none → c.partyAt port h.chunk = some (p, k) →
          (p.isKid = true → c.cmd.routed = true → becomes (s.remoteChunk x port c h dsts)) ∧
          ((p.isKid && c.cmd.routed) = false →
            (s.judge c p k h = .event code → becomes (s.membership (some x) h.id h.chunk h.rank port code c.cmd.group h.wire)) ∧
            (s.judge c p k h = .spill r → becomes ((s.spill r h.wire).putColl x { c with spilled := c.spilled + 1 })) ∧
            (∀ j, s.judge c p k h = .bad j → becomes (((s.putColl x (c.noteBegun k j true)).badChunk x j k h).settle x)) ∧
            (∀ j, s.judge c p k h = .take j → s.mayNotOpen c j = true → becomes s) ∧
            (∀ j, s.judge c p k h = .take j → s.mayNotOpen c j = false → h.part = true → becomes (s.putColl x (c.noteBegun k j false))) ∧
            (∀ j, s.judge c p k h = .take j → s.mayNotOpen c j = false → h.part = false →
              let u := s.putColl x (c.noteBegun k j true)
              let u := if p.isKid then u else u.noteLag x j port h.id
              becomes (((u.noteSum x j k h).takeIn x j k port h.wire
                ⟨h.kind, h.rank, if p.isKid then h.covers else 1, h.fmt, h.data, h.pois, h.last⟩ dsts h.ecc miss).settle x))))))

/-- R272, R275 to R278, R616: the messages and timers of the chunk protocol take effect. -/
def Obligations.ChunkProtocol : Prop :=
  ∀ (s : State) (port : Fin 144) (h : ChunkIn) (a : AckIn) (id first last : BitVec 32) (reason : BitVec 8) (x : Nat) (xf : Fin 4096)
    (c : Coll) (q : Party × Nat) (t0 i : Nat) (begun : List Nat) (miss : List Miss),
    let wait := fun (i : Instr) (path : List Nat) => s.stuck path = true →
      ∃ t, exec i s = .next t ∧ Settled { s with xing.held := s.xing.held ++ [(path, i)] } t
    let path := [ingressOf port]
    let free := s.stuck path = false
    wait (.haltedChunkReceive port h) (s.chunkPath port h.id) ∧ wait (.ackReceive port a) path ∧
    wait (.revokeReceive port id first last reason) path ∧ wait (.reissueReqReceive port id first last reason) path ∧
    (s.stuck (s.chunkPath port h.id) = false → s.collOf h.id = some (x, c) → h.crc = true → (s.groupOf c).parentTree port = some t0 ∨ q ∈ c.partiesAt port →
      ∃ t, exec (.haltedChunkReceive port h) s = .next t ∧ Settled (s.haltColl x) t) ∧
    (free → s.collOf a.id = some (x, c) → a.contrib = false → q ∈ c.partiesAt port →
      let u := s.putColl x ((c.partiesAt port).foldl (fun c q => { c with
        parties := setAt c.parties q.2 { q.1 with next := max q.1.next (min a.next (s.chunksOut c.cmd)) } }) c)
      (a.nack = false → ∃ t, exec (.ackReceive port a) s = .next t ∧ Settled (u.settle x) t) ∧
      (a.nack = true → (c.partiesAt port).find? (fun q => c.receives (s.chunksOut c.cmd) (s.groupOf c).ranks a.nchunk q.2 q.1) = some q →
        ∃ t, exec (.ackReceive port a) s = .next t ∧ Settled ((u.redeliver x q.2 a.nchunk).settle x) t)) ∧
    (free → s.collOf a.id = some (x, c) → a.contrib = true → (s.groupOf c).parentTree port = some t0 →
      let u := s.putColl x (if t0 = 0 then { c with upNext0 := max c.upNext0 a.next } else { c with upNext1 := max c.upNext1 a.next })
      ∃ t, exec (.ackReceive port a) s = .next t ∧
        Settled ((if a.nack = true ∧ a.nchunk % 2 = t0 then u.resendUp x a.nchunk else u).settle x) t) ∧
    (free → s.collOf id.toNat = some (x, c) → (s.groupOf c).parentTree port = none → q ∈ c.partiesAt port →
      let u := s.inc F.REVOKE_COUNT_received
      let own := (c.partiesAt port).flatMap (fun q => ((c.streamOf (u.chunksIn c.cmd) (max (u.chunksIn c.cmd) (u.chunksOut c.cmd)) q.1).filter
        (fun e => first.toNat ≤ e.1 && e.1 ≤ last.toNat)).map (·.2))
      ∃ t, exec (.revokeReceive port id first last reason) s = .next t ∧
        Settled (((sortBy (· ≤ ·) own.eraseDups).foldl (fun u i => u.reopen x i 1 true) u).settle x) t) ∧
    (free → s.collOf id.toNat = some (x, c) → (s.groupOf c).parentTree port = some t0 →
      let u := s.inc F.REVOKE_COUNT_received
      let l := (List.range (u.chunksOut c.cmd)).filter (fun i => i % 2 == t0 && first.toNat ≤ i && i ≤ last.toNat)
      ∃ t, exec (.revokeReceive port id first last reason) s = .next t ∧
        Settled ((l.foldl (fun u i => match u.coll x with
          | none => u
          | some c =>
            let u := u.revokeResult x i reason.toNat
            match u.coll x with
            | some d =>
              let d := if t0 = 0 then { d with upAck0 := min d.upAck0 i } else { d with upAck1 := min d.upAck1 i }
              u.putColl x { d with relay := if c.relay.contains i then d.relay else d.relay ++ [i] }
            | none => u) u).settle x) t) ∧
    (free → s.collOf id.toNat = some (x, c) → (s.groupOf c).parentTree port = some t0 →
      let l := (List.range (s.chunksOut c.cmd)).filter (fun i => i % 2 == t0 && first.toNat ≤ i && i ≤ last.toNat)
      ∃ t, exec (.reissueReqReceive port id first last reason) s = .next t ∧
        Settled ((l.foldl (fun u i => match u.coll x with
          | none => u
          | some c =>
            if (c.chunk i).reopened then u
            else if c.kept.any (fun y => y.up && y.idx == i) then u.resendUp x i
            else u.reopen x i reason.toNat false) s).settle x) t) ∧
    (s.coll xf = some c → c.phase ≠ 0 → port.val ∉ c.late → c.partiesAt port = [] → (s.groupOf c).parentTree port = some t0 →
      c.parentOwes t0 = true →
      ∃ t, exec (.ackTimeout xf port) s = .next t ∧ Settled (((s.putColl xf { c with late := c.late ++ [port.val] }).faultReport 0x0A port 0
        (catBits 0xFFFF c.cmd.collId 32)).pert 15) t) ∧
    (s.coll xf = some c → c.phase ≠ 0 → port.val ∉ c.late → (c.partiesAt port).head? = some q →
      (c.partiesAt port).any (fun q => s.owes c q.2 q.1) = true →
      ∃ t, exec (.ackTimeout xf port) s = .next t ∧ Settled (((s.putColl xf { c with late := c.late ++ [port.val] }).faultReport 0x0A port 0
        (catBits q.1.rank c.cmd.collId 32)).pert 15) t) ∧
    (s.coll xf = some c → c.cmd.isQuorum = true → c.phase ≠ 0 → i < s.chunksIn c.cmd → (s.groupOf c).tier = 1 →
      (c.chunk i).reduced = false → c.cmd.quorum ≤ (c.chunk i).got.length →
      let out := (c.contributors (s.chunksIn c.cmd) i).filter (fun k => !(c.chunk i).got.any (fun g => g.1 == k) &&
        (match c.parties[k]? with
          | some p => !p.isKid && !begun.contains p.rank && !c.begun.contains (k, i)
          | none => false))
      let c1 := { c.putChunk i { c.chunk i with excluded := (c.chunk i).excluded ++ out } with
        changes := c.changes ++ out.map (fun k => (⟨i, ((c.parties[k]?).map (·.rank)).getD 0, 1, 2⟩ : Change)) }
      let u := out.foldl (fun u k => (if c1.loaded then u.deliverNone xf i k else u).bitEvent c1.step 3) (s.putColl xf c1)
      ∃ t, exec (.quorumWait xf i begun miss) s = .next t ∧ Settled (match u.coll xf with
        | none => u
        | some d => if !d.loaded && u.filled d i then (u.chunkWhole xf i miss).settle xf else u.settle xf) t)

/-- R303, R305, R308 to R310: the pass of an update that UPDATE_PASS_START runs, and when it waits. -/
def Obligations.UpdatePasses : Prop :=
  ∀ (s : State) (x : Fin 4096) (miss : List Miss) (j : Job) (n : Norm),
    s.job x miss = some j →
    let i := Instr.updatePassStart x miss
    let inputs := (s.rootChunks j.c).all j.f.fed.contains = true
    (j.c.phase = 0 ∨ j.f.ended = true → ∃ t, exec i s = .next t ∧ Settled s t) ∧
    (j.c.phase ≠ 0 → j.f.ended = false → j.f.dense = false → ∃ t, exec i s = .next t ∧ Settled ((s.embedUpdate j).settle x) t) ∧
    (j.c.phase ≠ 0 → j.f.ended = false → j.f.dense = true → j.streamed = true ∨ ¬ inputs ∨ j.f.pass ≥ j.r.passes →
      ∃ t, exec i s = .next t ∧ Settled s t) ∧
    (j.c.phase ≠ 0 → j.f.ended = false → j.f.dense = true → j.streamed = false → inputs → j.f.pass < j.r.passes →
      (j.r.clip = false → ∃ t, exec i s = .next t ∧ Settled ((s.runPass j (j.f.pass + 1)).settle x) t) ∧
      (j.r.clip = true → s.nor.norms.find j.h.record.nset = some n →
        (n.complete = false ∨ n.step ≠ j.c.step → ∃ t, exec i s = .next t ∧ Settled s t) ∧
        (n.complete = true → n.step = j.c.step → n.total.nonFinite = true → j.r.nfSkip = true →
          ∃ t, exec i s = .next t ∧ Settled ((s.skipUpdate j).settle x) t) ∧
        (n.complete = true → n.step = j.c.step → n.total.nonFinite = false ∨ j.r.nfSkip = false →
          ∃ t, exec i s = .next t ∧ Settled (({ s with nor.norms := s.nor.norms.put j.h.record.nset { n with used := some n.factor } }.runPass
            { j with f := { j.f with k := n.factor } } (j.f.pass + 1)).settle x) t)))

/-- R308, R311, R315, R316: what NORM_PART, NORM_PEER_TIMEOUT and COMMIT do on arrival. -/
def Obligations.NormAndCommitMessages : Prop :=
  ∀ (s : State) (re : Bool) (port : Fin 144) (set : Fin 16) (sender : BitVec 16) (step turn : BitVec 64) (record : List Byte) (n : Norm),
    (s.stuck [ingressOf port] = true → ∃ t, exec (.normPart re port set sender step record) s = .next t ∧
      Settled { s with xing.held := s.xing.held ++ [([ingressOf port], .normPart re port set sender step record)] } t) ∧
    (s.stuck [ingressOf port] = false →
     let u := if s.normPending set step.toNat then s.normRoll set step.toNat else s
     let live := n.step = step.toNat ∧ u.normPending set n.step = true
     let event := fun (code : Nat) => ∃ t, exec (.normPart re port set sender step record) s = .next t ∧
       Settled (u.normEvent port code (16 + record.length)) t
     (u.nor.norms.find set = none → event 7) ∧
     (u.nor.norms.find set = some n →
       (¬ live → event 7) ∧
       (live → sender.toNat ∉ n.peers → event 1) ∧
       (live → sender.toNat ∈ n.peers → re = false → (∃ p ∈ n.parts, p.1 = sender.toNat) → event 2) ∧
       (live → sender.toNat ∈ n.peers → re = true ∨ (∀ p ∈ n.parts, p.1 ≠ sender.toNat) →
         let v := if (normRec record).2 then u.inc F.CIS_BAD_RECORD_COUNT_bad else u
         ∃ t, exec (.normPart re port set sender step record) s = .next t ∧ Settled ((v.putNorm set { n with
           parts := n.parts.filter (fun p => p.1 != sender.toNat) ++ [(sender.toNat, (normRec record).1)] }).normRestart set) t))) ∧
    (s.nor.norms.find set = some n → n.sent.isSome = true → sender.toNat ∈ n.peers → (∀ p ∈ n.parts, p.1 ≠ sender.toNat) →
      sender.toNat ∉ n.reported → ∃ t, exec (.normPeerTimeout set sender) s = .next t ∧
        Settled (((s.putNorm set { n with reported := n.reported ++ [sender.toNat] }).faultReport 0x0B set 0 sender.toNat).pert 15) t) ∧
    (s.nor.norms.find set = some n → n.sent = none ∨ sender.toNat ∉ n.peers ∨ (∃ p ∈ n.parts, p.1 = sender.toNat) ∨ sender.toNat ∈ n.reported →
      ∃ t, exec (.normPeerTimeout set sender) s = .next t ∧ Settled s t) ∧
    (s.get F.NOR_CTL_en = 0 → ∃ t, exec (.commit step turn) s = .next t ∧ Settled (s.commitNack 3 step.toNat 0xFFFF) t) ∧
    (s.get F.NOR_CTL_en ≠ 0 → turn.toNat < s.turn → ∃ t, exec (.commit step turn) s = .next t ∧ Settled (s.commitNack 2 step.toNat 0xFFFF) t) ∧
    (s.get F.NOR_CTL_en ≠ 0 → s.turn ≤ turn.toNat →
      let u := { s with nor.armed := s.nor.armed ++ [(step.toNat, turn.toNat)] }
      (s.get F.WM_CTL_role ≠ 2 → ∃ t, exec (.commit step turn) s = .next t ∧ Settled u t) ∧
      (s.get F.WM_CTL_role = 2 → ∃ t, exec (.commit step turn) s = .next t ∧
        Settled ({ u with flt.held := some (0x10, step.toNat, turn.toNat), flt.settled := s.flt.settled ++ [step.toNat] }.commitAnswer 0x12 0 step.toNat 0xFFFF) t))

/-- R321 to R324: what the commands of snapshots and restores do. -/
def Obligations.SnapshotsAndRestores : Prop :=
  ∀ (s : State) (n : Fin 1024) (port : BitVec 8) (last : Bool) (status : BitVec 8) (seg : BitVec 32) (tt object : BitVec 64) (ct tag : List Byte)
    (h h1 : Shard) (p : Snap) (r : Restore) (k : Nat) (planes : List (List Byte)),
    let asked := s.ready = true ∧ s.host.d3hot = false
    (asked → s.shard n = some h → ∃ t, exec (.snapReq n) s = .next t ∧ Settled (s.putShard n { h with wanted := true }) t) ∧
    (s.snapOf object.toNat tt.toNat = some (k, h, p) →
      let owed := p.owed.filter (· ≠ seg.toNat)
      (status ≠ 0 → ∃ t, exec (.snapAck status seg tt object) s = .next t ∧
        Settled ((((s.putShard k { h with snap := none }).inc F.SNAP_COUNT_failed).faultReport 0x0D k 0 p.t).snapNext k) t) ∧
      (status = 0 → owed ≠ [] → ∃ t, exec (.snapAck status seg tt object) s = .next t ∧
        Settled (s.putShard k { h with snap := some { p with owed := owed } }) t) ∧
      (status = 0 → owed = [] → ∃ t, exec (.snapAck status seg tt object) s = .next t ∧
        Settled ((((s.putShard k { h with snap := none }).inc F.SNAP_COUNT_done).snapNotice k p.t).snapNext k) t)) ∧
    (s.shard n = some h → h.snap = some p → ∃ t, exec (.snapshotTimeout n) s = .next t ∧
      Settled ((((s.putShard n { h with snap := none }).inc F.SNAP_COUNT_failed).faultReport 0x0D n 0 p.t).snapNext n) t) ∧
    (∀ u : State, u.snapNext n = match u.shard n with
      | some h => if h.due && h.snap.isNone then u.snapStart n h else u
      | none => u) ∧
    (asked → s.shard n = none ∨ (s.shard n = some h ∧ h.st ≠ 0 ∧ h.st ≠ 5) → ∃ t, exec (.norRestore n port) s = .next t ∧
      Settled ((s.inc F.NOR_REJ_COUNT_rej).set F.NOR_REJ_ADDR_addr R.NOR_RESTORE) t) ∧
    (asked → s.shard n = some h → h.st = 0 ∨ h.st = 5 → ∃ t, exec (.norRestore n port) s = .next t ∧
      Settled ((s.putShard n { h with st := 4, restore := some ⟨port.toNat, s.get F.NOR_RESTORE_OBJ_object, [], none, 0⟩ }).emit
        (.msg (s.endpoint port.toNat) clsD (leBytes (packBits [(0, 8, 0x32), (128, 64, s.get F.NOR_RESTORE_OBJ_object)]) 32))) t) ∧
    (s.shard n = some h → h.restore = some r → r.object = object.toNat →
      let i := Instr.restoreSegment n last seg tt object ct tag
      let key := s.snapKeyOf h.record.tenant r.object
      let head := segHeader last n seg.toNat tt.toNat r.object ct.length
      let iv := segNonce n tt.toNat seg.toNat
      let r1 := { r with segs := r.segs.put seg.toNat (gcmCrypt key iv ct), last := if last then some seg.toNat else r.last, t := tt.toNat }
      let whole := fun (k : Nat) => ∀ i < k + 1, (r1.segs.find i).isSome = true
      let m := (r1.segs.find 0).getD []
      let image := ((List.range k).map (fun i => (r1.segs.find (i + 1)).getD [])).flatten
      (gcmTag key iv head ct ≠ tag → ∃ t, exec i s = .next t ∧
        Settled (((s.putShard n { h with st := 0, restore := none }).inc F.SNAP_COUNT_failed).sigTrap 0x0B 0 0 ⟨4, 0xFFFFFFFF, r.port⟩) t) ∧
      (gcmTag key iv head ct = tag → r1.last = none ∨ (r1.last = some k ∧ ¬ whole k) →
        ∃ t, exec i s = .next t ∧ Settled (s.putShard n { h with restore := some r1 }) t) ∧
      (gcmTag key iv head ct = tag → r1.last = some k → whole k →
        (imagePlanes h m image = none → ∃ t, exec i s = .next t ∧
          Settled ((s.putShard n { h with st := 0, restore := none }).inc F.SNAP_COUNT_failed) t) ∧
        (imagePlanes h m image = some (h1, planes) → ∃ t, exec i s = .next t ∧
          Settled ((s.putImage h1 planes).putShard n
            { h1 with st := 1, live := 0, t := fieldOf m 0x80 8, ver0 := fieldOf m 0x88 4, ver1 := 2 ^ 32, restore := none, skipped := false }) t)))

/-- R331, R333, R347, R348: the step counter and the writing of step records. -/
def Obligations.StepsAndRecords : Prop :=
  ∀ (s : State) (v step : BitVec 64) (b : Bool) (i : StepInfo),
    let asked := s.ready = true ∧ s.host.d3hot = false
    let n := step.toNat
    (asked → v.toNat = s.get F.STEP_CTR_step → ∃ t, exec (.stepCtrWrite v) s = .next t ∧ Settled s t) ∧
    (asked → v.toNat ≠ s.get F.STEP_CTR_step → s.get F.AUD_CTL_en = 1 → ∃ t, exec (.stepCtrWrite v) s = .next t ∧
      Settled ((s.inc F.AUD_REJ_COUNT_rej).set F.AUD_REJ_ADDR_addr R.STEP_CTR) t) ∧
    (asked → v.toNat ≠ s.get F.STEP_CTR_step → s.get F.AUD_CTL_en ≠ 1 → ∃ t, exec (.stepCtrWrite v) s = .next t ∧
      Settled (s.openStep v.toNat) t ∧ t.get F.STEP_CTR_step = v.toNat ∧ t.get F.STEP_STATUS_strict = s.get F.GCTL_strict ∧
      t.get F.STEP_STATUS_accepted = 0 ∧ t.get F.PWR_STATUS_profile = s.get F.PWR_CTL_profile) ∧
    (asked → ∃ t, exec (.gctlStrictWrite b) s = .next t ∧ Settled (s.set F.GCTL_strict (b2n b)) t ∧ t.get F.GCTL_strict = b2n b ∧
      t.get F.STEP_STATUS_strict = s.get F.STEP_STATUS_strict) ∧
    (s.det.audit.steps.find? (fun i => i.step == n) = some i → i.closed = none ∨ s.stepDone n = false →
      ∃ t, exec (.stepRecordWrite step) s = .next t ∧ Settled s t) ∧
    (s.det.audit.steps.find? (fun i => i.step == n) = some i → i.closed.isSome = true → s.stepDone n = true →
      let entries := i.seeds.length + (s.det.audit.ends.filter (fun e => e.step == n)).length +
        (s.det.audit.shards.filter (fun e => e.step == n)).length
      let parts := max 1 ((entries + 16383) / 16384)
      let seq := s.get F.AUD_SEQ_parts
      ∃ t : State, exec (.stepRecordWrite step) s = .next t ∧
        t = { s with regs := t.regs, host := t.host, out := t.out, det.audit := t.det.audit, flt.waits := t.flt.waits, flt.recs := t.flt.recs, flt.hashes := t.flt.hashes } ∧
        t.get F.AUD_SEQ_parts = (seq + parts) % 2 ^ F.AUD_SEQ_parts.w ∧
        (seq + parts < 2 ^ F.AUD_SEQ_parts.w → ∀ k < seq, t.det.audit.parts.find k = s.det.audit.parts.find k) ∧
        t.det.audit.steps = s.det.audit.steps.filter (fun i => i.step ≠ n) ∧
        t.det.audit.shards = s.det.audit.shards.filter (fun e => e.step ≠ n) ∧
        t.det.audit.ends = s.det.audit.ends ∧ t.det.audit.prev = (0, 0, 0))

/-- R350: the parts of a step record form one hash chain with all parts before them. -/
def Obligations.AuditChain : Prop :=
  ∀ (s t : State) (step : BitVec 64) (i : StepInfo),
    s.det.audit.steps.find? (fun i => i.step == step.toNat) = some i → i.closed.isSome = true → s.stepDone step.toNat = true →
    (∀ h, s.det.audit.prevHash = some h → h.length = 48) →
    let entries := i.seeds.length + (s.det.audit.ends.filter (fun e => e.step == step.toNat)).length +
      (s.det.audit.shards.filter (fun e => e.step == step.toNat)).length
    let parts := max 1 ((entries + 16383) / 16384)
    let seq := s.get F.AUD_SEQ_parts
    seq + parts < 2 ^ F.AUD_SEQ_parts.w → exec (.stepRecordWrite step) s = .next t →
    (∀ k < parts, ∃ body trailer, t.det.audit.parts.find (seq + k) = some (body ++ trailer) ∧ trailer.length = 4736 ∧
      (k = 0 → (body.drop 0x18).take 48 = s.det.audit.prevHash.getD s.bootHash) ∧
      (∀ next, k + 1 < parts → t.det.audit.parts.find (seq + (k + 1)) = some next → (next.drop 0x18).take 48 = sha384 body) ∧
      (k + 1 = parts → t.det.audit.prevHash = some (sha384 body)))

/-- R338, R339: the commands of the time base. -/
def Obligations.TimeExchange : Prop :=
  ∀ (s : State) (sub sub2 sub3 : Fin 16) (port : Fin 144) (exch : BitVec 32) (t1 t2 t3 : BitVec 64),
    let on := s.get F.TIME_CTL_en = 1
    let master := s.get F.TIME_CTL_master = 1
    (on → ¬ master → ∃ t, exec (.timeExchangeTimer sub) s = .next t ∧
      Settled ({ s with det.time.exch := s.det.time.exch + 1, det.time.t1 := 16 * s.turn + sub }.send s.timeParent clsS 32
        [(0, 8, 0x4C), (16, 16, s.me), (32, 32, s.det.time.exch + 1), (64, 64, 16 * s.turn + sub)]) t) ∧
    (¬ on ∨ master → ∃ t, exec (.timeExchangeTimer sub) s = .next t ∧ Settled s t) ∧
    (on → ∃ t, exec (.timeReq port exch t1 sub2 sub3) s = .next t ∧ Settled (s.send (s.endpoint port) clsS 32
      [(0, 8, 0x4D), (16, 16, s.me), (32, 32, exch.toNat), (64, 64, t1.toNat), (128, 64, 16 * s.turn + sub2), (192, 64, 16 * s.turn + sub3)]) t) ∧
    (¬ on → ∃ t, exec (.timeReq port exch t1 sub2 sub3) s = .next t ∧ Settled s t) ∧
    (¬ on ∨ master ∨ exch.toNat ≠ s.det.time.exch ∨ t1.toNat ≠ s.det.time.t1 →
      ∃ t, exec (.timeResp exch t1 t2 t3 sub) s = .next t ∧ Settled s t) ∧
    (on → ¬ master → exch.toNat = s.det.time.exch → t1.toNat = s.det.time.t1 →
      let t4 := 16 * s.turn + sub
      let off : Int := (((t2.toNat : Int) - t1.toNat) - ((t4 : Int) - t3.toNat)) / 2
      let good := if off.natAbs ≤ 16 then s.det.time.good + 1 else 0
      ∃ t, exec (.timeResp exch t1 t2 t3 sub) s = .next t ∧
        t = { s with regs := t.regs, host := t.host, out := t.out, turn := t.turn, det.time := t.det.time } ∧
        t.get F.TIME_STATUS_offset = uint 16 off ∧ t.det.time = { s.det.time with acquired := true, good := good, slew := if s.det.time.acquired then off else s.det.time.slew } ∧
        (s.det.time.acquired = false → t.turn = ((s.turn : Int) + (off + 8) / 16).toNat) ∧
        (s.det.time.acquired = true → t.turn = s.turn) ∧
        (off.natAbs > 32 → t.get F.TIME_STATUS_locked = 0 ∧ (s.get F.TIME_STATUS_locked = 1 →
          t.get F.TIME_UNLOCK_COUNT_unlocks = (s.get F.TIME_UNLOCK_COUNT_unlocks + 1) % 2 ^ F.TIME_UNLOCK_COUNT_unlocks.w)) ∧
        (off.natAbs ≤ 32 → good ≥ 8 → t.get F.TIME_STATUS_locked = 1) ∧
        (off.natAbs ≤ 32 → good < 8 → t.get F.TIME_STATUS_locked = s.get F.TIME_STATUS_locked)) ∧
    (¬ master → ∃ t, exec .trefPulse s = .next t ∧ Settled s t) ∧
    (master → ¬ on → ∃ t, exec .trefPulse s = .next t ∧ Settled (s.set F.TIME_STATUS_ref_ok 1) t) ∧
    (master → on → s.det.time.counting = false → ∃ t, exec .trefPulse s = .next t ∧
      Settled ({ s.set F.TIME_STATUS_ref_ok 1 with turn := 0, det.time.counting := true }.set F.TIME_STATUS_locked 1) t) ∧
    (master → on → s.det.time.counting = true → ∃ t, exec .trefPulse s = .next t ∧
      Settled ((s.set F.TIME_STATUS_ref_ok 1).set F.TIME_STATUS_locked 1) t) ∧
    (s.ready = true → s.host.d3hot = false → ¬ on → ∃ t, exec .timeEnable s = .next t ∧ t.turn = 0 ∧ t.get F.TIME_CTL_en = 1 ∧
      t.get F.TIME_STATUS_locked = 0 ∧ t.det.time.acquired = false ∧ t.det.time.counting = (s.get F.TIME_CTL_master == 0) ∧
      t = { s with regs := t.regs, host := t.host, out := t.out, turn := 0, det.time := t.det.time }) ∧
    (master → s.get F.TIME_STATUS_locked = 1 → ∃ t, exec .trefInLoss s = .next t ∧ t.get F.TIME_STATUS_ref_ok = 0 ∧
      Settled ((((s.set F.TIME_STATUS_ref_ok 0).set F.TIME_STATUS_locked 0).inc F.TIME_UNLOCK_COUNT_unlocks).pert 14) t) ∧
    (master → s.get F.TIME_STATUS_locked = 0 → ∃ t, exec .trefInLoss s = .next t ∧ Settled (s.set F.TIME_STATUS_ref_ok 0) t) ∧
    (¬ master → ∃ t, exec .trefInLoss s = .next t ∧ Settled s t)

/-- R342 to R345: arrivals, release, firing and reports of locks; `h` is 16 for a BARRIER, whatever the handle of the message. -/
def Obligations.LockMessages : Prop :=
  ∀ (s : State) (port : Fin 144) (h : Fin 16) (hh : Fin 17) (xf : Fin 4096) (count : BitVec 16) (seq id : BitVec 32) (tRel : BitVec 64) (who x tr : Nat)
    (c : Coll) (m : Member) (k : Kid) (l : LockUse),
    let g := s.groupOf c
    let lh := if c.cmd.op = 0x0B then 16 else h.val
    let member := g.members.find? (fun m => m.port == port.val)
    let child := g.kids.find? (fun k => k.tree == 0 && bit k.ports port)
    let arrive := Instr.lockArrive port h count seq id
    let release := Instr.lockRelease port h seq id tRel
    (s.collOf id.toNat = none → ∃ t, exec arrive s = .next t ∧ Settled (s.membership none id.toNat 0 count.toNat port 7 0xFFFF 32) t) ∧
    (s.collOf id.toNat = some (x, c) →
      (member = some m → m.fenced = true → ∃ t, exec arrive s = .next t ∧ Settled (s.spill 6 32) t) ∧
      (member = some m → m.fenced = false → lh ≠ 16 ∨ m.rank ≠ count.toNat → ∃ t, exec arrive s = .next t ∧
        Settled (s.membership (some x) id.toNat 0 count.toNat port 1 c.cmd.group 32) t) ∧
      (member = some m → m.fenced = false → lh = 16 → m.rank = count.toNat → ∃ t, exec arrive s = .next t ∧
        Settled (s.lockArrive x 16 seq.toNat m.rank 1 false) t) ∧
      (member = none → child = some k → k.fenced = true → ∃ t, exec arrive s = .next t ∧ Settled (s.spill 6 32) t) ∧
      (member = none → child = some k → k.fenced = false → count.toNat > k.covers → lh = 16 → ∃ t, exec arrive s = .next t ∧
        Settled (s.membership (some x) id.toNat 0 count.toNat port 6 c.cmd.group 32) t) ∧
      (member = none → child = some k → k.fenced = false → count.toNat ≤ k.covers ∨ lh ≠ 16 → ∃ t, exec arrive s = .next t ∧
        Settled (s.lockArrive x lh seq.toNat k.low count.toNat true) t) ∧
      (member = none → child = none → ∃ t, exec arrive s = .next t ∧
        Settled (s.membership (some x) id.toNat 0 count.toNat port 1 c.cmd.group 32) t)) ∧
    (s.collOf id.toNat = some (x, c) → s.lockAt x lh = some l → bit g.par0 port = true → l.seq = seq.toNat → l.tRel = none →
      let u := (s.armLock x lh c.cmd.group l tRel.toNat).releaseDown lh c g l.seq tRel.toNat
      (s.turn ≤ tRel.toNat → ∃ t, exec release s = .next t ∧ Settled u t) ∧
      (s.turn > tRel.toNat → ∃ t, exec release s = .next t ∧ Settled (((u.inc F.CMP_LATE_COUNT_release).pert 13).lockFire x lh) t)) ∧
    (s.collOf id.toNat = some (x, c) → s.lockAt x lh = some l → bit g.par0 port = false ∨ l.seq ≠ seq.toNat ∨ l.tRel.isSome = true →
      ∃ t, exec release s = .next t ∧ Settled s t) ∧
    (s.lockAt xf hh = some l → l.tRel = some tr →
      (tr ≤ s.turn → ∃ t, exec (.lockReleaseFire xf hh) s = .next t ∧ Settled (s.lockFire xf hh) t) ∧
      (s.turn < tr → ∃ t, exec (.lockReleaseFire xf hh) s = .next t ∧ Settled s t)) ∧
    (s.coll xf = some c → s.lockAt xf hh = some l →
      let owed := (who ∈ s.lockLocals xf hh g ∧ who ∉ l.locals) ∨ ((∃ k ∈ lockKids g, k.low = who) ∧ ∀ q ∈ l.kids, q.1 ≠ who)
      (l.passed = false → who ∉ l.reported → owed → ∃ t, exec (.lockParticipantTimeout xf hh who) s = .next t ∧
        Settled (((s.putLock xf hh { l with reported := l.reported ++ [who] }).faultReport 0x0C c.cmd.group 0 who).pert 15) t) ∧
      (l.passed = true ∨ who ∈ l.reported ∨ ¬ owed → ∃ t, exec (.lockParticipantTimeout xf hh who) s = .next t ∧ Settled s t))

/-- R357 to R369, R391 to R401: the way of a packet through the switch core. -/
def Obligations.PacketsThroughTheSwitch : Prop :=
  ∀ (s : State) (src out : Fin 161) (h : BitVec 256) (data : List Byte) (bf : Option BasinFault) (die : Fin 2) (pool : Fin 3) (w : Wait)
    (t0 t1 : State) (to_ : List (Nat × List Byte)) (c : Nat) (q : Nat × Desc),
    let k : Packet := ⟨h.toNat, data⟩
    let take := Instr.packetHeaderTake src h data bf
    let there := src.val ≥ 144 ∨ (s.link src).ready.find? (fun q => q.cls == k.cls) = some k
    let u := if src.val < 144 then (s.inc (F.PC_IN_PKT_count src k.cls)).inc (F.PC_IN_BYTE_count src k.cls) k.size else s
    (s.get F.SW_CTL_en = 0 ∨ s.blocked src k.cls = true ∨ s.stuck (enterOf src) = true ∨ ¬ there → ∃ t, exec take s = .next t ∧ Settled s t) ∧
    (s.get F.SW_CTL_en ≠ 0 → s.blocked src k.cls = false → s.stuck (enterOf src) = false → there →
      (k.wellFormed = false → ∃ t, exec take s = .next t ∧ Settled (((u.spill 5 data.length).disposed k src (32 + data.length)).leaveSource src k.cls) t) ∧
      (k.wellFormed = true →
        let e := u.edge src k
        let written := e.2.sw.writing.any (fun w => w.bank == e.1.epoch)
        (written = true → ∃ t, exec take s = .next t ∧ Settled { e.2.inc F.BP_COUNT_blocks with
          sw.waiting := e.2.sw.waiting ++ [⟨src, e.1, [], false, true⟩] } t) ∧
        (written = false → e.2.destinations src e.1 = .error t0 → ∃ t, exec take s = .next t ∧
          Settled ((t0.disposed e.1 src e.1.size).leaveSource src e.1.cls) t) ∧
        (written = false → e.2.destinations src e.1 = .ok (to_, t0) → ∃ t, exec take s = .next t ∧
          Settled (t0.letIn ⟨src, e.1, to_, false, false⟩ bf) t))) ∧
    (let first := (s.waiters die).find? (fun w => (!s.ingress w.p || w.p.report || s.flowFree w.p die) &&
       (s.choosePool die w.src w.p.cls w.p.size).isSome)
     (s.get F.SW_CTL_en = 0 ∨ first = none → ∃ t, exec (.bufferGrant die bf) s = .next t ∧ Settled s t) ∧
     (s.get F.SW_CTL_en ≠ 0 → first = some w → s.grantTo w bf = some t0 → ∃ t, exec (.bufferGrant die bf) s = .next t ∧
       Settled { t0 with sw.waiting := t0.sw.waiting.erase w, sw.granted := t0.sw.granted.wr die w.src } t) ∧
     (s.get F.SW_CTL_en ≠ 0 → first = some w → s.grantTo w bf = none → s.choosePool die w.src w.p.cls w.p.size = some c →
       ∃ t, exec (.bufferGrant die bf) s = .next t ∧ Settled (s.allocFault die c bf) t)) ∧
    (out.val < 144 →
      let v := (s.furrowsTo out).foldl State.noteHolds s
      (s.portFree out = false → ∃ t, exec (.packetStart out bf) s = .next t ∧ Settled s t) ∧
      (s.portFree out = true → (∀ c ∈ v.classOrder out, v.choose out c = none) → ∃ t, exec (.packetStart out bf) s = .next t ∧ Settled v t) ∧
      (s.portFree out = true → findMap? (fun c => (v.choose out c).map (fun r => (c, r))) (v.classOrder out) = some (c, q, t1) →
        let u := (t1.inc (F.PC_OUT_PKT_count out c)).inc (F.PC_OUT_BYTE_count out c) q.2.p.size
        let u := if q.2.demoted then u.inc (F.PC_DEMOTE_count out c) else u
        let u := if u.get F.HG_CTL_en = 1 then u.shaperTake out c q.2.p.size else u
        ∃ t, exec (.packetStart out bf) s = .next t ∧
          Settled ((u.depart q.1 out q.2 (u.lastFurrow out q.2.p) bf).sendPacket out q.2.p) t)) ∧
    (out.val ≥ 144 →
      let dest := if out.val = 160 then 0xFF else 0xE0 + (out.val - 144)
      let v := (s.furrowsTo dest).foldl State.noteHolds s
      let pick := findMap? (fun c => v.roundRobin out c (v.heads dest c)) [0, 1, 3, 2]
      (pick = none → ∃ t, exec (.packetStart out bf) s = .next t ∧ Settled v t) ∧
      (pick = some (q, t1) → ∃ t, exec (.packetStart out bf) s = .next t ∧
        Settled ((t1.depart q.1 dest q.2 true bf).arrive dest q.2.p) t)) ∧
    (s.rebuilding die pool = true → ∃ t, exec (.freelistRebuildDone die pool) s = .next t ∧ Settled (s.rebuild die pool) t) ∧
    (s.rebuilding die pool = false → ∃ t, exec (.freelistRebuildDone die pool) s = .next t ∧ Settled s t)

/-- R384, R392 to R409: the commands of the gauge ring, the headgates, delivery reports and telemetry. -/
def Obligations.HeadgateCommands : Prop :=
  ∀ (s : State) (v18 : BitVec 18) (port : Fin 144) (cls : Fin 4) (src : Fin 161) (m : Fin 2) (sa dst24 : BitVec 24) (mc tree : Bool)
    (id n coll : BitVec 32) (md : BitVec 16) (which : Fin 6) (v : BitVec 64) (d : Desc) (rest : List Desc) (a : Acc),
    let asked := s.ready = true ∧ s.host.d3hot = false
    (asked →
      let n := (v18.toNat + 262144 - s.get F.GR_TAIL_tail) % 262144
      (n ≤ s.sw.grHeld → ∃ t, exec (.grTailWrite v18) s = .next t ∧
        Settled ({ s with sw.grHeld := s.sw.grHeld - n }.set F.GR_TAIL_tail (s.get F.GR_TAIL_tail + n)) t ∧ t.get F.GR_TAIL_tail = v18.toNat) ∧
      (s.sw.grHeld < n → ∃ t, exec (.grTailWrite v18) s = .next t ∧ Settled s t)) ∧
    (s.slot port = 0 → ∃ t, exec (.calBankSwitch port) s = .next t ∧
      Settled (s.set (F.HG_PSTATUS_active port) (s.get (F.HG_PORT_cal_bank port))) t) ∧
    (s.slot port ≠ 0 → ∃ t, exec (.calBankSwitch port) s = .next t ∧ Settled s t) ∧
    (s.furrow (furrowKey src port cls) = d :: rest →
      (s.get F.HG_CTL_en ≠ 0 → d.p.red = true → d.promo = false → d.headAt + s.get F.HG_STARVE_turns ≤ s.beat →
        ∃ t, exec (.starvePromote port cls src) s = .next t ∧ Settled ((s.putFurrow (furrowKey src port cls)
          ({ d with promo := true } :: rest)).inc F.STARVE_COUNT_promoted) t) ∧
      (s.get F.HG_CTL_en = 0 ∨ d.p.red = false ∨ d.promo = true ∨ s.beat < d.headAt + s.get F.HG_STARVE_turns →
        ∃ t, exec (.starvePromote port cls src) s = .next t ∧ Settled s t)) ∧
    (let i := 8 * port.val + 4 * m.val
     let last := s.sw.marks.rd (i + 2)
     (s.sw.marks.rd i = 0 ∨ (last ≠ 0 ∧ s.beat + 1 < last + s.get F.MARK_GAP_turns) → ∃ t, exec (.meterMark port m) s = .next t ∧ Settled s t) ∧
     (s.sw.marks.rd i ≠ 0 → last = 0 ∨ last + s.get F.MARK_GAP_turns ≤ s.beat + 1 → ∃ t, exec (.meterMark port m) s = .next t ∧
       Settled { s.send (catBits s.me port 8) clsM 32 [(0, 8, 0x51), (8, 2, m.val + 2), (16, 16, s.me), (32, 32, s.sw.marks.rd i),
         (64, 64, s.sw.marks.rd (i + 1)), (128, 64, s.turn)] with
         sw.marks := ((s.sw.marks.wr i 0).wr (i + 1) 0).wr (i + 2) (s.beat + 1) } t)) ∧
    (let key := (flowPacket sa.toNat cls mc tree id.toNat id.toNat).flow
     s.sw.accs.find key = some a →
      (256 * s.get F.DLV_CTL_bytes ≤ a.owed ∨ (a.owed > 0 ∧ a.since + s.get F.DLV_CTL_turns ≤ s.beat) →
        ∃ t, exec (.dlvReportSend sa cls mc tree id) s = .next t ∧ Settled (s.sendReport key a) t) ∧
      (a.owed < 256 * s.get F.DLV_CTL_bytes → a.owed = 0 ∨ s.beat < a.since + s.get F.DLV_CTL_turns →
        ∃ t, exec (.dlvReportSend sa cls mc tree id) s = .next t ∧ Settled s t)) ∧
    (let key := (flowPacket sa.toNat cls mc tree dst24.toNat coll.toNat).flow
     let i := Instr.dlvReport md sa cls mc tree dst24 coll n
     let u := s.inc F.DLV_COUNT_received
     (mc = false ∨ s.sw.accs.find key = none →
       ((s.sw.flows.find key).isSome = true → ∃ t, exec i s = .next t ∧ Settled (u.flowReport key n.toNat) t) ∧
       (s.sw.flows.find key = none → ∃ t, exec i s = .next t ∧ Settled (s.inc F.DLV_BAD_COUNT_bad) t)) ∧
     (mc = true → s.sw.accs.find key = some a →
       ((∀ e ∈ a.prog, e.1 < 144 → (s.link e.1).peer ≠ md.toNat) → ∃ t, exec i s = .next t ∧ Settled (s.inc F.DLV_BAD_COUNT_bad) t) ∧
       ((∃ e ∈ a.prog, e.1 < 144 ∧ (s.link e.1).peer = md.toNat) → ∃ t, exec i s = .next t ∧ Settled (u.putAcc key { a with
         prog := a.prog.map (fun e => if e.1 < 144 ∧ (s.link e.1).peer = md.toNat then (e.1, e.2 + n.toNat) else e)
         since := if a.owed = 0 then s.beat else a.since }) t))) ∧
    (s.turn % 2 ^ s.get F.HG_SAMPLE_shift ≠ 0 → ∃ t, exec .telemetrySample s = .next t ∧ Settled s t) ∧
    (s.turn % 2 ^ s.get F.HG_SAMPLE_shift = 0 →
      let queue := s.sw.furrows.filter (fun e => e.1 / 4 % 256 == port.val && e.1 % 4 == cls.val)
      let depth := ((queue.flatMap (·.2)).map (fun d => d.p.size)).sum
      let ages := (queue.filterMap (fun e => e.2.head?)).map (fun d => s.beat - d.entered)
      let once := fun (f : Fld) => (s.get f + 1) % 2 ^ f.w
      ∃ t : State, exec .telemetrySample s = .next t ∧ t = { s with regs := t.regs, host := t.host, out := t.out } ∧
        t.get (F.HIST_DEPTH_count port cls (depthBin depth)) = once (F.HIST_DEPTH_count port cls (depthBin depth)) ∧
        t.get (F.HIST_DELAY_count port cls (delayBin ages.isEmpty (ages.foldl max 0))) =
          once (F.HIST_DELAY_count port cls (delayBin ages.isEmpty (ages.foldl max 0)))) ∧
    (asked →
      let mm := (which.val - 2) / 2
      (which = 0 → ∃ t, exec (.shaperMeterWrite port which v) s = .next t ∧
        Settled ((s.setWord (R.SHP_D port) (BitVec.ofNat 64 (v.toNat % 2 ^ 40))).setDeficit port 0 0) t) ∧
      (which = 1 → ∃ t, exec (.shaperMeterWrite port which v) s = .next t ∧
        Settled ((s.setWord (R.SHP_M port) (BitVec.ofNat 64 (v.toNat % 2 ^ 40))).setDeficit port 1 0) t) ∧
      (which = 2 ∨ which = 4 → bits v.toNat 32 2 ≠ 3 → ∃ t, exec (.shaperMeterWrite port which v) s = .next t ∧
        Settled ((s.setWord (R.MTR_RATE port mm) (BitVec.ofNat 64 (v.toNat % 2 ^ 34))).fillMeter port mm) t) ∧
      (which = 2 ∨ which = 4 → bits v.toNat 32 2 = 3 → ∃ t, exec (.shaperMeterWrite port which v) s = .next t ∧
        t.get (F.MTR_RATE_mode port mm) = s.get (F.MTR_RATE_mode port mm) ∧ t.get F.HG_REJ_ADDR_addr = R.MTR_RATE port mm ∧
        t = { s with regs := t.regs, host := t.host, out := t.out, sw.bkt := t.sw.bkt }) ∧
      (which = 3 ∨ which = 5 → ∃ t, exec (.shaperMeterWrite port which v) s = .next t ∧
        Settled ((s.setWord (R.MTR_BKT port mm) (BitVec.ofNat 64 (v.toNat % 2 ^ 48))).fillMeter port mm) t))

/-- R416 to R428, R439 to R441: what each kind of flit does on arrival, and what a released control flit does. The outcome codes of TRAIN are log entry 30. -/
def Obligations.FlitsReceived : Prop :=
  ∀ (s : State) (port : Fin 144) (f : FlitIn) (plain : List Byte),
    let p := port.val
    let g := flitOf f
    let l := s.link p
    let r := s.rxFlit p g f.fec
    let n := s.fecNote p f.fec
    let sound := g.ok = true ∧ f.fec.val ≠ 2
    let onTime := (l.discard = true → g.seq = l.rxNext) ∧ (l.discard = false → g.seq = l.rxExp)
    let at_ := fun (o n : Nat) => leNat ((plain.drop o).take n)
    let rows := [(Instr.dataFlit port f, 1), (Instr.idleFlit port f, 0), (Instr.retry port f, 2), (Instr.init port f, 2), (Instr.keyx port f, 2),
      (Instr.train port f, 2), (Instr.seal port f, 2)]
    (∀ q ∈ rows, s.listens p = false ∨ (sound ∧ g.type ≠ q.2) → ∃ t, exec q.1 s = .next t ∧ Settled s t) ∧
    (∀ q ∈ rows, s.listens p = true → ¬ (sound ∧ g.type ≠ q.2) → l.rxBlock.length ≠ 47 → ¬ sound ∨ g.type = 0 ∨ ¬ onTime →
      r.1 = none ∧ ∃ t, exec q.1 s = .next t ∧ Settled r.2 t) ∧
    (∀ q ∈ rows, s.listens p = true → l.rxBlock.length = 47 → (¬ sound ∨ (q.1 ≠ .seal port f ∧ g.type = q.2)) →
      ∃ t, exec q.1 s = .next t ∧ Settled ((if f.fec.val ≠ 2 ∧ g.ok = false then n.inc (F.PT_ERR_COUNT_crc p) else n).sealFail p) t) ∧
    (sound → g.type ≠ 0 → onTime → r.1 = some (if l.crypt ∧ l.rxBlock.length < 47 then
      cryptBody (s.linkKey p false l.rxEpoch) l.rxEpoch l.rxCtr l.rxBlock.length g.body else g.body)) ∧
    (s.listens p = true → l.rxBlock.length ≠ 47 → sound → onTime → r.1 = some plain →
      (∀ q ∈ rows, q.1 ≠ .retry port f → g.type = q.2 → g.type ≠ 0 → ∃ t : State, exec q.1 s = .next t ∧ Settled r.2 t ∧
        (t.link p).rxExp = (g.seq + 1) % 4096 ∧ (t.link p).rxBlock = l.rxBlock ++ [⟨g, plain, true⟩] ∧ (t.link p).discard = false) ∧
      (g.type = 2 → (plain.headD 0).toNat ≠ 2 → ∃ t, exec (.retry port f) s = .next t ∧ Settled r.2 t) ∧
      (g.type = 2 → (plain.headD 0).toNat = 2 → ∃ t, exec (.retry port f) s = .next t ∧ Settled (r.2.resendFrom p (at_ 2 2 % 4096)) t)) ∧
    (s.listens p = true → l.rxBlock.length = 47 → sound → g.type = 2 →
      (l.discard = true → g.seq ≠ l.rxNext → ∃ t, exec (.seal port f) s = .next t ∧ Settled (n.putLink p l.nextBlock) t) ∧
      (l.discard = false ∨ g.seq = l.rxNext → n.sealOk p g.body = false → ∃ t, exec (.seal port f) s = .next t ∧ Settled (n.sealFail p) t) ∧
      (l.discard = false ∨ g.seq = l.rxNext → n.sealOk p g.body = true → ∃ t, exec (.seal port f) s = .next t ∧
        Settled (((l.rxBlock.filter (fun x => x.took && x.f.type == 2)).map (·.plain)).foldl (fun u b => u.ctlRelease p b) (n.sealPass p g)) t)) ∧
    ((plain.headD 0).toNat ∉ [3, 4, 5] → s.ctlRelease p plain = s) ∧
    ((plain.headD 0).toNat = 3 → s.ctlRelease p plain =
      s.takeInit p (at_ 2 2 % 4096) (at_ 4 1) ((List.range 4).map (fun c => at_ (8 + 4 * c) 4)) (at_ 24 4 % 65536)) ∧
    ((plain.headD 0).toNat = 4 → s.ctlRelease p plain = s.kxFragment p (at_ 2 2) (at_ 4 2) (plain.drop 8)) ∧
    ((plain.headD 0).toNat = 5 →
      let b := fun (o : Nat) => (plain.getD o 0).toNat
      let lane := b 4 % 4
      let u := if b 3 = 0 then s else s.putLink p { s.link p with theirs := b 3 }
      (b 2 ≠ s.action p → s.ctlRelease p plain = s) ∧
      (b 2 = s.action p → b 2 ≠ 3 ∨ (¬ (b 5 = 1 ∧ u.get (F.PT_CTL_spare_ok p) = 1 ∧ (u.spareLane p).isSome = true) ∧
        ¬ (b 5 = 2 ∧ lane ∈ (u.link p).lanes)) → s.ctlRelease p plain = u.resolve p) ∧
      (b 2 = s.action p → b 2 = 3 → b 5 = 1 → u.get (F.PT_CTL_spare_ok p) = 1 → (u.spareLane p).isSome = true →
        s.ctlRelease p plain = ((u.substitute p lane).sendTrain p 0 lane 2).resolve p) ∧
      (b 2 = s.action p → b 2 = 3 → b 5 = 2 → lane ∈ (u.link p).lanes →
        let v := u.substitute p lane
        let ls := (v.link p).lanes.erase lane
        let v := v.putLink p { v.link p with lanes := ls }
        s.ctlRelease p plain = (if ls.isEmpty then v.outcome p outAlt else v).resolve p))

/-- R438 to R441: the commands that move a port through its training table. -/
def Obligations.TrainingTable : Prop :=
  ∀ (s : State) (port : Fin 144) (ok : Bool) (bad : BitVec 4),
    let p := port.val
    let asked := s.ready = true ∧ s.host.d3hot = false
    let result := s.outcome p (if ok then outOk else outFail)
    let waited := fun (n : Nat) => (s.link p).entryAt + n ≤ s.beat
    (asked → s.get (F.PT_CTL_en p) = 1 → ∃ t, exec (.portEnable port) s = .next t ∧ Settled s t) ∧
    (asked → s.get (F.PT_CTL_en p) = 0 →
      let u := s.set (F.PT_CTL_en p) 1
      (s.get F.PT_GCTL_en = 0 ∨ s.portMode p > 4 → ∃ t, exec (.portEnable port) s = .next t ∧ Settled u t) ∧
      (s.get F.PT_GCTL_en = 1 → s.portMode p ≤ 4 → ∃ t, exec (.portEnable port) s = .next t ∧
        Settled (u.enterEntry p (if s.portMode p ≤ 1 then s.get F.PT_GCTL_start_g else s.get F.PT_GCTL_start_e)) t)) ∧
    (∀ q ∈ [(Instr.detect port ok, 1), (Instr.eq port ok, 2), (Instr.align port ok, 4), (Instr.ethTrain port ok, 10), (Instr.ethLock port ok, 11)],
      (s.acting p q.2 = true → ∃ t, exec q.1 s = .next t ∧ Settled result t) ∧
      (s.acting p q.2 = false → ∃ t, exec q.1 s = .next t ∧ Settled s t)) ∧
    (let lanes := bitList bad.toNat 4
     let free := (List.range 2).filter (fun k => s.get (F.SPARE_port (p / 18) k) == p && s.get (F.SPARE_in_use (p / 18) k) == 0)
     let ask := Instr.lanetest port bad
     (s.acting p 3 = false → ∃ t, exec ask s = .next t ∧ Settled s t) ∧
     (s.acting p 3 = true → bad = 0 → ∃ t, exec ask s = .next t ∧ Settled (s.outcome p outOk) t) ∧
     (s.acting p 3 = true → bad ≠ 0 → s.isG p = false ∨ s.get (F.PT_CTL_spare_ok p) = 0 ∨ free.length < lanes.length →
       ∃ t, exec ask s = .next t ∧ Settled (s.outcome p outFail) t) ∧
     (s.acting p 3 = true → bad ≠ 0 → s.isG p = true → s.get (F.PT_CTL_spare_ok p) = 1 → lanes.length ≤ free.length →
       ∃ t, exec ask s = .next t ∧
         Settled (lanes.foldl (fun u i => u.sendTrain p 0 i 1) (s.putLink p { s.link p with lanes := lanes })) t)) ∧
    (s.acting p 6 = true → ∃ t, exec (.keychk port ok) s = .next t ∧
      Settled (s.outcome p (if ok = true ∧ s.linkSecret p ≠ [] then outOk else outAlt)) t) ∧
    (s.acting p 6 = false → ∃ t, exec (.keychk port ok) s = .next t ∧ Settled s t) ∧
    (s.acting p 9 = true → waited (1000000 * bits (s.entry p) 40 16) → ∃ t, exec (.hold port) s = .next t ∧ Settled (s.outcome p outOk) t) ∧
    (s.acting p 9 = false ∨ ¬ waited (1000000 * bits (s.entry p) 40 16) → ∃ t, exec (.hold port) s = .next t ∧ Settled s t) ∧
    (let on := s.get (F.PT_CTL_en p) = 1 ∧ s.get F.PT_GCTL_en = 1 ∧ s.action p ≠ 0
     let limit := bits (s.entry p) 20 20
     (on → limit ≠ 0 → waited (1000 * limit) → ∃ t, exec (.trainTimeout port) s = .next t ∧ Settled (s.enterEntry p (bits (s.entry p) 14 5)) t) ∧
     (¬ on ∨ limit = 0 ∨ ¬ waited (1000 * limit) → ∃ t, exec (.trainTimeout port) s = .next t ∧ Settled s t)) ∧
    (let recent := fun (ts : List Nat) => (ts.filter (fun t => decide (s.beat < t + 1000000))).length
     let fails := ok = true ∨ recent (s.link p).fecAt > bits (s.entry p) 40 16 ∨ recent (s.link p).tagAt > 16
     (s.up p = true → fails → ∃ t, exec (.activeFail port ok) s = .next t ∧ Settled (s.enterEntry p (bits (s.entry p) 14 5)) t) ∧
     (s.up p = false ∨ ¬ fails → ∃ t, exec (.activeFail port ok) s = .next t ∧ Settled s t))

/-- R421, R425, R430 to R434: the sender's timers and the datagrams of an Ethernet port. The layout of an init datagram is the model's choice (log entry
24). -/
def Obligations.DatagramsAndPauses : Prop :=
  ∀ (s : State) (port : Fin 144) (seq ack : BitVec 32) (h : BitVec 256) (data frag : List Byte) (bad again : Bool) (i n peer : BitVec 16)
    (mode enable : BitVec 8) (quanta : List (BitVec 16)) (cls : Fin 4),
    let p := port.val
    let l := s.link p
    let late := fun (n : Nat) => l.ackAt + n ≤ s.beat
    (s.isG p = true → l.replay ≠ [] → late (s.get (F.PT_RTO_ns p)) → ∃ t, exec (.replayTimeout port) s = .next t ∧ Settled (s.resend p) t) ∧
    (s.isG p = false ∨ l.replay = [] ∨ ¬ late (s.get (F.PT_RTO_ns p)) → ∃ t, exec (.replayTimeout port) s = .next t ∧ Settled s t) ∧
    (s.isG p = true → l.crypt = true → ∃ t, exec (.rekey port) s = .next t ∧ Settled (s.putLink p { l with rekey := true }) t) ∧
    (s.isG p = false ∨ l.crypt = false → ∃ t, exec (.rekey port) s = .next t ∧ Settled s t) ∧
    (s.isE p = true → l.replay ≠ [] → late (1000 * s.get (F.GOE_CTL_rto p)) →
      ∃ t, exec (.goeReplayTimeout port) s = .next t ∧ Settled (s.goeResend p) t) ∧
    (s.isE p = false ∨ l.replay = [] ∨ ¬ late (1000 * s.get (F.GOE_CTL_rto p)) →
      ∃ t, exec (.goeReplayTimeout port) s = .next t ∧ Settled s t) ∧
    (s.hears p = false → ∀ q ∈ [Instr.goeData port seq ack h data bad, .goeAck port ack again bad, .goeKeyExchange port i n frag,
        .goeInit port seq ack mode peer, .pfcFrame port enable quanta, .frameNotAccepted port], ∃ t, exec q s = .next t ∧ Settled s t) ∧
    (s.hears p = true →
      let room := l.inUse + 32 + data.length ≤ 262144
      (bad = true → ∃ t, exec (.goeData port seq ack h data bad) s = .next t ∧ Settled (s.goeBad p true) t) ∧
      (bad = false → seq.toNat ≠ l.rxNext → ∃ t, exec (.goeData port seq ack h data bad) s = .next t ∧ Settled (s.goeBad p false) t) ∧
      (bad = false → seq.toNat = l.rxNext → ¬ room → ∃ t, exec (.goeData port seq ack h data bad) s = .next t ∧ Settled (s.inc (F.GOE_COUNT_bad p)) t) ∧
      (bad = false → seq.toNat = l.rxNext → room → ∃ t, exec (.goeData port seq ack h data bad) s = .next t ∧
        Settled (((s.putLink p { l.goeAckTo s.beat ack.toNat with rxNext := (l.rxNext + 1) % 2 ^ 32, ready := l.ready ++ [⟨h.toNat, data⟩] }).flowControl p).goeAck p false) t) ∧
      (bad = true → ∃ t, exec (.goeAck port ack again bad) s = .next t ∧ Settled (s.goeBad p true) t) ∧
      (bad = false →
        let u := s.putLink p (l.goeAckTo s.beat ack.toNat)
        ∃ t, exec (.goeAck port ack again bad) s = .next t ∧ Settled (if again then u.goeResend p else u) t) ∧
      (∃ t, exec (.goeKeyExchange port i n frag) s = .next t ∧ Settled (s.kxFragment p i.toNat n.toNat frag) t) ∧
      (seq.toNat ≠ l.rxNext → ∃ t, exec (.goeInit port seq ack mode peer) s = .next t ∧ Settled (s.goeBad p false) t) ∧
      (seq.toNat = l.rxNext → ∃ t, exec (.goeInit port seq ack mode peer) s = .next t ∧
        Settled (((s.putLink p { l.goeAckTo s.beat ack.toNat with rxNext := (l.rxNext + 1) % 2 ^ 32 }).goeAck p false).takeInit p 0 mode.toNat [] peer.toNat) t) ∧
      (let rate := modeRate (s.portMode p)
       let pause := fun (c : Nat) => (quanta.getD (s.pcp p c) 0).toNat
       ∃ t : State, exec (.pfcFrame port enable quanta) s = .next t ∧
         t = { s with regs := t.regs, host := t.host, out := t.out, links := t.links, det.audit.perts := t.det.audit.perts } ∧
         t.get (F.PT_PFC_COUNT_received p) = (s.get (F.PT_PFC_COUNT_received p) + 1) % 2 ^ (F.PT_PFC_COUNT_received p).w ∧
         (t.link p).paused.rd cls = (if bit enable.toNat (s.pcp p cls) = false then l.paused.rd cls
           else if pause cls = 0 then 0 else s.beat + (pause cls * 512 + rate - 1) / rate) ∧
         (∀ q, q ≠ p → t.link q = s.link q)) ∧
      (∃ t, exec (.frameNotAccepted port) s = .next t ∧ Settled (s.inc (F.GOE_COUNT_other p)) t)) ∧
    (l.paused.rd cls ≠ 0 → l.paused.rd cls ≤ s.beat → ∃ t, exec (.pfcPauseExpire port cls) s = .next t ∧
      Settled (s.putLink p { l with paused := l.paused.wr cls 0 }) t) ∧
    (l.paused.rd cls = 0 ∨ s.beat < l.paused.rd cls → ∃ t, exec (.pfcPauseExpire port cls) s = .next t ∧ Settled s t)

/-- R250 to R255, R286, R437, R556: what reaches a queue and what moves its accepted head. -/
def Obligations.Queues : Prop :=
  ∀ (s : State) (q : Fin 64) (w : BitVec 64) (port : Fin 144) (qn : BitVec 8) (tag : BitVec 16) (cmd : BitVec 512) (ev : Fin 4096)
    (n : BitVec 32) (off : BitVec 64) (data : List Byte) (c : Coll) (cmp : Nat),
    let asked := s.ready = true ∧ s.host.d3hot = false
    let x := s.queue q
    let own := s.get (F.Q_CTL_owner q) = 0
    let open_ := fun (q : Nat) => s.get (F.Q_CTL_en q) = 1 ∧ (s.queue q).cmds.length < 256
    (asked → own → open_ q → ∃ t, exec (.hostCmdSubmit q w) s = .next t ∧
      Settled (s.putQueue q { x with cmds := x.cmds ++ [s.latched q w] }) t ∧ (t.queue q).cmds = x.cmds ++ [s.latched q w]) ∧
    (asked → ¬ own ∨ ¬ open_ q → ∃ t, exec (.hostCmdSubmit q w) s = .next t ∧ Settled (s.inc (F.Q_FULL_COUNT_refused q)) t ∧
      t.queue q = x) ∧
    (s.stuck [ingressOf port] = true → ∃ t, exec (.cmdSubmit port qn tag cmd) s = .next t ∧
      Settled { s with xing.held := s.xing.held ++ [([ingressOf port], .cmdSubmit port qn tag cmd)] } t) ∧
    (s.stuck [ingressOf port] = false → s.ownsQueue port = false → ∃ t, exec (.cmdSubmit port qn tag cmd) s = .next t ∧
      Settled ((s.spill 9 72).inc F.CMD_FOREIGN_COUNT_foreign) t) ∧
    (s.stuck [ingressOf port] = false → s.ownsQueue port = true →
      let j := qn.toNat
      let mine := s.get (F.Q_CTL_owner j) = 1 ∧ s.get (F.Q_CTL_port j) = port.val
      let answer := fun (status : Nat) => Out.msg (catBits s.me port 8) clsM (leBytes (packBits [(0, 8, 0x61), (8, 8, j), (16, 16, tag.toNat), (32, 8, status)]) 8)
      (j < 64 → mine → open_ j → ∃ t, exec (.cmdSubmit port qn tag cmd) s = .next t ∧
        Settled ((s.putQueue j { s.queue j with cmds := (s.queue j).cmds ++ [⟨cmd.toNat⟩] }).emit (answer 0)) t) ∧
      (j < 64 → mine → ¬ open_ j → ∃ t, exec (.cmdSubmit port qn tag cmd) s = .next t ∧
        Settled ((s.inc (F.Q_FULL_COUNT_refused j)).emit (answer 1)) t) ∧
      (j < 64 → ¬ mine → ∃ t, exec (.cmdSubmit port qn tag cmd) s = .next t ∧
        Settled ((s.inc (F.Q_FULL_COUNT_refused j)).emit (answer 2)) t) ∧
      (64 ≤ j → ∃ t, exec (.cmdSubmit port qn tag cmd) s = .next t ∧ Settled (s.emit (answer 2)) t)) ∧
    (x.held = true → ∃ t, exec (.cmdResourcesGranted q) s = .next t ∧ Settled (s.advance q) t) ∧
    (x.held = false → ∃ t, exec (.cmdResourcesGranted q) s = .next t ∧ Settled s t) ∧
    (x.ctx.bind s.coll = some c → c.cmp = some cmp →
      (c.cmd.launchTurn ≤ s.turn → ∃ t, exec (.turnLaunch q) s = .next t ∧
        Settled (((s.freeCmp cmp).putColl (x.ctx.getD 0) { c with cmp := none }).advance q) t) ∧
      (s.turn < c.cmd.launchTurn → ∃ t, exec (.turnLaunch q) s = .next t ∧ Settled s t)) ∧
    (x.ctx.bind s.coll = none → x.wait = some c → c.cmp = some cmp → c.cmd.launchTurn ≤ s.turn → ∃ t, exec (.turnLaunch q) s = .next t ∧
      Settled (((s.freeCmp cmp).putQueue q { x with wait := some { c with cmp := none } }).advance q) t) ∧
    (asked → ∃ t : State, exec (.evtWrite ev w) s = .next t ∧ Settled (s.set (evt ev) w.toNat) t ∧ t.get (evt ev) = w.toNat) ∧
    (asked → ∃ t : State, exec (.qRestart q true) s = .next t ∧ Settled (s.set (F.Q_STATUS_stopped q) 0) t ∧ t.get (F.Q_STATUS_stopped q) = 0) ∧
    (asked → ∃ t, exec (.qRestart q false) s = .next t ∧ Settled s t) ∧
    (let put := Instr.dataPut port tag n off data
     let k := n.toNat
     let whole := k % 8 = 0 ∧ 8 ≤ k ∧ k ≤ 16320 ∧ data.length = k
     (s.ownsQueue port = false → ∃ t, exec put s = .next t ∧ Settled ((s.spill 9 (16 + data.length)).inc F.CMD_FOREIGN_COUNT_foreign) t) ∧
     (s.ownsQueue port = true →
       (¬ whole → ∃ t, exec put s = .next t ∧ Settled ((s.putBad port).dataReply port tag.toNat 2) t) ∧
       (whole → off.toNat + k > 4194304 → ∃ t, exec put s = .next t ∧ Settled ((s.putBad port).dataReply port tag.toNat 1) t) ∧
       (whole → off.toNat + k ≤ 4194304 → s.stageLocked off.toNat k = true → ∃ t, exec put s = .next t ∧
         Settled { s with host.held := s.host.held ++ [(port.val, tag.toNat, off.toNat, data)] } t) ∧
       (whole → off.toNat + k ≤ 4194304 → s.stageLocked off.toNat k = false → ∃ t, exec put s = .next t ∧
         Settled ((s.stageWrite off.toNat data true).dataReply port tag.toNat 0) t ∧ t.host.staging.rd off.toNat k = data)))

/-- R252, R253, R255: the checks of the head command, for every command row, the engines being those of the row. -/
def Obligations.CommandChecks : Prop :=
  ∀ (s v w : State) (q : Fin 64) (engs : List (Fin 128)) (c : Cmd) (r : Nat) (b : List Byte),
    let u := { s with cp.rr := s.cp.rr.wr (s.get (F.Q_CTL_prio q)) ((q.val + 1) % 64) }
    let rejected := fun (v : State) (reason : Nat) =>
      let v := (v.popHead q).complete q c 3 reason 0 CplInfo.none_
      let v := ((v.inc F.CMD_REJECT_COUNT_rejected).intEvent 11).set (F.Q_STATUS_last_reason q) reason
      if v.get (F.Q_CTL_stop_on_rej q) = 1 then v.set (F.Q_STATUS_stopped q) 1 else v
    ∀ e ∈ [(Instr.allreduce q engs, 0x01, engs), (Instr.reduceScatter q engs, 0x02, engs), (Instr.reduce q engs, 0x03, engs),
        (Instr.allgather q engs, 0x04, engs), (Instr.broadcast q engs, 0x05, engs), (Instr.alltoall q engs, 0x06, engs),
        (Instr.dispatch q engs, 0x07, engs), (Instr.idxGather q engs, 0x08, engs), (Instr.poolGather q engs, 0x09, engs),
        (Instr.scatterAdd q engs, 0x0A, engs), (Instr.barrier q, 0x0B, []), (Instr.fusedUpdate q engs, 0x0C, engs), (Instr.run q engs, 0x0D, engs),
        (Instr.loadProgram q, 0x20, []), (Instr.unloadProgram q, 0x21, []), (Instr.loadFormats q, 0x22, []), (Instr.loadRules q, 0x23, []),
        (Instr.loadGroup q, 0x24, []), (Instr.unloadGroup q, 0x25, []), (Instr.eventAdd q, 0x26, []), (Instr.loadRoutes q, 0x30, []),
        (Instr.loadTableBind q, 0x31, []), (Instr.loadSeeds q, 0x32, []), (Instr.loadProfile q, 0x33, [])],
      ((s.queue q).cmds = [] → ∃ t, exec e.1 s = .next t ∧ Settled s t) ∧
      ((s.queue q).cmds.head? = some c →
        (c.op ≠ e.2.1 ∨ s.served ≠ some q.val ∨ (c.usesEngines = true ∧ e.2.2 = []) → ∃ t, exec e.1 s = .next t ∧ Settled s t) ∧
        (c.op = e.2.1 → s.served = some q.val → c.usesEngines = false ∨ e.2.2 ≠ [] →
          (u.firstCheck q c (e.2.2.map (·.val)) = some r → ∃ t, exec e.1 s = .next t ∧ Settled (rejected u r) t) ∧
          (u.firstCheck q c (e.2.2.map (·.val)) = none → c.isColl = true → u.lastCheck c = some r → ∃ t, exec e.1 s = .next t ∧ Settled (rejected u r) t) ∧
          (u.firstCheck q c [] = none → c.isColl = false →
            (u.object q c = .error (r, v) → ∃ t, exec e.1 s = .next t ∧ Settled (rejected v r) t) ∧
            (u.object q c = .ok (b, v) → v.lastCheck c = some r → ∃ t, exec e.1 s = .next t ∧ Settled (rejected v r) t) ∧
            (u.object q c = .ok (b, v) → v.lastCheck c = none → v.loadEffect c b = .error (r, w) →
              ∃ t, exec e.1 s = .next t ∧ Settled (rejected w r) t))))

/-- R252 to R254: acceptance of the commands that run as collectives. -/
def Obligations.CollectivesAccepted : Prop :=
  ∀ (s : State) (q : Fin 64) (engs : List (Fin 128)) (c : Cmd),
    let u := { s with cp.rr := s.cp.rr.wr (s.get (F.Q_CTL_prio q)) ((q.val + 1) % 64) }
    ∀ e ∈ [(Instr.allreduce q engs, 0x01, engs), (Instr.reduceScatter q engs, 0x02, engs), (Instr.reduce q engs, 0x03, engs),
        (Instr.allgather q engs, 0x04, engs), (Instr.broadcast q engs, 0x05, engs), (Instr.alltoall q engs, 0x06, engs),
        (Instr.dispatch q engs, 0x07, engs), (Instr.idxGather q engs, 0x08, engs), (Instr.poolGather q engs, 0x09, engs),
        (Instr.scatterAdd q engs, 0x0A, engs), (Instr.barrier q, 0x0B, []), (Instr.fusedUpdate q engs, 0x0C, engs), (Instr.run q engs, 0x0D, engs)],
      (s.queue q).cmds.head? = some c → c.op = e.2.1 → s.served = some q.val → c.usesEngines = false ∨ e.2.2 ≠ [] →
      u.firstCheck q c (e.2.2.map (·.val)) = none → u.lastCheck c = none →
      let r := u.reserveCmps c
      let k := { r.2.2.newColl q c (e.2.2.map (·.val)) with cmp := r.1, locks := r.2.1 }
      let v := (r.2.2.normOpen c k.step).noteAccept q c
      let v := if v.audHold then v.inc F.AUD_HOLD_COUNT_holds else v
      ∃ t, exec e.1 s = .next t ∧ Settled ((((v.putQueue q { v.queue q with wait := some k, obj := [] }).bindStreams (waitOwner q) k).copyPrograms k).advance q) t

/-- R252 to R257, R381: the loads, from the head of their queue to their completion record. -/
def Obligations.LoadsTakeEffect : Prop :=
  ∀ (s : State) (q : Fin 64) (c : Cmd) (b : List Byte) (v w z : State) (r : Nat) (k : Coll),
    (let u := { s with cp.rr := s.cp.rr.wr (s.get (F.Q_CTL_prio q)) ((q.val + 1) % 64) }
    ∀ e ∈ [(Instr.loadProgram q, 0x20), (Instr.unloadProgram q, 0x21), (Instr.loadFormats q, 0x22), (Instr.loadRules q, 0x23),
        (Instr.loadGroup q, 0x24), (Instr.unloadGroup q, 0x25), (Instr.eventAdd q, 0x26), (Instr.loadRoutes q, 0x30),
        (Instr.loadTableBind q, 0x31), (Instr.loadSeeds q, 0x32), (Instr.loadProfile q, 0x33)],
      (s.queue q).cmds.head? = some c → c.op = e.2 → s.served = some q.val → u.firstCheck q c [] = none →
      u.object q c = .ok (b, v) → v.lastCheck c = none → v.loadEffect c b = .ok w → v.queue q = s.queue q →
      c.launch = false →
      let n := v.noteAccept q c
      let n := if opLoads c.op then { n with host.locks := n.host.locks ++ [(c.elements, c.chunkBytes, q.val)] } else n
      let k := { v.newColl q c [] with cmp := none, locks := [] }
      let held := n.putQueue q { n.queue q with wait := some k, obj := b }
      n.audHold = false → held.get F.LEV_STATUS_isolated = 0 → held.sw.writing.any (fun x => x.queue == q.val) = false →
      (c.op = 0x30 → held.sw.writing = none ∧ held.routesReady b = true) →
      (held.loadEffect c b = .ok z → c.op ≠ 0x30 ∨ routeMode b = 2 → ∃ t, exec e.1 s = .next t ∧
        Settled ((((z.popHead q).complete q c 0 0 0 { CplInfo.none_ with start := held.turn }).signal c).unlock_ q) t) ∧
      (held.loadEffect c b = .ok z → c.op = 0x30 → routeMode b ≠ 2 → ∃ t, exec e.1 s = .next t ∧ Settled (held.beginRoutes q b false) t)) ∧
    ((s.queue q).ctx = none → (s.queue q).wait = some k → k.cmd.isColl = false → k.cmp = none → k.cmd.launch = false →
      s.sw.writing.any (fun y => y.queue == q.val) = false → s.get F.LEV_STATUS_isolated = 0 → s.loadReady k.cmd (s.queue q).obj = true →
      s.loadEffect k.cmd (s.queue q).obj = .error (r, z) →
      ∃ t, exec (.cmdResourcesGranted q) s = .next t ∧ Settled ((z.reject q k.cmd r).unlock_ q) t)

/-- R461 to R477: retraining, migration, the thermal ladder, scrubbing, prediction. -/
def Obligations.MemoryLevels : Prop :=
  ∀ (s : State) (waited bad lpd : Bool) (k : Fin 8) (temp : BitVec 16) (err : Fin 3) (hot : List Nat) (ch : Fin 128) (n t0 spare page : Nat),
    (let p := s.get F.LPD_RT_PERIOD_turns
     let base := s.get F.LPD_RT_BASE_turn
     let opens := p ≠ 0 ∧ base ≤ s.turn ∧ (s.turn - base) % p = 0 ∧ s.rsv.rt = none ∧ s.rsv.rtWin ≠ (s.turn - base) / p + 1
     let u := { s with rsv.rtWin := (s.turn - base) / p + 1 }
     (opens → u.lpdChosen = some n → ∃ t, exec .lpddrRetrainWindow s = .next t ∧ Settled { u with rsv.rt := some (n, s.turn) } t) ∧
     (opens → u.lpdChosen = none → ∃ t, exec .lpddrRetrainWindow s = .next t ∧ Settled u t) ∧
     (¬ opens → ∃ t, exec .lpddrRetrainWindow s = .next t ∧ Settled s t)) ∧
    (s.rsv.rt = some (n, t0) → s.turn ≤ t0 + 20000 →
      let u := { s with rsv.rt := none, rsv.trained := s.rsv.trained.wr n s.beat }
      let u := (u.inc (F.LPD_CH_retrains n)).set (F.LPD_CH_drift n) 0
      (∃ t, exec (.retrainEnd waited) s = .next t ∧ Settled ((if waited then u.pert 5 else u).retrainFlagged n) t) ∧
      (∃ t, exec .retrainTimeout s = .next t ∧ Settled s t)) ∧
    (s.rsv.rt = some (n, t0) → t0 + 20000 < s.turn →
      (∃ t, exec (.retrainEnd waited) s = .next t ∧ Settled s t) ∧
      (∃ t, exec .retrainTimeout s = .next t ∧
        Settled ((({ s with rsv.rt := none }.inc (F.LPD_CH_retrains n)).lpdFail n 0).retrainFlagged n) t)) ∧
    (s.rsv.rt = none → (∃ t, exec (.retrainEnd waited) s = .next t ∧ Settled s t) ∧ (∃ t, exec .retrainTimeout s = .next t ∧ Settled s t)) ∧
    (∃ t, exec (.driftMonitorFlag ch) s = .next t ∧ Settled ((s.set (F.LPD_CH_drift ch) 1).retrainFlagged 128) t) ∧
    (s.rsv.mig = none ∨ (s.rsv.mig = some (n, spare, page) ∧ s.rsv.rt.any (fun r => r.1 == n) = true) →
      ∃ t, exec (.migrationPageCopy bad) s = .next t ∧ Settled s t) ∧
    (s.rsv.mig = some (n, spare, page) → s.rsv.rt.any (fun r => r.1 == n) = false →
      let u := if bad then s.poisonPage n page else s
      (page + 1 < lpdPages → ∃ t, exec (.migrationPageCopy bad) s = .next t ∧
        Settled ({ u with rsv.mig := some (n, spare, page + 1) }.set F.LPD_MIG_ptr ((page + 1) / 32)) t) ∧
      (lpdPages ≤ page + 1 → ∃ t, exec (.migrationPageCopy bad) s = .next t ∧
        Settled ((u.set F.LPD_MIG_ptr (lpdPages / 32)).migrated n spare) t)) ∧
    (let up := [1, 2, 3].foldl (fun u st => u.hbmEnter k temp.toNat st) (s.set (F.HBM_STACK_temp k) temp.toNat)
     ∃ t, exec (.hbmTempSample k temp) s = .next t ∧ Settled ([3, 2, 1].foldl (fun u st => u.hbmLeave k temp.toNat st) up) t ∧
       t.get (F.HBM_STACK_temp k) = temp.toNat) ∧
    (s.get F.MEM_CTL_scrub = 0 → ∃ t, exec (.scrubRead lpd err) s = .next t ∧ Settled s t) ∧
    (s.get F.MEM_CTL_scrub = 1 →
      let level := 1 + b2n lpd
      let a := s.rsv.scrub.rd level
      ∃ t, exec (.scrubRead lpd err) s = .next t ∧
        Settled ({ s with rsv.scrub := s.rsv.scrub.wr level ((a + 64) % levelSize level) }.memError level a err) t) ∧
    (s.get F.STEP_STATUS_strict = 1 → ∃ t, exec (.predictorEpoch hot) s = .next t ∧ Settled s t) ∧
    (s.get F.STEP_STATUS_strict = 0 → ∃ t, exec (.predictorEpoch hot) s = .next t ∧
      Settled (({ s with rsv.pins := [] }.inc F.PRD_WASTE_COUNT_waste (s.rsv.pins.filter (fun (p : Nat × Bool) => !p.2)).length).pinLines hot) t)

/-- R316, R317, R333, R352, R499 to R501: the messages by which steps end. -/
def Obligations.StepDecisions : Prop :=
  ∀ (s : State) (step tt : BitVec 64) (hot : List Nat) (type : Fin 3) (sender m1 m2 m3 m4 : BitVec 16) (status outcome : BitVec 8) (shard pshard : Fin 1024)
    (hash : BitVec 256) (a : Nat × Nat) (k n t0 : Nat) (w : Nat × Nat),
    let member := s.get F.WM_CTL_role = 0 ∨ s.get F.WM_CTL_role = 3
    (s.nor.armed.find? (fun a => a.1 == step.toNat) = some a →
      (a.2 ≤ s.turn → ∃ t, exec (.commitApply step) s = .next t ∧ Settled ((s.fencesDue.commitApply step.toNat a.2).2.lendDue) t) ∧
      (s.turn < a.2 → ∃ t, exec (.commitApply step) s = .next t ∧ Settled s t)) ∧
    (let u := (s.fencesDue.discardStep step.toNat).dropOwed step.toNat
     ∃ t, exec (.discard step) s = .next t ∧
       Settled (({ u with flt.held := if u.get F.WM_CTL_role = 2 then some (0x11, step.toNat, 0) else u.flt.held } : State).lendDue) t) ∧
    (step.toNat ≠ s.get F.STEP_CTR_step → ∃ t, exec (.stepClose step hot) s = .next t ∧ Settled (s.inc F.STEP_STATUS_bad_close) t) ∧
    (step.toNat = s.get F.STEP_CTR_step →
      let now := step.toNat
      let u := { s with det.audit.steps := s.det.audit.steps.map (fun (i : StepInfo) => if i.step = now
        then { i with closed := some s.turn, pert1 := s.pertCounts } else i) }
      let v := (((u.openStep (now + 1)).set F.STEP_STATUS_closing 1).flipClassD).liftFences now
      ∃ t, exec (.stepClose step hot) s = .next t ∧ Settled (if s.get F.STEP_STATUS_strict = 1 then v.epoch hot else v) t) ∧
    (s.actsWm = true →
      let u := { s with det.audit.acks := s.det.audit.acks ++ [(step.toNat, sender.toNat, type.val)] }
      let answers := s.flt.pend = true ∧ n = step.toNat ∧ sender.toNat = s.get F.WM_CTL_standby ∧ type.val = (if k = 0x10 then 0 else 2)
      (s.flt.held = none ∨ (s.flt.held = some (k, n, t0) ∧ ¬ answers) → ∃ t, exec (.commitAck type sender step) s = .next t ∧ Settled u t) ∧
      (s.flt.held = some (k, n, t0) → answers → ∃ t, exec (.commitAck type sender step) s = .next t ∧
        Settled ({ u with flt.pend := false }.sendStep (u.domain.filter (· != sender.toNat)) k n t0) t)) ∧
    (s.actsWm = false → ∃ t, exec (.commitAck type sender step) s = .next t ∧ Settled s t) ∧
    (member → (∃ t, exec (.stepDigest sender step status) s = .next t ∧ Settled s t) ∧
      (∃ t, exec (.partnerVerdict sender step m1 m2 m3 m4) s = .next t ∧ Settled s t)) ∧
    (¬ member →
      (∃ t, exec (.stepDigest sender step status) s = .next t ∧ Settled ({ s with
        det.audit.digests := s.det.audit.digests.filter (fun (d : Nat × Nat × Nat) => !(d.1 == step.toNat && d.2.1 == sender.toNat)) ++
          [(step.toNat, sender.toNat, status.toNat)] }.wmDecide step.toNat) t) ∧
      (let clean := m2 == 0 && m3 == 0
       let body := leBytes (packBits [(0, 8, 0x91), (16, 16, sender.toNat), (64, 64, step.toNat), (128, 16, m1.toNat), (144, 16, m2.toNat),
         (160, 16, m3.toNat), (176, 16, m4.toNat)]) 32
       let u := { s with
         flt.verdicts := s.flt.verdicts.filter (fun (v : Nat × Nat × Bool) => !(v.1 == step.toNat && v.2.1 == sender.toNat)) ++
           [(step.toNat, sender.toNat, clean)] }
       ∃ t, exec (.partnerVerdict sender step m1 m2 m3 m4) s = .next t ∧
         Settled ((if clean = false ∧ s.actsWm = true then u.fmAsk body none (some step.toNat) else u).wmDecide step.toNat) t)) ∧
    (∃ t, exec (.shardHash sender outcome shard pshard step tt hash) s = .next t ∧ Settled ({ s with flt.hashes := s.flt.hashes ++
      [(⟨sender.toNat, shard, pshard, step.toNat, outcome.toNat, tt.toNat, leBytes hash.toNat 32⟩ : ShardHash)] }.verdict step.toNat false) t) ∧
    (s.flt.waits.find? (fun w => w.1 == step.toNat) = some w →
      (w.2 + 1000 * s.get F.PTN_CTL_wait ≤ s.beat → ∃ t, exec (.partnerWaitExpire step) s = .next t ∧ Settled (s.verdict step.toNat true) t) ∧
      (s.beat < w.2 + 1000 * s.get F.PTN_CTL_wait → ∃ t, exec (.partnerWaitExpire step) s = .next t ∧ Settled s t))

/-- R481, R486, R488, R498: the watermaster's forwarding, the fault manager's decisions, heartbeats. -/
def Obligations.WatermasterAndManager : Prop :=
  ∀ (s : State) (m : BitVec 256) (k : Nat) (port : Fin 2) (up : Bool) (sender : BitVec 16) (r : FmReport),
    let wm := s.actsWm = true
    (¬ wm → ∀ i ∈ [Instr.trapNotice m, .faultReport m, .straggler m, .orderAck m, .fmOrder m, .wmHeartbeatSend],
      ∃ t, exec i s = .next t ∧ Settled s t) ∧
    (wm → (∃ t, exec (.trapNotice m) s = .next t ∧ Settled (s.fmSend (leBytes m.toNat 32)) t) ∧
      (∃ t, exec (.orderAck m) s = .next t ∧ Settled (s.fmSend (leBytes m.toNat 32)) t) ∧
      (∃ t, exec (.straggler m) s = .next t ∧ Settled ((s.fmSend (leBytes m.toNat 32)).intEvent 16) t) ∧
      (let from_ := bits m.toNat 16 16
       let kind := bits m.toNat 8 8
       let bad := bits m.toNat 48 2 = 1 ∨ bits m.toNat 48 2 = 2
       let u := if s.get F.LEV_CTL_mode = 1 ∧ bad then s.fmAsk (leBytes m.toNat 32) (some from_) none else s.fmSend (leBytes m.toNat 32)
       ∃ t, exec (.faultReport m) s = .next t ∧ Settled (if bad ∧ 1 ≤ kind ∧ kind ≤ 16 ∧ bit (u.get F.FLT_POLICY_propose) (kind - 1)
         then u.propose 2 from_ 0xFF kind else u) t) ∧
      (s.fmSession = none → ∃ t, exec (.fmOrder m) s = .next t ∧ Settled s t) ∧
      (s.fmSession.isSome = true →
        let type := bits m.toNat 0 8
        let target := bits m.toNat 32 16
        let fence := bits m.toNat 8 8 = 1
        let l := [(0, 8, 0x83), (8, 8, bits m.toNat 8 8), (16, 16, s.me), (32, 160, bits m.toNat 32 160),
          (192, 64, if fence then s.turn + 1000000 else bits m.toNat 192 64)]
        let u := { s with flt.fm := s.flt.fm.filter (fun r => r.module != some target) }
        (type = 0x10 ∨ type = 0x11 → ∃ t, exec (.fmOrder m) s = .next t ∧ Settled (s.decideStep type (bits m.toNat 64 64)) t) ∧
        (type = 0x83 → ∃ t, exec (.fmOrder m) s = .next t ∧
          Settled ((if fence then u.domain else [target]).foldl (fun u t => u.send (moduleAddr t) clsS 32 l) u) t) ∧
        (type ≠ 0x10 → type ≠ 0x11 → type ≠ 0x83 → ∃ t, exec (.fmOrder m) s = .next t ∧ Settled s t)) ∧
      (s.get F.WM_CTL_standby = 0xFFFF → ∃ t, exec .wmHeartbeatSend s = .next t ∧ Settled s t) ∧
      (s.get F.WM_CTL_standby ≠ 0xFFFF → ∃ t, exec .wmHeartbeatSend s = .next t ∧
        Settled (s.sendMod (s.get F.WM_CTL_standby) 0x85 32 [(64, 64, s.turn), (128, 64, s.get F.NOR_LAST_COMMIT_step)]) t)) ∧
    (s.flt.fm[k]? = some r →
      (r.since + 5000000000 ≤ s.beat → ∃ t, exec (.fmResendTimeout k) s = .next t ∧ Settled
        (({ s with flt.fm := setAt s.flt.fm k { r with since := s.beat } }.inc F.FM_RESEND_COUNT_resends).fmSend r.body) t) ∧
      (s.beat < r.since + 5000000000 → ∃ t, exec (.fmResendTimeout k) s = .next t ∧ Settled s t)) ∧
    (∃ t : State, exec (.managementPortChange port up) s = .next t ∧ bit t.flt.mgmt port = up ∧
      (∀ j, j ≠ port.val → bit t.flt.mgmt j = bit s.flt.mgmt j) ∧ Settled { s with flt.mgmt := t.flt.mgmt } t) ∧
    (s.get F.WM_CTL_role = 2 → sender.toNat = s.get F.WM_CTL_wm → ∃ t, exec (.wmHeartbeat sender) s = .next t ∧
      Settled { s with flt.miss := 0, flt.hbAt := s.beat } t) ∧
    (s.get F.WM_CTL_role ≠ 2 ∨ sender.toNat ≠ s.get F.WM_CTL_wm → ∃ t, exec (.wmHeartbeat sender) s = .next t ∧ Settled s t) ∧
    (s.get F.WM_CTL_role = 2 → s.flt.hbAt + 1000 * s.get F.WM_CTL_hb ≤ s.beat →
      let u := { s with flt.miss := s.flt.miss + 1, flt.hbAt := s.beat }
      ∃ t, exec .heartbeatMiss s = .next t ∧ Settled (if s.flt.miss + 1 < 3 then u else u.propose 2 (s.get F.WM_CTL_wm) 0xFF 0) t) ∧
    (s.get F.WM_CTL_role ≠ 2 ∨ s.beat < s.flt.hbAt + 1000 * s.get F.WM_CTL_hb → ∃ t, exec .heartbeatMiss s = .next t ∧ Settled s t) ∧
    (∃ t : State, exec (.wmAnnounce sender) s = .next t ∧ Settled (s.sets [(F.WM_CTL_wm, sender.toNat), (F.WM_CTL_standby, 0xFFFF)]) t ∧
      t.get F.WM_CTL_wm = sender.toNat ∧ t.get F.WM_CTL_standby = 0xFFFF ∧ t.get F.WM_CTL_role = s.get F.WM_CTL_role)

/-- R492 to R496, R504: orders, and the fences that become due. -/
def Obligations.OrdersAndFences : Prop :=
  ∀ (s : State) (sender target : BitVec 16) (port code : BitVec 8) (seq id first last : BitVec 32) (at_ step : BitVec 64) (shard : Fin 1024) (fm : Bool),
    let answer := fun (action : Nat) (r : Nat × State) =>
      let u := if r.1 = 0 then r.2.inc F.ORDER_COUNT_applied else (r.2.inc F.ORDER_COUNT_refused).faultReport 0x10 action 0 seq.toNat
      u.sendWm 0x84 32 [(8, 8, r.1), (96, 32, seq.toNat), (128, 64, u.turn)]
    let from_ := if fm = true ∧ s.fmSession.isSome = true then s.get F.WM_CTL_wm else sender.toNat
    let orders := [(Instr.wmOrderFence sender target port seq at_, sender.toNat, 1,
        if s.get F.LEV_CTL_mode = 0 then (2, s) else (0, s.armFence ⟨if port.toNat = 0xFF then 2 else 1, target.toNat, port.toNat, at_.toNat⟩)),
      (Instr.wmOrderUnfence sender target port seq step, sender.toNat, 2,
        (0, { s with flt.lifts := s.flt.lifts ++ [(target.toNat, port.toNat, step.toNat)] })),
      (Instr.wmOrderAbort sender id code seq, sender.toNat, 3,
        if (s.collOf id.toNat).isSome ∨ s.noContext (fun k => k.cmd.collId == id.toNat) ≠ []
          then (0, s.endAll (fun k => k.cmd.collId == id.toNat) 4 code.toNat) else (1, s)),
      (Instr.wmOrderRevoke sender id first last seq, sender.toNat, 4, match s.collOf id.toNat with
        | some (x, _) => (0, (s.reopenRange x first.toNat last.toNat 3).settle x)
        | none => (1, s)),
      (Instr.wmOrderStateLost sender target shard seq, sender.toNat, 5,
        if target.toNat ≠ s.me then
          (if s.flt.fences.any (fun f => f.kind == 2 && f.target == target.toNat) then (0, s.dropPeer target.toNat) else (1, s))
        else match s.shard shard with
          | none => (1, s)
          | some h => (0, (s.loseShard shard).stateLost shard 0xFFFF 3 h.t)),
      (Instr.wmOrderTakeover sender fm seq, from_, 6,
        if s.get F.LEV_CTL_mode = 0 then (2, s) else if s.get F.WM_CTL_role ≠ 2 then (1, s) else (0, s.takeover))]
    (∀ o ∈ orders,
      (s.get F.FLT_CTL_en = 0 → ∃ t, exec o.1 s = .next t ∧ Settled s t) ∧
      (s.get F.FLT_CTL_en = 1 → o.2.1 ≠ s.get F.WM_CTL_wm → ∃ t, exec o.1 s = .next t ∧ Settled (s.inc F.ORDER_COUNT_foreign) t) ∧
      (s.get F.FLT_CTL_en = 1 → o.2.1 = s.get F.WM_CTL_wm → ∃ t, exec o.1 s = .next t ∧ Settled (answer o.2.2.1 o.2.2.2) t)) ∧
    (∃ t, exec .fenceApply s = .next t ∧ Settled ((sortBy Armed.le (s.flt.armed.filter (fun a => a.turn ≤ s.turn))).foldl State.fence
      { s with flt.armed := s.flt.armed.filter (fun a => s.turn < a.turn) }) t)

/-- R485, R487 to R491: proposals, votes, probes and decisions of the levee. -/
def Obligations.LeveeMessages : Prop :=
  ∀ (s : State) (p : Fin 144) (sender proposer target : BitVec 16) (kind port vote : BitVec 8) (self : Bool) (round : BitVec 2)
    (seq digest : BitVec 32) (apply : BitVec 64) (b : Ballot) (m : Motion),
    let on := s.levee = true
    let proposal := Instr.leveePropose sender kind target port self round seq digest
    (¬ on → ∀ i ∈ [proposal, .leveeProbe sender proposer seq, .leveeProbeAck sender proposer seq, .leveeProbeTimeout proposer seq,
        .leveeVote sender proposer vote seq, .leveeRoundTimeout seq, .leveeDecide kind target port apply],
      ∃ t, exec i s = .next t ∧ Settled s t) ∧
    (let peer := (s.link p).peer
     let toPeer := (List.range 144).filter (fun q => (s.link q).peer == peer)
     let u := if peer ≠ 0xFFFF ∧ toPeer.all s.held = true then s.propose 2 peer 0xFF 9 else s
     (s.held p = true → bit s.fencedPorts p = false → ∃ t, exec (.leveeHoldExpire p) s = .next t ∧ Settled (u.propose 1 u.me p 9) t) ∧
     (s.held p = false ∨ bit s.fencedPorts p = true → ∃ t, exec (.leveeHoldExpire p) s = .next t ∧ Settled s t)) ∧
    (s.ready = true → s.host.d3hot = false → ∃ t, exec .levSelf s = .next t ∧ Settled (s.propose 2 s.me 0xFF 0) t) ∧
    (on → sender.toNat = s.me → ∃ t, exec proposal s = .next t ∧ Settled s t) ∧
    (on → sender.toNat ≠ s.me →
      let known := s.flt.ballots.find? (fun b => b.proposer == sender.toNat && b.seq == seq.toNat && b.round == round.toNat)
      let fresh : Ballot := ⟨sender.toNat, seq.toNat, round.toNat, target.toNat, 0, s.beat⟩
      let strange := digest.toNat ≠ s.setDig ∨ target.toNat = s.me
      let ofSelf := kind = 1 ∨ self = true
      (known = some b → b.vote = 0 → ∃ t, exec proposal s = .next t ∧ Settled s t) ∧
      (known = some b → b.vote ≠ 0 → ∃ t, exec proposal s = .next t ∧ Settled (s.sendVote b) t) ∧
      (known = none → strange → ∃ t, exec proposal s = .next t ∧ Settled (s.castVote fresh 3) t) ∧
      (known = none → ¬ strange → ofSelf → ∃ t, exec proposal s = .next t ∧ Settled (s.castVote fresh 1) t) ∧
      (known = none → ¬ strange → ¬ ofSelf → ∃ t, exec proposal s = .next t ∧
        Settled ((s.putBallot fresh).sendMod target.toNat 0x89 32 [(32, 16, sender.toNat), (64, 32, seq.toNat)]) t)) ∧
    (on → ∃ t, exec (.leveeProbe sender proposer seq) s = .next t ∧
      Settled (s.sendMod sender.toNat 0x8A 32 [(32, 16, proposer.toNat), (64, 32, seq.toNat)]) t) ∧
    (on → s.probing proposer.toNat seq.toNat = some b →
      (b.target = sender.toNat → ∃ t, exec (.leveeProbeAck sender proposer seq) s = .next t ∧ Settled (s.castVote b 2) t) ∧
      (b.target ≠ sender.toNat → ∃ t, exec (.leveeProbeAck sender proposer seq) s = .next t ∧ Settled s t) ∧
      (b.since + 1000 * s.get F.LEV_CTL_probe ≤ s.beat → ∃ t, exec (.leveeProbeTimeout proposer seq) s = .next t ∧ Settled (s.castVote b 1) t) ∧
      (s.beat < b.since + 1000 * s.get F.LEV_CTL_probe → ∃ t, exec (.leveeProbeTimeout proposer seq) s = .next t ∧ Settled s t)) ∧
    (on → s.flt.motions.find? (fun p => p.seq == seq.toNat) = some m →
      let counts := proposer.toNat = s.me ∧ sender.toNat ≠ s.me ∧ sender.toNat ∈ s.live ∧ ∀ v ∈ m.votes, v.1 ≠ sender.toNat
      (counts → ∃ t, exec (.leveeVote sender proposer vote seq) s = .next t ∧
        Settled (s.tally { m with votes := m.votes ++ [(sender.toNat, vote.toNat)] }) t) ∧
      (¬ counts → ∃ t, exec (.leveeVote sender proposer vote seq) s = .next t ∧ Settled s t) ∧
      (m.since + 1000 * s.get F.LEV_CTL_round ≤ s.beat → ∃ t, exec (.leveeRoundTimeout seq) s = .next t ∧ Settled (s.roundEnd m) t) ∧
      (s.beat < m.since + 1000 * s.get F.LEV_CTL_round → ∃ t, exec (.leveeRoundTimeout seq) s = .next t ∧ Settled s t)) ∧
    (on → ∃ t, exec (.leveeDecide kind target port apply) s = .next t ∧
      Settled (({ s with flt.short := 0 }.set F.LEV_STATUS_isolated 0).armFence ⟨kind.toNat, target.toNat, port.toNat, apply.toNat⟩) t)

/-- R502 to R504, R507: the messages of a resilver on both sides. -/
def Obligations.Resilvering : Prop :=
  ∀ (s : State) (n shard pshard : Fin 1024) (sender : BitVec 16) (seq seg : BitVec 32) (tt seq64 : BitVec 64) (last : Bool) (status : BitVec 8)
    (data : List Byte) (h h1 : Shard) (k m p : Nat) (r : Resilver) (l : Lend) (planes : List (List Byte)),
    (s.ready = true → s.host.d3hot = false → s.shard (s.get F.RSL_CTL_shard) = some h → s.partner (s.get F.RSL_CTL_shard) = some (m, p) →
      let x := s.get F.RSL_CTL_shard
      let q := s.flt.rslSeq + 1
      (s.get F.FLT_CTL_en = 1 → h.st = 0 → ∃ t, exec .resilverStart s = .next t ∧ Settled (({ s with
          flt.rslSeq := q
          flt.spares := s.flt.spares.put x ⟨m, p, q, [], none, 0, s.beat⟩ }.putShard x { h with st := 4 }).sendMod m 0x94 32
        [(32, 10, x), (48, 10, p), (64, 32, q)]) t) ∧
      (s.get F.FLT_CTL_en = 0 ∨ h.st ≠ 0 → ∃ t, exec .resilverStart s = .next t ∧ Settled s t)) ∧
    (s.get F.FLT_CTL_en = 0 → ∃ t, exec (.resilverReq sender shard pshard seq) s = .next t ∧ Settled s t) ∧
    (s.get F.FLT_CTL_en = 1 →
      let req : Lend := ⟨sender.toNat, shard, pshard, seq.toNat, none, 0⟩
      let mine := s.partner pshard = some (sender.toNat, shard.val)
      (s.shard pshard = none ∨ (s.shard pshard = some h ∧ (h.st = 0 ∨ 4 ≤ h.st)) ∨ ¬ mine →
        ∃ t, exec (.resilverReq sender shard pshard seq) s = .next t ∧ Settled (s.rslAck sender.toNat 1 0xFFFFFFFF 0 seq.toNat) t) ∧
      (s.shard pshard = some h → h.st = 1 → mine → ∃ t, exec (.resilverReq sender shard pshard seq) s = .next t ∧ Settled (s.lend req) t) ∧
      (s.shard pshard = some h → h.st = 2 ∨ h.st = 3 → mine → ∃ t, exec (.resilverReq sender shard pshard seq) s = .next t ∧
        Settled { s with flt.lends := s.flt.lends ++ [req] } t)) ∧
    (s.resilverOf sender.toNat seq64.toNat = none → ∃ t, exec (.resilverSeg sender last seg tt seq64 data) s = .next t ∧ Settled s t) ∧
    (s.resilverOf sender.toNat seq64.toNat = some (k, r) → s.shard k = some h →
      let i := Instr.resilverSeg sender last seg tt seq64 data
      let u := s.rslAck r.partner 0 seg.toNat tt.toNat r.seq
      let r1 := { r with segs := r.segs.put seg.toNat data, last := if last then some seg.toNat else r.last, since := s.beat }
      let whole := ∀ j < p + 1, (r1.segs.find j).isSome = true
      let man := (r1.segs.find 0).getD []
      let image := ((List.range p).map (fun j => (r1.segs.find (j + 1)).getD [])).flatten
      (r1.last = none ∨ (r1.last = some p ∧ ¬ whole) → ∃ t, exec i s = .next t ∧
        Settled { u with flt.spares := u.flt.spares.put k r1 } t) ∧
      (r1.last = some p → whole → imagePlanes h man image = none → ∃ t, exec i s = .next t ∧ Settled (u.rslEmpty k) t) ∧
      (r1.last = some p → whole → imagePlanes h man image = some (h1, planes) → ∃ t, exec i s = .next t ∧
        Settled ((({ u with flt.spares := u.flt.spares.drop k }.putImage h1 planes).putShard k { h1 with st := 1, live := 0, t := fieldOf man 0x80 8, ver0 := fieldOf man 0x88 4, ver1 := 2 ^ 32, restore := none, skipped := false }).inc
            F.RSL_COUNT_done) t)) ∧
    (let i := Instr.resilverAck sender status seg tt seq
     let there := s.flt.lends.find? (fun l => l.spare == sender.toNat && l.seq == seq.toNat)
     (there = some l →
       (status = 2 ∨ (status = 0 ∧ l.next = some seg.toNat ∧ s.rslCount l ≤ seg.toNat + 1) → ∃ t, exec i s = .next t ∧
         Settled { s with flt.lends := s.flt.lends.erase l } t) ∧
       (status = 0 → l.next = some seg.toNat → seg.toNat + 1 < s.rslCount l →
         let l1 := { l with next := some (seg.toNat + 1) }
         ∃ t, exec i s = .next t ∧ Settled ({ s with flt.lends := s.flt.lends.erase l ++ [l1] }.rslSend l1 (seg.toNat + 1)) t) ∧
       (status ≠ 2 → status ≠ 0 ∨ l.next ≠ some seg.toNat → ∃ t, exec i s = .next t ∧ Settled s t)) ∧
     (there = none → s.resilverOf sender.toNat seq.toNat = some (k, r) →
       (status = 1 → ∃ t, exec i s = .next t ∧ Settled (s.rslEmpty k) t) ∧
       (status = 0 → ∃ t, exec i s = .next t ∧ Settled { s with flt.spares := s.flt.spares.put k { r with t := tt.toNat, since := s.beat } } t) ∧
       (status ≠ 0 → status ≠ 1 → ∃ t, exec i s = .next t ∧ Settled s t))) ∧
    (s.flt.spares.find n = some r →
      (r.since + 1000 * s.get F.ACK_TIMEOUT_us ≤ s.beat → ∃ t, exec (.resilverTimeout n) s = .next t ∧ Settled (s.rslFail n r 2) t) ∧
      (s.beat < r.since + 1000 * s.get F.ACK_TIMEOUT_us → ∃ t, exec (.resilverTimeout n) s = .next t ∧ Settled s t))

/-- R514: versions, capabilities, algorithms, sessions and chunks of the SPDM responder. -/
def Obligations.SpdmSessions : Prop :=
  ∀ (s : State) (b : Fin 3) (id : BitVec 32) (o : Option (BitVec 32)) (slot : Fin 8) (off len seq : BitVec 16) (nonce : BitVec 256)
    (index op tag handle : BitVec 8) (size : BitVec 32) (request chain fin data ec pq : List Byte) (asym hash dhe aead sign : Bool)
    (list : List (Fin 3 × BitVec 16 × BitVec 32)) (tenant : BitVec 32) (x : Session),
    let up := s.spdmUp = true ∧ s.get F.SEC_STATUS_lifecycle ≠ 3
    let ses := o.map (·.toNat)
    let neg := s.sec.neg.rd b
    let asks : List (Instr × Option Nat × Nat) := [(.getCapabilities b, none, 1), (.negotiateAlgorithms b asym hash dhe aead, none, 2),
      (.getDigests b o, ses, 3), (.getCertificate b o slot off len, ses, 3), (.challenge b slot nonce, none, 3),
      (.getMeasurements b o index sign nonce, ses, 3), (.keyExchange b request, none, 3), (.spdmHeartbeat b id, some id.toNat, 0),
      (.keyUpdate b id op tag, some id.toNat, 0), (.endSession b id, some id.toNat, 0), (.chunkSend b o handle seq data, ses, 2),
      (.chunkGet b o handle seq size, ses, 2), (.attestPq b o, ses, 3), (.enroll b id request, some id.toNat, 3),
      (.unenroll b id tenant ec pq, some id.toNat, 3), (.assign b id list ec pq, some id.toNat, 3),
      (.endpointRoot b id request ec pq, some id.toNat, 3)]
    (∀ a ∈ asks,
      (¬ up → ∃ t, exec a.1 s = .next t ∧ Settled s t) ∧
      (up → neg < a.2.2 → ∃ t, exec a.1 s = .next t ∧ Settled (s.spdmError b a.2.1 4) t) ∧
      (up → a.2.2 ≤ neg → ∀ n, a.2.1 = some n → (∀ x, s.session b n = some x → x.secured = false) →
        ∃ t, exec a.1 s = .next t ∧ Settled (s.spdmError b a.2.1 2) t)) ∧
    (s.spdmUp = false → ∃ t, exec (.getVersion b) s = .next t ∧ Settled s t) ∧
    (s.spdmUp = true → ∃ t : State, exec (.getVersion b) s = .next t ∧ t.sec.neg.rd b = 1 ∧ t.sec.mlog.find b.val = none ∧
      Settled ({ s with sec.neg := s.sec.neg.wr b 1, sec.mlog := s.sec.mlog.drop b.val }.spdmOut b none 4 0 0 (leBytes 1 2 ++ leBytes 0x1300 2)) t) ∧
    (up → 1 ≤ neg → ∃ t : State, exec (.getCapabilities b) s = .next t ∧ t.sec.neg.rd b = 2 ∧
      Settled ({ s with sec.neg := s.sec.neg.wr b 2 }.spdmOut b none 0x61 0 0 (Config.layout 0 [spdmCaps])) t) ∧
    (up → 2 ≤ neg →
      (asym = true ∧ hash = true → ∃ t : State, exec (.negotiateAlgorithms b asym hash dhe aead) s = .next t ∧ t.sec.neg.rd b = 3 ∧
        Settled ({ s with sec.neg := s.sec.neg.wr b 3 }.spdmOut b none 0x63 0 0 (Config.layout 1 [1, 1, b2n dhe, b2n aead])) t) ∧
      (asym = false ∨ hash = false → ∃ t, exec (.negotiateAlgorithms b asym hash dhe aead) s = .next t ∧ Settled (s.spdmError b none 1) t)) ∧
    (up → 3 ≤ neg →
      (4 ≤ s.sec.sessions.length → ∃ t, exec (.keyExchange b request) s = .next t ∧ Settled (s.spdmError b none 0x0A) t) ∧
      (s.sec.sessions.length < 4 →
        let r := s.free 64
        let n := s.sec.nextSes
        let body := leBytes n 4 ++ Config.spdmKey r.1 request
        ∃ t, exec (.keyExchange b request) s = .next t ∧ Settled ({ r.2 with
          sec.sessions := s.sec.sessions ++ [(⟨n, b, false, r.1, 0, [], false⟩ : Session)]
          sec.nextSes := (n + 1) % 2 ^ 32 }.spdmOut b none 0x64 0 0
            (body ++ (Config.aliasEc s.cdi2 (s.chain0 ++ request ++ body)).toList)) t)) ∧
    (¬ up → ∃ t, exec (.finish b id chain fin) s = .next t ∧ Settled s t) ∧
    (up → s.session b id.toNat = none → ∃ t, exec (.finish b id chain fin) s = .next t ∧ Settled (s.spdmError b none 2) t) ∧
    (up → s.session b id.toNat = some x →
      (x.secured = true →
        (∃ t, exec (.finish b id chain fin) s = .next t ∧ Settled (s.spdmError b none 4) t) ∧
        (∃ t, exec (.spdmHeartbeat b id) s = .next t ∧ Settled (s.spdmOut b (some id.toNat) 0x68 0 0 []) t) ∧
        (op = 1 ∨ op = 2 → ∃ t, exec (.keyUpdate b id op tag) s = .next t ∧
          Settled ((s.putSession { x with gen := x.gen + 1 }).spdmOut b (some id.toNat) 0x69 op.toNat tag.toNat []) t) ∧
        (op = 3 → ∃ t, exec (.keyUpdate b id op tag) s = .next t ∧ Settled (s.spdmOut b (some id.toNat) 0x69 op.toNat tag.toNat []) t) ∧
        (op = 0 ∨ 4 ≤ op.toNat → ∃ t, exec (.keyUpdate b id op tag) s = .next t ∧ Settled (s.spdmError b (some id.toNat) 1) t) ∧
        (∃ t, exec (.endSession b id) s = .next t ∧ Settled ((s.spdmOut b (some id.toNat) 0x6C 0 0 []).dropSession id.toNat) t)) ∧
      (x.secured = false →
        (Config.spdmFinish x.eph chain fin = false → ∃ t, exec (.finish b id chain fin) s = .next t ∧
          Settled ((s.dropSession x.id).spdmError b none 6) t) ∧
        (Config.spdmFinish x.eph chain fin = true → ∃ t, exec (.finish b id chain fin) s = .next t ∧
          Settled ((s.putSession { x with secured := true, fm := chain != [] && Config.ownerSigned s.sec.owner chain }).spdmOut
            b (some id.toNat) 0x65 0 0 []) t))) ∧
    (up → 2 ≤ neg → (∀ n, ses = some n → ∃ x, s.session b n = some x ∧ x.secured = true) →
      let due := if seq = 0 then 0 else s.sec.neg.rd (8 + b)
      let old := if seq = 0 then [] else (s.sec.chunks.find (2 * b.val)).getD []
      let whole := (s.sec.chunks.find (2 * b.val + 1)).getD []
      let piece := (whole.drop (seq.toNat * size.toNat)).take size.toNat
      (seq.toNat ≠ due → ∃ t, exec (.chunkSend b o handle seq data) s = .next t ∧ Settled (s.spdmError b ses 1) t) ∧
      (seq.toNat = due → ∃ t, exec (.chunkSend b o handle seq data) s = .next t ∧ Settled ({ s with
        sec.neg := s.sec.neg.wr (8 + b) (due + 1)
        sec.chunks := s.sec.chunks.put (2 * b.val) (old ++ data) }.spdmOut b ses 5 0 handle.toNat (leBytes seq.toNat 2)) t) ∧
      (piece = [] → ∃ t, exec (.chunkGet b o handle seq size) s = .next t ∧ Settled (s.spdmError b ses 1) t) ∧
      (piece ≠ [] → ∃ t, exec (.chunkGet b o handle seq size) s = .next t ∧ Settled (s.emit (.spdm b ses (leBytes 0x13 1 ++ leBytes 6 1 ++
        leBytes (b2n (decide (whole.length ≤ (seq.toNat + 1) * size.toNat))) 1 ++ leBytes handle.toNat 1 ++ leBytes seq.toNat 2 ++ piece))) t))

/-- R511, R512, R515: what the responder attests. -/
def Obligations.SpdmEvidence : Prop :=
  ∀ (s : State) (b : Fin 3) (o : Option (BitVec 32)) (slot : Fin 8) (off len : BitVec 16) (nonce : BitVec 256) (index : BitVec 8) (sign : Bool),
    let ses := o.map (·.toNat)
    s.spdmUp = true → s.get F.SEC_STATUS_lifecycle ≠ 3 → 3 ≤ s.sec.neg.rd b →
    (∀ n, ses = some n → ∃ x, s.session b n = some x ∧ x.secured = true) →
    let c := Config.certChain 0 s.cdi2
    let r := s.free 256
    (∃ t, exec (.getDigests b o) s = .next t ∧ Settled (s.spdmOut b ses 1 0 1 (sha384 c)) t) ∧
    (slot = 0 → off.toNat < c.length →
      let p := (c.drop off.toNat).take len.toNat
      ∃ t, exec (.getCertificate b o slot off len) s = .next t ∧
        Settled (s.spdmOut b ses 2 0 0 (leBytes p.length 2 ++ leBytes (c.length - off.toNat - p.length) 2 ++ p)) t) ∧
    (slot ≠ 0 ∨ (c.length ≤ off.toNat ∧ c ≠ []) → ∃ t, exec (.getCertificate b o slot off len) s = .next t ∧ Settled (s.spdmError b ses 1) t) ∧
    (slot = 0 →
      let body := sha384 c ++ leBytes r.1 32
      ∃ t, exec (.challenge b slot nonce) s = .next t ∧
        Settled (r.2.spdmOut b none 3 0 1 (body ++ (Config.aliasEc s.cdi2 (leBytes nonce.toNat 32 ++ body)).toList)) t) ∧
    (slot ≠ 0 → ∃ t, exec (.challenge b slot nonce) s = .next t ∧ Settled (s.spdmError b none 1) t) ∧
    (let n := index.toNat
     let blocks := if n = 0xFF then [1, 2, 3, 4, 5, 6, 7, 8, 9] else if n = 0 then [] else [n]
     (10 ≤ n → n ≠ 0xFF → ∃ t, exec (.getMeasurements b o index sign nonce) s = .next t ∧ Settled (s.spdmError b ses 1) t) ∧
     (n < 10 ∨ n = 0xFF →
       let body := leBytes blocks.length 1 ++ blocks.flatMap (fun k => leBytes k 1 ++ s.measurement k) ++ leBytes r.1 32
       let count := if n = 0 then 9 else 0
       let ask := leBytes 0x13 1 ++ leBytes 0xE0 1 ++ leBytes (b2n sign) 1 ++ leBytes n 1 ++ (if sign = true then leBytes nonce.toNat 32 else [])
       let u := r.2.measureLog b ses (ask ++ leBytes 0x6013 2 ++ leBytes count 1 ++ leBytes 0 1 ++ body)
       let sig := if sign = true then (Config.aliasEc u.cdi2 (u.transcript b ses)).toList else []
       ∃ t, exec (.getMeasurements b o index sign nonce) s = .next t ∧ Settled (u.spdmOut b ses 0x60 count 0 (body ++ sig)) t)) ∧
    (∃ t, exec (.attestPq b o) s = .next t ∧ Settled (s.vendorOut b ses 1 0 (Config.certChain 1 s.cdi2 ++
      (Config.aliasPq s.cdi2 (sha384 (s.transcript b ses))).toList)) t) ∧
    s.measurement 2 = sha384 (s.runImage 1).2 ∧ s.measurement 3 = sha384 (s.runImage 2).2 ∧
    s.measurement 6 = sha384 ((List.range 4).flatMap (fun n => leBytes (s.word (R.FMT_DIGEST n)).toNat 8)) ∧
    s.measurement 7 = sha384 ((List.range 4).flatMap (fun n => leBytes (s.word (R.RULE_DIGEST n)).toNat 8)) ∧
    (s.sec.owner = [] → s.measurement 5 = List.replicate 48 0) ∧ (s.sec.owner ≠ [] → s.measurement 5 = s.sec.owner)

/-- R516 to R518, R522, R528: what the owner signs. -/
def Obligations.OwnerRequests : Prop :=
  ∀ (s : State) (b : Fin 3) (id tenant : BitVec 32) (record root ec pq : List Byte) (list : List (Fin 3 × BitVec 16 × BitVec 32)) (x : Session) (k : Nat) (w : Tenant),
    s.spdmUp = true → s.get F.SEC_STATUS_lifecycle ≠ 3 → 3 ≤ s.sec.neg.rd b → s.session b id.toNat = some x → x.secured = true →
    let answer := fun (u : State) (op status : Nat) => u.vendorOut b (some id.toNat) op status []
    let signed := fun (m e p : List Byte) => Config.ecdsaOk (Config.ownerEc s.sec.owner) m e = true ∧ Config.mldsaOk (Config.ownerPq s.sec.owner) m p = true
    let asks : List (Instr × Nat × List Byte × List Byte × List Byte) := [
      (.enroll b id record, 2, record.take 0x2A80, (record.drop 0x2A80).take 96, record.drop 0x2AE0),
      (.unenroll b id tenant ec pq, 3, Config.layout 3 [tenant.toNat], ec, pq),
      (.assign b id list ec pq, 4, Config.layout 4 (list.flatMap (fun e => [e.1.val, e.2.1.toNat, e.2.2.toNat])), ec, pq),
      (.endpointRoot b id root ec pq, 5, Config.layout 5 (root.map (·.toNat)), ec, pq)]
    (∀ a ∈ asks,
      (s.sec.owner = [] → ∃ t, exec a.1 s = .next t ∧ Settled (answer s a.2.1 1) t) ∧
      (s.sec.owner ≠ [] → ¬ signed a.2.2.1 a.2.2.2.1 a.2.2.2.2 → ∃ t, exec a.1 s = .next t ∧
        Settled (answer (s.sigTrap 0x0C 0 0 ⟨5, 0xFFFFFFFF, 0xFF⟩) a.2.1 1) t)) ∧
    (s.sec.owner ≠ [] →
      (signed (record.take 0x2A80) ((record.drop 0x2A80).take 96) (record.drop 0x2AE0) →
        (s.enrollOk record = false → ∃ t, exec (.enroll b id record) s = .next t ∧ Settled (answer s 2 1) t) ∧
        (s.enrollOk record = true →
          (∀ j < k, (s.sec.tenants.find j).isSome = true) → s.sec.tenants.find k = none → k < 16 →
          let new : Tenant := ⟨fieldOf record 0 4, fieldOf record 4 1, fieldOf record 8 18, fieldOf record 0x1C 4, (record.drop 0x20).take 32, enrollKeys record, 0, 2 ^ 63⟩
          ∃ t, exec (.enroll b id record) s = .next t ∧ Settled (answer { s with sec.tenants := s.sec.tenants.put k new } 2 0) t)) ∧
      (signed (Config.layout 3 [tenant.toNat]) ec pq →
        (s.tenant tenant.toNat = none → ∃ t, exec (.unenroll b id tenant ec pq) s = .next t ∧ Settled (answer s 3 1) t) ∧
        (s.tenant tenant.toNat = some (k, w) → s.tenantHolds w.id = true → ∃ t, exec (.unenroll b id tenant ec pq) s = .next t ∧ Settled (answer s 3 1) t) ∧
        (s.tenant tenant.toNat = some (k, w) → s.tenantHolds w.id = false → ∃ t, exec (.unenroll b id tenant ec pq) s = .next t ∧
          Settled (answer { s with sec.tenants := s.sec.tenants.drop k } 3 0) t)) ∧
      (signed (Config.layout 4 (list.flatMap (fun e => [e.1.val, e.2.1.toNat, e.2.2.toNat]))) ec pq →
        ((∃ e ∈ list, s.assignOk e.1 e.2.1.toNat e.2.2.toNat = false) → ∃ t, exec (.assign b id list ec pq) s = .next t ∧ Settled (answer s 4 1) t) ∧
        ((∀ e ∈ list, s.assignOk e.1 e.2.1.toNat e.2.2.toNat = true) → ∃ t, exec (.assign b id list ec pq) s = .next t ∧
          Settled (answer (list.foldl (fun u e => u.assign1 e.1 e.2.1.toNat e.2.2.toNat) s) 4 0) t)) ∧
      (signed (Config.layout 5 (root.map (·.toNat))) ec pq →
        (8 ≤ s.sec.roots.length → ∃ t, exec (.endpointRoot b id root ec pq) s = .next t ∧ Settled (answer s 5 1) t) ∧
        (s.sec.roots.length < 8 → ∃ t, exec (.endpointRoot b id root ec pq) s = .next t ∧
          Settled (answer { s with sec.roots := s.sec.roots ++ [root] } 5 0) t))) ∧
    (∀ (level g own : Nat),
      let u := s.assign1 level g own
      let r := granuleRange level g
      u.sec.owners.rd (level * 65536 + g) = own ∧
      (∀ m, m ≠ level * 65536 + g → u.sec.owners.rd m = s.sec.owners.rd m) ∧
      (∀ m, m < memKey level r.2.1 ∨ memKey level r.2.1 + r.2.2 ≤ m → u.mem.bytes.rd m 1 = s.mem.bytes.rd m 1) ∧
      (s.sec.owners.rd (level * 65536 + g) ≠ own → ∀ a, r.2.1 ≤ a → a < r.2.1 + r.2.2 → u.mem.bytes.rd (memKey level a) 1 = [0]))

/-- R510, R513, R516, R532, R533, R536: the mailbox's ops on firmware, owner and lifecycle. -/
def Obligations.MailboxControl : Prop :=
  ∀ (s : State) (len : BitVec 24) (e body : List Byte) (u : State) (stage svn : Nat),
    let n := len.toNat
    let op := [(Instr.fwStage len, 1), (.svnCommit, 2), (.debug len, 3), (.dataIn len, 4), (.dataOut len, 5), (.setOwner len, 6), (.recover len, 7)]
    let input := s.get F.MBX_ARG_offset + n ≤ stagingSize
    let failing := s.get F.SEC_STATUS_boot_fail
    let other := 1 - s.get F.SEC_STATUS_boot_slot
    let old := (u.sec.fw.find other).getD ⟨none, none⟩
    let staged := if stage = 1 then { old with s1 := some (svn, body) } else { old with s2 := some (svn, body) }
    (∀ q ∈ op, s.host.d3hot = true ∨ (failing = 1 ∧ q.2 ≠ 1 ∧ q.2 ≠ 7) ∨ (failing = 0 ∧ s.ready = false) →
      ∃ t, exec q.1 s = .next t ∧ Settled s t) ∧
    (s.host.d3hot = false → failing = 1 ∨ (failing = 0 ∧ s.ready = true) →
      (n = 0 → ∃ t, exec (.fwStage len) s = .next t ∧ Settled ({ s with sec.next := some other }.mbxEnd 0) t) ∧
      (n ≠ 0 → ¬ input → ∃ t, exec (.fwStage len) s = .next t ∧ Settled (s.mbxEnd 4) t) ∧
      (n ≠ 0 → input →
        let r := s.takeEnvelope (s.host.staging.rd (s.get F.MBX_ARG_offset) n) 5 none .mailbox
        (r = .error u → ∃ t, exec (.fwStage len) s = .next t ∧ Settled (u.mbxEnd 2) t) ∧
        (r = .ok (body, u) → fwHead body = none → ∃ t, exec (.fwStage len) s = .next t ∧ Settled (u.mbxEnd 4) t) ∧
        (r = .ok (body, u) → fwHead body = some (stage, svn) → ∃ t, exec (.fwStage len) s = .next t ∧
          Settled ({ u with sec.fw := u.sec.fw.put other staged }.mbxEnd 0) t)) ∧
      (failing = 0 → ∃ t, exec (.recover len) s = .next t ∧ Settled (s.mbxEnd 3) t) ∧
      (failing = 1 → e = (if input then s.host.staging.rd (s.get F.MBX_ARG_offset) n else []) →
        let r := s.takeEnvelope e 5 none .mailbox
        (r = .error u → ∃ t, exec (.recover len) s = .next t ∧ Settled (u.mbxEnd 2) t) ∧
        (r = .ok (body, u) → fwHead body = none → ∃ t, exec (.recover len) s = .next t ∧ Settled ((u.sigTrap 1 5 0 .mailbox).mbxEnd 2) t) ∧
        (r = .ok (body, u) → fwHead body = some (stage, svn) →
          (svn < u.get F.FW_SVN_fuse → ∃ t, exec (.recover len) s = .next t ∧ Settled ((u.sigTrap 8 5 0 .mailbox).mbxEnd 2) t) ∧
          (u.get F.FW_SVN_fuse ≤ svn → ∃ t, exec (.recover len) s = .next t ∧
            Settled (({ u with sec.live := u.sec.live.with stage svn body }.set F.SEC_STATUS_boot_fail 0).measureFw.mbxEnd 0) t)))) ∧
    (s.host.d3hot = false → failing = 0 → s.ready = true →
      (∃ t, exec .svnCommit s = .next t ∧ Settled ((s.set F.FW_SVN_fuse (max (s.get F.FW_SVN_fuse) (s.get F.FW_SVN_running))).mbxEnd 0) t) ∧
      (input → s.sec.owner = [] → n = 48 → ∃ t, exec (.setOwner len) s = .next t ∧ Settled (({ s with
        sec.owner := s.host.staging.rd (s.get F.MBX_ARG_offset) n }.set F.SEC_STATUS_owner_set 1).mbxEnd 0) t) ∧
      (¬ input ∨ s.sec.owner ≠ [] ∨ n ≠ 48 → ∃ t, exec (.setOwner len) s = .next t ∧ Settled (s.mbxEnd 3) t) ∧
      (let now := s.get F.SEC_STATUS_lifecycle
       let token := if input then s.host.staging.rd (s.get F.MBX_ARG_offset) n else []
       let key := fieldOf token 8 4
       let unsigned := now = 0 ∧ token.length = envHead + 64 ∧ fieldOf token (envHead + 33) 1 = 0
       let r := s.takeEnvelope token 7 none .mailbox
       (now = 3 → ∃ t, exec (.debug len) s = .next t ∧ Settled (s.mbxEnd 3) t) ∧
       (now ≠ 3 → ¬ unsigned → r = .error u → ∃ t, exec (.debug len) s = .next t ∧ Settled (u.newNonce.mbxEnd 2) t) ∧
       (now ≠ 3 → (unsigned ∧ body = token.drop envHead ∧ u = s) ∨ (¬ unsigned ∧ r = .ok (body, u)) →
         let level := fieldOf body 32 1
         let life := if fieldOf body 33 1 = 0 ∨ fieldOf body 33 1 = now then none else some (fieldOf body 33 1)
         let shape := body.length = 64 ∧ zeros (body.drop 34) = true
         let bound := body.take 16 = u.dev ∧ (body.drop 16).take 16 = leBytes (u.word R.DBG_NONCE0).toNat 8 ++ leBytes (u.word R.DBG_NONCE1).toNat 8
         let admitted := tokenMay now level life (key != 0) = true
         (¬ shape → ∃ t, exec (.debug len) s = .next t ∧ Settled ((u.sigTrap 1 7 key .mailbox).newNonce.mbxEnd 2) t) ∧
         (shape → ¬ (bound ∧ admitted) → ∃ t, exec (.debug len) s = .next t ∧ Settled ((u.sigTrap 9 7 key .mailbox).newNonce.mbxEnd 2) t) ∧
         (shape → bound → admitted → ∃ t, exec (.debug len) s = .next t ∧ Settled ((u.tokenAct level life).newNonce.mbxEnd 0) t))))

/-- R526: DATA_IN and DATA_OUT. -/
def Obligations.DataEnvelopes : Prop :=
  ∀ (s : State) (len : BitVec 24) (body : List Byte) (u : State) (slot : Nat) (w : Tenant) (a : Range),
    s.host.d3hot = false → s.get F.SEC_STATUS_boot_fail = 0 → s.ready = true →
    let n := len.toNat
    let off := s.get F.MBX_ARG_offset
    let e := s.host.staging.rd off n
    let r := s.takeEnvelope e 6 none .mailbox
    let ops := [Instr.dataIn len, .dataOut len]
    (stagingSize < off + n → ∀ i ∈ ops, ∃ t, exec i s = .next t ∧ Settled (s.mbxEnd 4) t) ∧
    (off + n ≤ stagingSize →
      (∀ c, s.envCheck e 6 none = .error c → ∀ i ∈ ops, ∃ t, exec i s = .next t ∧
        Settled ((s.sigTrap c 6 (fieldOf e 8 4) .mailbox).mbxEnd 2) t) ∧
      (r = .ok (body, u) → u.keyOwner (fieldOf e 8 4) = none → ∀ i ∈ ops, ∃ t, exec i s = .next t ∧ Settled (u.mbxEnd 4) t) ∧
      (∀ tk, r = .ok (body, u) → u.keyOwner (fieldOf e 8 4) = some (slot, w, tk) →
        (u.dataRange w body = none → ∀ i ∈ ops, ∃ t, exec i s = .next t ∧ Settled (u.mbxEnd 4) t) ∧
        (u.dataRange w body = some a →
          let size := envHead + 32 + a.2.2
          let at_ := u.get F.MBX_ARG_offset
          let env := u.sealEnvelope w (fieldOf e 8 4) (u.memBytes a.1 a.2.1 a.2.2)
          (body.length = 24 + a.2.2 → ∃ t, exec (.dataIn len) s = .next t ∧ Settled ((u.memWr a.1 a.2.1 (body.drop 24)).mbxEnd 0) t) ∧
          (body.length ≠ 24 + a.2.2 → ∃ t, exec (.dataIn len) s = .next t ∧ Settled (u.mbxEnd 4) t) ∧
          (body.length = 24 → at_ + size ≤ stagingSize → u.stageLocked at_ size = false → ∃ t, exec (.dataOut len) s = .next t ∧
            Settled (({ u with sec.tenants := u.sec.tenants.put slot { w with outCtr := w.outCtr + 1 } }.stageWrite at_ env false).mbxEnd 0 env.length) t) ∧
          (body.length ≠ 24 ∨ stagingSize < at_ + size ∨ u.stageLocked at_ size = true → ∃ t, exec (.dataOut len) s = .next t ∧ Settled (u.mbxEnd 4) t))))

/-- R510, R566, R571 to R573, Table 18-4: the device's reset levels. -/
def Obligations.ResetLevels : Prop :=
  ∀ (s : State) (a b : Fin 6) (key : BitVec 32) (mv : BitVec 16),
    let bad := fun k => if k = 0 then a.val else b.val
    let cold := s.reboot true bad
    let warm := s.reboot false bad
    (∃ t, exec (.coldReset a b) s = .next t ∧ Settled cold t) ∧
    (s.pwr.off = false → ∃ t, exec (.warmReset a b) s = .next t ∧ Settled warm t) ∧
    (s.pwr.off = true → ∃ t, exec (.warmReset a b) s = .next t ∧ Settled s t) ∧
    (s.ready = true → s.host.d3hot = false → s.pwr.off = false → key = 0x5741524D → ∃ t, exec (.pwrRst key a b) s = .next t ∧ Settled warm t) ∧
    (s.ready = false ∨ s.host.d3hot = true ∨ s.pwr.off = true ∨ key ≠ 0x5741524D → ∃ t, exec (.pwrRst key a b) s = .next t ∧ Settled s t) ∧
    (∀ r ∈ [cold, warm], r.mem = ⟨[], []⟩ ∧ r.binds = [] ∧ r.nor.shards = [] ∧ r.cp = CmdProc.init ∧ r.cis = CisStore.init ∧ r.host = HostIf.init ∧
      r.sec.tenants = [] ∧ r.sec.secrets = [] ∧ r.sec.sessions = [] ∧ r.sec.owners = [] ∧ r.det.seeds = [] ∧ r.turn = 0 ∧
      r.pwr = { Power.init with trip := s.pwr.trip } ∧
      r.sec.owner = s.sec.owner ∧ r.sec.fw = s.sec.fw ∧ r.sec.next = none ∧ r.flash = { s.flash with exp := none } ∧ r.pending = s.pending) ∧
    (s.flash.perm = [] → ∀ r ∈ [cold, warm], r.get F.PWR_STATUS_ready = 0 ∧ r.get F.AUD_BOOT_boot = (s.get F.AUD_BOOT_boot + 1) % 2 ^ 32 ∧
      r.get F.CMD_CTL_en = 0 ∧ r.get F.SEC_STATUS_debug = 0 ∧ r.get F.SEC_STATUS_lifecycle = s.get F.SEC_STATUS_lifecycle ∧
      r.get F.FW_SVN_fuse = s.get F.FW_SVN_fuse ∧
      (let x := s.sec.next.getD (s.get F.SEC_STATUS_boot_slot)
       r.get F.SEC_STATUS_boot_fail = 1 ↔ s.slotFails x (bad x) ≠ 0 ∧ s.slotFails (1 - x) (bad (1 - x)) ≠ 0)) ∧
    (let off := fun (t : State) => t.pwr = { Power.init with off := true, trip := t.pwr.trip } ∧ t.mem = ⟨[], []⟩ ∧ t.sec.tenants = [] ∧
       t.sec.owner = s.sec.owner ∧ t.flash = { s.flash with exp := none } ∧ t.get F.PWR_STATUS_ready = 0
     (∃ t : State, exec .resetNLongHold s = .next t ∧ off t ∧ t.pwr.trip = s.pwr.trip ∧ Settled (s.railsOff s.pwr.trip) t) ∧
     (mv.toNat < 36000 → ∃ t : State, exec (.vinCritical mv) s = .next t ∧ off t ∧ t.pwr.trip = false ∧ Settled (s.railsOff false) t) ∧
     (36000 ≤ mv.toNat → ∃ t, exec (.vinCritical mv) s = .next t ∧ Settled s t) ∧
     (63000 < mv.toNat → ∃ t : State, exec (.inputOvervoltage mv) s = .next t ∧ off t ∧ t.pwr.trip = false ∧ Settled (s.railsOff false) t) ∧
     (mv.toNat ≤ 63000 → ∃ t, exec (.inputOvervoltage mv) s = .next t ∧ Settled s t)) ∧
    (let up := s.pwr.off = false ∧ s.get F.SEC_STATUS_boot_fail = 0 ∧ s.get F.SEC_STATUS_lifecycle ≠ 3 ∧ s.ready = false
     let clk := fun i => match islKind i with
       | some k => s.profileMax k
       | none => fixedClock i
     (up → ∃ t : State, exec .powerReady s = .next t ∧ t.ready = true ∧
       Settled (((List.range 24).foldl (fun u i => u.sets [(F.ISL_mhz i, clk i), (F.ISL_mv i, islSupply i (clk i))]) s).set F.PWR_STATUS_ready 1) t) ∧
     (s.pwr.off = true ∨ s.get F.SEC_STATUS_boot_fail = 1 ∨ s.get F.SEC_STATUS_lifecycle = 3 ∨ s.ready = true →
       ∃ t, exec .powerReady s = .next t ∧ Settled s t))

/-- R574, Table 18-5: block resets. -/
def Obligations.BlockResetsRun : Prop :=
  ∀ (s : State) (b : Nat) (bs : List Nat),
    let asked := s.ready = true ∧ s.host.d3hot = false
    let rows : List (Instr × Nat × List Fld) := [(.brstCommandProcessor, 0, [F.CMD_CTL_en]), (.brstEngines, 1, [F.ENG_CTL_en]),
      (.brstCistern, 2, [F.CIS_CTL_en]), (.brstNoria, 3, [F.NOR_CTL_en]), (.brstSwitchCore, 4, [F.SW_CTL_en, F.GR_CTL_en]),
      (.brstHeadgates, 5, [F.HG_CTL_en]), (.brstPorts, 6, [F.PT_GCTL_en, F.SW_CTL_en, F.GR_CTL_en]), (.brstMemory, 7, [F.MEM_CTL_en]),
      (.brstTime, 8, [F.TIME_CTL_en]), (.brstAudit, 9, [F.AUD_CTL_en]), (.brstFaults, 10, [F.FLT_CTL_en])]
    (∀ r ∈ rows,
      (¬ asked → ∃ t, exec r.1 s = .next t ∧ Settled s t) ∧
      (asked → s.get F.PWR_STATUS_brst_busy = 1 → ∃ t, exec r.1 s = .next t ∧
        Settled ((s.inc F.PWR_REJ_COUNT_rej).set F.PWR_REJ_ADDR_addr R.PWR_BRST) t) ∧
      (asked → s.get F.PWR_STATUS_brst_busy = 0 → ∃ t : State, exec r.1 s = .next t ∧
        Settled (({ s with pwr.brst := [r.2.1] }.set F.PWR_STATUS_brst_busy 1).blockReset r.2.1) t ∧ ∀ f ∈ r.2.2, t.get f = 0)) ∧
    (s.blockReset 1).eng.ctxs = [] ∧ (s.blockReset 1).eng.strms = [] ∧ (s.blockReset 1).eng.reqs = [] ∧
    (s.blockReset 2).cis.slots = [] ∧ (s.blockReset 2).cis.regions = [] ∧ (s.blockReset 7).rsv.pins = [] ∧
    (s.blockReset 0).cp.queues = [] ∧ (s.blockReset 8).det.time.counting = false ∧
    (∀ h : Shard, h.halted.snap = none ∧ h.halted.restore = none ∧ (h.halted.st = 2 → False) ∧ (h.halted.st = 3 → False) ∧
      (h.st = 0 ∨ h.st = 1 ∨ 5 ≤ h.st → h.halted.st = h.st)) ∧
    (s.pwr.brst = [] → ∃ t, exec .blockResetDone s = .next t ∧ Settled s t) ∧
    (s.pwr.brst = [b] → ∃ t : State, exec .blockResetDone s = .next t ∧ t.pwr.brst = [] ∧ t.get F.PWR_STATUS_brst_busy = 0 ∧
      Settled (({ s with pwr.brst := [] }.set F.PWR_STATUS_brst_busy 0).intEvent 24) t) ∧
    (∀ c, s.pwr.brst = b :: c :: bs → ∃ t, exec .blockResetDone s = .next t ∧ Settled (({ s with pwr.brst := c :: bs }.intEvent 24).blockReset c) t)

/-- R565, R566, R577 to R581: the power controller. -/
def Obligations.PowerController : Prop :=
  ∀ (s : State) (p : BitVec 3) (temps : List (BitVec 16)) (mvs : List (Fin 24 × BitVec 12)) (mv ca w inlet outlet : BitVec 16) (i : Nat) (pw c : Nat),
    let asked := s.ready = true ∧ s.host.d3hot = false
    (¬ asked → ∃ t, exec (.profileSelect p) s = .next t ∧ Settled s t) ∧
    (asked → p = 0 ∨ p = 7 → ∃ t : State, exec (.profileSelect p) s = .next t ∧ t.get F.PWR_CTL_profile = s.get F.PWR_CTL_profile ∧
      Settled ((s.inc F.PWR_REJ_COUNT_rej).set F.PWR_REJ_ADDR_addr R.PWR_CTL) t) ∧
    (asked → p ≠ 0 → p ≠ 7 → ∃ t : State, exec (.profileSelect p) s = .next t ∧ t.get F.PWR_CTL_profile = p.toNat ∧
      (s.get F.AUD_CTL_en = 0 → t.get F.PWR_STATUS_profile = p.toNat) ∧
      Settled (if s.get F.AUD_CTL_en = 0 then (s.set F.PWR_CTL_profile p.toNat).takeProfile else s.set F.PWR_CTL_profile p.toNat) t) ∧
    (let act := Instr.powerSample temps mvs mv ca w
     let u := (temps.zipIdx).foldl (fun (u : State) x => if x.2 < 24 then u.set (F.ISL_temp x.2) x.1.toNat else u)
       (s.sets [(F.PWR_IN_mv, mv.toNat), (F.PWR_IN_ca, ca.toNat), (F.PWR_IN_w, w.toNat)])
     let trips := fun j => 1000 ≤ sint 16 (u.get (F.ISL_temp j))
     (s.ready = false → ∃ t, exec act s = .next t ∧ Settled s t) ∧
     (s.ready = true → i < 24 → trips i → (∀ j < i, ¬ trips j) → ∃ t : State, exec act s = .next t ∧ Settled (u.thermtrip i) t ∧
       t.pwr.off = true ∧ t.pwr.trip = true ∧ t.get F.PWR_STATUS_ready = 0) ∧
     (s.ready = true → (∀ j < 24, ¬ trips j) →
       let limited := (u.currentCap mv.toNat).guardTemp.limiter w.toNat ((u.currentCap mv.toNat).ceiling mv.toNat)
       let clocked := mvs.foldl (fun (u : State) m => u.set (F.ISL_mv m.1.val) m.2.toNat) limited.clocks
       ∃ t, exec act s = .next t ∧ Settled ((List.range 24).foldl State.guardHot (neighbours.foldl State.guardPair clocked)) t)) ∧
    (let step := fun (u : State) (k d : Nat) => ∀ j < 24, u.pwr.lim.rd j = if j ∈ kindIslands k then d else s.pwr.lim.rd j
     let l := s.limiter pw c
     (c < pw → ∀ x, (∀ j ∈ kindIslands 0, s.pwr.lim.rd j = x) → x < 1000 → step l 0 (min 1000 (x + 50))) ∧
     (c < pw → (∀ j ∈ kindIslands 0, 1000 ≤ s.pwr.lim.rd j) → ∀ x, (∀ j ∈ kindIslands 2, s.pwr.lim.rd j = x) → x < 900 → step l 2 (min 900 (x + 50))) ∧
     (pw ≤ c → 95 * c ≤ 100 * pw → l = { s with pwr.under := 0 }) ∧
     (100 * pw < 95 * c → s.pwr.under < 9 → l = { s with pwr.under := s.pwr.under + 1 }) ∧
     (100 * pw < 95 * c → 9 ≤ s.pwr.under → ∀ x, (∀ j ∈ kindIslands 1, s.pwr.lim.rd j = x) → 0 < x → step l 1 (x - 50))) ∧
    (s.ready = false → ∃ t, exec (.coolantSample inlet outlet) s = .next t ∧ Settled s t) ∧
    (s.ready = true →
      let t_ := sint 16 outlet.toNat
      let u := s.sets [(F.COOL_inlet, inlet.toNat), (F.COOL_outlet, outlet.toNat)]
      let v := if s.pwr.outHot = false ∧ 520 ≤ t_ then { u with pwr.outHot := true }.intEvent 15
        else if s.pwr.outHot = true ∧ t_ < 480 then { u with pwr.outHot := false } else u
      (s.pwr.cool = false → 560 ≤ t_ → ∃ t : State, exec (.coolantSample inlet outlet) s = .next t ∧ t.pwr.cool = true ∧
        Settled (((({ v with pwr.cool := true }.flogAdd (0x7F48 + 132) 4).journalPut 5 3 32 outlet.toNat 0 0 0).intEvent 15).pauseOn 3 0 outlet.toNat) t) ∧
      (s.pwr.cool = true → t_ < 520 → ∃ t : State, exec (.coolantSample inlet outlet) s = .next t ∧ t.pwr.cool = false ∧
        Settled (({ v with pwr.cool := false }.journalPut 5 0x83 32 outlet.toNat 0 0 0).pauseOff 3 0 outlet.toNat) t) ∧
      ((s.pwr.cool = false ∧ t_ < 560) ∨ (s.pwr.cool = true ∧ 520 ≤ t_) → ∃ t, exec (.coolantSample inlet outlet) s = .next t ∧ Settled v t)) ∧
    (s.ready = true → s.get F.PWR_STATUS_vin_low = 0 → mv.toNat < 40000 → ∃ t : State, exec (.vinLow mv) s = .next t ∧
      t.get F.PWR_STATUS_vin_low = 1 ∧ t.get F.PWR_STATUS_paused = 1 ∧
      Settled (((s.sets [(F.PWR_STATUS_vin_low, 1), (F.PWR_IN_mv, mv.toNat)]).intEvent 24).pauseOn 5 0 (8 * mv.toNat / 1000)) t) ∧
    (s.ready = false ∨ s.get F.PWR_STATUS_vin_low = 1 ∨ 40000 ≤ mv.toNat → ∃ t, exec (.vinLow mv) s = .next t ∧ Settled s t) ∧
    (s.get F.PWR_STATUS_vin_low = 1 → 41000 ≤ mv.toNat → ∃ t : State, exec (.vinRecover mv) s = .next t ∧ t.get F.PWR_STATUS_vin_low = 0 ∧
      Settled (((s.sets [(F.PWR_STATUS_vin_low, 0), (F.PWR_IN_mv, mv.toNat)]).intEvent 24).pauseOff 5 0 (8 * mv.toNat / 1000)) t) ∧
    (s.get F.PWR_STATUS_vin_low = 0 ∨ mv.toNat < 41000 → ∃ t, exec (.vinRecover mv) s = .next t ∧ Settled s t)

/-- R540, R541, R559: resets of the function, D-states, masks, moderation, EOI. -/
def Obligations.FunctionStates : Prop :=
  ∀ (s : State) (on masked : Bool) (v : Fin 64),
    let asked := s.ready = true ∧ s.host.d3hot = false
    let entry := s.msixEntry v
    (∀ i ∈ [Instr.functionLevelReset, .pcieHotReset, .pcieLinkLoss], ∃ t : State, exec i s = .next t ∧
      t.host.msix = [] ∧ t.host.pba = 0 ∧ t.host.d3hot = false ∧ t.host.busMaster = false ∧ t.host.lines = 0 ∧ t.get F.INT_EN_en = 0 ∧ t.get F.GCTL_strict = 0 ∧
      (∀ a, 0x100000 ≤ a → a < 0x200000 → t.word a = regInit a) ∧ (∀ a, ¬ (0x100000 ≤ a ∧ a < 0x200000) → a ≠ R.GCTL → t.word a = s.word a) ∧
      t = { s with
        regs := t.regs
        host := { HostIf.init with qcmd := s.host.qcmd, staging := s.host.staging, marks := s.host.marks, locks := s.host.locks, held := s.host.held } }) ∧
    (∃ t, exec .d3hotEntry s = .next t ∧ Settled { s with host.d3hot := true } t) ∧
    (∃ t, exec .d0Entry s = .next t ∧ t.host.d3hot = false ∧ Settled (State.releaseAll { s with host.d3hot := false }) t) ∧
    (∃ t, exec (.busMasterEnable on) s = .next t ∧ t.host.busMaster = on ∧
      Settled (if on then State.releaseAll { s with host.busMaster := true } else { s with host.busMaster := false }) t) ∧
    (∃ t, exec (.msixUnmask none masked) s = .next t ∧ t.host.fnMask = masked ∧
      Settled (if masked then { s with host.fnMask := true } else State.releaseAll { s with host.fnMask := false }) t) ∧
    (¬ asked → (∃ t, exec (.msixUnmask (some v) masked) s = .next t ∧ Settled s t) ∧ (∃ t, exec (.intEoi v) s = .next t ∧ Settled s t)) ∧
    (asked →
      (∃ t : State, exec (.msixUnmask (some v) masked) s = .next t ∧ t.msixEntry v = { entry with mask := masked } ∧
        (∀ w, w ≠ v.val → t.msixEntry w = s.msixEntry w) ∧
        Settled (if masked then s.putMsix v { entry with mask := true } else (s.putMsix v { entry with mask := false }).msixRelease v) t) ∧
      (∃ t, exec (.intEoi v) s = .next t ∧ Settled (if bit s.intLines v then s.msixTrigger v else s) t)) ∧
    (let off := fun (x : Nat) => x &&& (2 ^ 64 - 1 - 1 <<< v.val)
     let u := { s with host.gapOpen := off s.host.gapOpen, host.gapHeld := off s.host.gapHeld }
     (bit s.host.gapOpen v = false → ∃ t, exec (.intModerationExpire v) s = .next t ∧ Settled s t) ∧
     (bit s.host.gapOpen v = true → ∃ t, exec (.intModerationExpire v) s = .next t ∧
       Settled (if bit s.host.gapHeld v && bit s.intLines v then u.msixTrigger v else u) t))

/-- R551 to R557: DW_DATA and DW_BURST. -/
def Obligations.DataWindow : Prop :=
  ∀ (s : State) (v : BitVec 64) (half : Bool) (n : Fin 257) (data : List Byte),
    let sp := s.get F.DW_CTRL_space
    let a := 8 * s.get F.DW_ADDR_addr
    let live := s.host.d3hot = false ∧ s.ready = true
    let refused := fun (kind : Nat) (t : State) => t.get F.DW_ERR_COUNT_refused = (s.get F.DW_ERR_COUNT_refused + 1) % 2 ^ 64 ∧
      t.get F.DW_STATUS_err_space = sp ∧ t.get F.DW_STATUS_err_kind = kind ∧ t.mem = s.mem ∧ t.host.staging = s.host.staging ∧
      (kind = 4 → t.get F.SEC_DW_DENY_denied = (s.get F.SEC_DW_DENY_denied + 1) % 2 ^ 64) ∧
      (kind = 6 → t.get F.DW_LOCK_COUNT_locked = (s.get F.DW_LOCK_COUNT_locked + 1) % 2 ^ 64)
    let moves := fun (t : State) => t.get F.DW_ADDR_addr = (s.get F.DW_ADDR_addr + 1) % 2 ^ 61
    (s.host.d3hot = true → ∀ i ∈ [Instr.dwDataRead half, .dwDataWrite v, .dwBurst (some n) [], .dwBurst none data, .dwStatusRead],
      ∃ t, exec i s = .next t ∧ Settled s t) ∧
    (s.host.d3hot = false → s.ready = false → ∀ i ∈ [Instr.dwDataRead half, .dwBurst (some n) []], ∃ t, exec i s = .next t ∧ Settled (s.emit (.read 0)) t) ∧
    (live → (∃ t, exec (.dwDataRead true) s = .next t ∧ Settled ((s.inc F.HOST_BAD_ACCESS_short).emit (.read 0)) t) ∧
      (s.dwRefused sp a false = 0 →
        let r := s.dwFetch sp a
        ∃ t : State, exec (.dwDataRead false) s = .next t ∧ moves t ∧ Settled ((r.2.inc F.DW_ADDR_addr).emit (.read r.1)) t) ∧
      (s.dwRefused sp a false ≠ 0 → ∃ t : State, exec (.dwDataRead false) s = .next t ∧ moves t ∧ refused (s.dwRefused sp a false) t ∧
        Settled (((s.dwRefuse sp a (s.dwRefused sp a false)).inc F.DW_ADDR_addr).emit (.read 0)) t) ∧
      (let l := n.val
       (l % 8 = 0 → 8 ≤ l → l ≤ 256 → ∃ t, exec (.dwBurst (some n) []) s = .next t ∧ Settled (dwReads (l / 8) s) t) ∧
       (l % 8 ≠ 0 ∨ l < 8 → ∃ t, exec (.dwBurst (some n) []) s = .next t ∧ Settled ((s.inc F.HOST_BAD_ACCESS_short).emit (.read 0)) t))) ∧
    (s.takes R.DW_DATA = true →
      (s.dwRefused sp a true ≠ 0 → ∃ t : State, exec (.dwDataWrite v) s = .next t ∧ moves t ∧ refused (s.dwRefused sp a true) t ∧
        Settled ((s.dwRefuse sp a (s.dwRefused sp a true)).inc F.DW_ADDR_addr) t) ∧
      (s.dwRefused sp a true = 0 → sp = 0 → ∃ t : State, exec (.dwDataWrite v) s = .next t ∧ moves t ∧ t.host.staging.rd a 8 = leBytes v.toNat 8 ∧
        Settled ((s.stageWrite a (leBytes v.toNat 8) false).inc F.DW_ADDR_addr) t) ∧
      (s.dwRefused sp a true = 0 → sp ≠ 0 → ∃ t : State, exec (.dwDataWrite v) s = .next t ∧ moves t ∧ 1 ≤ sp ∧ sp ≤ 3 ∧
        t.mem.bytes.rd (memKey (sp - 1) a) 8 = leBytes v.toNat 8 ∧ Settled ((s.memWr (sp - 1) a (leBytes v.toNat 8)).inc F.DW_ADDR_addr) t)) ∧
    (s.takes R.DW_DATA = false → ∃ t, exec (.dwDataWrite v) s = .next t ∧ Settled s t) ∧
    (s.takes 0x104000 = true →
      (data.length % 8 = 0 → 8 ≤ data.length → data.length ≤ 256 → ∃ t, exec (.dwBurst none data) s = .next t ∧
        Settled ((words8 data).foldl State.dwWrite s) t) ∧
      (data.length % 8 ≠ 0 ∨ data.length < 8 ∨ 256 < data.length → ∃ t, exec (.dwBurst none data) s = .next t ∧ Settled (s.inc F.HOST_BAD_ACCESS_short) t)) ∧
    (s.takes 0x104000 = false → ∃ t, exec (.dwBurst none data) s = .next t ∧ Settled s t) ∧
    (s.host.d3hot = false → ∃ t, exec .dwStatusRead s = .next t ∧ Settled (s.emit (.read (s.readReg R.DW_STATUS))) t)

/-- R543, R545 to R550: register writes, acknowledgements, enables. -/
def Obligations.RegisterWrites : Prop :=
  ∀ (s u : State) (addr : BitVec 26) (kind : Fin 3) (v : BitVec 64) (x : BitVec 32) (data : List Byte) (f : RegField) (m : WMode) (r : Bool),
    let asked := s.ready = true ∧ s.host.d3hot = false
    let a := addr.toNat
    let window := (0x104000 ≤ a ∧ a < 0x104100) ∨ (0x108000 ≤ a ∧ a < 0x10C000)
    (¬ window → a % 8 = 0 → data.length % 8 = 0 → ∃ t, exec (.registerWrite addr data) s = .next t ∧
      Settled (((words8 data).zipIdx).foldl (fun u w => u.writeWord (a + 8 * w.2) w.1) s) t) ∧
    (¬ window → a % 8 ≠ 0 ∨ data.length % 8 ≠ 0 → asked → mapped a = true → ∃ t, exec (.registerWrite addr data) s = .next t ∧
      Settled (s.inc F.HOST_BAD_ACCESS_short) t) ∧
    (¬ window → a % 8 ≠ 0 ∨ data.length % 8 ≠ 0 → ¬ asked ∨ mapped a = false → ∃ t, exec (.registerWrite addr data) s = .next t ∧ Settled s t) ∧
    (0x104000 ≤ a → a < 0x104100 → ∃ t, exec (.registerWrite addr data) s = .next t ∧ Settled (if s.takes 0x104000 then s.burstWrite data else s) t) ∧
    (0x108000 ≤ a → a < 0x10C000 → ¬ asked → ∃ t, exec (.registerWrite addr data) s = .next t ∧ Settled s t) ∧
    (0x108000 ≤ a → a < 0x10C000 → asked →
      (a % 4 ≠ 0 ∨ data.length % 4 ≠ 0 → ∃ t, exec (.registerWrite addr data) s = .next t ∧ Settled (s.inc F.HOST_BAD_ACCESS_short) t) ∧
      (a % 4 = 0 → data.length % 4 = 0 → ∃ t, exec (.registerWrite addr data) s = .next t ∧
        Settled ((dwords (a - 0x108000) data).foldl (fun u w => if w.1 < 0x400 then u.msixDword w.1 w.2 else u) s) t)) ∧
    (∃ t, exec (.registerAliasWrite addr kind v) s = .next t ∧ Settled (s.writeWord (a + 0x1000 * (kind.val + 1)) v.toNat) t) ∧
    (a % 0x4000 < 0x1000 → unaliased (a / 0x4000 * 0x4000) = false →
      decodeOffset a = (a, .base) ∧ decodeOffset (a + 0x1000) = (a, .set) ∧ decodeOffset (a + 0x2000) = (a, .clr) ∧ decodeOffset (a + 0x3000) = (a, .tog)) ∧
    (let cur := bits (s.word a).toNat f.lo f.w
     let w := bits v.toNat f.lo f.w
     let now := match m with
       | .base => w
       | .set => cur ||| w
       | .clr => cur &&& ((2 ^ f.w - 1) ^^^ w)
       | .tog => cur ^^^ w
     let locked := f.acc = .rwl ∧ s.blockOn a = true ∧ (m ≠ .base ∨ now ≠ cur)
     let put := s.putRegField a m v.toNat (u, r) f
     a ≠ R.RSV_MODE 7 →
     (f.acc ≠ .rw → f.acc ≠ .rwl → put = (u, r)) ∧
     (f.acc = .rw ∨ f.acc = .rwl →
       (m ≠ .base → w = 0 → put = (u, r)) ∧
       (m = .base ∨ w ≠ 0 → locked ∨ s.fieldOk a f.lo now = false → put = (u, true)) ∧
       (m = .base ∨ w ≠ 0 → ¬ locked → s.fieldOk a f.lo now = true → put = (u.set ⟨a, f.lo, f.w⟩ now, r)))) ∧
    (¬ asked ∨ ackReg a = false → ∃ t, exec (.recordAckWrite addr x) s = .next t ∧ Settled s t) ∧
    (asked → ackReg a = true → ∃ t, exec (.recordAckWrite addr x) s = .next t ∧ Settled (s.regWrite .base a x.toNat) t) ∧
    (asked → ∃ t : State, exec (.recordAckWrite (BitVec.ofNat 26 R.SIG_ACK) x) s = .next t ∧ Settled (s.set F.SIG_ACK_ack x.toNat) t ∧
      t.get F.SIG_ACK_ack = x.toNat ∧ (t.cause 10 = false ↔ s.get F.SIG_SEQ_seq = x.toNat)) ∧
    (¬ asked → ∀ i ∈ [Instr.cisternEnable, .memoryEnable, .faultEnable, .switchEnable, .tmuxEnable], ∃ t, exec i s = .next t ∧ Settled s t) ∧
    (asked →
      let c := s.set F.CIS_CTL_en 1
      let e := s.set F.MEM_CTL_en 1
      let l := s.set F.FLT_CTL_en 1
      (∀ q ∈ [(Instr.cisternEnable, F.CIS_CTL_en, F.CIS_STATUS_cfg_bad, c, c.cisBad), (.memoryEnable, F.MEM_CTL_en, F.MEM_STATUS_cfg_bad, e, e.memCtlBad),
          (.faultEnable, F.FLT_CTL_en, F.FLT_STATUS_cfg_bad, l, l.fltBad)],
        (s.get q.2.1 = 1 → ∃ t, exec q.1 s = .next t ∧ Settled q.2.2.2.1 t) ∧
        (s.get q.2.1 = 0 → q.2.2.2.2 = true → ∃ t : State, exec q.1 s = .next t ∧ t.get q.2.1 = 0 ∧ t.get q.2.2.1 = 1 ∧ t.cause 18 = true ∧
          Settled (q.2.2.2.1.sets [(q.2.1, 0), (q.2.2.1, 1)]) t) ∧
        (s.get q.2.1 = 0 → q.2.2.2.2 = false → ∃ t : State, exec q.1 s = .next t ∧ t.get q.2.1 = 1 ∧ t.get q.2.2.1 = 0 ∧
          Settled { q.2.2.2.1.set q.2.2.1 0 with rsv := t.rsv } t ∧ (q.1 ≠ .memoryEnable → t.rsv = s.rsv))) ∧
      (s.get F.MEM_CTL_en = 0 → e.memCtlBad = false → ∃ t : State, exec .memoryEnable s = .next t ∧ ∀ j < 512, t.scratch j = bit (s.word (R.RSV_MODE (j / 64))).toNat (j % 64)) ∧
      (s.get F.SW_CTL_en = 0 → s.me = 0xFFFF → ∃ t, exec .switchEnable s = .next t ∧ t.get F.SW_CTL_en = 0 ∧ Settled ((s.set F.SW_CTL_en 1).set F.SW_CTL_en 0) t) ∧
      (s.get F.SW_CTL_en = 1 ∨ s.me ≠ 0xFFFF → ∃ t, exec .switchEnable s = .next t ∧ t.get F.SW_CTL_en = 1 ∧ Settled (s.set F.SW_CTL_en 1) t) ∧
      (s.get F.SEC_STATUS_debug = 0 → ∃ t, exec .tmuxEnable s = .next t ∧ t.get F.TMUX_CTL_en = s.get F.TMUX_CTL_en ∧
        Settled ((s.inc F.DBG_REJ_COUNT_rej).set F.DBG_REJ_ADDR_addr R.TMUX_CTL) t) ∧
      (s.get F.SEC_STATUS_debug ≠ 0 → ∃ t, exec .tmuxEnable s = .next t ∧ t.get F.TMUX_CTL_en = 1 ∧ Settled (s.set F.TMUX_CTL_en 1) t))

/-- R531, R589, R599, R600: the side interfaces. -/
def Obligations.SideInterfaces : Prop :=
  ∀ (s : State) (cells board : BitVec 16) (addr : BitVec 26) (v : BitVec 64) (level : Fin 3) (at_ : BitVec 44) (x : Scan),
    let on := s.pwr.off = false
    let reply := fun (ch : String) (b : List Byte) => s.emit (.reply ch b)
    let isl := fun i => sint 16 (s.get (F.ISL_temp i))
    let stk := fun i => sint 16 (s.get (F.HBM_STACK_temp i))
    (¬ on → ∀ i ∈ [Instr.smbGctlId, .smbPwrStatus, .smbPwrIn, .smbCool, .smbHottestIsland, .smbHottestStack, .smbAlertStatus, .smbFlogPtime,
      .smbOther, .idcode, .bypass, .samplePreload cells board, .extest, .internalScan x], ∃ t, exec i s = .next t ∧ Settled s t) ∧
    (on →
      (∀ q ∈ [(Instr.smbGctlId, R.GCTL_ID), (.smbPwrStatus, R.PWR_STATUS), (.smbPwrIn, R.PWR_IN), (.smbCool, R.COOL), (.smbAlertStatus, R.ALERT_STATUS),
        (.smbFlogPtime, R.FLOG_PTIME)], ∃ t, exec q.1 s = .next t ∧ Settled (reply "SMB" (leBytes (s.regWord q.2) 8)) t) ∧
      (∀ i < 24, (∀ j < i, isl j < isl i) → (∀ j < 24, isl j ≤ isl i) → ∃ t, exec .smbHottestIsland s = .next t ∧
        Settled (reply "SMB" (leBytes (s.get (F.ISL_temp i) + i * 2 ^ 16) 8)) t) ∧
      (∀ i < 8, (∀ j < i, stk j < stk i) → (∀ j < 8, stk j ≤ stk i) → ∃ t, exec .smbHottestStack s = .next t ∧
        Settled (reply "SMB" (leBytes (s.get (F.HBM_STACK_temp i) + i * 2 ^ 16) 8)) t) ∧
      (∃ t, exec .smbOther s = .next t ∧ Settled (reply "SMB_NACK" []) t) ∧
      (∃ t, exec .idcode s = .next t ∧ Settled ({ s with dbg.jtag := 0 }.emit (.reply "TDO" (leBytes (s.regWord R.JTAG_ID) 4))) t) ∧
      (∃ t, exec .bypass s = .next t ∧ Settled { s with dbg.jtag := 1 } t) ∧
      (let low := s.get F.SEC_STATUS_debug = 0
       let u := { s with dbg.jtag := 2, dbg.board := board.toNat }
       (low → ∀ i ∈ [Instr.samplePreload cells board, .extest], ∃ t, exec i s = .next t ∧ Settled { s with dbg.jtag := 1 } t) ∧
       (¬ low → ∃ t, exec (.samplePreload cells board) s = .next t ∧ Settled ({ u with dbg.cells := cells.toNat }.emit
         (.reply "TDO" (leBytes u.pinLevels 2 ++ [if u.alert then 0 else 1, if s.pwr.trip then 0 else 1]))) t) ∧
       (¬ low → s.blkBits = 0 → ∃ t, exec .extest s = .next t ∧ Settled { s with dbg.jtag := 3 } t) ∧
       (¬ low → s.blkBits ≠ 0 → ∃ t, exec .extest s = .next t ∧
         Settled { (s.inc F.DBG_REJ_COUNT_rej).set F.DBG_REJ_ADDR_addr 0x03E00078 with dbg.jtag := 1 } t)) ∧
      (s.get F.SEC_STATUS_debug ≠ 2 → ∃ t, exec (.internalScan x) s = .next t ∧ Settled { s with dbg.jtag := 1 } t) ∧
      (s.get F.SEC_STATUS_debug = 2 →
        let u := { s with dbg.jtag := 4 }
        let tdo := fun (r : Nat × State) => r.2.emit (.reply "TDO" (leBytes r.1 8))
        (∃ t, exec (.internalScan .chain) s = .next t ∧ Settled (tdo (u.free 64)) t) ∧
        (∃ t, exec (.internalScan (.readReg addr)) s = .next t ∧ Settled (tdo (u.regRead addr.toNat)) t) ∧
        (∃ t, exec (.internalScan (.writeReg addr v)) s = .next t ∧ Settled (u.regWrite .base addr.toNat v.toNat) t) ∧
        (let hidden := (level ≠ 0 ∧ s.get F.SEC_STATUS_lifecycle = 1) ∨ levelSize level < at_.toNat + 8 ∨ s.memBad level at_.toNat 8 = true
         (hidden → ∃ t, exec (.internalScan (.readMem level at_)) s = .next t ∧ Settled (tdo (u.free 64)) t) ∧
         (¬ hidden → ∃ t, exec (.internalScan (.readMem level at_)) s = .next t ∧ Settled (tdo (leNat (s.memBytes level at_.toNat 8), u)) t)) ∧
        (at_.toNat + 8 ≤ levelSize level → ∃ t, exec (.internalScan (.writeMem level at_ v)) s = .next t ∧
          Settled (u.memWr level at_.toNat (leBytes v.toNat 8)) t) ∧
        (levelSize level < at_.toNat + 8 → ∃ t, exec (.internalScan (.writeMem level at_ v)) s = .next t ∧ Settled u t)))

/-- R601 to R609: the field log's counts, journals and export. -/
def Obligations.FieldLog : Prop :=
  ∀ (s : State) (fail : Bool) (e : JEntry) (rest : List JEntry) (x : Export),
    (s.pwr.off = true → ∀ i ∈ [Instr.flogSecondTick, .flogSummaryWrite fail], ∃ t, exec i s = .next t ∧ Settled s t) ∧
    (s.pwr.off = false →
      let temps := (List.range 24).map (fun i => s.get (F.ISL_temp i)) ++ (List.range 8).map (fun k => s.get (F.HBM_STACK_temp k)) ++ [s.get F.COOL_outlet]
      let u := (temps.zipIdx).foldl (fun u w => u.flogAdd (0x40 + 4 * (34 * w.2 + logBin w.1)) 4) s
      let p := s.get F.PWR_STATUS_profile
      (∃ t : State, exec .flogSecondTick s = .next t ∧ t.get F.FLOG_PTIME_seconds = (s.get F.FLOG_PTIME_seconds + 1) % 2 ^ 64 ∧
        Settled ((if 1 ≤ p ∧ p ≤ 6 then u.flogAdd (0x11C8 + 8 * (p - 1)) 8 else u).inc F.FLOG_PTIME_seconds) t) ∧
      (let now := s.get F.FLOG_PTIME_seconds
       (now < s.flash.lastAt + 600 → ∃ t, exec (.flogSummaryWrite fail) s = .next t ∧ Settled s t) ∧
       (s.flash.lastAt + 600 ≤ now →
         (∃ t : State, exec (.flogSummaryWrite true) s = .next t ∧ t.get F.FLOG_STATUS_flog_fail = 1 ∧ Settled (s.set F.FLOG_STATUS_flog_fail 1) t) ∧
         (∃ t : State, exec (.flogSummaryWrite false) s = .next t ∧ t.flash.lastAt = now ∧ t.flash.seq = s.flash.seq + 1 ∧
           Settled ({ s with flash.sums := s.flash.sums.filter (fun (y : Summary) => y.seq == s.flash.seq) ++
             [(⟨s.flash.seq + 1, s.flog, s.flash.next, now⟩ : Summary)] }.inc F.FLOG_WRITE_COUNT_summaries) t)))) ∧
    (s.journal = [] → ∃ t, exec (.flogEntryDurable fail) s = .next t ∧ Settled s t) ∧
    (s.journal = e :: rest →
      let u := { s with journal := rest }
      let f := u.set F.FLOG_STATUS_flog_fail 1
      let w := { u with flash := s.flash.write e }.inc F.FLOG_WRITE_COUNT_entries
      (∃ t, exec (.flogEntryDurable true) s = .next t ∧
        Settled (if e.kind = 2 then f.degradeUnit e.unit else if e.kind = 4 then f.lpdDegrade e.unit else f) t) ∧
      (∃ t : State, exec (.flogEntryDurable false) s = .next t ∧ t.flash.next = s.flash.next ∧
        (jPermanent e.kind = true → t.flash.perm = s.flash.perm ++ [e] ∧ t.flash.roll = s.flash.roll) ∧
        (jPermanent e.kind = false → t.flash.perm = s.flash.perm ∧ t.flash.roll.getLast? = some e ∧ t.flash.roll.length ≤ 16384) ∧
        Settled (if e.kind = 2 then w.retireUnit e.unit else if e.kind = 4 then w.remap e.unit e.detail else w) t)) ∧
    (let asked := s.ready = true ∧ s.host.d3hot = false
     let head := leBytes 0x58504C46 4 ++ leBytes 1 2 ++ leBytes 0 2 ++ leBytes flogBytes 4 ++ leBytes 0 4 ++ s.dev ++
       (List.range 4).flatMap (fun n => leBytes (s.word (R.FLOG_NONCE n)).toNat 8)
     (¬ asked → ∃ t, exec .flogExportRequest s = .next t ∧ Settled s t) ∧
     (asked → s.get F.FLOG_STATUS_export_busy = 1 → ∃ t, exec .flogExportRequest s = .next t ∧
       Settled ((s.inc F.DBG_REJ_COUNT_rej).set F.DBG_REJ_ADDR_addr R.FLOG_CTL) t) ∧
     (asked → s.get F.FLOG_STATUS_export_busy = 0 → ∃ t : State, exec .flogExportRequest s = .next t ∧ t.get F.FLOG_STATUS_export_busy = 1 ∧
       Settled ({ s with flash.exp := some ⟨head, s.flogImage, []⟩ }.sets [(F.FLOG_STATUS_export_busy, 1), (F.FLOG_STATUS_export_ready, 0)]) t)) ∧
    (s.flash.exp = none ∨ s.get F.FLOG_STATUS_export_busy = 0 → ∃ t, exec .flogExportReady s = .next t ∧ Settled s t) ∧
    (s.flash.exp = some x → s.get F.FLOG_STATUS_export_busy = 1 → ∃ t : State, exec .flogExportReady s = .next t ∧ t.get F.FLOG_STATUS_export_ready = 1 ∧
      Settled ({ s with flash.exp := some { x with sig := s.aliasSign (x.head ++ x.image.bytes) } }.sets
        [(F.FLOG_STATUS_export_busy, 0), (F.FLOG_STATUS_export_ready, 1)]) t) ∧
    (s.host.d3hot = true → ∃ t, exec .flogDataRead s = .next t ∧ Settled s t) ∧
    (s.host.d3hot = false → s.ready = false → ∃ t, exec .flogDataRead s = .next t ∧ Settled (s.emit (.read 0)) t) ∧
    (s.host.d3hot = false → s.ready = true → ∃ t : State, exec .flogDataRead s = .next t ∧
      Settled ((s.emit (.read (s.flogWord (8 * s.get F.FLOG_ADDR_addr)))).inc F.FLOG_ADDR_addr) t)
end

