-- ==== Sys2Proof/Laws/Map.lean ====
section
/-!
SUPPORT. The laws of sparse maps: a read after a write, the canonical form, and the byte memories built on them.
-/
namespace Sys2Proof.Machine

section
variable {β : Type} {d : Nat → β}

/-! ### Reads and writes -/

theorem SMap.above_mono {lo lo' : Nat} {m : SMap β} (h : lo' ≤ lo) (hm : SMap.above lo m = true) : SMap.above lo' m = true := by
  cases m with
  | nil => rfl
  | cons e m => simp [SMap.above] at *; omega

theorem SMap.get_insert_self {m : SMap β} (k : Nat) (v : β) : SMap.get d (SMap.insert m k v) k = v := by
  induction m with
  | nil => simp [SMap.insert, SMap.get]
  | cons e m ih =>
    obtain ⟨a, x⟩ := e
    simp only [SMap.insert]
    split
    · simp [SMap.get]
    · split
      · simp [SMap.get]
      · rename_i h1 h2
        have : a ≠ k := fun h => h2 h.symm
        simp [SMap.get, this, ih]

theorem SMap.get_insert_of_ne {m : SMap β} {k k' : Nat} (v : β) (h : k' ≠ k) : SMap.get d (SMap.insert m k v) k' = SMap.get d m k' := by
  induction m with
  | nil => simp [SMap.insert, SMap.get, h.symm]
  | cons e m ih =>
    obtain ⟨a, x⟩ := e
    simp only [SMap.insert]
    split
    · simp [SMap.get, h.symm]
    · split
      · rename_i h1 h2
        subst h2
        simp [SMap.get, h.symm]
      · simp [SMap.get, ih]

/-- Filtered-out keys read as unlisted, the others as before. -/
theorem SMap.get_filter {m : SMap β} (p : Nat → Bool) (k : Nat) :
    SMap.get d (m.filter (fun e => p e.1)) k = if p k then SMap.get d m k else d k := by
  induction m with
  | nil => simp [SMap.get]
  | cons e m ih =>
    obtain ⟨a, x⟩ := e
    by_cases hp : p a
    · simp only [List.filter, hp, SMap.get]
      by_cases hk : a = k
      · subst hk; simp [hp]
      · simp only [hk, if_false, ih]
    · simp only [List.filter, hp, SMap.get]
      by_cases hk : a = k
      · subst hk; simp [hp, ih]
      · simp only [hk, if_false, ih]

/-- Erased keys read as unlisted, the others as before. -/
theorem SMap.get_erase {m : SMap β} (p : Nat → Bool) (k : Nat) :
    SMap.get d (SMap.erase p m) k = if p k then d k else SMap.get d m k := by
  have := SMap.get_filter (d := d) (m := m) (fun k => !p k) k
  simp only [SMap.erase]
  rw [this]
  cases p k <;> rfl

theorem SMap.above_insert {m : SMap β} {lo k : Nat} {v : β} (hk : lo < k) (hm : SMap.above lo m = true) :
    SMap.above lo (SMap.insert m k v) = true := by
  cases m with
  | nil => simp [SMap.insert, SMap.above, hk]
  | cons e m =>
    obtain ⟨a, x⟩ := e
    simp only [SMap.above, decide_eq_true_eq] at hm
    simp only [SMap.insert]
    split
    · simp [SMap.above, hk]
    · split <;> simp [SMap.above, hk, hm]

@[simp] theorem SMap.length_getList (m : SMap β) (k n : Nat) : (SMap.getList d m k n).length = n := by
  induction n generalizing k with
  | zero => rfl
  | succ n ih => simp [SMap.getList, ih]

theorem SMap.getElem_getList (m : SMap β) (k n i : Nat) (h : i < n) :
    (SMap.getList d m k n)[i]'(by simpa using h) = SMap.get d m (k + i) := by
  induction n generalizing k i with
  | zero => omega
  | succ n ih =>
    cases i with
    | zero => rfl
    | succ i =>
      simp only [SMap.getList, List.getElem_cons_succ]
      rw [ih (k + 1) i (by omega), show k + 1 + i = k + (i + 1) by omega]

end

section
variable {β : Type} [DecidableEq β] {d : Nat → β}

/-- A read of the key written gives the value written. -/
@[simp] theorem SMap.get_set_self (m : SMap β) (k : Nat) (v : β) : SMap.get d (SMap.set d m k v) k = v := by
  simp only [SMap.set]
  split
  · rename_i h
    rw [SMap.get_filter (fun a => a != k)]
    simp [h]
  · exact SMap.get_insert_self k v

/-- A write leaves every other key alone. -/
theorem SMap.get_set_of_ne (m : SMap β) {k k' : Nat} (v : β) (h : k' ≠ k) : SMap.get d (SMap.set d m k v) k' = SMap.get d m k' := by
  simp only [SMap.set]
  split
  · rw [SMap.get_filter (fun a => a != k)]
    simp [h]
  · exact SMap.get_insert_of_ne v h

/-! ### The canonical form -/

theorem SMap.wf_insert {m : SMap β} (k : Nat) (v : β) (hv : v ≠ d k) (hw : SMap.wf d m = true) :
    SMap.wf d (SMap.insert m k v) = true := by
  induction m with
  | nil => simp [SMap.insert, SMap.wf, SMap.above, hv]
  | cons e m ih =>
    obtain ⟨a, x⟩ := e
    have hw0 := hw
    simp only [SMap.wf, Bool.and_eq_true] at hw
    simp only [SMap.insert]
    split
    · rename_i h
      simp only [SMap.wf, hv, SMap.above, Bool.and_eq_true, decide_eq_true_eq]
      exact ⟨⟨rfl, h⟩, ⟨hw.1, hw.2⟩⟩
    · split
      · rename_i h1 h2
        subst h2
        simp only [SMap.wf, hv, Bool.and_eq_true]
        exact ⟨⟨rfl, hw.1.2⟩, hw.2⟩
      · rename_i h1 h2
        simp only [SMap.wf, Bool.and_eq_true]
        exact ⟨⟨hw.1.1, SMap.above_insert (by omega) hw.1.2⟩, ih hw.2⟩

theorem SMap.above_filter {m : SMap β} {lo : Nat} {p : Nat × β → Bool} (hw : SMap.wf d m = true) (hm : SMap.above lo m = true) :
    SMap.above lo (m.filter p) = true := by
  induction m with
  | nil => rfl
  | cons e m ih =>
    obtain ⟨a, x⟩ := e
    simp only [SMap.wf, SMap.above, Bool.and_eq_true, decide_eq_true_eq] at hw hm
    simp only [List.filter]
    split
    · simp [SMap.above, hm]
    · exact ih hw.2 (SMap.above_mono (le_of_lt hm) hw.1.2)

/-- Taking entries out keeps the canonical form. -/
theorem SMap.wf_filter {m : SMap β} (p : Nat × β → Bool) (hw : SMap.wf d m = true) : SMap.wf d (m.filter p) = true := by
  induction m with
  | nil => rfl
  | cons e m ih =>
    obtain ⟨a, x⟩ := e
    simp only [SMap.wf, Bool.and_eq_true] at hw
    simp only [List.filter]
    split
    · simp only [SMap.wf, Bool.and_eq_true]
      exact ⟨⟨hw.1.1, SMap.above_filter hw.2 hw.1.2⟩, ih hw.2⟩
    · exact ih hw.2

/-- A write keeps the canonical form. -/
theorem SMap.wf_set {m : SMap β} (k : Nat) (v : β) (hw : SMap.wf d m = true) : SMap.wf d (SMap.set d m k v) = true := by
  simp only [SMap.set]
  split
  · exact SMap.wf_filter _ hw
  · exact SMap.wf_insert k v ‹_› hw

theorem SMap.wf_erase {m : SMap β} (p : Nat → Bool) (hw : SMap.wf d m = true) : SMap.wf d (SMap.erase p m) = true :=
  SMap.wf_filter _ hw

theorem SMap.wf_setList {m : SMap β} (k : Nat) (l : List β) (hw : SMap.wf d m = true) : SMap.wf d (SMap.setList d m k l) = true := by
  induction l generalizing m k with
  | nil => exact hw
  | cons v l ih => exact ih (k + 1) (SMap.wf_set k v hw)

/-! ### Runs of values -/

/-- A write of consecutive values leaves the keys outside them alone. -/
theorem SMap.get_setList_of_ne {m : SMap β} (k : Nat) (l : List β) {k' : Nat} (h : k' < k ∨ k + l.length ≤ k') :
    SMap.get d (SMap.setList d m k l) k' = SMap.get d m k' := by
  induction l generalizing m k with
  | nil => rfl
  | cons v l ih =>
    simp only [List.length_cons] at h
    simp only [SMap.setList]
    rw [ih (k + 1) (by omega), SMap.get_set_of_ne m v (by omega)]

/-- A read of a place of consecutive values written gives the value written. -/
theorem SMap.get_setList {m : SMap β} (k : Nat) (l : List β) (i : Nat) (hi : i < l.length) :
    SMap.get d (SMap.setList d m k l) (k + i) = l[i] := by
  induction l generalizing m k i with
  | nil => simp at hi
  | cons v l ih =>
    simp only [SMap.setList]
    cases i with
    | zero =>
      rw [SMap.get_setList_of_ne (k + 1) l (by omega)]
      simp
    | succ i =>
      have := ih (k + 1) i (m := SMap.set d m k v) (by simpa using hi)
      rw [show k + (i + 1) = k + 1 + i by omega]
      simpa using this

/-- Consecutive values written are read back. -/
theorem SMap.getList_setList {m : SMap β} (k : Nat) (l : List β) :
    SMap.getList d (SMap.setList d m k l) k l.length = l := by
  apply List.ext_getElem (by simp)
  intro i h1 h2
  rw [SMap.getElem_getList _ _ _ _ (by simpa using h1), SMap.get_setList k l i h2]

end

/-! ### Tables of optional values, of numbers, of bytes -/

section
variable {γ : Type} [DecidableEq γ]

@[simp] theorem OMap.find_put_self (m : OMap γ) (k : Nat) (v : γ) : (m.put k v).find k = some v := SMap.get_set_self m k (some v)

theorem OMap.find_put_of_ne (m : OMap γ) {k k' : Nat} (v : γ) (h : k' ≠ k) : (m.put k v).find k' = m.find k' :=
  SMap.get_set_of_ne m _ h

@[simp] theorem OMap.find_drop_self (m : OMap γ) (k : Nat) : (m.drop k).find k = none := SMap.get_set_self m k none

theorem OMap.find_drop_of_ne (m : OMap γ) {k k' : Nat} (h : k' ≠ k) : (m.drop k).find k' = m.find k' := SMap.get_set_of_ne m _ h

end

@[simp] theorem NMap.rd_wr_self (m : NMap) (k v : Nat) : (m.wr k v).rd k = v := SMap.get_set_self m k v

theorem NMap.rd_wr_of_ne (m : NMap) {k k' : Nat} (v : Nat) (h : k' ≠ k) : (m.wr k v).rd k' = m.rd k' := SMap.get_set_of_ne m _ h

/-- A write of bytes keeps the memory's canonical form. -/
theorem Bytes.wf_wr {m : Bytes} (a : Nat) (bs : List Byte) (hw : m.wf = true) : (m.wr a bs).wf = true :=
  SMap.wf_setList a bs hw

/-- Bytes written are read back. -/
theorem Bytes.rd_wr (m : Bytes) (a : Nat) (bs : List Byte) : (m.wr a bs).rd a bs.length = bs :=
  SMap.getList_setList a bs

/-- A write leaves every byte outside it alone. -/
theorem Bytes.rd_wr_of_disjoint (m : Bytes) (a : Nat) (bs : List Byte) (b n : Nat) (h : b + n ≤ a ∨ a + bs.length ≤ b) :
    (m.wr a bs).rd b n = m.rd b n := by
  apply List.ext_getElem (by simp [Bytes.rd])
  intro i h1 h2
  simp only [Bytes.rd, SMap.length_getList] at h1
  simp only [Bytes.rd, Bytes.wr]
  rw [SMap.getElem_getList _ _ _ _ h1, SMap.getElem_getList _ _ _ _ h1, SMap.get_setList_of_ne a bs (by omega)]

end Sys2Proof.Machine
end

