-- ==== Sys2Proof/Laws/Regs.lean ====
section
/-!
SUPPORT. The laws of the register space: a field read after a write of itself, of another field of its register, and of
another register.
-/
namespace Sys2Proof.Machine
open Sys2Proof

/-! ### Bits of numbers -/

theorem testBit_bits (x lo w i : Nat) : (bits x lo w).testBit i = (decide (i < w) && x.testBit (lo + i)) := by
  simp [bits, Nat.testBit_mod_two_pow, Nat.testBit_shiftRight]

theorem bits_lt (x lo w : Nat) : bits x lo w < 2 ^ w := Nat.mod_lt _ (Nat.two_pow_pos w)

theorem bits_zero_mod (x w : Nat) : bits x 0 w = x % 2 ^ w := by simp [bits]

/-! ### Fields -/

/-- The bits of a word after a field is replaced. -/
theorem testBit_putField (w : Word) (f : Fld) (v i : Nat) (h : i < 64) :
    (putField w f v).toNat.testBit i = if f.lo ≤ i ∧ i < f.lo + f.w then v.testBit (i - f.lo) else w.toNat.testBit i := by
  simp only [putField, BitVec.toNat_ofNat, Nat.testBit_mod_two_pow, h, decide_true, Bool.true_and, Nat.testBit_or, Nat.testBit_xor,
    Nat.testBit_shiftLeft, testBit_bits]
  by_cases h1 : f.lo ≤ i
  · by_cases h2 : i < f.lo + f.w
    · have h3 : i - f.lo < f.w := by omega
      simp [h1, h2, h3]
    · have h3 : ¬ i - f.lo < f.w := by omega
      simp [h1, h2, h3]
  · simp [h1]

/-- A field keeps the value put in it, cut to its width. -/
theorem bits_putField_self (w : Word) (f : Fld) (v : Nat) (h : f.lo + f.w ≤ 64) :
    bits (putField w f v).toNat f.lo f.w = v % 2 ^ f.w := by
  apply Nat.eq_of_testBit_eq
  intro i
  rw [testBit_bits, Nat.testBit_mod_two_pow]
  by_cases hi : i < f.w
  · rw [testBit_putField _ _ _ _ (by omega)]
    simp [hi]
  · simp [hi]

/-- A field keeps its value when another field of the word is put. -/
theorem bits_putField_of_disjoint (w : Word) (f : Fld) (v lo n : Nat) (h : lo + n ≤ f.lo ∨ f.lo + f.w ≤ lo) (hn : lo + n ≤ 64) :
    bits (putField w f v).toNat lo n = bits w.toNat lo n := by
  apply Nat.eq_of_testBit_eq
  intro i
  simp only [testBit_bits]
  by_cases hi : i < n
  · rw [testBit_putField _ _ _ _ (by omega)]
    have : ¬ (f.lo ≤ lo + i ∧ lo + i < f.lo + f.w) := by omega
    simp [this]
  · simp [hi]

namespace State

/-! ### Words -/

@[simp] theorem word_setWord_self (s : State) (a : Nat) (w : Word) : (s.setWord a w).word a = w := SMap.get_set_self s.regs a w

theorem word_setWord_of_ne (s : State) {a b : Nat} (w : Word) (h : b ≠ a) : (s.setWord a w).word b = s.word b :=
  SMap.get_set_of_ne s.regs w h

@[simp] theorem word_set_self (s : State) (f : Fld) (v : Nat) : (s.set f v).word f.reg = putField (s.word f.reg) f v := by
  simp [set]

theorem word_set_of_ne (s : State) (f : Fld) (v : Nat) {a : Nat} (h : a ≠ f.reg) : (s.set f v).word a = s.word a := by
  simp [set, word_setWord_of_ne _ _ h]

theorem word_inc_of_ne (s : State) (f : Fld) (n : Nat) {a : Nat} (h : a ≠ f.reg) : (s.inc f n).word a = s.word a :=
  word_set_of_ne s f _ h

theorem word_resetRegs (s : State) (p : Nat → Bool) (a : Nat) : (s.resetRegs p).word a = if p a then regInit a else s.word a :=
  SMap.get_erase p a

/-! ### Fields -/

theorem get_lt (s : State) (f : Fld) : s.get f < 2 ^ f.w := bits_lt _ _ _

theorem get_setWord_self (s : State) (f : Fld) (w : Word) : (s.setWord f.reg w).get f = bits w.toNat f.lo f.w := by
  simp [get]

theorem get_setWord_of_ne (s : State) (f : Fld) {a : Nat} (w : Word) (h : f.reg ≠ a) : (s.setWord a w).get f = s.get f := by
  simp [get, word_setWord_of_ne _ _ h]

/-- A field reads the value set, cut to its width. -/
theorem get_set_self (s : State) (f : Fld) (v : Nat) (h : f.lo + f.w ≤ 64) : (s.set f v).get f = v % 2 ^ f.w := by
  simp only [get, word_set_self]
  exact bits_putField_self _ f v h

/-- A field of another register keeps its value. -/
theorem get_set_of_ne (s : State) (f g : Fld) (v : Nat) (h : g.reg ≠ f.reg) : (s.set f v).get g = s.get g := by
  simp [get, word_set_of_ne s f v h]

/-- Another field of the register keeps its value. -/
theorem get_set_of_disjoint (s : State) (f g : Fld) (v : Nat) (h : g.lo + g.w ≤ f.lo ∨ f.lo + f.w ≤ g.lo) (hg : g.lo + g.w ≤ 64) :
    (s.set f v).get g = s.get g := by
  by_cases hr : g.reg = f.reg
  · simp only [get, hr, word_set_self]
    exact bits_putField_of_disjoint _ f v g.lo g.w h hg
  · exact get_set_of_ne s f g v hr

/-- A counter goes up by the amount, modulo its width (R13). -/
theorem get_inc_self (s : State) (f : Fld) (n : Nat) (h : f.lo + f.w ≤ 64) : (s.inc f n).get f = (s.get f + n) % 2 ^ f.w :=
  get_set_self s f _ h

theorem get_inc_of_ne (s : State) (f g : Fld) (n : Nat) (h : g.reg ≠ f.reg) : (s.inc f n).get g = s.get g :=
  get_set_of_ne s f g _ h

theorem get_inc_of_disjoint (s : State) (f g : Fld) (n : Nat) (h : g.lo + g.w ≤ f.lo ∨ f.lo + f.w ≤ g.lo) (hg : g.lo + g.w ≤ 64) :
    (s.inc f n).get g = s.get g :=
  get_set_of_disjoint s f g _ h hg

theorem get_resetRegs (s : State) (p : Nat → Bool) (f : Fld) :
    (s.resetRegs p).get f = if p f.reg then bits (regInit f.reg).toNat f.lo f.w else s.get f := by
  simp only [get, word_resetRegs]
  split <;> rfl

/-! ### The canonical form of the register space -/

theorem regs_wf_setWord (s : State) (a : Nat) (w : Word) (h : SMap.wf regInit s.regs = true) :
    SMap.wf regInit (s.setWord a w).regs = true := SMap.wf_set a w h

theorem regs_wf_set (s : State) (f : Fld) (v : Nat) (h : SMap.wf regInit s.regs = true) :
    SMap.wf regInit (s.set f v).regs = true := SMap.wf_set _ _ h

theorem regs_wf_resetRegs (s : State) (p : Nat → Bool) (h : SMap.wf regInit s.regs = true) :
    SMap.wf regInit (s.resetRegs p).regs = true := SMap.wf_erase p h

end State

end Sys2Proof.Machine
end

