-- ==== Sys2Proof/Laws/State.lean ====
section
/-!
SUPPORT. Which fields of the state each basic update leaves alone: one lemma per update and field.
-/
namespace Sys2Proof.Machine.State
open Sys2Proof

/-! ### setWord -/

@[simp] theorem setWord_turn (s : State) (a : Nat) (w : Word) : (s.setWord a w).turn = s.turn := rfl
@[simp] theorem setWord_fresh (s : State) (a : Nat) (w : Word) : (s.setWord a w).fresh = s.fresh := rfl
@[simp] theorem setWord_host (s : State) (a : Nat) (w : Word) : (s.setWord a w).host = s.host := rfl
@[simp] theorem setWord_eng (s : State) (a : Nat) (w : Word) : (s.setWord a w).eng = s.eng := rfl
@[simp] theorem setWord_cis (s : State) (a : Nat) (w : Word) : (s.setWord a w).cis = s.cis := rfl
@[simp] theorem setWord_cp (s : State) (a : Nat) (w : Word) : (s.setWord a w).cp = s.cp := rfl
@[simp] theorem setWord_mem (s : State) (a : Nat) (w : Word) : (s.setWord a w).mem = s.mem := rfl
@[simp] theorem setWord_binds (s : State) (a : Nat) (w : Word) : (s.setWord a w).binds = s.binds := rfl
@[simp] theorem setWord_nor (s : State) (a : Nat) (w : Word) : (s.setWord a w).nor = s.nor := rfl
@[simp] theorem setWord_bitev (s : State) (a : Nat) (w : Word) : (s.setWord a w).bitev = s.bitev := rfl
@[simp] theorem setWord_det (s : State) (a : Nat) (w : Word) : (s.setWord a w).det = s.det := rfl
@[simp] theorem setWord_sec (s : State) (a : Nat) (w : Word) : (s.setWord a w).sec = s.sec := rfl
@[simp] theorem setWord_journal (s : State) (a : Nat) (w : Word) : (s.setWord a w).journal = s.journal := rfl
@[simp] theorem setWord_flog (s : State) (a : Nat) (w : Word) : (s.setWord a w).flog = s.flog := rfl
@[simp] theorem setWord_reports (s : State) (a : Nat) (w : Word) : (s.setWord a w).reports = s.reports := rfl
@[simp] theorem setWord_beat (s : State) (a : Nat) (w : Word) : (s.setWord a w).beat = s.beat := rfl
@[simp] theorem setWord_sw (s : State) (a : Nat) (w : Word) : (s.setWord a w).sw = s.sw := rfl
@[simp] theorem setWord_links (s : State) (a : Nat) (w : Word) : (s.setWord a w).links = s.links := rfl
@[simp] theorem setWord_pwr (s : State) (a : Nat) (w : Word) : (s.setWord a w).pwr = s.pwr := rfl
@[simp] theorem setWord_rsv (s : State) (a : Nat) (w : Word) : (s.setWord a w).rsv = s.rsv := rfl
@[simp] theorem setWord_flt (s : State) (a : Nat) (w : Word) : (s.setWord a w).flt = s.flt := rfl
@[simp] theorem setWord_dbg (s : State) (a : Nat) (w : Word) : (s.setWord a w).dbg = s.dbg := rfl
@[simp] theorem setWord_flash (s : State) (a : Nat) (w : Word) : (s.setWord a w).flash = s.flash := rfl
@[simp] theorem setWord_xing (s : State) (a : Nat) (w : Word) : (s.setWord a w).xing = s.xing := rfl
@[simp] theorem setWord_out (s : State) (a : Nat) (w : Word) : (s.setWord a w).out = s.out := rfl
@[simp] theorem setWord_pending (s : State) (a : Nat) (w : Word) : (s.setWord a w).pending = s.pending := rfl

/-! ### set -/

@[simp] theorem set_turn (s : State) (f : Fld) (v : Nat) : (s.set f v).turn = s.turn := rfl
@[simp] theorem set_fresh (s : State) (f : Fld) (v : Nat) : (s.set f v).fresh = s.fresh := rfl
@[simp] theorem set_host (s : State) (f : Fld) (v : Nat) : (s.set f v).host = s.host := rfl
@[simp] theorem set_eng (s : State) (f : Fld) (v : Nat) : (s.set f v).eng = s.eng := rfl
@[simp] theorem set_cis (s : State) (f : Fld) (v : Nat) : (s.set f v).cis = s.cis := rfl
@[simp] theorem set_cp (s : State) (f : Fld) (v : Nat) : (s.set f v).cp = s.cp := rfl
@[simp] theorem set_mem (s : State) (f : Fld) (v : Nat) : (s.set f v).mem = s.mem := rfl
@[simp] theorem set_binds (s : State) (f : Fld) (v : Nat) : (s.set f v).binds = s.binds := rfl
@[simp] theorem set_nor (s : State) (f : Fld) (v : Nat) : (s.set f v).nor = s.nor := rfl
@[simp] theorem set_bitev (s : State) (f : Fld) (v : Nat) : (s.set f v).bitev = s.bitev := rfl
@[simp] theorem set_det (s : State) (f : Fld) (v : Nat) : (s.set f v).det = s.det := rfl
@[simp] theorem set_sec (s : State) (f : Fld) (v : Nat) : (s.set f v).sec = s.sec := rfl
@[simp] theorem set_journal (s : State) (f : Fld) (v : Nat) : (s.set f v).journal = s.journal := rfl
@[simp] theorem set_flog (s : State) (f : Fld) (v : Nat) : (s.set f v).flog = s.flog := rfl
@[simp] theorem set_reports (s : State) (f : Fld) (v : Nat) : (s.set f v).reports = s.reports := rfl
@[simp] theorem set_beat (s : State) (f : Fld) (v : Nat) : (s.set f v).beat = s.beat := rfl
@[simp] theorem set_sw (s : State) (f : Fld) (v : Nat) : (s.set f v).sw = s.sw := rfl
@[simp] theorem set_links (s : State) (f : Fld) (v : Nat) : (s.set f v).links = s.links := rfl
@[simp] theorem set_pwr (s : State) (f : Fld) (v : Nat) : (s.set f v).pwr = s.pwr := rfl
@[simp] theorem set_rsv (s : State) (f : Fld) (v : Nat) : (s.set f v).rsv = s.rsv := rfl
@[simp] theorem set_flt (s : State) (f : Fld) (v : Nat) : (s.set f v).flt = s.flt := rfl
@[simp] theorem set_dbg (s : State) (f : Fld) (v : Nat) : (s.set f v).dbg = s.dbg := rfl
@[simp] theorem set_flash (s : State) (f : Fld) (v : Nat) : (s.set f v).flash = s.flash := rfl
@[simp] theorem set_xing (s : State) (f : Fld) (v : Nat) : (s.set f v).xing = s.xing := rfl
@[simp] theorem set_out (s : State) (f : Fld) (v : Nat) : (s.set f v).out = s.out := rfl
@[simp] theorem set_pending (s : State) (f : Fld) (v : Nat) : (s.set f v).pending = s.pending := rfl

/-! ### inc -/

@[simp] theorem inc_turn (s : State) (f : Fld) (n : Nat) : (s.inc f n).turn = s.turn := rfl
@[simp] theorem inc_fresh (s : State) (f : Fld) (n : Nat) : (s.inc f n).fresh = s.fresh := rfl
@[simp] theorem inc_host (s : State) (f : Fld) (n : Nat) : (s.inc f n).host = s.host := rfl
@[simp] theorem inc_eng (s : State) (f : Fld) (n : Nat) : (s.inc f n).eng = s.eng := rfl
@[simp] theorem inc_cis (s : State) (f : Fld) (n : Nat) : (s.inc f n).cis = s.cis := rfl
@[simp] theorem inc_cp (s : State) (f : Fld) (n : Nat) : (s.inc f n).cp = s.cp := rfl
@[simp] theorem inc_mem (s : State) (f : Fld) (n : Nat) : (s.inc f n).mem = s.mem := rfl
@[simp] theorem inc_binds (s : State) (f : Fld) (n : Nat) : (s.inc f n).binds = s.binds := rfl
@[simp] theorem inc_nor (s : State) (f : Fld) (n : Nat) : (s.inc f n).nor = s.nor := rfl
@[simp] theorem inc_bitev (s : State) (f : Fld) (n : Nat) : (s.inc f n).bitev = s.bitev := rfl
@[simp] theorem inc_det (s : State) (f : Fld) (n : Nat) : (s.inc f n).det = s.det := rfl
@[simp] theorem inc_sec (s : State) (f : Fld) (n : Nat) : (s.inc f n).sec = s.sec := rfl
@[simp] theorem inc_journal (s : State) (f : Fld) (n : Nat) : (s.inc f n).journal = s.journal := rfl
@[simp] theorem inc_flog (s : State) (f : Fld) (n : Nat) : (s.inc f n).flog = s.flog := rfl
@[simp] theorem inc_reports (s : State) (f : Fld) (n : Nat) : (s.inc f n).reports = s.reports := rfl
@[simp] theorem inc_beat (s : State) (f : Fld) (n : Nat) : (s.inc f n).beat = s.beat := rfl
@[simp] theorem inc_sw (s : State) (f : Fld) (n : Nat) : (s.inc f n).sw = s.sw := rfl
@[simp] theorem inc_links (s : State) (f : Fld) (n : Nat) : (s.inc f n).links = s.links := rfl
@[simp] theorem inc_pwr (s : State) (f : Fld) (n : Nat) : (s.inc f n).pwr = s.pwr := rfl
@[simp] theorem inc_rsv (s : State) (f : Fld) (n : Nat) : (s.inc f n).rsv = s.rsv := rfl
@[simp] theorem inc_flt (s : State) (f : Fld) (n : Nat) : (s.inc f n).flt = s.flt := rfl
@[simp] theorem inc_dbg (s : State) (f : Fld) (n : Nat) : (s.inc f n).dbg = s.dbg := rfl
@[simp] theorem inc_flash (s : State) (f : Fld) (n : Nat) : (s.inc f n).flash = s.flash := rfl
@[simp] theorem inc_xing (s : State) (f : Fld) (n : Nat) : (s.inc f n).xing = s.xing := rfl
@[simp] theorem inc_out (s : State) (f : Fld) (n : Nat) : (s.inc f n).out = s.out := rfl
@[simp] theorem inc_pending (s : State) (f : Fld) (n : Nat) : (s.inc f n).pending = s.pending := rfl

/-! ### intEvent -/

@[simp] theorem intEvent_turn (s : State) (k : Nat) : (s.intEvent k).turn = s.turn := rfl
@[simp] theorem intEvent_fresh (s : State) (k : Nat) : (s.intEvent k).fresh = s.fresh := rfl
@[simp] theorem intEvent_host (s : State) (k : Nat) : (s.intEvent k).host = s.host := rfl
@[simp] theorem intEvent_eng (s : State) (k : Nat) : (s.intEvent k).eng = s.eng := rfl
@[simp] theorem intEvent_cis (s : State) (k : Nat) : (s.intEvent k).cis = s.cis := rfl
@[simp] theorem intEvent_cp (s : State) (k : Nat) : (s.intEvent k).cp = s.cp := rfl
@[simp] theorem intEvent_mem (s : State) (k : Nat) : (s.intEvent k).mem = s.mem := rfl
@[simp] theorem intEvent_binds (s : State) (k : Nat) : (s.intEvent k).binds = s.binds := rfl
@[simp] theorem intEvent_nor (s : State) (k : Nat) : (s.intEvent k).nor = s.nor := rfl
@[simp] theorem intEvent_bitev (s : State) (k : Nat) : (s.intEvent k).bitev = s.bitev := rfl
@[simp] theorem intEvent_det (s : State) (k : Nat) : (s.intEvent k).det = s.det := rfl
@[simp] theorem intEvent_sec (s : State) (k : Nat) : (s.intEvent k).sec = s.sec := rfl
@[simp] theorem intEvent_journal (s : State) (k : Nat) : (s.intEvent k).journal = s.journal := rfl
@[simp] theorem intEvent_flog (s : State) (k : Nat) : (s.intEvent k).flog = s.flog := rfl
@[simp] theorem intEvent_reports (s : State) (k : Nat) : (s.intEvent k).reports = s.reports := rfl
@[simp] theorem intEvent_beat (s : State) (k : Nat) : (s.intEvent k).beat = s.beat := rfl
@[simp] theorem intEvent_sw (s : State) (k : Nat) : (s.intEvent k).sw = s.sw := rfl
@[simp] theorem intEvent_links (s : State) (k : Nat) : (s.intEvent k).links = s.links := rfl
@[simp] theorem intEvent_pwr (s : State) (k : Nat) : (s.intEvent k).pwr = s.pwr := rfl
@[simp] theorem intEvent_rsv (s : State) (k : Nat) : (s.intEvent k).rsv = s.rsv := rfl
@[simp] theorem intEvent_flt (s : State) (k : Nat) : (s.intEvent k).flt = s.flt := rfl
@[simp] theorem intEvent_dbg (s : State) (k : Nat) : (s.intEvent k).dbg = s.dbg := rfl
@[simp] theorem intEvent_flash (s : State) (k : Nat) : (s.intEvent k).flash = s.flash := rfl
@[simp] theorem intEvent_xing (s : State) (k : Nat) : (s.intEvent k).xing = s.xing := rfl
@[simp] theorem intEvent_out (s : State) (k : Nat) : (s.intEvent k).out = s.out := rfl
@[simp] theorem intEvent_pending (s : State) (k : Nat) : (s.intEvent k).pending = s.pending := rfl

/-! ### pert -/

@[simp] theorem pert_turn (s : State) (c n : Nat) : (s.pert c n).turn = s.turn := rfl
@[simp] theorem pert_fresh (s : State) (c n : Nat) : (s.pert c n).fresh = s.fresh := rfl
@[simp] theorem pert_host (s : State) (c n : Nat) : (s.pert c n).host = s.host := rfl
@[simp] theorem pert_eng (s : State) (c n : Nat) : (s.pert c n).eng = s.eng := rfl
@[simp] theorem pert_cis (s : State) (c n : Nat) : (s.pert c n).cis = s.cis := rfl
@[simp] theorem pert_cp (s : State) (c n : Nat) : (s.pert c n).cp = s.cp := rfl
@[simp] theorem pert_mem (s : State) (c n : Nat) : (s.pert c n).mem = s.mem := rfl
@[simp] theorem pert_binds (s : State) (c n : Nat) : (s.pert c n).binds = s.binds := rfl
@[simp] theorem pert_nor (s : State) (c n : Nat) : (s.pert c n).nor = s.nor := rfl
@[simp] theorem pert_bitev (s : State) (c n : Nat) : (s.pert c n).bitev = s.bitev := rfl
@[simp] theorem pert_sec (s : State) (c n : Nat) : (s.pert c n).sec = s.sec := rfl
@[simp] theorem pert_journal (s : State) (c n : Nat) : (s.pert c n).journal = s.journal := rfl
@[simp] theorem pert_flog (s : State) (c n : Nat) : (s.pert c n).flog = s.flog := rfl
@[simp] theorem pert_reports (s : State) (c n : Nat) : (s.pert c n).reports = s.reports := rfl
@[simp] theorem pert_beat (s : State) (c n : Nat) : (s.pert c n).beat = s.beat := rfl
@[simp] theorem pert_sw (s : State) (c n : Nat) : (s.pert c n).sw = s.sw := rfl
@[simp] theorem pert_links (s : State) (c n : Nat) : (s.pert c n).links = s.links := rfl
@[simp] theorem pert_pwr (s : State) (c n : Nat) : (s.pert c n).pwr = s.pwr := rfl
@[simp] theorem pert_rsv (s : State) (c n : Nat) : (s.pert c n).rsv = s.rsv := rfl
@[simp] theorem pert_flt (s : State) (c n : Nat) : (s.pert c n).flt = s.flt := rfl
@[simp] theorem pert_dbg (s : State) (c n : Nat) : (s.pert c n).dbg = s.dbg := rfl
@[simp] theorem pert_flash (s : State) (c n : Nat) : (s.pert c n).flash = s.flash := rfl
@[simp] theorem pert_xing (s : State) (c n : Nat) : (s.pert c n).xing = s.xing := rfl
@[simp] theorem pert_out (s : State) (c n : Nat) : (s.pert c n).out = s.out := rfl
@[simp] theorem pert_pending (s : State) (c n : Nat) : (s.pert c n).pending = s.pending := rfl

/-! ### spill -/

@[simp] theorem spill_turn (s : State) (r n : Nat) : (s.spill r n).turn = s.turn := rfl
@[simp] theorem spill_fresh (s : State) (r n : Nat) : (s.spill r n).fresh = s.fresh := rfl
@[simp] theorem spill_host (s : State) (r n : Nat) : (s.spill r n).host = s.host := rfl
@[simp] theorem spill_eng (s : State) (r n : Nat) : (s.spill r n).eng = s.eng := rfl
@[simp] theorem spill_cis (s : State) (r n : Nat) : (s.spill r n).cis = s.cis := rfl
@[simp] theorem spill_cp (s : State) (r n : Nat) : (s.spill r n).cp = s.cp := rfl
@[simp] theorem spill_mem (s : State) (r n : Nat) : (s.spill r n).mem = s.mem := rfl
@[simp] theorem spill_binds (s : State) (r n : Nat) : (s.spill r n).binds = s.binds := rfl
@[simp] theorem spill_nor (s : State) (r n : Nat) : (s.spill r n).nor = s.nor := rfl
@[simp] theorem spill_bitev (s : State) (r n : Nat) : (s.spill r n).bitev = s.bitev := rfl
@[simp] theorem spill_det (s : State) (r n : Nat) : (s.spill r n).det = s.det := rfl
@[simp] theorem spill_sec (s : State) (r n : Nat) : (s.spill r n).sec = s.sec := rfl
@[simp] theorem spill_journal (s : State) (r n : Nat) : (s.spill r n).journal = s.journal := rfl
@[simp] theorem spill_flog (s : State) (r n : Nat) : (s.spill r n).flog = s.flog := rfl
@[simp] theorem spill_reports (s : State) (r n : Nat) : (s.spill r n).reports = s.reports := rfl
@[simp] theorem spill_beat (s : State) (r n : Nat) : (s.spill r n).beat = s.beat := rfl
@[simp] theorem spill_sw (s : State) (r n : Nat) : (s.spill r n).sw = s.sw := rfl
@[simp] theorem spill_links (s : State) (r n : Nat) : (s.spill r n).links = s.links := rfl
@[simp] theorem spill_pwr (s : State) (r n : Nat) : (s.spill r n).pwr = s.pwr := rfl
@[simp] theorem spill_rsv (s : State) (r n : Nat) : (s.spill r n).rsv = s.rsv := rfl
@[simp] theorem spill_flt (s : State) (r n : Nat) : (s.spill r n).flt = s.flt := rfl
@[simp] theorem spill_dbg (s : State) (r n : Nat) : (s.spill r n).dbg = s.dbg := rfl
@[simp] theorem spill_flash (s : State) (r n : Nat) : (s.spill r n).flash = s.flash := rfl
@[simp] theorem spill_xing (s : State) (r n : Nat) : (s.spill r n).xing = s.xing := rfl
@[simp] theorem spill_out (s : State) (r n : Nat) : (s.spill r n).out = s.out := rfl
@[simp] theorem spill_pending (s : State) (r n : Nat) : (s.spill r n).pending = s.pending := rfl

/-! ### resetRegs -/

@[simp] theorem resetRegs_turn (s : State) (p : Nat → Bool) : (s.resetRegs p).turn = s.turn := rfl
@[simp] theorem resetRegs_fresh (s : State) (p : Nat → Bool) : (s.resetRegs p).fresh = s.fresh := rfl
@[simp] theorem resetRegs_host (s : State) (p : Nat → Bool) : (s.resetRegs p).host = s.host := rfl
@[simp] theorem resetRegs_eng (s : State) (p : Nat → Bool) : (s.resetRegs p).eng = s.eng := rfl
@[simp] theorem resetRegs_cis (s : State) (p : Nat → Bool) : (s.resetRegs p).cis = s.cis := rfl
@[simp] theorem resetRegs_cp (s : State) (p : Nat → Bool) : (s.resetRegs p).cp = s.cp := rfl
@[simp] theorem resetRegs_mem (s : State) (p : Nat → Bool) : (s.resetRegs p).mem = s.mem := rfl
@[simp] theorem resetRegs_binds (s : State) (p : Nat → Bool) : (s.resetRegs p).binds = s.binds := rfl
@[simp] theorem resetRegs_nor (s : State) (p : Nat → Bool) : (s.resetRegs p).nor = s.nor := rfl
@[simp] theorem resetRegs_bitev (s : State) (p : Nat → Bool) : (s.resetRegs p).bitev = s.bitev := rfl
@[simp] theorem resetRegs_det (s : State) (p : Nat → Bool) : (s.resetRegs p).det = s.det := rfl
@[simp] theorem resetRegs_sec (s : State) (p : Nat → Bool) : (s.resetRegs p).sec = s.sec := rfl
@[simp] theorem resetRegs_journal (s : State) (p : Nat → Bool) : (s.resetRegs p).journal = s.journal := rfl
@[simp] theorem resetRegs_flog (s : State) (p : Nat → Bool) : (s.resetRegs p).flog = s.flog := rfl
@[simp] theorem resetRegs_reports (s : State) (p : Nat → Bool) : (s.resetRegs p).reports = s.reports := rfl
@[simp] theorem resetRegs_beat (s : State) (p : Nat → Bool) : (s.resetRegs p).beat = s.beat := rfl
@[simp] theorem resetRegs_sw (s : State) (p : Nat → Bool) : (s.resetRegs p).sw = s.sw := rfl
@[simp] theorem resetRegs_links (s : State) (p : Nat → Bool) : (s.resetRegs p).links = s.links := rfl
@[simp] theorem resetRegs_pwr (s : State) (p : Nat → Bool) : (s.resetRegs p).pwr = s.pwr := rfl
@[simp] theorem resetRegs_rsv (s : State) (p : Nat → Bool) : (s.resetRegs p).rsv = s.rsv := rfl
@[simp] theorem resetRegs_flt (s : State) (p : Nat → Bool) : (s.resetRegs p).flt = s.flt := rfl
@[simp] theorem resetRegs_dbg (s : State) (p : Nat → Bool) : (s.resetRegs p).dbg = s.dbg := rfl
@[simp] theorem resetRegs_flash (s : State) (p : Nat → Bool) : (s.resetRegs p).flash = s.flash := rfl
@[simp] theorem resetRegs_xing (s : State) (p : Nat → Bool) : (s.resetRegs p).xing = s.xing := rfl
@[simp] theorem resetRegs_out (s : State) (p : Nat → Bool) : (s.resetRegs p).out = s.out := rfl
@[simp] theorem resetRegs_pending (s : State) (p : Nat → Bool) : (s.resetRegs p).pending = s.pending := rfl

/-! ### emit -/

@[simp] theorem emit_regs (s : State) (o : Out) : (s.emit o).regs = s.regs := rfl
@[simp] theorem emit_turn (s : State) (o : Out) : (s.emit o).turn = s.turn := rfl
@[simp] theorem emit_fresh (s : State) (o : Out) : (s.emit o).fresh = s.fresh := rfl
@[simp] theorem emit_host (s : State) (o : Out) : (s.emit o).host = s.host := rfl
@[simp] theorem emit_eng (s : State) (o : Out) : (s.emit o).eng = s.eng := rfl
@[simp] theorem emit_cis (s : State) (o : Out) : (s.emit o).cis = s.cis := rfl
@[simp] theorem emit_cp (s : State) (o : Out) : (s.emit o).cp = s.cp := rfl
@[simp] theorem emit_mem (s : State) (o : Out) : (s.emit o).mem = s.mem := rfl
@[simp] theorem emit_binds (s : State) (o : Out) : (s.emit o).binds = s.binds := rfl
@[simp] theorem emit_nor (s : State) (o : Out) : (s.emit o).nor = s.nor := rfl
@[simp] theorem emit_bitev (s : State) (o : Out) : (s.emit o).bitev = s.bitev := rfl
@[simp] theorem emit_det (s : State) (o : Out) : (s.emit o).det = s.det := rfl
@[simp] theorem emit_sec (s : State) (o : Out) : (s.emit o).sec = s.sec := rfl
@[simp] theorem emit_journal (s : State) (o : Out) : (s.emit o).journal = s.journal := rfl
@[simp] theorem emit_flog (s : State) (o : Out) : (s.emit o).flog = s.flog := rfl
@[simp] theorem emit_reports (s : State) (o : Out) : (s.emit o).reports = s.reports := rfl
@[simp] theorem emit_beat (s : State) (o : Out) : (s.emit o).beat = s.beat := rfl
@[simp] theorem emit_sw (s : State) (o : Out) : (s.emit o).sw = s.sw := rfl
@[simp] theorem emit_links (s : State) (o : Out) : (s.emit o).links = s.links := rfl
@[simp] theorem emit_pwr (s : State) (o : Out) : (s.emit o).pwr = s.pwr := rfl
@[simp] theorem emit_rsv (s : State) (o : Out) : (s.emit o).rsv = s.rsv := rfl
@[simp] theorem emit_flt (s : State) (o : Out) : (s.emit o).flt = s.flt := rfl
@[simp] theorem emit_dbg (s : State) (o : Out) : (s.emit o).dbg = s.dbg := rfl
@[simp] theorem emit_flash (s : State) (o : Out) : (s.emit o).flash = s.flash := rfl
@[simp] theorem emit_xing (s : State) (o : Out) : (s.emit o).xing = s.xing := rfl
@[simp] theorem emit_pending (s : State) (o : Out) : (s.emit o).pending = s.pending := rfl

/-! ### send -/

@[simp] theorem send_regs (s : State) (d c n : Nat) (l : List (Nat × Nat × Nat)) : (s.send d c n l).regs = s.regs := rfl
@[simp] theorem send_turn (s : State) (d c n : Nat) (l : List (Nat × Nat × Nat)) : (s.send d c n l).turn = s.turn := rfl
@[simp] theorem send_fresh (s : State) (d c n : Nat) (l : List (Nat × Nat × Nat)) : (s.send d c n l).fresh = s.fresh := rfl
@[simp] theorem send_host (s : State) (d c n : Nat) (l : List (Nat × Nat × Nat)) : (s.send d c n l).host = s.host := rfl
@[simp] theorem send_eng (s : State) (d c n : Nat) (l : List (Nat × Nat × Nat)) : (s.send d c n l).eng = s.eng := rfl
@[simp] theorem send_cis (s : State) (d c n : Nat) (l : List (Nat × Nat × Nat)) : (s.send d c n l).cis = s.cis := rfl
@[simp] theorem send_cp (s : State) (d c n : Nat) (l : List (Nat × Nat × Nat)) : (s.send d c n l).cp = s.cp := rfl
@[simp] theorem send_mem (s : State) (d c n : Nat) (l : List (Nat × Nat × Nat)) : (s.send d c n l).mem = s.mem := rfl
@[simp] theorem send_binds (s : State) (d c n : Nat) (l : List (Nat × Nat × Nat)) : (s.send d c n l).binds = s.binds := rfl
@[simp] theorem send_nor (s : State) (d c n : Nat) (l : List (Nat × Nat × Nat)) : (s.send d c n l).nor = s.nor := rfl
@[simp] theorem send_bitev (s : State) (d c n : Nat) (l : List (Nat × Nat × Nat)) : (s.send d c n l).bitev = s.bitev := rfl
@[simp] theorem send_det (s : State) (d c n : Nat) (l : List (Nat × Nat × Nat)) : (s.send d c n l).det = s.det := rfl
@[simp] theorem send_sec (s : State) (d c n : Nat) (l : List (Nat × Nat × Nat)) : (s.send d c n l).sec = s.sec := rfl
@[simp] theorem send_journal (s : State) (d c n : Nat) (l : List (Nat × Nat × Nat)) : (s.send d c n l).journal = s.journal := rfl
@[simp] theorem send_flog (s : State) (d c n : Nat) (l : List (Nat × Nat × Nat)) : (s.send d c n l).flog = s.flog := rfl
@[simp] theorem send_reports (s : State) (d c n : Nat) (l : List (Nat × Nat × Nat)) : (s.send d c n l).reports = s.reports := rfl
@[simp] theorem send_beat (s : State) (d c n : Nat) (l : List (Nat × Nat × Nat)) : (s.send d c n l).beat = s.beat := rfl
@[simp] theorem send_sw (s : State) (d c n : Nat) (l : List (Nat × Nat × Nat)) : (s.send d c n l).sw = s.sw := rfl
@[simp] theorem send_links (s : State) (d c n : Nat) (l : List (Nat × Nat × Nat)) : (s.send d c n l).links = s.links := rfl
@[simp] theorem send_pwr (s : State) (d c n : Nat) (l : List (Nat × Nat × Nat)) : (s.send d c n l).pwr = s.pwr := rfl
@[simp] theorem send_rsv (s : State) (d c n : Nat) (l : List (Nat × Nat × Nat)) : (s.send d c n l).rsv = s.rsv := rfl
@[simp] theorem send_flt (s : State) (d c n : Nat) (l : List (Nat × Nat × Nat)) : (s.send d c n l).flt = s.flt := rfl
@[simp] theorem send_dbg (s : State) (d c n : Nat) (l : List (Nat × Nat × Nat)) : (s.send d c n l).dbg = s.dbg := rfl
@[simp] theorem send_flash (s : State) (d c n : Nat) (l : List (Nat × Nat × Nat)) : (s.send d c n l).flash = s.flash := rfl
@[simp] theorem send_xing (s : State) (d c n : Nat) (l : List (Nat × Nat × Nat)) : (s.send d c n l).xing = s.xing := rfl
@[simp] theorem send_pending (s : State) (d c n : Nat) (l : List (Nat × Nat × Nat)) : (s.send d c n l).pending = s.pending := rfl

/-! ### sendMod -/

@[simp] theorem sendMod_regs (s : State) (m y n : Nat) (l : List (Nat × Nat × Nat)) : (s.sendMod m y n l).regs = s.regs := rfl
@[simp] theorem sendMod_turn (s : State) (m y n : Nat) (l : List (Nat × Nat × Nat)) : (s.sendMod m y n l).turn = s.turn := rfl
@[simp] theorem sendMod_fresh (s : State) (m y n : Nat) (l : List (Nat × Nat × Nat)) : (s.sendMod m y n l).fresh = s.fresh := rfl
@[simp] theorem sendMod_host (s : State) (m y n : Nat) (l : List (Nat × Nat × Nat)) : (s.sendMod m y n l).host = s.host := rfl
@[simp] theorem sendMod_eng (s : State) (m y n : Nat) (l : List (Nat × Nat × Nat)) : (s.sendMod m y n l).eng = s.eng := rfl
@[simp] theorem sendMod_cis (s : State) (m y n : Nat) (l : List (Nat × Nat × Nat)) : (s.sendMod m y n l).cis = s.cis := rfl
@[simp] theorem sendMod_cp (s : State) (m y n : Nat) (l : List (Nat × Nat × Nat)) : (s.sendMod m y n l).cp = s.cp := rfl
@[simp] theorem sendMod_mem (s : State) (m y n : Nat) (l : List (Nat × Nat × Nat)) : (s.sendMod m y n l).mem = s.mem := rfl
@[simp] theorem sendMod_binds (s : State) (m y n : Nat) (l : List (Nat × Nat × Nat)) : (s.sendMod m y n l).binds = s.binds := rfl
@[simp] theorem sendMod_nor (s : State) (m y n : Nat) (l : List (Nat × Nat × Nat)) : (s.sendMod m y n l).nor = s.nor := rfl
@[simp] theorem sendMod_bitev (s : State) (m y n : Nat) (l : List (Nat × Nat × Nat)) : (s.sendMod m y n l).bitev = s.bitev := rfl
@[simp] theorem sendMod_det (s : State) (m y n : Nat) (l : List (Nat × Nat × Nat)) : (s.sendMod m y n l).det = s.det := rfl
@[simp] theorem sendMod_sec (s : State) (m y n : Nat) (l : List (Nat × Nat × Nat)) : (s.sendMod m y n l).sec = s.sec := rfl
@[simp] theorem sendMod_journal (s : State) (m y n : Nat) (l : List (Nat × Nat × Nat)) : (s.sendMod m y n l).journal = s.journal := rfl
@[simp] theorem sendMod_flog (s : State) (m y n : Nat) (l : List (Nat × Nat × Nat)) : (s.sendMod m y n l).flog = s.flog := rfl
@[simp] theorem sendMod_reports (s : State) (m y n : Nat) (l : List (Nat × Nat × Nat)) : (s.sendMod m y n l).reports = s.reports := rfl
@[simp] theorem sendMod_beat (s : State) (m y n : Nat) (l : List (Nat × Nat × Nat)) : (s.sendMod m y n l).beat = s.beat := rfl
@[simp] theorem sendMod_sw (s : State) (m y n : Nat) (l : List (Nat × Nat × Nat)) : (s.sendMod m y n l).sw = s.sw := rfl
@[simp] theorem sendMod_links (s : State) (m y n : Nat) (l : List (Nat × Nat × Nat)) : (s.sendMod m y n l).links = s.links := rfl
@[simp] theorem sendMod_pwr (s : State) (m y n : Nat) (l : List (Nat × Nat × Nat)) : (s.sendMod m y n l).pwr = s.pwr := rfl
@[simp] theorem sendMod_rsv (s : State) (m y n : Nat) (l : List (Nat × Nat × Nat)) : (s.sendMod m y n l).rsv = s.rsv := rfl
@[simp] theorem sendMod_flt (s : State) (m y n : Nat) (l : List (Nat × Nat × Nat)) : (s.sendMod m y n l).flt = s.flt := rfl
@[simp] theorem sendMod_dbg (s : State) (m y n : Nat) (l : List (Nat × Nat × Nat)) : (s.sendMod m y n l).dbg = s.dbg := rfl
@[simp] theorem sendMod_flash (s : State) (m y n : Nat) (l : List (Nat × Nat × Nat)) : (s.sendMod m y n l).flash = s.flash := rfl
@[simp] theorem sendMod_xing (s : State) (m y n : Nat) (l : List (Nat × Nat × Nat)) : (s.sendMod m y n l).xing = s.xing := rfl
@[simp] theorem sendMod_pending (s : State) (m y n : Nat) (l : List (Nat × Nat × Nat)) : (s.sendMod m y n l).pending = s.pending := rfl

/-! ### bitEvent -/

@[simp] theorem bitEvent_regs (s : State) (a k : Nat) : (s.bitEvent a k).regs = s.regs := rfl
@[simp] theorem bitEvent_turn (s : State) (a k : Nat) : (s.bitEvent a k).turn = s.turn := rfl
@[simp] theorem bitEvent_fresh (s : State) (a k : Nat) : (s.bitEvent a k).fresh = s.fresh := rfl
@[simp] theorem bitEvent_host (s : State) (a k : Nat) : (s.bitEvent a k).host = s.host := rfl
@[simp] theorem bitEvent_eng (s : State) (a k : Nat) : (s.bitEvent a k).eng = s.eng := rfl
@[simp] theorem bitEvent_cis (s : State) (a k : Nat) : (s.bitEvent a k).cis = s.cis := rfl
@[simp] theorem bitEvent_cp (s : State) (a k : Nat) : (s.bitEvent a k).cp = s.cp := rfl
@[simp] theorem bitEvent_mem (s : State) (a k : Nat) : (s.bitEvent a k).mem = s.mem := rfl
@[simp] theorem bitEvent_binds (s : State) (a k : Nat) : (s.bitEvent a k).binds = s.binds := rfl
@[simp] theorem bitEvent_nor (s : State) (a k : Nat) : (s.bitEvent a k).nor = s.nor := rfl
@[simp] theorem bitEvent_det (s : State) (a k : Nat) : (s.bitEvent a k).det = s.det := rfl
@[simp] theorem bitEvent_sec (s : State) (a k : Nat) : (s.bitEvent a k).sec = s.sec := rfl
@[simp] theorem bitEvent_journal (s : State) (a k : Nat) : (s.bitEvent a k).journal = s.journal := rfl
@[simp] theorem bitEvent_flog (s : State) (a k : Nat) : (s.bitEvent a k).flog = s.flog := rfl
@[simp] theorem bitEvent_reports (s : State) (a k : Nat) : (s.bitEvent a k).reports = s.reports := rfl
@[simp] theorem bitEvent_beat (s : State) (a k : Nat) : (s.bitEvent a k).beat = s.beat := rfl
@[simp] theorem bitEvent_sw (s : State) (a k : Nat) : (s.bitEvent a k).sw = s.sw := rfl
@[simp] theorem bitEvent_links (s : State) (a k : Nat) : (s.bitEvent a k).links = s.links := rfl
@[simp] theorem bitEvent_pwr (s : State) (a k : Nat) : (s.bitEvent a k).pwr = s.pwr := rfl
@[simp] theorem bitEvent_rsv (s : State) (a k : Nat) : (s.bitEvent a k).rsv = s.rsv := rfl
@[simp] theorem bitEvent_flt (s : State) (a k : Nat) : (s.bitEvent a k).flt = s.flt := rfl
@[simp] theorem bitEvent_dbg (s : State) (a k : Nat) : (s.bitEvent a k).dbg = s.dbg := rfl
@[simp] theorem bitEvent_flash (s : State) (a k : Nat) : (s.bitEvent a k).flash = s.flash := rfl
@[simp] theorem bitEvent_xing (s : State) (a k : Nat) : (s.bitEvent a k).xing = s.xing := rfl
@[simp] theorem bitEvent_out (s : State) (a k : Nat) : (s.bitEvent a k).out = s.out := rfl
@[simp] theorem bitEvent_pending (s : State) (a k : Nat) : (s.bitEvent a k).pending = s.pending := rfl

/-! ### putCtx -/

@[simp] theorem putCtx_regs (s : State) (e x : Nat) (c : Ctx) : (s.putCtx e x c).regs = s.regs := rfl
@[simp] theorem putCtx_turn (s : State) (e x : Nat) (c : Ctx) : (s.putCtx e x c).turn = s.turn := rfl
@[simp] theorem putCtx_fresh (s : State) (e x : Nat) (c : Ctx) : (s.putCtx e x c).fresh = s.fresh := rfl
@[simp] theorem putCtx_host (s : State) (e x : Nat) (c : Ctx) : (s.putCtx e x c).host = s.host := rfl
@[simp] theorem putCtx_cis (s : State) (e x : Nat) (c : Ctx) : (s.putCtx e x c).cis = s.cis := rfl
@[simp] theorem putCtx_cp (s : State) (e x : Nat) (c : Ctx) : (s.putCtx e x c).cp = s.cp := rfl
@[simp] theorem putCtx_mem (s : State) (e x : Nat) (c : Ctx) : (s.putCtx e x c).mem = s.mem := rfl
@[simp] theorem putCtx_binds (s : State) (e x : Nat) (c : Ctx) : (s.putCtx e x c).binds = s.binds := rfl
@[simp] theorem putCtx_nor (s : State) (e x : Nat) (c : Ctx) : (s.putCtx e x c).nor = s.nor := rfl
@[simp] theorem putCtx_bitev (s : State) (e x : Nat) (c : Ctx) : (s.putCtx e x c).bitev = s.bitev := rfl
@[simp] theorem putCtx_det (s : State) (e x : Nat) (c : Ctx) : (s.putCtx e x c).det = s.det := rfl
@[simp] theorem putCtx_sec (s : State) (e x : Nat) (c : Ctx) : (s.putCtx e x c).sec = s.sec := rfl
@[simp] theorem putCtx_journal (s : State) (e x : Nat) (c : Ctx) : (s.putCtx e x c).journal = s.journal := rfl
@[simp] theorem putCtx_flog (s : State) (e x : Nat) (c : Ctx) : (s.putCtx e x c).flog = s.flog := rfl
@[simp] theorem putCtx_reports (s : State) (e x : Nat) (c : Ctx) : (s.putCtx e x c).reports = s.reports := rfl
@[simp] theorem putCtx_beat (s : State) (e x : Nat) (c : Ctx) : (s.putCtx e x c).beat = s.beat := rfl
@[simp] theorem putCtx_sw (s : State) (e x : Nat) (c : Ctx) : (s.putCtx e x c).sw = s.sw := rfl
@[simp] theorem putCtx_links (s : State) (e x : Nat) (c : Ctx) : (s.putCtx e x c).links = s.links := rfl
@[simp] theorem putCtx_pwr (s : State) (e x : Nat) (c : Ctx) : (s.putCtx e x c).pwr = s.pwr := rfl
@[simp] theorem putCtx_rsv (s : State) (e x : Nat) (c : Ctx) : (s.putCtx e x c).rsv = s.rsv := rfl
@[simp] theorem putCtx_flt (s : State) (e x : Nat) (c : Ctx) : (s.putCtx e x c).flt = s.flt := rfl
@[simp] theorem putCtx_dbg (s : State) (e x : Nat) (c : Ctx) : (s.putCtx e x c).dbg = s.dbg := rfl
@[simp] theorem putCtx_flash (s : State) (e x : Nat) (c : Ctx) : (s.putCtx e x c).flash = s.flash := rfl
@[simp] theorem putCtx_xing (s : State) (e x : Nat) (c : Ctx) : (s.putCtx e x c).xing = s.xing := rfl
@[simp] theorem putCtx_out (s : State) (e x : Nat) (c : Ctx) : (s.putCtx e x c).out = s.out := rfl
@[simp] theorem putCtx_pending (s : State) (e x : Nat) (c : Ctx) : (s.putCtx e x c).pending = s.pending := rfl

/-! ### putStrm -/

@[simp] theorem putStrm_regs (s : State) (e n : Nat) (t : Strm) : (s.putStrm e n t).regs = s.regs := rfl
@[simp] theorem putStrm_turn (s : State) (e n : Nat) (t : Strm) : (s.putStrm e n t).turn = s.turn := rfl
@[simp] theorem putStrm_fresh (s : State) (e n : Nat) (t : Strm) : (s.putStrm e n t).fresh = s.fresh := rfl
@[simp] theorem putStrm_host (s : State) (e n : Nat) (t : Strm) : (s.putStrm e n t).host = s.host := rfl
@[simp] theorem putStrm_cis (s : State) (e n : Nat) (t : Strm) : (s.putStrm e n t).cis = s.cis := rfl
@[simp] theorem putStrm_cp (s : State) (e n : Nat) (t : Strm) : (s.putStrm e n t).cp = s.cp := rfl
@[simp] theorem putStrm_mem (s : State) (e n : Nat) (t : Strm) : (s.putStrm e n t).mem = s.mem := rfl
@[simp] theorem putStrm_binds (s : State) (e n : Nat) (t : Strm) : (s.putStrm e n t).binds = s.binds := rfl
@[simp] theorem putStrm_nor (s : State) (e n : Nat) (t : Strm) : (s.putStrm e n t).nor = s.nor := rfl
@[simp] theorem putStrm_bitev (s : State) (e n : Nat) (t : Strm) : (s.putStrm e n t).bitev = s.bitev := rfl
@[simp] theorem putStrm_det (s : State) (e n : Nat) (t : Strm) : (s.putStrm e n t).det = s.det := rfl
@[simp] theorem putStrm_sec (s : State) (e n : Nat) (t : Strm) : (s.putStrm e n t).sec = s.sec := rfl
@[simp] theorem putStrm_journal (s : State) (e n : Nat) (t : Strm) : (s.putStrm e n t).journal = s.journal := rfl
@[simp] theorem putStrm_flog (s : State) (e n : Nat) (t : Strm) : (s.putStrm e n t).flog = s.flog := rfl
@[simp] theorem putStrm_reports (s : State) (e n : Nat) (t : Strm) : (s.putStrm e n t).reports = s.reports := rfl
@[simp] theorem putStrm_beat (s : State) (e n : Nat) (t : Strm) : (s.putStrm e n t).beat = s.beat := rfl
@[simp] theorem putStrm_sw (s : State) (e n : Nat) (t : Strm) : (s.putStrm e n t).sw = s.sw := rfl
@[simp] theorem putStrm_links (s : State) (e n : Nat) (t : Strm) : (s.putStrm e n t).links = s.links := rfl
@[simp] theorem putStrm_pwr (s : State) (e n : Nat) (t : Strm) : (s.putStrm e n t).pwr = s.pwr := rfl
@[simp] theorem putStrm_rsv (s : State) (e n : Nat) (t : Strm) : (s.putStrm e n t).rsv = s.rsv := rfl
@[simp] theorem putStrm_flt (s : State) (e n : Nat) (t : Strm) : (s.putStrm e n t).flt = s.flt := rfl
@[simp] theorem putStrm_dbg (s : State) (e n : Nat) (t : Strm) : (s.putStrm e n t).dbg = s.dbg := rfl
@[simp] theorem putStrm_flash (s : State) (e n : Nat) (t : Strm) : (s.putStrm e n t).flash = s.flash := rfl
@[simp] theorem putStrm_xing (s : State) (e n : Nat) (t : Strm) : (s.putStrm e n t).xing = s.xing := rfl
@[simp] theorem putStrm_out (s : State) (e n : Nat) (t : Strm) : (s.putStrm e n t).out = s.out := rfl
@[simp] theorem putStrm_pending (s : State) (e n : Nat) (t : Strm) : (s.putStrm e n t).pending = s.pending := rfl

/-- A count of R330 changes of the audit state the step's own counts alone. -/
@[simp] theorem pert_det (s : State) (c n : Nat) : (s.pert c n).det = { s.det with audit.perts := s.det.audit.perts.wr c (s.det.audit.perts.rd c + n) } := rfl

/-! ### free -/

@[simp] theorem free_regs (s : State) (w : Nat) : (s.free w).2.regs = s.regs := rfl
@[simp] theorem free_turn (s : State) (w : Nat) : (s.free w).2.turn = s.turn := rfl
@[simp] theorem free_host (s : State) (w : Nat) : (s.free w).2.host = s.host := rfl
@[simp] theorem free_eng (s : State) (w : Nat) : (s.free w).2.eng = s.eng := rfl
@[simp] theorem free_cis (s : State) (w : Nat) : (s.free w).2.cis = s.cis := rfl
@[simp] theorem free_cp (s : State) (w : Nat) : (s.free w).2.cp = s.cp := rfl
@[simp] theorem free_mem (s : State) (w : Nat) : (s.free w).2.mem = s.mem := rfl
@[simp] theorem free_binds (s : State) (w : Nat) : (s.free w).2.binds = s.binds := rfl
@[simp] theorem free_nor (s : State) (w : Nat) : (s.free w).2.nor = s.nor := rfl
@[simp] theorem free_bitev (s : State) (w : Nat) : (s.free w).2.bitev = s.bitev := rfl
@[simp] theorem free_det (s : State) (w : Nat) : (s.free w).2.det = s.det := rfl
@[simp] theorem free_sec (s : State) (w : Nat) : (s.free w).2.sec = s.sec := rfl
@[simp] theorem free_journal (s : State) (w : Nat) : (s.free w).2.journal = s.journal := rfl
@[simp] theorem free_flog (s : State) (w : Nat) : (s.free w).2.flog = s.flog := rfl
@[simp] theorem free_reports (s : State) (w : Nat) : (s.free w).2.reports = s.reports := rfl
@[simp] theorem free_beat (s : State) (w : Nat) : (s.free w).2.beat = s.beat := rfl
@[simp] theorem free_sw (s : State) (w : Nat) : (s.free w).2.sw = s.sw := rfl
@[simp] theorem free_links (s : State) (w : Nat) : (s.free w).2.links = s.links := rfl
@[simp] theorem free_pwr (s : State) (w : Nat) : (s.free w).2.pwr = s.pwr := rfl
@[simp] theorem free_rsv (s : State) (w : Nat) : (s.free w).2.rsv = s.rsv := rfl
@[simp] theorem free_flt (s : State) (w : Nat) : (s.free w).2.flt = s.flt := rfl
@[simp] theorem free_dbg (s : State) (w : Nat) : (s.free w).2.dbg = s.dbg := rfl
@[simp] theorem free_flash (s : State) (w : Nat) : (s.free w).2.flash = s.flash := rfl
@[simp] theorem free_xing (s : State) (w : Nat) : (s.free w).2.xing = s.xing := rfl
@[simp] theorem free_out (s : State) (w : Nat) : (s.free w).2.out = s.out := rfl
@[simp] theorem free_pending (s : State) (w : Nat) : (s.free w).2.pending = s.pending := rfl
@[simp] theorem free_fresh (s : State) (w : Nat) : (s.free w).2.fresh = s.fresh + 1 := rfl
theorem free_lt (s : State) (w : Nat) : (s.free w).1 < 2 ^ w := Nat.mod_lt _ (Nat.two_pow_pos w)

/-! ### Reads through updates -/

@[simp] theorem word_emit (s : State) (o : Out) (a : Nat) : (s.emit o).word a = s.word a := rfl
@[simp] theorem get_emit (s : State) (o : Out) (f : Fld) : (s.emit o).get f = s.get f := rfl
@[simp] theorem emit_out (s : State) (o : Out) : (s.emit o).out = s.out ++ [o] := rfl
@[simp] theorem get_free (s : State) (w : Nat) (f : Fld) : (s.free w).2.get f = s.get f := rfl
@[simp] theorem get_putCtx (s : State) (e x : Nat) (c : Ctx) (f : Fld) : (s.putCtx e x c).get f = s.get f := rfl
@[simp] theorem get_putStrm (s : State) (e n : Nat) (t : Strm) (f : Fld) : (s.putStrm e n t).get f = s.get f := rfl
@[simp] theorem word_putCtx (s : State) (e x : Nat) (c : Ctx) (a : Nat) : (s.putCtx e x c).word a = s.word a := rfl
@[simp] theorem word_putStrm (s : State) (e n : Nat) (t : Strm) (a : Nat) : (s.putStrm e n t).word a = s.word a := rfl
@[simp] theorem ctxAt_setWord (s : State) (a : Nat) (w : Word) (e x : Nat) : (s.setWord a w).ctxAt e x = s.ctxAt e x := rfl
@[simp] theorem ctxAt_set (s : State) (f : Fld) (v e x : Nat) : (s.set f v).ctxAt e x = s.ctxAt e x := rfl
@[simp] theorem ctxAt_inc (s : State) (f : Fld) (n e x : Nat) : (s.inc f n).ctxAt e x = s.ctxAt e x := rfl
@[simp] theorem ctxAt_emit (s : State) (o : Out) (e x : Nat) : (s.emit o).ctxAt e x = s.ctxAt e x := rfl
@[simp] theorem ctxAt_putStrm (s : State) (e n : Nat) (t : Strm) (f x : Nat) : (s.putStrm e n t).ctxAt f x = s.ctxAt f x := rfl
@[simp] theorem ctxAt_putCtx_self (s : State) (e x : Nat) (c : Ctx) : (s.putCtx e x c).ctxAt e x = c := SMap.get_set_self _ _ _
theorem ctxAt_putCtx_of_ne (s : State) (e x : Nat) (c : Ctx) {e' x' : Nat} (h : ctxKey e' x' ≠ ctxKey e x) :
    (s.putCtx e x c).ctxAt e' x' = s.ctxAt e' x' := SMap.get_set_of_ne _ _ h
@[simp] theorem strm_putStrm_self (s : State) (e n : Nat) (t : Strm) : (s.putStrm e n t).strm e n = some t := OMap.find_put_self _ _ _
theorem strm_putStrm_of_ne (s : State) (e n : Nat) (t : Strm) {e' n' : Nat} (h : strmKey e' n' ≠ strmKey e n) :
    (s.putStrm e n t).strm e' n' = s.strm e' n' := OMap.find_put_of_ne _ _ h

end Sys2Proof.Machine.State
end

