-- ==== Sys2Proof/Laws/Irq.lean ====
section
/-!
SUPPORT. What the delivery of interrupts moves, said once: every command ends with it.
-/
namespace Sys2Proof.Machine
open Sys2Proof

namespace Settled

theorem refl (s : State) : Settled s s := ⟨rfl, fun _ _ => rfl, rfl, [], by simp⟩

theorem trans {s t u : State} (h : Settled s t) (k : Settled t u) : Settled s u := by
  obtain ⟨l1, h1, m1⟩ := h.outs
  obtain ⟨l2, h2, m2⟩ := k.outs
  refine ⟨?_, fun a ha => (k.words a ha).trans (h.words a ha), ?_, l1 ++ l2, by rw [h2, h1, List.append_assoc], ?_⟩
  · rw [k.rest, h.rest]
  · rw [k.hostf, h.hostf]
  · intro o ho
    rcases List.mem_append.mp ho with ho | ho
    · exact m1 o ho
    · exact m2 o ho

/-- A register field outside INT_VEC reads as before. -/
theorem get {s t : State} (h : Settled s t) (f : Fld) (hf : ¬ isVecReg f.reg) : t.get f = s.get f := by
  simp only [State.get, h.words f.reg hf]

theorem turn {s t : State} (h : Settled s t) : t.turn = s.turn := by rw [h.rest]
theorem fresh {s t : State} (h : Settled s t) : t.fresh = s.fresh := by rw [h.rest]
theorem eng {s t : State} (h : Settled s t) : t.eng = s.eng := by rw [h.rest]
theorem cis {s t : State} (h : Settled s t) : t.cis = s.cis := by rw [h.rest]
theorem cp {s t : State} (h : Settled s t) : t.cp = s.cp := by rw [h.rest]
theorem mem {s t : State} (h : Settled s t) : t.mem = s.mem := by rw [h.rest]
theorem binds {s t : State} (h : Settled s t) : t.binds = s.binds := by rw [h.rest]
theorem nor {s t : State} (h : Settled s t) : t.nor = s.nor := by rw [h.rest]
theorem bitev {s t : State} (h : Settled s t) : t.bitev = s.bitev := by rw [h.rest]
theorem det {s t : State} (h : Settled s t) : t.det = s.det := by rw [h.rest]
theorem sec {s t : State} (h : Settled s t) : t.sec = s.sec := by rw [h.rest]
theorem journal {s t : State} (h : Settled s t) : t.journal = s.journal := by rw [h.rest]
theorem flog {s t : State} (h : Settled s t) : t.flog = s.flog := by rw [h.rest]
theorem reports {s t : State} (h : Settled s t) : t.reports = s.reports := by rw [h.rest]
theorem beat {s t : State} (h : Settled s t) : t.beat = s.beat := by rw [h.rest]
theorem sw {s t : State} (h : Settled s t) : t.sw = s.sw := by rw [h.rest]
theorem links {s t : State} (h : Settled s t) : t.links = s.links := by rw [h.rest]
theorem pwr {s t : State} (h : Settled s t) : t.pwr = s.pwr := by rw [h.rest]
theorem rsv {s t : State} (h : Settled s t) : t.rsv = s.rsv := by rw [h.rest]
theorem flt {s t : State} (h : Settled s t) : t.flt = s.flt := by rw [h.rest]
theorem dbg {s t : State} (h : Settled s t) : t.dbg = s.dbg := by rw [h.rest]
theorem flash {s t : State} (h : Settled s t) : t.flash = s.flash := by rw [h.rest]
theorem pending {s t : State} (h : Settled s t) : t.pending = s.pending := by rw [h.rest]
theorem ctxAt {s t : State} (h : Settled s t) (e x : Nat) : t.ctxAt e x = s.ctxAt e x := by rw [State.ctxAt, State.ctxOf, h.eng]; rfl
theorem strm {s t : State} (h : Settled s t) (e n : Nat) : t.strm e n = s.strm e n := by rw [State.strm, h.eng]; rfl

end Settled

theorem settled_emit_msix (s : State) (v a d : Nat) : Settled s (s.emit (.msix v a d)) :=
  ⟨rfl, fun _ _ => rfl, rfl, [.msix v a d], rfl, by simp⟩

theorem settled_vec (s : State) (v n : Nat) (hv : v < 64) : Settled s (s.inc (F.INT_VEC_sent v) n) :=
  ⟨rfl, fun a ha => State.word_inc_of_ne s _ n (fun h => ha ⟨v, hv, h⟩), rfl, [], by simp⟩

theorem settled_msixWrite (s : State) (v : Nat) (hv : v < 64) : Settled s (s.msixWrite v) := by
  have h := (settled_emit_msix s v (s.msixEntry v).addr (s.msixEntry v).data).trans (settled_vec _ v 1 hv)
  simp only [State.msixWrite]
  split
  · exact h
  · exact h.trans ⟨rfl, fun _ _ => rfl, rfl, [], by simp⟩

theorem settled_msixTrigger (s : State) (v : Nat) (hv : v < 64) : Settled s (s.msixTrigger v) := by
  simp only [State.msixTrigger]
  split
  · exact ⟨rfl, fun _ _ => rfl, rfl, [], by simp⟩
  · split
    · exact ⟨rfl, fun _ _ => rfl, rfl, [], by simp⟩
    · exact settled_msixWrite s v hv

theorem settled_triggers (l : List Nat) (s : State) (hl : ∀ v ∈ l, v < 64) : Settled s (l.foldl State.msixTrigger s) := by
  induction l generalizing s with
  | nil => exact Settled.refl s
  | cons v l ih =>
    exact (settled_msixTrigger s v (hl v (by simp))).trans (ih _ (fun u hu => hl u (by simp [hu])))

/-- What the delivery of interrupts moves (R559). -/
theorem settled_hostIrq (s : State) : Settled s s.hostIrq := by
  simp only [State.hostIrq]
  split
  · exact ⟨rfl, fun _ _ => rfl, rfl, [], by simp⟩
  · refine Settled.trans (t := { s with host.lines := s.intLines }) ⟨rfl, fun _ _ => rfl, rfl, [], by simp⟩
      (settled_triggers _ _ fun v hv => ?_)
    have := (List.mem_filter.mp hv).1
    simp only [bitList, List.mem_filter, List.mem_range] at this
    exact this.1

/-- While INT_EN is 0 the delivery of interrupts only clears the lines as last seen. -/
theorem hostIrq_of_disabled (s : State) (h : s.get F.INT_EN_en = 0) : s.hostIrq = { s with host.lines := 0 } := by
  simp [State.hostIrq, h]

/-- Every command's effect answers a next state that is its own but for the interrupts delivered. -/
theorem done_next (u : State) : ∃ t, done u = .next t ∧ Settled u t := ⟨u.hostIrq, rfl, settled_hostIrq u⟩

end Sys2Proof.Machine
end

