-- ==== Sys2Proof/Laws/Issue.lean ====
section
/-!
SUPPORT. How an instruction issues, said once: the body's answer commits, or its wait code is kept; and the registers of a context.
-/
namespace Sys2Proof.Machine
open Sys2Proof

@[simp] theorem origins_nil (s : State) (x : Option Nat) : s.origins x [] = s := rfl

theorem outlives_self (s : State) (x : Option Nat) : s.outlives s x = true := by
  cases x with
  | none => rfl
  | some x => simp only [State.outlives]; cases s.coll x <;> rfl

theorem outlives_of_cp {s t : State} (h : t.cp = s.cp) (x : Option Nat) : s.outlives t x = true := by
  have : s.outlives t x = s.outlives s x := by simp only [State.outlives, State.coll, h]
  rw [this, outlives_self]

/-- An instruction whose body goes on commits its context in the state the body answers. -/
theorem issue_from {s t : State} {a : Site} {w : BitVec 64} {fmt : Nat} {d : Dest} {body : State → Ctx → Act} {c : Ctx} {os : List Origin}
    (hi : s.issues a w) (hb : body s (s.running a) = .go t c os) :
    issue a w fmt d body s = (s.commitsFrom t a c).origins c.coll os := by
  obtain ⟨h, hh⟩ := hi
  simp only [State.running] at hb
  by_cases hl : s.outlives t c.coll = true
  · simp [issue, h, hh, hb, State.retire, spoilDest, hl, State.commitsFrom, State.commits, Hw.fileWord]
  · simp [issue, h, hh, hb, State.retire, spoilDest, hl, State.commitsFrom, Hw.fileWord]

/-- An instruction that gives data to an output port commits, and then what it closed goes on. -/
theorem issue_send {s t : State} {a : Site} {w : BitVec 64} {fmt : Nat} {d : Dest} {body : State → Ctx → Act} {c : Ctx} {os : List Origin} {x : Nat}
    (hi : s.issues a w) (hb : body s (s.running a) = .send t c os x) :
    issue a w fmt d body s = ((s.commitsFrom t a c).origins c.coll os).collectOut x := by
  obtain ⟨h, hh⟩ := hi
  simp only [State.running] at hb
  simp [issue, h, hh, hb, State.retire, spoilDest, Hw.fileWord]

/-- The same while the context's collective stands. -/
theorem issue_go {s t : State} {a : Site} {w : BitVec 64} {fmt : Nat} {d : Dest} {body : State → Ctx → Act} {c : Ctx} {os : List Origin}
    (hi : s.issues a w) (hb : body s (s.running a) = .go t c os) (hl : s.outlives t c.coll = true) :
    issue a w fmt d body s = (t.commits a c).origins c.coll os := by
  rw [issue_from hi hb, State.commitsFrom, hl]
  rfl

/-- An instruction whose body leaves the state alone commits its context. -/
theorem issue_commits {s : State} {a : Site} {w : BitVec 64} {fmt : Nat} {d : Dest} {body : State → Ctx → Act} {c : Ctx} {os : List Origin}
    (hi : s.issues a w) (hb : body s (s.running a) = .go s c os) :
    issue a w fmt d body s = (s.commits a c).origins c.coll os :=
  issue_go hi hb (outlives_self s c.coll)

/-- An instruction whose body waits leaves its wait code in the context and does nothing else. -/
theorem issue_waits {s : State} {a : Site} {w : BitVec 64} {fmt : Nat} {d : Dest} {body : State → Ctx → Act} {code : Nat}
    (hi : s.issues a w) (hb : body s (s.running a) = .wait code) :
    issue a w fmt d body s = s.putCtx a.eng a.ctx { s.ctxAt a.eng a.ctx with st := code } := by
  obtain ⟨h, hh⟩ := hi
  simp only [State.running] at hb
  simp [issue, h, hh, hb, State.retire, Hw.fileWord]

/-- An instruction that may not issue does nothing. -/
theorem issue_idle {s : State} {a : Site} {w : BitVec 64} {fmt : Nat} {d : Dest} {body : State → Ctx → Act}
    (h : s.canIssue a w = false) : issue a w fmt d body s = s := by
  simp [issue, h]

/-! ### The registers of a context -/

namespace Ctx

@[simp] theorem reg_setReg_self (c : Ctx) (r : Nat) (l : List Lane) : (c.setReg r l).reg r = l := SMap.get_set_self _ _ _
theorem reg_setReg_of_ne (c : Ctx) {r r' : Nat} (l : List Lane) (h : r' % 32 ≠ r % 32) : (c.setReg r l).reg r' = c.reg r' :=
  SMap.get_set_of_ne _ _ h
@[simp] theorem sc_setReg (c : Ctx) (r : Nat) (l : List Lane) (i : Nat) : (c.setReg r l).sc i = c.sc i := rfl
@[simp] theorem pr_setReg (c : Ctx) (r : Nat) (l : List Lane) (i : Nat) : (c.setReg r l).pr i = c.pr i := rfl
@[simp] theorem sc_setSc_self (c : Ctx) (i v : Nat) : (c.setSc i v).sc i = v % 2 ^ 64 := NMap.rd_wr_self _ _ _
theorem sc_setSc_of_ne (c : Ctx) {i j : Nat} (v : Nat) (h : j ≠ i) : (c.setSc i v).sc j = c.sc j := NMap.rd_wr_of_ne _ _ h
@[simp] theorem reg_setSc (c : Ctx) (i v r : Nat) : (c.setSc i v).reg r = c.reg r := rfl
@[simp] theorem pr_setSc (c : Ctx) (i v j : Nat) : (c.setSc i v).pr j = c.pr j := rfl
@[simp] theorem pr_zero (c : Ctx) : c.pr 0 = allOnes := rfl
/-- P0 ignores writes (Table 05-2). -/
@[simp] theorem setPr_zero (c : Ctx) (v : Nat) : c.setPr 0 v = c := rfl
theorem pr_setPr_self (c : Ctx) {i : Nat} (v : Nat) (h : i ≠ 0) : (c.setPr i v).pr i = v % 2 ^ 128 := by
  simp [setPr, pr, h]
theorem pr_setPr_of_ne (c : Ctx) {i j : Nat} (v : Nat) (h : j ≠ i) : (c.setPr i v).pr j = c.pr j := by
  by_cases hi : i = 0
  · subst hi; rfl
  · simp [setPr, pr, hi, NMap.rd_wr_of_ne _ _ h]
@[simp] theorem reg_setPr (c : Ctx) (i v r : Nat) : (c.setPr i v).reg r = c.reg r := by
  simp only [setPr]; split <;> rfl
@[simp] theorem sc_setPr (c : Ctx) (i v j : Nat) : (c.setPr i v).sc j = c.sc j := by
  simp only [setPr]; split <;> rfl

end Ctx

end Sys2Proof.Machine
end

