-- ==== Sys2Proof/Laws/Memory.lean ====
section
/-!
SUPPORT. The memory levels: every operation on them keeps their canonical form, a read after a write gives what was written, and a write leaves
every other byte alone.
-/
namespace Sys2Proof.Machine
open Sys2Proof

/-- Bytes and poisoned lines are in canonical form. -/
def Mem.wf (m : Mem) : Bool := m.bytes.wf && SMap.wf (fun _ => 0) m.bad

theorem Mem.wf_iff (m : Mem) : m.wf = true ↔ m.bytes.wf = true ∧ SMap.wf (fun _ => 0) m.bad = true := by
  simp [Mem.wf]

/-- Memory is in canonical form at reset. -/
theorem reset_mem_wf : State.reset.mem.wf = true := rfl

/-- A write keeps the form. -/
theorem memWr_wf (s : State) (level addr : Nat) (bs : List Byte) (h : s.mem.wf = true) : (s.memWr level addr bs).mem.wf = true := by
  rw [Mem.wf_iff] at h ⊢
  refine ⟨Bytes.wf_wr _ _ h.1, ?_⟩
  simp only [State.memWr]
  exact SMap.wf_erase _ h.2

/-- So does the poison of a line. -/
theorem memPoison_wf (s : State) (level addr : Nat) (h : s.mem.wf = true) : (s.memPoison level addr).mem.wf = true := by
  rw [Mem.wf_iff] at h ⊢
  refine ⟨h.1, ?_⟩
  simp only [State.memPoison, NMap.wr]
  exact SMap.wf_set _ _ h.2

/-- And the erasure of a range, as ASSIGN does it (R519). -/
theorem memErase_wf (m : Mem) (p q : Nat → Bool) (h : m.wf = true) : (⟨SMap.erase p m.bytes, SMap.erase q m.bad⟩ : Mem).wf = true := by
  rw [Mem.wf_iff] at h ⊢
  exact ⟨SMap.wf_erase _ h.1, SMap.wf_erase _ h.2⟩

/-- A read after a write gives what was written. -/
theorem memBytes_memWr (s : State) (level addr : Nat) (bs : List Byte) : (s.memWr level addr bs).memBytes level addr bs.length = bs :=
  Bytes.rd_wr _ _ _

/-- A write leaves every byte outside it alone. -/
theorem memBytes_memWr_of_disjoint (s : State) (level addr : Nat) (bs : List Byte) (level' addr' n : Nat)
    (h : memKey level' addr' + n ≤ memKey level addr ∨ memKey level addr + bs.length ≤ memKey level' addr') :
    (s.memWr level addr bs).memBytes level' addr' n = s.memBytes level' addr' n :=
  Bytes.rd_wr_of_disjoint _ _ _ _ _ h

/-- Poison moves no byte. -/
theorem memBytes_memPoison (s : State) (level addr level' addr' n : Nat) :
    (s.memPoison level addr).memBytes level' addr' n = s.memBytes level' addr' n := rfl

/-- A write moves nothing but memory. -/
theorem memWr_rest (s : State) (level addr : Nat) (bs : List Byte) : s.memWr level addr bs = { s with mem := (s.memWr level addr bs).mem } := rfl

/-! ### Sorting -/

theorem length_insertBy {α : Type} (le : α → α → Bool) (a : α) (l : List α) : (insertBy le a l).length = l.length + 1 := by
  induction l with
  | nil => rfl
  | cons b l ih => simp only [insertBy]; split <;> simp [ih]

theorem mem_insertBy {α : Type} (le : α → α → Bool) (a x : α) (l : List α) : x ∈ insertBy le a l ↔ x = a ∨ x ∈ l := by
  induction l with
  | nil => simp [insertBy]
  | cons b l ih =>
    simp only [insertBy]
    split
    · simp
    · simp only [List.mem_cons, ih]; tauto

/-- A sort keeps the number of elements. -/
@[simp] theorem length_sortBy {α : Type} (le : α → α → Bool) (l : List α) : (sortBy le l).length = l.length := by
  induction l with
  | nil => rfl
  | cons a l ih => simpa [sortBy, length_insertBy] using ih

/-- And the elements. -/
@[simp] theorem mem_sortBy {α : Type} (le : α → α → Bool) (x : α) (l : List α) : x ∈ sortBy le l ↔ x ∈ l := by
  induction l with
  | nil => simp [sortBy]
  | cons a l ih => simpa [sortBy, mem_insertBy] using by rw [← ih]; rfl

end Sys2Proof.Machine
end

