-- ==== Sys2Proof/Laws/Traps.lean ====
section
/-!
SUPPORT. What traps, counts and reports move, said once: registers, messages that leave, the reports kept and the counts of timing-perturbing events.
-/
namespace Sys2Proof.Machine
open Sys2Proof

/-- `t` is `s` but for registers, what has left the block, the reports kept and the counts of timing-perturbing events. -/
structure Noted (s t : State) : Prop where
  rest : t = { s with regs := t.regs, out := t.out, reports := t.reports, det.audit.perts := t.det.audit.perts }

namespace Noted

theorem refl (s : State) : Noted s s := ⟨rfl⟩
theorem trans {s t u : State} (h : Noted s t) (k : Noted t u) : Noted s u := ⟨by rw [k.rest, h.rest]⟩

theorem cp {s t : State} (h : Noted s t) : t.cp = s.cp := by rw [h.rest]
theorem eng {s t : State} (h : Noted s t) : t.eng = s.eng := by rw [h.rest]
theorem mem {s t : State} (h : Noted s t) : t.mem = s.mem := by rw [h.rest]
theorem cis {s t : State} (h : Noted s t) : t.cis = s.cis := by rw [h.rest]
theorem nor {s t : State} (h : Noted s t) : t.nor = s.nor := by rw [h.rest]
theorem host {s t : State} (h : Noted s t) : t.host = s.host := by rw [h.rest]
theorem det {s t : State} (h : Noted s t) : t.det = { s.det with audit.perts := t.det.audit.perts } := by rw [h.rest]
theorem turn {s t : State} (h : Noted s t) : t.turn = s.turn := by rw [h.rest]

theorem setWord (s : State) (a : Nat) (w : Word) : Noted s (s.setWord a w) := ⟨rfl⟩
theorem set (s : State) (f : Fld) (v : Nat) : Noted s (s.set f v) := ⟨rfl⟩
theorem inc (s : State) (f : Fld) (n : Nat) : Noted s (s.inc f n) := ⟨rfl⟩
theorem reported (s : State) (r : NMap) : Noted s { s with reports := r } := ⟨rfl⟩
theorem emit (s : State) (o : Out) : Noted s (s.emit o) := ⟨rfl⟩
theorem send (s : State) (d c n : Nat) (l : List (Nat × Nat × Nat)) : Noted s (s.send d c n l) := ⟨rfl⟩
theorem pert (s : State) (c n : Nat) : Noted s (s.pert c n) := ⟨rfl⟩
theorem spill (s : State) (r n : Nat) : Noted s (s.spill r n) := ⟨rfl⟩

theorem sets (l : List (Fld × Nat)) (s : State) : Noted s (s.sets l) := by
  induction l generalizing s with
  | nil => exact refl s
  | cons p l ih => exact (set s p.1 p.2).trans (ih _)

theorem sendWm (s : State) (y n : Nat) (l : List (Nat × Nat × Nat)) : Noted s (s.sendWm y n l) := by
  simp only [State.sendWm]
  split
  · exact send _ _ _ _ _
  · exact (send _ _ _ _ _).trans (send _ _ _ _ _)

theorem trapNotice (s : State) (a b c d e f : Nat) : Noted s (s.trapNotice a b c d e f) := sendWm _ _ _ _

theorem faultReport (s : State) (a b c d : Nat) : Noted s (s.faultReport a b c d) := by
  simp only [State.faultReport]
  split
  · exact (reported s _).trans (inc _ _ _)
  · exact (reported s _).trans ((inc _ _ _).trans (sendWm _ _ _ _))

theorem foldl {α : Type} (g : State → α → State) (hg : ∀ s x, Noted s (g s x)) (l : List α) (s : State) : Noted s (l.foldl g s) := by
  induction l generalizing s with
  | nil => exact refl s
  | cons x l ih => exact (hg s x).trans (ih _)

theorem sparseTrap (s : State) (x : Option Nat) (a b c d e f : Nat) (m : Bool) (g : BadGroup) :
    Noted s (s.sparseTrap x a b c d e f m g) := by
  unfold State.sparseTrap
  generalize hu : (if g.code = 3 then s.inc F.SPT_INDEX_COUNT_index else if g.code = 8 then s.inc F.SPT_MASK_COUNT_mask
    else s.inc F.SPT_GROUP_COUNT_group) = u
  have h : Noted s u := by
    rw [← hu]
    split
    · exact inc _ _ _
    · split <;> exact inc _ _ _
  refine h.trans ?_
  simp only []
  split
  · exact (inc _ _ _).trans (trapNotice _ _ _ _ _ _ _)
  · exact (sets _ _).trans ((inc _ _ _).trans (trapNotice _ _ _ _ _ _ _))

theorem sparseTraps (s : State) (x : Option Nat) (a b c d e f : Nat) (m : Bool) (l : List BadGroup) :
    Noted s (s.sparseTraps x a b c d e f m l) := foldl _ (fun s g => sparseTrap s x a b c d e f m g) l s

theorem overflowTrap (s : State) (x : Option Nat) (a b c d e : Nat) : Noted s (s.overflowTrap x a b c d e) := by
  simp only [State.overflowTrap]
  split
  · exact (inc _ _ _).trans (trapNotice _ _ _ _ _ _ _)
  · exact (sets _ _).trans ((inc _ _ _).trans (trapNotice _ _ _ _ _ _ _))

theorem gatherIndex (s : State) (x : Option Nat) (a b c d e f : Nat) (p : Bool) : Noted s (s.gatherIndex x a b c d e f p) := by
  simp only [State.gatherIndex]
  split
  · exact (inc _ _ _).trans ((inc _ _ _).trans (trapNotice _ _ _ _ _ _ _))
  · exact (inc _ _ _).trans ((sets _ _).trans ((inc _ _ _).trans (trapNotice _ _ _ _ _ _ _)))

theorem engineEcc (s : State) (a b : Nat) (u : Bool) : Noted s (s.engineEcc a b u) := by
  simp only [State.engineEcc]
  split
  · exact (inc _ _ _).trans (faultReport _ _ _ _ _)
  · exact (inc _ _ _).trans (pert _ _ _)

theorem cisternEcc (s : State) (a b : Nat) (u : Bool) : Noted s (s.cisternEcc a b u) := by
  simp only [State.cisternEcc]
  split
  · exact (inc _ _ _).trans (faultReport _ _ _ _ _)
  · exact (inc _ _ _).trans (pert _ _ _)

end Noted

end Sys2Proof.Machine
end

