-- ==== Sys2Proof/WellFormed.lean ====
section
/-!
DEFINITION. Which commands are well formed: every operand that stands for a field of a register, message or frame lies within
that field.
-/
namespace Sys2Proof

/-- A hardware error names lanes, registers and words that exist. -/
def Hw.ok : Hw → Bool
  | .none => true
  | .check lanes => decide (0 < lanes ∧ lanes < 2 ^ 128)
  | .word reg lane _ => decide (reg < 32 ∧ lane < 128)
  | .scalar i _ => decide (i < 16)
  | .pred i half _ => decide (1 ≤ i ∧ i < 8 ∧ half < 2)
  | .store addr _ => decide (addr < 3145728)
  | .column lanes fails => decide (0 < lanes ∧ lanes < 2 ^ 128 ∧ 0 < fails)
  | .cistern slot _ => decide (slot < 1024)

/-- A site is well formed when its hardware error is. -/
def Site.ok (a : Site) : Bool := a.hw.ok

/-- A chunk's fields lie in their widths (Table 08-6). -/
def ChunkIn.ok (h : ChunkIn) : Bool :=
  decide (h.id < 2 ^ 32) && decide (h.chunk < 2 ^ 32) && decide (h.rank < 2 ^ 16) && decide (h.covers < 2 ^ 16) && decide (h.kind < 16) &&
    decide (h.fmt < 32) && decide (h.data.length < 2 ^ 32) && decide (32 + h.data.length ≤ h.wire)

/-- An ACK's fields lie in their widths (Table 08-7). -/
def AckIn.ok (a : AckIn) : Bool := decide (a.id < 2 ^ 32) && decide (a.next < 2 ^ 32) && decide (a.nchunk < 2 ^ 32)

/-- A flit's body has 256 bytes (R416). -/
def FlitIn.ok (f : FlitIn) : Bool := decide (f.body.length = 256)

/-- Is the command well formed? -/
def Instr.wellFormed : Instr → Bool
  | .srecv at_ _ => at_.ok
  | .ssend at_ _ => at_.ok
  | .speek at_ _ => at_.ok
  | .vadd at_ _ => at_.ok
  | .vsub at_ _ => at_.ok
  | .vmul at_ _ => at_.ok
  | .vfma at_ _ => at_.ok
  | .vmax at_ _ => at_.ok
  | .vmin at_ _ => at_.ok
  | .vabs at_ _ => at_.ok
  | .vcvt at_ _ => at_.ok
  | .vcmp at_ _ => at_.ok
  | .vand at_ _ => at_.ok
  | .vor at_ _ => at_.ok
  | .vxor at_ _ => at_.ok
  | .vandn at_ _ => at_.ok
  | .vshl at_ _ => at_.ok
  | .vshr at_ _ => at_.ok
  | .vsra at_ _ => at_.ok
  | .vmov at_ _ => at_.ok
  | .vbcast at_ _ => at_.ok
  | .vlane at_ _ => at_.ok
  | .viota at_ _ => at_.ok
  | .plog at_ _ => at_.ok
  | .smovi at_ _ => at_.ok
  | .smovhi at_ _ => at_.ok
  | .sadd at_ _ => at_.ok
  | .saddi at_ _ => at_.ok
  | .ssub at_ _ => at_.ok
  | .smul at_ _ => at_.ok
  | .sand at_ _ => at_.ok
  | .sor at_ _ => at_.ok
  | .sxor at_ _ => at_.ok
  | .sshli at_ _ => at_.ok
  | .sshri at_ _ => at_.ok
  | .cacc at_ _ => at_.ok
  | .cmerge at_ _ => at_.ok
  | .crnd at_ _ => at_.ok
  | .cxport at_ _ => at_.ok
  | .cclr at_ _ => at_.ok
  | .vsort at_ _ => at_.ok
  | .topk at_ _ => at_.ok
  | .mergek at_ _ => at_.ok
  | .vcompress at_ _ => at_.ok
  | .vexpand at_ _ => at_.ok
  | .vselect at_ _ => at_.ok
  | .spdec at_ _ => at_.ok
  | .spenc at_ _ => at_.ok
  | .prune at_ _ => at_.ok
  | .gath at_ _ => at_.ok
  | .scadd at_ _ => at_.ok
  | .rngk at_ _ => at_.ok
  | .waitev at_ _ => at_.ok
  | .sigev at_ _ => at_.ok
  | .fence at_ _ => at_.ok
  | .lock at_ _ => at_.ok
  | .loop at_ _ => at_.ok
  | .brp at_ _ => at_.ok
  | .halt at_ _ => at_.ok
  | .waitevComplete _ _ => true
  | .fenceComplete _ _ => true
  | .gathRowsLanded _ _ _ => true
  | .flumeReadComplete _ _ _ _ => true
  | .flumeWriteComplete _ _ => true
  | .turnoutRequestComplete _ _ _ => true
  | .spareAttach _ => true
  | .spareDetach _ => true
  | .katBurst _ _ _ _ => true
  | .hostCmdSubmit _ _ => true
  | .cmdSubmit _ _ _ _ => true
  | .allreduce _ engs => decide engs.Nodup
  | .reduceScatter _ engs => decide engs.Nodup
  | .reduce _ engs => decide engs.Nodup
  | .allgather _ engs => decide engs.Nodup
  | .broadcast _ engs => decide engs.Nodup
  | .alltoall _ engs => decide engs.Nodup
  | .dispatch _ engs => decide engs.Nodup
  | .idxGather _ engs => decide engs.Nodup
  | .poolGather _ engs => decide engs.Nodup
  | .scatterAdd _ engs => decide engs.Nodup
  | .barrier _ => true
  | .fusedUpdate _ engs => decide engs.Nodup
  | .run _ engs => decide engs.Nodup
  | .loadProgram _ => true
  | .unloadProgram _ => true
  | .loadFormats _ => true
  | .loadRules _ => true
  | .loadGroup _ => true
  | .unloadGroup _ => true
  | .eventAdd _ => true
  | .loadRoutes _ => true
  | .loadTableBind _ => true
  | .loadSeeds _ => true
  | .loadProfile _ => true
  | .cmdResourcesGranted _ => true
  | .turnLaunch _ => true
  | .chunkReceive _ h _ _ => h.ok
  | .haltedChunkReceive _ h => h.ok
  | .ackReceive _ a => a.ok
  | .revokeReceive _ _ _ _ _ => true
  | .reissueReqReceive _ _ _ _ _ => true
  | .ackTimeout _ _ => true
  | .quorumWait _ _ _ _ => true
  | .evtWrite _ _ => true
  | .qRestart _ _ => true
  | .normPart _ _ _ _ _ _ => true
  | .normPeerTimeout _ _ => true
  | .updatePassStart _ _ => true
  | .commit _ _ => true
  | .commitApply _ => true
  | .discard _ => true
  | .commitAck _ _ _ => true
  | .snapAck _ _ _ _ => true
  | .snapshotTimeout _ => true
  | .snapReq _ => true
  | .norRestore _ _ => true
  | .restoreSegment _ _ _ _ _ _ _ => true
  | .stepClose _ _ => true
  | .stepRecordWrite _ => true
  | .stepDigest _ _ _ => true
  | .stepCtrWrite _ => true
  | .gctlStrictWrite _ => true
  | .timeExchangeTimer _ => true
  | .timeReq _ _ _ _ _ => true
  | .timeResp _ _ _ _ _ => true
  | .trefPulse => true
  | .timeEnable => true
  | .lockArrive _ _ _ _ _ => true
  | .lockRelease _ _ _ _ _ => true
  | .lockReleaseFire _ _ => true
  | .packetHeaderTake _ _ data _ => decide (data.length < 2 ^ 14)
  | .bufferGrant _ _ => true
  | .packetStart _ _ => true
  | .freelistRebuildDone _ _ => true
  | .grTailWrite _ => true
  | .calBankSwitch _ => true
  | .starvePromote _ _ _ => true
  | .meterMark _ _ => true
  | .dlvReportSend _ _ _ _ _ => true
  | .dlvReport _ _ _ _ _ _ _ _ => true
  | .telemetrySample => true
  | .shaperMeterWrite _ _ _ => true
  | .dataFlit _ f => f.ok
  | .seal _ f => f.ok
  | .retry _ f => f.ok
  | .init _ f => f.ok
  | .keyx _ f => f.ok
  | .train _ f => f.ok
  | .replayTimeout _ => true
  | .rekey _ => true
  | .portEnable _ => true
  | .trainTimeout _ => true
  | .detect _ _ => true
  | .eq _ _ => true
  | .lanetest _ _ => true
  | .align _ _ => true
  | .keychk _ _ => true
  | .activeFail _ _ => true
  | .hold _ => true
  | .ethTrain _ _ => true
  | .ethLock _ _ => true
  | .goeData _ _ _ _ data _ => decide (data.length < 2 ^ 14)
  | .goeAck _ _ _ _ => true
  | .goeKeyExchange _ _ _ frag => decide (frag.length ≤ 248)
  | .goeInit _ _ _ _ _ => true
  | .goeReplayTimeout _ => true
  | .pfcFrame _ _ quanta => decide (quanta.length = 8)
  | .pfcPauseExpire _ _ => true
  | .frameNotAccepted _ => true
  | .dataPut _ _ _ _ data => decide (data.length < 2 ^ 14)
  | .lpddrRetrainWindow => true
  | .retrainEnd _ => true
  | .retrainTimeout => true
  | .migrationPageCopy _ => true
  | .hbmTempSample _ _ => true
  | .scrubRead _ _ => true
  | .predictorEpoch _ => true
  | .trapNotice _ => true
  | .faultReport _ => true
  | .straggler _ => true
  | .fmOrder _ => true
  | .fmResendTimeout _ => true
  | .orderAck _ => true
  | .wmOrderFence _ _ _ _ _ => true
  | .wmOrderUnfence _ _ _ _ _ => true
  | .wmOrderAbort _ _ _ _ => true
  | .wmOrderRevoke _ _ _ _ _ => true
  | .wmOrderStateLost _ _ _ _ => true
  | .wmOrderTakeover _ _ _ => true
  | .fenceApply => true
  | .wmHeartbeatSend => true
  | .wmHeartbeat _ => true
  | .heartbeatMiss => true
  | .wmAnnounce _ => true
  | .leveeHoldExpire _ => true
  | .levSelf => true
  | .leveePropose _ _ _ _ _ _ _ _ => true
  | .leveeProbe _ _ _ => true
  | .leveeProbeAck _ _ _ => true
  | .leveeProbeTimeout _ _ => true
  | .leveeVote _ _ _ _ => true
  | .leveeRoundTimeout _ => true
  | .leveeDecide _ _ _ _ => true
  | .shardHash _ _ _ _ _ _ _ => true
  | .partnerWaitExpire _ => true
  | .partnerVerdict _ _ _ _ _ _ => true
  | .resilverStart => true
  | .resilverReq _ _ _ _ => true
  | .resilverSeg _ _ _ _ _ _ => true
  | .resilverAck _ _ _ _ _ => true
  | .resilverTimeout _ => true
  | .getVersion _ => true
  | .getCapabilities _ => true
  | .negotiateAlgorithms _ _ _ _ _ => true
  | .getDigests _ _ => true
  | .getCertificate _ _ _ _ _ => true
  | .challenge _ _ _ => true
  | .getMeasurements _ _ _ _ _ => true
  | .keyExchange _ _ => true
  | .finish _ _ _ _ => true
  | .spdmHeartbeat _ _ => true
  | .keyUpdate _ _ _ _ => true
  | .endSession _ _ => true
  | .chunkSend _ _ _ _ _ => true
  | .chunkGet _ _ _ _ _ => true
  | .attestPq _ _ => true
  | .enroll _ _ _ => true
  | .unenroll _ _ _ _ _ => true
  | .assign _ _ _ _ _ => true
  | .endpointRoot _ _ _ _ _ => true
  | .fwStage _ => true
  | .svnCommit => true
  | .debug _ => true
  | .dataIn _ => true
  | .dataOut _ => true
  | .setOwner _ => true
  | .recover _ => true
  | .functionLevelReset => true
  | .pcieHotReset => true
  | .pcieLinkLoss => true
  | .d0Entry => true
  | .busMasterEnable _ => true
  | .msixUnmask _ _ => true
  | .intModerationExpire _ => true
  | .intEoi _ => true
  | .dwDataRead _ => true
  | .dwDataWrite _ => true
  | .dwBurst n data => decide (n.isSome → data = []) && decide (data.length ≤ 4096)
  | .dwStatusRead => true
  | .recordAckWrite _ _ => true
  | .registerAliasWrite addr _ _ => decide (addr.toNat % 0x4000 < 0x1000 ∧ addr.toNat % 8 = 0)
  | .registerWrite _ data => decide (data.length ≤ 4096)
  | .cisternEnable => true
  | .memoryEnable => true
  | .faultEnable => true
  | .switchEnable => true
  | .tmuxEnable => true
  | .coldReset _ _ => true
  | .warmReset _ _ => true
  | .pwrRst _ _ _ => true
  | .powerReady => true
  | .brstCommandProcessor => true
  | .brstEngines => true
  | .brstCistern => true
  | .brstNoria => true
  | .brstSwitchCore => true
  | .brstHeadgates => true
  | .brstPorts => true
  | .brstMemory => true
  | .brstTime => true
  | .brstAudit => true
  | .brstFaults => true
  | .blockResetDone => true
  | .profileSelect _ => true
  | .powerSample temps _ _ _ _ => decide (temps.length = 24)
  | .coolantSample _ _ => true
  | .vinLow _ => true
  | .vinRecover _ => true
  | .vinCritical _ => true
  | .smbGctlId => true
  | .smbPwrStatus => true
  | .smbPwrIn => true
  | .smbCool => true
  | .smbHottestIsland => true
  | .smbHottestStack => true
  | .smbAlertStatus => true
  | .smbFlogPtime => true
  | .smbOther => true
  | .idcode => true
  | .bypass => true
  | .samplePreload _ _ => true
  | .extest => true
  | .internalScan _ => true
  | .flogSecondTick => true
  | .flogSummaryWrite _ => true
  | .flogEntryDurable _ => true
  | .flogExportRequest => true
  | .flogExportReady => true
  | .flogDataRead => true
  | .lockParticipantTimeout _ _ _ => true
  | .driftMonitorFlag _ => true
  | .trefInLoss => true
  | .idleFlit _ f => f.ok
  | .inputOvervoltage _ => true
  | .resetNLongHold => true
  | .d3hotEntry => true
  | .managementPortChange _ _ => true

end Sys2Proof
end

