-- ==== Sys2Proof/Tests/Slice0.lean ====
section
/-!
SUPPORT. Tests: terms that WellFormed refuses, words of the encoding tables, single steps with results taken from the spec, and for each
statement with hypotheses a state and operands that meet them.
-/
namespace Sys2Proof.Tests
open Sys2Proof Sys2Proof.Machine
-- One theorem after another: the kernel evaluations would otherwise wait for each other in a thread each.
set_option Elab.async false

/-- The first context of the first engine, without a hardware error. -/
abbrev a0 : Site := ⟨0, 0, .none⟩

/-- The reset state with register fields set. -/
def regs (l : List (Fld × Nat)) : State := State.reset.sets l

/-- A module that answers BAR0. -/
def up : State := regs [(F.PWR_STATUS_ready, 1)]

/-- The number held in the little-endian bytes of a number. -/
theorem leNat_leBytes (n x : Nat) : leNat (leBytes x n) = x % 256 ^ n := by
  induction n generalizing x with
  | zero => simp [leBytes, leNat, Nat.mod_one]
  | succ n ih =>
    have h : x % 256 ^ (n + 1) = x % 256 + 256 * (x / 256 % 256 ^ n) := by rw [Nat.pow_succ', Nat.mod_mul]
    rw [h, leBytes, leNat, ih, BitVec.toNat_ofNat]

theorem length_leBytes (n x : Nat) : (leBytes x n).length = n := by
  induction n generalizing x with
  | zero => rfl
  | succ n ih => simp [leBytes, ih]

/-- In state `s` but for the engines' store and contexts, engine 0 runs context `c` in its context 0, and the word at its program counter is
`w`. -/
def at0 (s : State) (c : Ctx) (w : BitVec 64) : State :=
  { s with eng := { s.eng with
      ctxs := [(0, { c with st := 1, prog := 0 })], store := Bytes.wr [] (c.code + 8 * c.pc) (leBytes w.toNat 8), last := [], stopped := [] } }

/-- There an instruction with that word may issue. -/
theorem at0_can (s : State) (c : Ctx) (w : BitVec 64) (h : Hw) : (at0 s c w).canIssue ⟨0, 0, h⟩ w = true := by
  have hc : (at0 s c w).ctxAt ((0 : Fin 128) : Nat) ((0 : Fin 8) : Nat) = { c with st := 1, prog := 0 } := rfl
  have k : (at0 s c w).codeWord ((0 : Fin 128) : Nat) { c with st := 1, prog := 0 } = w.toNat := by
    simp only [State.codeWord, at0, Bytes.num, storeKey]
    have := Bytes.rd_wr [] (c.code + 8 * c.pc) (leBytes w.toNat 8)
    rw [length_leBytes] at this
    show leNat (Bytes.rd _ (3145728 * 0 + (c.code + 8 * c.pc)) 8) = _
    rw [Nat.mul_zero, Nat.zero_add, this, leNat_leBytes, Nat.mod_eq_of_lt (by have := w.isLt; omega)]
  have e : (at0 s c w).eng.stopped = [] := rfl
  have a : (at0 s c w).ahead ((0 : Fin 128) : Nat) ((0 : Fin 8) : Nat) = [] := rfl
  simp only [State.canIssue, hc, k, e, a]
  simp

/-- And issues, when no hardware error meets it. -/
theorem at0_issues (s : State) (c : Ctx) (w : BitVec 64) : (at0 s c w).issues a0 w := ⟨at0_can s c w .none, rfl⟩


/-! ### Ill-formed terms -/

theorem test_wf_site : Instr.wellFormed (.vadd ⟨0, 0, .word 32 0 false⟩ ⟨0, 0, 0, 0, 0, 0, 0, 0, 0, 0⟩) = false
    ∧ Instr.wellFormed (.vadd ⟨0, 0, .check 0⟩ ⟨0, 0, 0, 0, 0, 0, 0, 0, 0, 0⟩) = false
    ∧ Instr.wellFormed (.vadd ⟨0, 0, .store 3145728 false⟩ ⟨0, 0, 0, 0, 0, 0, 0, 0, 0, 0⟩) = false
    ∧ Instr.wellFormed (.vadd ⟨0, 0, .column 1 0⟩ ⟨0, 0, 0, 0, 0, 0, 0, 0, 0, 0⟩) = false
    ∧ Instr.wellFormed (.vadd ⟨0, 0, .cistern 1024 false⟩ ⟨0, 0, 0, 0, 0, 0, 0, 0, 0, 0⟩) = false := by decide

theorem test_wf_chunk : Instr.wellFormed (.chunkReceive 0 ⟨2 ^ 32, 0, 0, 0, 0, false, false, 0, [], false, false, true, false, 32, [], false⟩ [] []) = false
    ∧ Instr.wellFormed (.chunkReceive 0 ⟨0, 0, 0, 0, 0, false, false, 0, [], false, false, true, false, 31, [], false⟩ [] []) = false := by decide

theorem test_wf_ack : Instr.wellFormed (.ackReceive 0 ⟨0, 2 ^ 32, 0, false, false⟩) = false := by decide

theorem test_wf_flit : Instr.wellFormed (.dataFlit 0 ⟨0, [], 0⟩) = false := by decide

theorem test_wf_sample : Instr.wellFormed (.powerSample [] [] 0 0 0) = false := by decide

theorem test_wf_burst : Instr.wellFormed (.dwBurst (some 8) [0]) = false ∧ Instr.wellFormed (.registerWrite 0 (List.replicate 4097 0)) = false := by
  decide +kernel

theorem test_wf_alias : Instr.wellFormed (.registerAliasWrite 0x1000 0 0) = false ∧ Instr.wellFormed (.registerAliasWrite 4 0 0) = false := by decide


theorem test_wf_lengths : Instr.wellFormed (.allreduce 0 [3, 4, 3]) = false ∧ Instr.wellFormed (.goeKeyExchange 0 0 1 (List.replicate 249 0)) = false
    ∧ Instr.wellFormed (.pfcFrame 0 0 (List.replicate 7 0)) = false := by decide +kernel

theorem test_wf_bodies : Instr.wellFormed (.packetHeaderTake 0 0 (List.replicate 16384 0) none) = false
    ∧ Instr.wellFormed (.goeData 0 0 0 0 (List.replicate 16384 0) false) = false
    ∧ Instr.wellFormed (.dataPut 0 0 0 0 (List.replicate 16384 0)) = false := by decide +kernel
/-! ### Words of the encoding tables (Tables 06-1 and 07-1), written out field by field, and hypotheses of the block's statements -/

theorem test_word_vfma : decodeSluice a0
    ((0x13 : BitVec 8) ++ (5 : BitVec 5) ++ (1 : BitVec 5) ++ (2 : BitVec 5) ++ (5 : BitVec 5) ++ (1 : BitVec 5) ++ (0 : BitVec 3) ++ (0 : BitVec 3)
      ++ (0 : BitVec 1) ++ (0 : BitVec 4) ++ (0 : BitVec 20)) = some (.vfma a0 ⟨5, 1, 2, 5, 1, 0, 0, 0, 0, 0⟩) := by decide +kernel

theorem test_word_smovhi : decodeSluice a0
    ((0x31 : BitVec 8) ++ (15 : BitVec 4) ++ (2 : BitVec 4) ++ (3 : BitVec 4) ++ (0 : BitVec 12) ++ (0xFFFFFFFE : BitVec 32))
    = some (.smovhi a0 ⟨15, 2, 3, 0xFFFFFFFE⟩) := by decide +kernel

theorem test_word_crnd : decodeSluice a0
    ((0x42 : BitVec 8) ++ (9 : BitVec 5) ++ (0 : BitVec 5) ++ (0 : BitVec 5) ++ (1 : BitVec 4) ++ (0 : BitVec 1) ++ (1 : BitVec 5) ++ (0 : BitVec 3)
      ++ (0 : BitVec 3) ++ (0 : BitVec 1) ++ (2 : BitVec 4) ++ (0 : BitVec 4) ++ (0 : BitVec 4) ++ (0 : BitVec 1) ++ (1 : BitVec 1) ++ (0 : BitVec 10))
    = some (.crnd a0 ⟨9, 0, 1, 1, 0, 0, 0, 2, 0, 0, 0, 1, 0⟩) := by decide +kernel

theorem test_word_reserved : decodeSluice a0 0xFF00000000000000 = none ∧ decodeSluice a0 0x3212300100000000 = none := by decide +kernel

/-- `fma` meets every hypothesis of `RoundTrip`. -/
theorem witness_RoundTrip : let i := Instr.vfma a0 ⟨5, 1, 2, 5, 1, 0, 0, 0, 0, 0⟩
    i.site = some a0 ∧ encodeSluice i = some 0x1328445080000000 ∧ decodeSluice a0 0x1328445080000000 = some i := by decide +kernel

/-- So does the state after reset those of `LinesFollowCauses` and `StepRunsFront`. -/
theorem witness_LinesFollowCauses : State.reset.host.lines = State.reset.intLines ∧ (∃ t, step State.reset = .next t) ∧
    (∃ t, exec .trefPulse State.reset = .next t) := ⟨by decide +kernel, ⟨_, rfl⟩, ⟨_, rfl⟩⟩

theorem witness_StepRunsFront : State.reset.pending = [] ∧ { State.reset with pwr.off := true }.pending = [] ∧
    { State.reset with pwr.off := true }.pwr.off = true := ⟨rfl, rfl, rfl⟩
/-! ### Sluice instructions: where they issue -/

/-- A scalar instruction with every field at its limit. -/
abbrev fS : LS := ⟨15, 15, 15, 0xFFFFFFFF⟩
/-- Vector instructions with fields at their limits. -/
abbrev fV : LV := ⟨31, 31, 31, 31, 1, 7, 7, 1, 15, 0xFFFFF⟩
/-- Plain ones. -/
abbrev gV : LV := ⟨1, 2, 3, 4, 1, 0, 0, 0, 0, 0⟩
abbrev gC : LC := ⟨1, 2, 3, 1, 0, 0, 0, 0, 0, 8, 0, 0, 0⟩
abbrev gK : LK := ⟨1, 2, 3, 0, 0, 0, 1, 5⟩

theorem witness_ScalarResults : ∀ op ∈ ([0x30, 0x31, 0x32, 0x33, 0x34, 0x35, 0x36, 0x37, 0x38, 0x39, 0x3A] : List (BitVec 8)),
    (at0 up Ctx.free (fS.word op)).issues a0 (fS.word op) := fun _ _ => at0_issues _ _ _

theorem witness_VectorArithmetic : ∀ op ∈ ([0x10, 0x11, 0x12, 0x13, 0x14, 0x15, 0x16] : List (BitVec 8)),
    (at0 up Ctx.free (fV.word op)).issues a0 (fV.word op) := fun _ _ => at0_issues _ _ _

theorem witness_BitwiseAndShift : ∀ op ∈ ([0x20, 0x21, 0x22, 0x23, 0x24, 0x25, 0x26] : List (BitVec 8)),
    (at0 up Ctx.free (fV.word op)).issues a0 (fV.word op) := fun _ _ => at0_issues _ _ _

theorem witness_MovesAndConversion : ∀ op ∈ ([0x27, 0x28, 0x2A, 0x5A, 0x17] : List (BitVec 8)),
    (at0 up Ctx.free (fV.word op)).issues a0 (fV.word op) := fun _ _ => at0_issues _ _ _

theorem witness_PredicatesAndLanes : ∀ op ∈ ([0x18, 0x2B, 0x29] : List (BitVec 8)),
    (at0 up Ctx.free (fV.word op)).issues a0 (fV.word op) := fun _ _ => at0_issues _ _ _

theorem witness_SortAndFilter : ∀ op ∈ ([0x50, 0x51, 0x52, 0x58, 0x59] : List (BitVec 8)),
    (at0 up Ctx.free (fV.word op)).issues a0 (fV.word op) := fun _ _ => at0_issues _ _ _

theorem witness_SparseInstructions : ∀ op ∈ ([0x60, 0x61, 0x62] : List (BitVec 8)),
    (at0 up Ctx.free (fV.word op)).issues a0 (fV.word op) := fun _ _ => at0_issues _ _ _

/-- A stream of engine 0 bound to `t`. -/
def bound (s : State) (k : Nat) (t : Strm) : State := { s with eng.strms := s.eng.strms.put k t }

/-- A store region of 64 bytes. -/
def store64 : Strm := { Strm.init with mode := 2, size := 64 }

theorem witness_StreamReads : let f : LT := ⟨1, 8, 0, 0, 0, 1, 2, 1, 0, 0, 0⟩
    let empty : Strm := { Strm.init with ranks := [0], chunk := some 0 }
    let region : Region := ⟨16, false, true, 1, 1, 1, [1], [], []⟩
    let full : State := { up with
      cis.regions := up.cis.regions.put (regionKey 4096 0 3) region
      cis.slots := [(slotKey 4096 0 3 0, { Slot.empty with occ := true })] }
    (∀ op ∈ ([0x01, 0x03] : List (BitVec 8)), let s := at0 (bound up 8 store64) Ctx.free (f.word op)
      s.issues a0 (f.word op) ∧ s.strm 0 8 = some store64 ∧ (s.take 0 (s.running a0) 8 (modeBytes (s.fmt 1) 0 0 false) false none).isSome = true) ∧
    (∀ op : BitVec 8, (at0 (bound full 0 empty) Ctx.free (f.word op)).issues a0 (f.word op)) ∧
    up.windowFull a0 Ctx.free = false ∧ full.windowFull a0 Ctx.free = true ∧ (bound up 0 empty).strm 0 0 = some empty ∧
    ((bound up 0 empty).take 0 Ctx.free 0 (modeBytes (up.fmt 1) 0 0 false) false none).isNone = true :=
  ⟨fun op h => ⟨at0_issues _ _ _, by revert op; decide +kernel, by revert op; decide +kernel⟩, fun _ => at0_issues _ _ _, by decide +kernel⟩

/-- SSEND to a port with credit and without, to a store region, to a flume queue with room and without; and to a port whose open chunk the value does
not fit, with a collective that goes on and with one that this chunk completes, which unbinds the port. -/
theorem witness_StreamSends : let f : Nat → LT := fun k => ⟨1, BitVec.ofNat 4 k, 0, 0, 0, 0, 0, 1, 0, 0, 0⟩
    let n := modeBytes (up.fmt 1) 0 0 false
    let full : Strm := { Strm.init with level := 16384 }
    let queue : Strm := { Strm.init with mode := 3, cap := 4096 }
    let part : Strm := { Strm.init with out := [0] }
    let last : State := bound (up.putColl 0 { Coll.new ⟨packBits [(0, 8, 1), (160, 32, 4096), (256, 8, 1), (264, 8, 1)]⟩ 0 with phase := 1, engs := [0] }) 4 part
    (∀ (s : State) (k : Nat), (at0 s Ctx.free ((f k).word 0x02)).issues a0 ((f k).word 0x02)) ∧
    (∀ p ∈ [(4, Strm.init), (5, full), (8, store64), (15, queue), (8, { queue with cap := 0 }), (4, part)], (bound up p.1 p.2).strm 0 p.1 = some p.2) ∧
    Strm.init.level + credit n ≤ 16384 ∧ full.level + credit n > 16384 ∧ store64.mode = 2 ∧ queue.mode ≠ 2 ∧ queue.out.length + n ≤ queue.cap ∧
    queue.out.length + n > 0 ∧ Strm.init.lacks n = false ∧ part.lacks n = true ∧
    (((bound up 4 part).putStrm 0 4 (part.close false)).collectOut 0).strm 0 4 = some (part.close false) ∧
    ((last.putStrm 0 4 (part.close false)).collectOut 0).strm 0 4 = none :=
  ⟨fun _ _ => at0_issues _ _ _, by decide +kernel⟩

theorem witness_CisternAccumulateRoundClear :
    (∀ op ∈ ([0x40, 0x42, 0x44] : List (BitVec 8)), (at0 up Ctx.free (gC.word op)).issues a0 (gC.word op)) ∧
    up.slotsReady a0 Ctx.free (up.region 4096 0 3) 3 [0, 1] = true ∧
    (let q := { Coll.new ⟨0x01 ||| 1 <<< 32⟩ 0 with parties := [⟨false, 0, 0, 0, 1, none, none, 0, 0⟩] }
     let s := at0 (up.putColl 0 q) { Ctx.free with coll := some 0 } (gC.word 0x42)
     s.issues a0 (gC.word 0x42) ∧ s.slotsReady a0 (s.running a0) (s.region 0 0 3) 3 [0] = false) :=
  ⟨fun _ _ => at0_issues _ _ _, by decide +kernel, at0_issues _ _ _, by decide +kernel⟩

theorem witness_SlotEntryAndMerge : (up.region Ctx.free.owner 0 3).ordered = false ∧
    up.passes Ctx.free (up.slotRd (slotOf a0 Ctx.free 3 0)).count 1 = false := by decide +kernel

/-- CMERGE of 8 bytes with and without data, in an exact and an ordered region; CXPORT to a port, a store region and a flume queue, and where it waits. -/
theorem witness_CisternMergeExport :
    let f : Nat → LC := fun k => ⟨1, 2, 3, 1, 0, 0, 0, 0, 0, BitVec.ofNat 4 k, 0, 0, 0⟩
    let queue : Strm := { Strm.init with mode := 3, cap := 4096 }
    let ord : State := { up with cis.regions := up.cis.regions.put (regionKey 4096 0 3) ⟨16, true, false, 0, 0, 0, [], [], []⟩ }
    let most := 8 * (Exact.ofIdx 16).fullLen
    let q := { Coll.new ⟨0x01 ||| 1 <<< 32⟩ 0 with parties := [⟨false, 0, 0, 0, 1, none, none, 0, 0⟩] }
    (∀ (s : State) (c : Ctx) (k : Nat) (op : BitVec 8), (at0 s c ((f k).word op)).issues a0 ((f k).word op)) ∧
    ((bound up 8 store64).mergeItems a0 Ctx.free 8 .c320 false 1 4).isSome = true ∧ (up.region 4096 0 3).ordered = false ∧
    ((bound ord 8 store64).mergeItems a0 Ctx.free 8 .c320 true 1 4).isSome = true ∧ (ord.region 4096 0 3).ordered = true ∧
    (up.mergeItems a0 Ctx.free 8 .c320 false 1 4).isNone = true ∧
    ((up.putColl 0 q).slotsReady a0 { Ctx.free with coll := some 0 } (up.region 0 0 3) 3 [0] = false) ∧
    up.slotsReady a0 Ctx.free (up.region 4096 0 3) 3 [0] = true ∧ (bound up 8 store64).strm 0 8 = some store64 ∧
    Strm.init.level + credit most ≤ 16384 ∧ 16384 + credit most > 16384 ∧ queue.out.length + most ≤ queue.cap ∧ queue.out.length + most > 0 :=
  ⟨fun _ _ _ _ => at0_issues _ _ _, by decide +kernel⟩

/-- A FUSED_UPDATE in context 0 whose default binding set has a row table of 8 rows of 64 bytes at handle 0. -/
theorem witness_GatherScatterAndGenerator :
    let f : LG := ⟨1, 2, 0, 1, 1, 0, 0, 0, 8⟩
    let tb : TableRec := ⟨8 <<< 32 ||| 16 <<< 64 ||| 64 <<< 80⟩
    let base := { up with binds := OMap.put [] 0 ⟨0, true, OMap.put [] 0 tb, []⟩ }.putColl 0 (Coll.new ⟨0x0C⟩ 0)
    let c := { Ctx.free with coll := some 0 }
    (∀ (s : State) (op : BitVec 8), (at0 s c (f.word op)).issues a0 (f.word op) ∧ (at0 s c (fV.word op)).issues a0 (fV.word op) ∧
      (at0 s c (gV.word op)).issues a0 (gV.word op)) ∧
    base.tableAt c 0 = some tb ∧ bit gV.ext.toNat 19 = false ∧ bit fV.ext.toNat 19 = true ∧
    ∀ p ∈ [({ Strm.init with cap := 8192 }, true), (Strm.init, false)],
      (bound base 8 p.1).strm 0 8 = some p.1 ∧
        decide (p.1.land.length + p.1.rowsDue + (c.enabledList 0 13).length * tb.rowBytes ≤ p.1.cap) = p.2 :=
  ⟨fun _ _ => ⟨at0_issues _ _ _, at0_issues _ _ _, at0_issues _ _ _⟩, by decide +kernel⟩

/-- Each clause of WAITEV (met and not met), SIGEV and FENCE (nothing open, something open), BRP (taken and not). -/
theorem witness_SynchronisationAndControl :
    let l : LL := ⟨0xFFFFF, 1⟩
    (∀ (s : State) (c : Ctx), (∀ op, (at0 s c (gK.word op)).issues a0 (gK.word op)) ∧ (at0 s c (l.word 0x80)).issues a0 (l.word 0x80)) ∧
    (let t := (Ctx.free.sc 2 + 5) % 2 ^ 32
     ¬ (up.get (evt (up.eventOf Ctx.free 3)) + 2 ^ 32 - t) % 2 ^ 32 < 2 ^ 31 ∧ (5 + 2 ^ 32 - t) % 2 ^ 32 < 2 ^ 31 ∧
      (regs [(evt 3, 5)]).get (evt 3) = 5 ∧ up.eventOf Ctx.free 3 = 3) ∧
    Ctx.free.open_ = [] ∧ { Ctx.free with open_ := [0] }.open_ ≠ [] ∧
    Ctx.free.pr 1 % 2 ^ 128 = 0 ∧ { Ctx.free with p := NMap.wr [] 1 1 }.pr 1 % 2 ^ 128 ≠ 0 :=
  ⟨fun _ _ => ⟨fun _ => at0_issues _ _ _, at0_issues _ _ _⟩, by decide +kernel⟩

/-- A word that is not the context's next; each of the four hardware errors' outcomes. -/
theorem witness_IssueAndChecks :
    (let i := Instr.vadd a0 gV
     i.site = some a0 ∧ encodeSluice i = some (gV.word 0x10) ∧ State.reset.canIssue a0 (gV.word 0x10) = false) ∧
    (∀ (s : State) (c : Ctx) (h : Hw), (at0 s c (gV.word 0x10)).canIssue ⟨0, 0, h⟩ (gV.word 0x10) = true) ∧
    (let ph := up.physOf 0
     let sp := 17 * (ph / 17) + 16
     up.get (F.ENG_STATUS_role sp) = 1 ∧ up.get (F.ENG_STATUS_degraded (up.runsOn ph)) = 0 ∧ up.runsOn ph ≠ sp ∧
      (regs [(F.ENG_STATUS_role 16, 0)]).get (F.ENG_STATUS_role sp) ≠ 1) ∧
    Ctx.free.tries < 2 ∧ 2 ≤ { Ctx.free with tries := 2 }.tries ∧ 0 < { Ctx.free with tries := 2 }.tries ∧
    (Hw.fileWord (.word 31 63 true)).isSome = true ∧ (Hw.fileWord (.word 31 63 false)).isSome = true :=
  ⟨by decide +kernel, fun _ _ _ => at0_can _ _ _ _, by decide +kernel⟩
/-! ### Events of the engines and of the chunk protocol -/

/-- A bound stream in engine 0 and a context in its context 0. -/
def engine0 (c : Ctx) (k : Nat) (t : Strm) : State :=
  { up with eng := { Engines.init with ctxs := [(0, c)], strms := OMap.put [] k t } }

theorem witness_EngineWaitsAndSpare :
    (let s := engine0 { Ctx.free with st := 4, wait := .event 4095 0 } 8 Strm.init
     (s.ctxAt 0 0).wait = .event 4095 0 ∧ s.evtMet 4095 0 = true) ∧
    (let s := engine0 { Ctx.free with st := 4, wait := .fence true } 8 Strm.init
     (s.ctxAt 0 0).wait = .fence true ∧ (s.ctxAt 0 0).open_ = []) ∧
    (let s := { up with eng.stopped := [134, 119] }
     s.waitingEngine 7 = some 119 ∧ s.eng.attach.find 7 = none ∧ s.get (F.ENG_STATUS_role (spareOf 7)) = 1) ∧
    (let s := { up with eng.attach := OMap.put [] 7 119 }
     s.eng.attach.find 7 = some 119 ∧
       119 ∉ s.eng.retiring ∧ ∀ i < 8, s.returnPoint (s.get (F.ENG_STATUS_logical 119)) (s.ctxAt (s.get (F.ENG_STATUS_logical 119)) i) = true) ∧
    (let s := { up with eng.retiring := [119], flog := Bytes.wr [] (flogAt 119 + 12) [1] }
     s.waitingEngine 7 = none ∧ s.eng.retiring.find? (fun p => p / 17 == 7 && s.mayTakeOver p) = some 119) := by decide +kernel

/-- A command waits for credit on crossings `xs` of a state: they are stuck. -/
def stuckAt (s : State) (xs : List Nat) : State := { s with xing.held := [(xs, .trefPulse)] }

theorem witness_EngineMemoryCompletions :
    up.stuck (flumeOf 0 true) = false ∧ up.stuck (flumeOf 0 false) = false ∧ (stuckAt up (flumeOf 0 true)).stuck (flumeOf 0 true) = true ∧
    (stuckAt up (flumeOf 0 false)).stuck (flumeOf 0 false) = true ∧
    (let r : Req := ⟨0, 0, 0, .rows 8 [(1, false)] [] 1 [5] 1⟩
     let s := { engine0 Ctx.free 8 Strm.init with eng.reqs := [r] }
     s.eng.reqs.find? (fun r => r.landsIn 0 8) = some r ∧ s.strm 0 8 = some Strm.init ∧ r.want = .rows 8 [(1, false)] [] 1 [5] 1) ∧
    (let rd : ChanRec := ⟨64 <<< 128 ||| 1 <<< 160 ||| 1 <<< 256⟩
     let t := { Strm.init with mode := 3, chan := some rd, cap := 256 }
     (engine0 Ctx.free 8 t).strm 0 8 = some t ∧ t.chan = some rd ∧ rd.dir = 0) ∧
    (let wr : ChanRec := ⟨1 <<< 24 ||| 64 <<< 128 ||| 1 <<< 160 ||| 1 <<< 256⟩
     let t := { Strm.init with mode := 3, chan := some wr, out := [1, 2], wops := [(0, 2)] }
     (engine0 Ctx.free 8 t).strm 0 8 = some t ∧ t.chan = some wr ∧ wr.dir = 1 ∧ t.wops = (0, 2) :: []) ∧
    (let tb : TableRec := ⟨1 <<< 16 ||| 4 <<< 32 ||| 4 <<< 64⟩
     let r : Req := ⟨0, 0, 0, .add tb 1 2 1 0x3F800000 false⟩
     let s := { up with eng.reqs := [r] }
     s.eng.reqs[0]? = some r ∧ r.want = .add tb 1 2 1 0x3F800000 false ∧ ∀ q ∈ s.eng.reqs.take 0, q.slot ≠ r.slot) ∧
    (regs [(F.ENG_STATUS_role 0, 2)]).katMay 0 = false ∧ up.katMay 0 = true := by decide +kernel

/-- An ALLREDUCE of 1,024 binary32 elements in chunks of 4,096 bytes, in group 0, with identifier 7. -/
def cmd1 : Cmd := ⟨packBits [(0, 8, 1), (32, 32, 7), (160, 32, 4096), (192, 64, 1024), (256, 8, 1), (264, 8, 1)]⟩

/-- A collective that runs it with members of rank 0 at port 0 and rank 1 at port 1. -/
def coll1 : Coll :=
  { Coll.new cmd1 0 with phase := 1, parties := [⟨false, 0, 0, 1, 1, none, none, 0, 0⟩, ⟨false, 0, 1, 2, 1, none, none, 0, 0⟩] }

/-- That collective in context 0; the group's parent in tree 0 is at port 9. -/
def running1 (c : Coll) : State := { up with cp.groups := OMap.put [] 0 ⟨1, 2, 2 ^ 9, 0, [], []⟩, cp.colls := OMap.put [] 0 c }

/-- A contribution of rank `r` to chunk `i`, a part of it or all. -/
def chunkOf (r i : Nat) (crc part : Bool) : ChunkIn := ⟨7, i, r, 1, 0, false, false, 1, [], false, true, crc, true, 4128, [], part⟩

theorem witness_ChunkReceived :
    up.collOf 7 = none ∧ up.stuck (up.chunkPath 0 7) = false ∧ (stuckAt up [0]).stuck ((stuckAt up [0]).chunkPath 0 7) = true ∧
    (running1 { coll1 with phase := 0 }).collOf 7 = some (0, { coll1 with phase := 0 }) ∧
    (let s := running1 coll1
     let p : Party := ⟨false, 0, 0, 1, 1, none, none, 0, 0⟩
     let d := { coll1 with parties := [{ p with cut := some 0 }] }
     let u := running1 d
     s.stuck (s.chunkPath 9 7) = false ∧ s.collOf 7 = some (0, coll1) ∧ coll1.phase ≠ 0 ∧ (s.groupOf coll1).parentTree 9 = some 0 ∧
       (s.groupOf coll1).parentTree 143 = none ∧ coll1.partyAt 143 0 = none ∧ (s.groupOf coll1).parentTree 0 = none ∧
       coll1.partyAt 0 0 = some (p, 0) ∧ coll1.partyAt 0 1 = some (p, 0) ∧ s.judge coll1 p 0 (chunkOf 0 1 true false) = .event 3 ∧
       u.collOf 7 = some (0, d) ∧ d.phase ≠ 0 ∧ (u.groupOf d).parentTree 0 = none ∧ d.partyAt 0 0 = some ({ p with cut := some 0 }, 0) ∧
       u.judge d { p with cut := some 0 } 0 (chunkOf 0 0 true false) = .spill 1 ∧
       s.judge coll1 p 0 (chunkOf 0 0 false false) = .bad 0 ∧ s.judge coll1 p 0 (chunkOf 0 0 true false) = .take 0 ∧
       s.judge coll1 p 0 (chunkOf 0 0 true true) = .take 0 ∧ s.mayNotOpen coll1 0 = false ∧ (p.isKid && coll1.cmd.routed) = false) ∧
    (let s := (running1 coll1).set F.PWR_STATUS_paused 1
     s.judge coll1 ⟨false, 0, 0, 1, 1, none, none, 0, 0⟩ 0 (chunkOf 0 0 true false) = .take 0 ∧ s.mayNotOpen coll1 0 = true) ∧
    (let k : Party := ⟨true, 0, 2, 4, 2, none, none, 0, 0⟩
     let d := { Coll.new ⟨cmd1.w + 5⟩ 0 with phase := 1, parties := [k] }
     let s := running1 d
     d.cmd.routed = true ∧ s.collOf 7 = some (0, d) ∧ (s.groupOf d).parentTree 2 = none ∧ d.partyAt 2 0 = some (k, 0) ∧
       (s.groupOf d).parentTree 9 = some 0 ∧ s.stuck (s.chunkPath 2 7) = false) := by
  decide +kernel

theorem witness_ChunkProtocol :
    let s := running1 coll1
    let p : Party := ⟨false, 0, 0, 1, 1, none, none, 0, 0⟩
    let q := { coll1 with cmd := ⟨cmd1.w ||| packBits [(8, 8, 0x20), (304, 16, 1)]⟩, chunks := [(0, { ChunkSt.empty with got := [(0, 1, 0)] })] }
    let y := { coll1 with kept := [⟨0, true, 1, 0, 2, 1, [], false, false, true, false, false, none⟩] }
    (stuckAt up [0]).stuck ((stuckAt up [0]).chunkPath 0 7) = true ∧ (stuckAt up [0]).stuck [ingressOf 0] = true ∧
      s.stuck (s.chunkPath 0 7) = false ∧ s.stuck [ingressOf 0] = false ∧
      s.collOf 7 = some (0, coll1) ∧ (chunkOf 0 0 true false).crc = true ∧ (s.groupOf coll1).parentTree 9 = some 0 ∧ (p, 0) ∈ coll1.partiesAt 0 ∧
      (coll1.partiesAt 0).find? (fun q => coll1.receives (s.chunksOut coll1.cmd) (s.groupOf coll1).ranks 0 q.2 q.1) = some (p, 0) ∧
      (s.groupOf coll1).parentTree 0 = none ∧ s.coll 0 = some coll1 ∧ coll1.phase ≠ 0 ∧ 9 ∉ coll1.late ∧ coll1.partiesAt 9 = [] ∧ 0 ∉ coll1.late ∧
      (coll1.partiesAt 0).head? = some (p, 0) ∧ (coll1.partiesAt 0).any (fun q => s.owes coll1 q.2 q.1) = true ∧
      ((running1 y).coll 0 = some y ∧ y.partiesAt 9 = [] ∧ ((running1 y).groupOf y).parentTree 9 = some 0 ∧ y.parentOwes 0 = true) ∧
      (let u := running1 q
       u.coll 0 = some q ∧ q.cmd.isQuorum = true ∧ q.phase ≠ 0 ∧ 0 < u.chunksIn q.cmd ∧ (u.groupOf q).tier = 1 ∧ (q.chunk 0).reduced = false ∧
         q.cmd.quorum ≤ (q.chunk 0).got.length) := by decide +kernel
/-! ### The noria, steps, time and locks -/

/-- Rule 1 with two passes and flags `fl`; an update of shard 1023 by it in context 0 with pass `p` done; norm set 15. -/
def updating (phase p : Nat) (dense ended : Bool) (fl : Nat) (n : Norm) : State :=
  let f : FuseSt := ⟨1023, 1, none, dense, [0], p, [], [], 0, false, ended, 0, []⟩
  let h : Shard := ⟨⟨15 <<< 240⟩, 2, 0, 0, 0, 0, 0, false, false, 0, false, false, none, none⟩
  { up with
    nor := { Noria.init with shards := OMap.put [] 1023 h, norms := OMap.put [] 15 n, rules := Bytes.wr [] 1024 (leBytes (packBits [(40, 8, 2), (48, 8, fl)]) 8) },
    cp.colls := OMap.put [] 0 { Coll.new ⟨0x0C⟩ 0 with phase := phase, fuse := some f } }

/-- A norm set whose own slot has left, holding `z`. -/
def norm1 (z : Option Slot) (peers : List Nat) (parts : List (Nat × Rec)) : Norm := ⟨0, 0, peers, 0, [], z, parts, [], 0, none, false⟩

/-- A slot that holds a NaN. -/
def nanSlot : Slot := { Slot.empty with flags := { Flags.zero with nan := true } }

theorem witness_UpdatePasses :
    (∀ p ∈ [(0, 0, true, false, 0), (1, 0, true, true, 0), (1, 0, false, false, 0), (1, 2, true, false, 0), (1, 0, true, false, 0), (1, 0, true, false, 3)],
      ((updating p.1 p.2.1 p.2.2.1 p.2.2.2.1 p.2.2.2.2 (norm1 none [] [])).job 0 []).isSome = true) ∧
    (let n := norm1 (some nanSlot) [] []
     ∃ j, (updating 1 0 true false 3 n).job 0 [] = some j ∧ j.c.phase ≠ 0 ∧ j.f.ended = false ∧ j.f.dense = true ∧ j.streamed = false ∧
       ((updating 1 0 true false 3 n).rootChunks j.c).all j.f.fed.contains = true ∧ j.f.pass < j.r.passes ∧ j.r.clip = true ∧
       (updating 1 0 true false 3 n).nor.norms.find j.h.record.nset = some n ∧ n.complete = true ∧ n.step = j.c.step ∧ n.total.nonFinite = true ∧
       j.r.nfSkip = true) ∧
    (∃ j, (updating 1 1 true false 1 (norm1 (some Slot.empty) [] [])).job 0 [] = some j ∧ j.f.pass < j.r.passes ∧ j.r.clip = true ∧ j.r.nfSkip = false) ∧
    (∃ j, (updating 1 1 true false 0 (norm1 none [] [])).job 0 [] = some j ∧ j.f.pass < j.r.passes ∧ j.r.clip = false) ∧
    (norm1 none [] []).complete = false ∧ (norm1 (some Slot.empty) [] []).complete = true ∧ (norm1 (some Slot.empty) [] []).total.nonFinite = false := by
  refine ⟨by decide +kernel, ⟨_, rfl, by decide +kernel⟩, ⟨_, rfl, by decide +kernel⟩, ⟨_, rfl, by decide +kernel⟩, by decide +kernel⟩

/-- A shard in state `st` with record `w`, a running snapshot or restore. -/
def shard1 (w st : Nat) (p : Option Snap) (r : Option Restore) : Shard := ⟨⟨w⟩, st, 0, 0, 0, 0, 0, false, true, 0, false, false, p, r⟩

theorem witness_NormAndCommitMessages :
    let r : Rec := ⟨0, 0, 0, 0, 0⟩
    let n := norm1 (some Slot.empty) [0, 65535] [(0, r)]
    let s : State := { up with nor.norms := OMap.put [] 15 n }
    let u : State := { s with nor.shards := OMap.put [] 1023 (shard1 (15 * 2 ^ 240) 3 none none) }
    up.stuck [ingressOf 143] = false ∧ { up with xing.held := [([ingressOf 143], .trefPulse)] }.stuck [ingressOf 143] = true ∧
      up.nor.norms.find 15 = none ∧ (s.normPending 15 0 = false ∧ s.nor.norms.find 15 = some n) ∧
      ((u.normRoll 15 0).nor.norms.find 15 = some n ∧ n.step = 0 ∧ u.normPending 15 0 = true) ∧ 1 ∉ n.peers ∧ 0 ∈ n.peers ∧
      (∃ p ∈ n.parts, p.1 = 0) ∧ 65535 ∈ n.peers ∧ (∀ p ∈ n.parts, p.1 ≠ 65535) ∧ n.sent.isSome = true ∧ 65535 ∉ n.reported ∧
      up.get F.NOR_CTL_en = 0 ∧ (regs [(F.NOR_CTL_en, 1)]).get F.NOR_CTL_en ≠ 0 ∧ 0 < { up with turn := 1 }.turn ∧ up.turn ≤ 0 ∧
      up.get F.WM_CTL_role ≠ 2 ∧ (regs [(F.WM_CTL_role, 2)]).get F.WM_CTL_role = 2 := by decide +kernel

/-- The manifest of an empty shard whose record is zero: the record, count and versions 0, six planes of length 0, the image's digest. -/
def manifest0 : List Byte := List.replicate 192 0 ++ sha256 [] ++ List.replicate 32 0

theorem witness_SnapshotsAndRestores :
    let put := fun (h : Shard) => { up with nor.shards := OMap.put [] 1023 h, sec.tenants := OMap.put [] 0 ⟨0, 0, 0, 0, List.replicate 32 1, [], 0, 0⟩ }
    let p : Snap := ⟨7, 0, 2, [0, 1], 0⟩
    let r : Restore := ⟨0, 5, [], none, 0⟩
    let h := shard1 0 4 none (some r)
    let s := put h
    let key := s.snapKeyOf h.record.tenant r.object
    let iv := segNonce 1023 7 0
    let aad := segHeader true 1023 0 7 5 256
    let ct := gcmCrypt key iv manifest0
    (up.ready = true ∧ up.host.d3hot = false ∧ (put (shard1 0 1 none none)).shard 1023 = some (shard1 0 1 none none) ∧ up.shard 0 = none) ∧
    ((put (shard1 0 1 (some p) none)).snapOf 0 7 = some (1023, shard1 0 1 (some p) none, p) ∧ p.owed.filter (· ≠ 0) ≠ [] ∧
      { p with owed := [1] }.owed.filter (· ≠ 1) = []) ∧
    ((shard1 0 5 none none).st = 0 ∨ (shard1 0 5 none none).st = 5) ∧ (shard1 0 1 none none).st ≠ 0 ∧ (shard1 0 1 none none).st ≠ 5 ∧
    s.shard 1023 = some h ∧ h.restore = some r ∧ gcmTag key iv aad ct ≠ [] ∧ gcmCrypt key iv ct = manifest0 ∧
      (imagePlanes h manifest0 []).isSome = true ∧ (imagePlanes h [] []).isNone = true := by decide +kernel
theorem witness_StepsAndRecords :
    let closed := { StepInfo.first with closed := some 5 }
    let s : State := { up with det.audit.steps := [closed] }
    up.ready = true ∧ up.host.d3hot = false ∧ up.get F.STEP_CTR_step = 0 ∧ up.get F.AUD_CTL_en ≠ 1 ∧ (regs [(F.AUD_CTL_en, 1)]).get F.AUD_CTL_en = 1 ∧
      up.det.audit.steps.find? (fun i => i.step == 0) = some StepInfo.first ∧ StepInfo.first.closed = none ∧
      s.det.audit.steps.find? (fun i => i.step == 0) = some closed ∧ closed.closed.isSome = true ∧ s.stepDone 0 = true ∧
      s.get F.AUD_SEQ_parts + 1 < 2 ^ F.AUD_SEQ_parts.w := by decide +kernel

/-- A step with 16,385 seed sets has two parts. -/
theorem witness_AuditChain :
    let closed := { StepInfo.first with closed := some 5, seeds := List.replicate 16385 (0, []) }
    let s : State := { up with det.audit.steps := [closed] }
    s.det.audit.steps.find? (fun i => i.step == (0 : BitVec 64).toNat) = some closed ∧ closed.closed.isSome = true ∧ s.stepDone 0 = true ∧
      (∀ h, s.det.audit.prevHash = some h → h.length = 48) ∧ max 1 ((closed.seeds.length + 16383) / 16384) = 2 ∧
      s.get F.AUD_SEQ_parts + 2 < 2 ^ F.AUD_SEQ_parts.w ∧ ∃ t, exec (.stepRecordWrite 0) s = .next t := by
  refine ⟨rfl, rfl, by decide +kernel, ?_, ?_, by decide +kernel, ⟨_, rfl⟩⟩
  · intro h e; cases e
  · rw [List.length_replicate]; decide

theorem witness_TimeExchange :
    let on : State := regs [(F.TIME_CTL_en, 1), (F.PWR_STATUS_ready, 1), (F.TIME_STATUS_locked, 1)]
    let ma : State := on.set F.TIME_CTL_master 1
    on.get F.TIME_CTL_en = 1 ∧ on.get F.TIME_CTL_master ≠ 1 ∧ up.get F.TIME_CTL_en ≠ 1 ∧ ma.get F.TIME_CTL_master = 1 ∧ ma.get F.TIME_CTL_en = 1 ∧
      (0 : BitVec 32).toNat = on.det.time.exch ∧ (0 : BitVec 64).toNat = on.det.time.t1 ∧ (1 : BitVec 32).toNat ≠ on.det.time.exch ∧
      on.det.time.acquired = false ∧ ma.det.time.counting = false ∧ ma.get F.TIME_STATUS_locked = 1 ∧
      (regs [(F.TIME_CTL_master, 1)]).get F.TIME_STATUS_locked = 0 ∧ up.ready = true ∧ up.host.d3hot = false ∧
      (((((66 : Int) - 0) - (0 - 0)) / 2).natAbs > 32 ∧ ((((65 : Int) - 0) - (0 - 0)) / 2).natAbs ≤ 32 ∧ ((((33 : Int) - 0) - (0 - 0)) / 2).natAbs ≤ 16) ∧
      { on with det.time.good := 7 }.det.time.good + 1 ≥ 8 ∧ on.det.time.good + 1 < 8 := by decide +kernel

/-- A BARRIER in context 0 of group 0: member of rank 0 at port 0, one with rank 1 fenced at port 1, a child at port 2 that covers 4, the parent at
port 9. -/
def barrier (l : LockUse) (op : Nat) : State :=
  { up with
    cp.groups := OMap.put [] 0 ⟨1, 6, 2 ^ 9, 0, [⟨0, 0, false⟩, ⟨1, 1, true⟩], [⟨0, 2 ^ 2, 2, 4, false⟩, ⟨0, 2 ^ 3, 6, 1, true⟩]⟩
    cp.colls := OMap.put [] 0 (Coll.new ⟨packBits [(0, 8, op), (32, 32, 7)]⟩ 0)
    det.locks := OMap.put [] 16 l }

/-- A lock in its first use. -/
def lock1 : LockUse := ⟨0, [], [], [], [], [], false, none, 0⟩

theorem witness_LockMessages :
    let s := barrier lock1 0x0B
    let c := Coll.new ⟨packBits [(0, 8, 0x0B), (32, 32, 7)]⟩ 0
    let g := s.groupOf c
    up.collOf 7 = none ∧ s.collOf 7 = some (0, c) ∧ c.cmd.op = 0x0B ∧ (Coll.new ⟨packBits [(0, 8, 1), (32, 32, 7)]⟩ 0).cmd.op ≠ 0x0B ∧
      g.members.find? (fun m => m.port == 0) = some ⟨0, 0, false⟩ ∧ g.members.find? (fun m => m.port == 1) = some ⟨1, 1, true⟩ ∧
      g.members.find? (fun m => m.port == 2) = none ∧ g.kids.find? (fun k => k.tree == 0 && bit k.ports 2) = some ⟨0, 2 ^ 2, 2, 4, false⟩ ∧
      g.kids.find? (fun k => k.tree == 0 && bit k.ports 3) = some ⟨0, 2 ^ 3, 6, 1, true⟩ ∧ 5 > 4 ∧
      g.members.find? (fun m => m.port == 143) = none ∧ g.kids.find? (fun k => k.tree == 0 && bit k.ports 143) = none ∧
      s.lockAt 0 16 = some lock1 ∧ bit g.par0 9 = true ∧ bit g.par0 8 = false ∧ lock1.seq = 0 ∧ lock1.tRel = none ∧ s.turn ≤ 0 ∧
      { s with turn := 1 }.turn > 0 ∧
      (barrier { lock1 with tRel := some 0 } 0x0B).lockAt 0 16 = some { lock1 with tRel := some 0 } ∧ s.coll 0 = some c ∧ lock1.passed = false ∧
      0 ∉ lock1.reported ∧ (0 ∈ s.lockLocals 0 16 g ∧ 0 ∉ lock1.locals) ∧ ((∃ k ∈ lockKids g, k.low = 2) ∧ ∀ q ∈ lock1.kids, q.1 ≠ 2) ∧
      ¬ (77 ∈ s.lockLocals 0 16 g) := by decide +kernel
/-! ### The switch core and the headgates -/

/-- A packet of class `c` from selector `src` of this module to `dst` with a payload of 8 bytes. -/
def packet (c src dst : Nat) : Packet := ⟨packBits [(0, 2, c), (16, 14, 8), (32, 24, dst), (64, 24, src)], List.replicate 8 1⟩

/-- A copy of a packet that entered at pulse 0. -/
def desc (k : Packet) (promo : Bool) : Desc := ⟨k, 0, 0, 0, 0, 1, 0, 0, false, false, promo⟩

/-- The switch enabled, with module number 5, and packets ready at port 143. -/
def switch1 (ready : List Packet) : State :=
  { regs [(F.SW_CTL_en, 1), (F.SW_ID_module, 5), (F.PT_STATUS_up 0, 1)] with links := [(143, { Link.init with ready := ready })] }

theorem witness_PacketsThroughTheSwitch :
    let k := packet 3 (5 * 256 + 143) (5 * 256 + 0xFF)
    let s := switch1 [k, { k with data := [] }]
    let bad : Packet := packet 1 (5 * 256 + 143) (5 * 256 + 200)
    let lost := packet 1 (5 * 256 + 0xE0) (5 * 256 + 0)
    let w : Wait := ⟨143, k, [(0xFF, k.data)], false, false⟩
    let waiting := { s with sw.waiting := [w] }
    let queued := { s with sw.furrows := [(furrowKey 0 0xFF 3, [desc k false]),
      (furrowKey 144 0 0, [desc (packet 0 (5 * 256 + 0xE0) (5 * 256 + 0)) false])], links := [(0, { Link.init with granted := [(0, 99)] })] }
    up.get F.SW_CTL_en = 0 ∧ waiting.blocked 143 3 = true ∧ s.get F.SW_CTL_en ≠ 0 ∧ s.blocked 143 3 = false ∧
      s.stuck (enterOf 143) = false ∧ { s with xing.held := [(enterOf 143, .trefPulse)] }.stuck (enterOf 143) = true ∧
      (let e := s.edge 143 k
       e.2.sw.writing.any (fun (x : Writing) => x.bank == e.1.epoch) = false ∧
         ({ s with sw.writing := some ⟨63, 0, 0⟩ }.edge 143 k).2.sw.writing.any (fun (x : Writing) => x.bank == e.1.epoch) = true) ∧
      (s.link 143).ready.find? (fun q => q.cls == 3) = some k ∧ (s.link 0).ready.find? (fun q => q.cls == 3) ≠ some k ∧ bad.wellFormed = false ∧
      k.wellFormed = true ∧ lost.wellFormed = true ∧
      (match (s.edge 143 k).2.destinations 143 (s.edge 143 k).1 with
        | .ok _ => true
        | .error _ => false) = true ∧
      (match (s.edge 144 lost).2.destinations 144 (s.edge 144 lost).1 with
        | .ok _ => false
        | .error _ => true) = true ∧
      (let first := fun (u : State) (die : Nat) => (u.waiters die).find? (fun w => (!u.ingress w.p || w.p.report || u.flowFree w.p die) &&
        (u.choosePool die w.src w.p.cls w.p.size).isSome)
       first s 1 = none ∧ first waiting (homeDie 143) = some w ∧ (waiting.grantTo w none).isSome = true) ∧
      s.portFree 0 = true ∧ { s with links := [(0, { Link.init with queue := [idleFlit] })] }.portFree 0 = false ∧
      (∀ c ∈ s.classOrder 0, (s.choose 0 c).isNone = true) ∧
      (findMap? (fun c => (queued.choose 0 c).map (fun r => (c, r.1))) (queued.classOrder 0)).isSome = true ∧
      (findMap? (fun c => queued.roundRobin 160 c (queued.heads 0xFF c)) [0, 1, 3, 2]).isSome = true ∧
      (findMap? (fun c => s.roundRobin 160 c (s.heads 0xFF c)) [0, 1, 3, 2]).isNone = true ∧
      (regs [(F.SW_STATUS_rebuild, 32)]).rebuilding 1 2 = true ∧ s.rebuilding 1 2 = false := by decide +kernel

theorem witness_HeadgateCommands :
    let red : Packet := ⟨packBits [(0, 2, 1), (6, 1, 1), (16, 14, 8)], List.replicate 8 1⟩
    let on : State := regs [(F.HG_CTL_en, 1), (F.PWR_STATUS_ready, 1), (F.HG_STARVE_turns, 4)]
    let q := { on with sw.furrows := [(furrowKey 2 143 1, [desc red false])], beat := 4 }
    let key := (flowPacket 7 1 true false 9 9).flow
    let a : Acc := ⟨0, none, [(3, 100)], 0, 0, 0⟩
    let flow := { q with sw.accs := OMap.put [] key a, links := [(3, { Link.init with peer := 77 })] }
    on.ready = true ∧ on.host.d3hot = false ∧ (0 + 262144 - on.get F.GR_TAIL_tail) % 262144 ≤ on.sw.grHeld ∧
      on.sw.grHeld < (262143 + 262144 - on.get F.GR_TAIL_tail) % 262144 ∧ on.slot 143 = 0 ∧ { on with turn := 2048 }.slot 143 ≠ 0 ∧
      q.furrow (furrowKey 2 143 1) = [desc red false] ∧ q.get F.HG_CTL_en ≠ 0 ∧ red.red = true ∧ (desc red false).promo = false ∧
      0 + q.get F.HG_STARVE_turns ≤ q.beat ∧ on.beat < 0 + on.get F.HG_STARVE_turns ∧
      on.sw.marks.rd 1148 = 0 ∧ (NMap.wr [] 1148 5).rd 1148 ≠ 0 ∧ (NMap.wr [] 1148 5).rd 1150 = 0 ∧
      flow.sw.accs.find key = some a ∧ 256 * (regs [(F.DLV_CTL_bytes, 0)]).get F.DLV_CTL_bytes ≤ a.owed ∧
      a.owed < 256 * flow.get F.DLV_CTL_bytes ∧ flow.beat < a.since + flow.get F.DLV_CTL_turns ∧ on.sw.accs.find key = none ∧ on.sw.flows.find key = none ∧
      ({ on with sw.flows := OMap.put [] key ⟨5, 0, 0, 1, false⟩ }.sw.flows.find key).isSome = true ∧
      (∃ e ∈ a.prog, e.1 < 144 ∧ (flow.link e.1).peer = 77) ∧ (∀ e ∈ a.prog, e.1 < 144 → (flow.link e.1).peer ≠ 78) ∧
      on.turn % 2 ^ on.get F.HG_SAMPLE_shift = 0 ∧ 1 % 2 ^ (regs [(F.HG_SAMPLE_shift, 1)]).get F.HG_SAMPLE_shift ≠ 0 ∧
      bits (2 ^ 34 - 1) 32 2 = 3 ∧ bits (2 ^ 33) 32 2 ≠ 3 := by decide +kernel
/-! ### Ports -/

/-- A flit of a type and sequence number with a right crc. -/
def flit (type seq : Nat) (body : List Byte) : FlitIn :=
  let h := packBits [(0, 2, type), (14, 12, seq)]
  ⟨BitVec.ofNat 64 (h ||| crc16 (leBytes h 6 ++ body) <<< 48), body, 0⟩

/-- Port 143 in mode `mode` with its lanes up at action `act`. -/
def port1 (mode act : Nat) (l : Link) : State :=
  { regs [(F.PT_GCTL_en, 1), (F.PT_CTL_en 143, 1), (F.PT_CTL_mode 143, mode), (F.PT_STATUS_action 143, act), (F.PWR_STATUS_ready, 1)] with links := [(143, l)] }

theorem witness_FlitsReceived :
    let s := port1 0 8 Link.init
    let full := port1 0 8 { Link.init with rxBlock := List.replicate 47 ⟨⟨0, []⟩, [], true⟩, discard := true, rxNext := 5 }
    let data := flitOf (flit 1 0 [7])
    let train := port1 0 3 { Link.init with lanes := [2] }
    up.listens 143 = false ∧ s.listens 143 = true ∧ data.ok = true ∧ data.type = 1 ∧ data.seq = 0 ∧ (s.link 143).rxBlock.length ≠ 47 ∧
      (full.link 143).rxBlock.length = 47 ∧ (s.link 143).discard = false ∧ data.seq = (s.link 143).rxExp ∧
      (s.rxFlit 143 data 0).1 = some [7] ∧ (s.rxFlit 143 data 2).1 = none ∧
      (s.rxFlit 143 (flitOf (flit 1 4095 [7])) 0).1 = none ∧
      (∀ t ∈ [2, 3, 4, 5], (s.rxFlit 143 (flitOf (flit 2 0 [BitVec.ofNat 8 t])) 0).1 = some [BitVec.ofNat 8 t]) ∧
      (train.action 143 = 3 ∧ 2 ∈ (train.link 143).lanes ∧ (train.link 143).rxBlock.length ≠ 47 ∧ train.listens 143 = true) ∧
      (full.link 143).discard = true ∧ data.seq ≠ (full.link 143).rxNext ∧ (flitOf (flit 2 5 [1])).seq = (full.link 143).rxNext ∧
      full.sealOk 143 [1, 1] = true ∧ full.sealOk 143 [1] = false ∧ (flitOf (flit 2 5 [1])).ok = true ∧ (flitOf (flit 2 5 [1])).type = 2 := by
  decide +kernel

/-- TRAIN brings a spare request while a spare is free, and a grant for a lane that waits. -/
theorem witness_FlitsReceived_spares :
    let s := (port1 0 3 Link.init).sets [(F.PT_CTL_spare_ok 143, 1), (F.SPARE_port 7 1, 143)]
    s.get (F.PT_CTL_spare_ok 143) = 1 ∧ (s.spareLane 143).isSome = true ∧ s.action 143 = 3 ∧ s.listens 143 = true := by decide +kernel

theorem witness_TrainingTable :
    up.ready = true ∧ up.host.d3hot = false ∧ up.get (F.PT_CTL_en 143) = 0 ∧ (port1 0 1 Link.init).get (F.PT_CTL_en 143) = 1 ∧ up.get F.PT_GCTL_en = 0 ∧
      (∀ m ∈ [0, 1, 2, 4], let s := regs [(F.PT_GCTL_en, 1), (F.PT_CTL_mode 143, m)]
        s.get F.PT_GCTL_en = 1 ∧ s.portMode 143 ≤ 4) ∧ (regs [(F.PT_CTL_mode 143, 5)]).portMode 143 > 4 ∧
      (∀ a ∈ [1, 2, 3, 4, 6, 9, 10, 11], (port1 0 a Link.init).acting 143 a = true ∧ (port1 0 a Link.init).acting 143 (a + 1) = false) ∧
      (let s := (port1 0 3 Link.init).sets [(F.PT_CTL_spare_ok 143, 1), (F.SPARE_port 7 0, 143), (F.SPARE_port 7 1, 143)]
       s.isG 143 = true ∧ s.get (F.PT_CTL_spare_ok 143) = 1 ∧
         (bitList 3 4).length ≤ ((List.range 2).filter (fun k => s.get (F.SPARE_port (143 / 18) k) == 143 && s.get (F.SPARE_in_use (143 / 18) k) == 0)).length ∧
         2 < (bitList 7 4).length) ∧
      (port1 3 11 Link.init).isG 143 = false ∧
      (let s := { port1 0 9 Link.init with beat := 2 ^ 40 }
       (s.link 143).entryAt + 1000000 * bits (s.entry 143) 40 16 ≤ s.beat ∧ (s.link 143).entryAt + 1000 * bits (s.entry 143) 20 20 ≤ s.beat) ∧
      (let s := (port1 0 8 Link.init).set (F.PT_STATUS_up 143) 1
       s.up 143 = true ∧ up.up 143 = false) := by decide +kernel

theorem witness_DatagramsAndPauses :
    let kept : Link := { Link.init with replay := [⟨0, []⟩], crypt := true, paused := NMap.wr [] 3 9 }
    let g := { port1 0 8 kept with beat := 2 ^ 40 }
    let e := { port1 3 12 kept with beat := 2 ^ 40 }
    g.isG 143 = true ∧ e.isE 143 = true ∧ g.isE 143 = false ∧ e.isG 143 = false ∧ (g.link 143).replay ≠ [] ∧
      (g.link 143).ackAt + g.get (F.PT_RTO_ns 143) ≤ g.beat ∧ (e.link 143).ackAt + 1000 * e.get (F.GOE_CTL_rto 143) ≤ e.beat ∧
      (g.link 143).crypt = true ∧ (up.link 143).crypt = false ∧ up.hears 143 = false ∧ e.hears 143 = true ∧
      (0 : BitVec 32).toNat = (e.link 143).rxNext ∧ (2 ^ 32 - 1 : BitVec 32).toNat ≠ (e.link 143).rxNext ∧
      (e.link 143).inUse + 32 + 16383 ≤ 262144 ∧
      ¬ (port1 3 12 { Link.init with ready := List.replicate 16 ⟨packBits [(16, 14, 16352)], List.replicate 16352 0⟩ }).links.any
        (fun l => decide (l.2.inUse + 32 + 16383 ≤ 262144)) = true ∧
      (e.link 143).paused.rd 3 ≠ 0 ∧ (e.link 143).paused.rd 3 ≤ e.beat ∧ { e with beat := 8 }.beat < (e.link 143).paused.rd 3 := by decide +kernel
/-! ### Commands -/

/-- The state in which commands run: queue 63 enabled and owned by the host, tenant 0 enrolled, group 0 loaded, the time locked. -/
def live : State :=
  { regs [(F.CMD_CTL_en, 1), (F.Q_CTL_en 63, 1), (F.PWR_STATUS_ready, 1), (F.TIME_CTL_en, 1), (F.AUD_CTL_en, 1), (F.TIME_STATUS_locked, 1)] with
    sec.tenants := OMap.put [] 0 ⟨0, 0xFF, 0, 0, [], [], 0, 0⟩, cp.groups := OMap.put [] 0 ⟨1, 2, 0, 0, [], []⟩ }

/-- A command with no event, sig_inc 1 and tenant 0, and the fields given. -/
def cmdOf (l : List (Nat × Nat × Nat)) : Cmd := ⟨packBits ([(64, 16, 0x8000), (80, 16, 0x8000), (128, 16, 1), (144, 16, 0x8000)] ++ l)⟩

/-- EVENT_ADD of 1 to counter 4,095; BARRIER of group 0; UNLOAD_GROUP of group 0; LOAD_PROGRAM of 64 bytes that are none. -/
def evAdd : Cmd := cmdOf [(0, 8, 0x26), (16, 16, 0xFFFF), (320, 32, 4095), (352, 32, 1)]
def barr : Cmd := cmdOf [(0, 8, 0x0B), (32, 32, 7)]
def unGroup : Cmd := cmdOf [(0, 8, 0x25)]
def badProg : Cmd := cmdOf [(0, 8, 0x20), (16, 16, 0xFFFF), (160, 32, 64)]

/-- With a command at the head of queue 63. -/
def headed (s : State) (c : Cmd) : State := s.putQueue 63 { Queue.empty with cmds := [c] }

theorem witness_Queues :
    let open_ : State := regs [(F.Q_CTL_en 63, 1), (F.PWR_STATUS_ready, 1)]
    let endp : State := (open_.set (F.Q_CTL_owner 63) 1).set (F.Q_CTL_port 63) 143
    let c := { Coll.new (cmdOf [(0, 8, 1), (384, 64, 5)]) 63 with cmp := some 4 }
    let ctx := (endp.putColl 0 c).putQueue 63 { Queue.empty with ctx := some 0 }
    let waits := endp.putQueue 63 { Queue.empty with wait := some c }
    endp.stuck [ingressOf 143] = false ∧ { endp with xing.held := [(enterOf 143, .trefPulse)] }.stuck [ingressOf 143] = true ∧
      open_.ready = true ∧ open_.host.d3hot = false ∧ open_.get (F.Q_CTL_owner 63) = 0 ∧ open_.get (F.Q_CTL_en 63) = 1 ∧
      (open_.queue 63).cmds.length < 256 ∧ up.get (F.Q_CTL_en 63) ≠ 1 ∧ endp.get (F.Q_CTL_owner 63) ≠ 0 ∧ open_.ownsQueue 143 = false ∧
      endp.ownsQueue 143 = true ∧ endp.get (F.Q_CTL_port 63) = 143 ∧ ¬ (endp.get (F.Q_CTL_owner 62) = 1) ∧
      (ctx.queue 63).held = true ∧ (endp.queue 63).held = false ∧ (ctx.queue 63).ctx.bind ctx.coll = some c ∧ c.cmp = some 4 ∧
      c.cmd.launchTurn ≤ { ctx with turn := 5 }.turn ∧ ctx.turn < c.cmd.launchTurn ∧ (waits.queue 63).ctx.bind waits.coll = none ∧
      (waits.queue 63).wait = some c ∧ (16320 % 8 = 0 ∧ 4177984 + 16320 ≤ 4194304 ∧ 4194304 + 8 > 4194304) ∧ endp.stageLocked 0 8 = false ∧
      { endp with host.locks := [(0, 8, 0)] }.stageLocked 0 8 = true := by decide +kernel

theorem witness_CommandChecks :
    (up.queue 63).cmds = [] ∧
    (let s := headed live evAdd
     (s.queue 63).cmds.head? = some evAdd ∧ evAdd.op = 0x26 ∧ s.served = some 63 ∧ evAdd.usesEngines = false ∧ up.served ≠ some 63 ∧
       (cmdOf [(0, 8, 1)]).usesEngines = true) ∧
    (let s := { headed (regs []) evAdd with cp.rr := [] }
     s.firstCheck 63 evAdd [] = some 1 ∧ evAdd.isColl = false) ∧
    (let s := headed (live.sets [(F.TIME_STATUS_locked, 0), (F.WM_CTL_wm, 9)]) barr
     { s with cp.rr := [] }.firstCheck 63 barr [] = none ∧ barr.isColl = true ∧ { s with cp.rr := [] }.lastCheck barr = some 0xC) ∧
    (let s := { headed live badProg with cp.rr := [] }
     s.firstCheck 63 badProg [] = none ∧ badProg.isColl = false ∧ (match s.object 63 badProg with
         | .error e => e.1 == 3
         | .ok _ => false) = true) ∧
    (let c := cmdOf [(0, 8, 0x30), (8, 8, 0x10), (16, 16, 0xFFFF), (160, 32, 64), (384, 64, 2 ^ 40)]
     let s := { headed (live.sets [(F.TIME_STATUS_locked, 0), (F.WM_CTL_wm, 9)]) c with cp.rr := [], host.staging := Bytes.wr [] 0 [0x40, 0, 1] }
     s.served = some 63 ∧ s.firstCheck 63 c [] = none ∧ c.isColl = false ∧ ∃ b, s.object 63 c = .ok (b, s) ∧ s.lastCheck c = some 0xC) ∧
    (let s := { headed (live.putColl 0 (Coll.new barr 0)) unGroup with cp.rr := [] }
     s.firstCheck 63 unGroup [] = none ∧ unGroup.isColl = false ∧ ∃ b, s.object 63 unGroup = .ok (b, s) ∧ s.lastCheck unGroup = none ∧
       ∃ w, s.loadEffect unGroup b = .error (0xE, w)) := by
  refine ⟨rfl, by decide +kernel, by decide +kernel, by decide +kernel, by decide +kernel,
    ⟨by decide +kernel, by decide +kernel, by decide +kernel, _, rfl, by decide +kernel⟩,
    ⟨by decide +kernel, by decide +kernel, _, rfl, by decide +kernel, _, rfl⟩⟩

theorem witness_CollectivesAccepted :
    let s := headed live barr
    (s.queue 63).cmds.head? = some barr ∧ barr.op = 0x0B ∧ s.served = some 63 ∧ barr.usesEngines = false ∧
      { s with cp.rr := [] }.firstCheck 63 barr [] = none ∧ { s with cp.rr := [] }.lastCheck barr = none := by decide +kernel

/-- A staged route list of `mode` and `bank`, without entries. -/
def rts (mode bank : Nat) : List Byte := leBytes (packBits [(0, 8, 0x40), (8, 8, mode), (16, 8, bank)]) 64

set_option maxRecDepth 20000 in
theorem witness_LoadsTakeEffect :
    (let s := headed live evAdd
     let u := { s with cp.rr := [] }
     (s.queue 63).cmds.head? = some evAdd ∧ evAdd.op = 0x26 ∧ s.served = some 63 ∧ u.firstCheck 63 evAdd [] = none ∧
       ∃ b w z, u.object 63 evAdd = .ok (b, u) ∧ u.lastCheck evAdd = none ∧ u.loadEffect evAdd b = .ok w ∧ u.queue 63 = s.queue 63 ∧
         evAdd.launch = false ∧
         (let n := u.noteAccept 63 evAdd
          let k := { u.newColl 63 evAdd [] with cmp := none, locks := [] }
          let held := n.putQueue 63 { n.queue 63 with wait := some k, obj := b }
          n.audHold = false ∧ held.get F.LEV_STATUS_isolated = 0 ∧ held.sw.writing.any (fun x => x.queue == 63) = false ∧
            held.loadEffect evAdd b = .ok z)) ∧
    (let c := cmdOf [(0, 8, 0x30), (16, 16, 0xFFFF), (160, 32, 64)]
     let b := rts 0 1
     let s := { headed live c with host.staging := Bytes.wr [] 0 b }
     let u := { s with cp.rr := [] }
     (s.queue 63).cmds.head? = some c ∧ c.op = 0x30 ∧ s.served = some 63 ∧ u.firstCheck 63 c [] = none ∧
       ∃ w z, u.object 63 c = .ok (b, u) ∧ u.lastCheck c = none ∧ u.loadEffect c b = .ok w ∧ u.queue 63 = s.queue 63 ∧ c.launch = false ∧
         (let n := u.noteAccept 63 c
          let n := { n with host.locks := n.host.locks ++ [(c.elements, c.chunkBytes, 63)] }
          let k := { u.newColl 63 c [] with cmp := none, locks := [] }
          let held := n.putQueue 63 { n.queue 63 with wait := some k, obj := b }
          n.audHold = false ∧ held.get F.LEV_STATUS_isolated = 0 ∧ held.sw.writing = none ∧ held.routesReady b = true ∧
            held.loadEffect c b = .ok z ∧ routeMode b ≠ 2)) ∧
    (let k := Coll.new unGroup 63
     let s := (live.putColl 0 (Coll.new barr 0)).putQueue 63 { Queue.empty with wait := some k }
     (s.queue 63).ctx = none ∧ (s.queue 63).wait = some k ∧ k.cmd.isColl = false ∧ k.cmp = none ∧ k.cmd.launch = false ∧
       s.sw.writing.any (fun y => y.queue == 63) = false ∧ s.get F.LEV_STATUS_isolated = 0 ∧ s.loadReady k.cmd (s.queue 63).obj = true ∧
       ∃ z, s.loadEffect k.cmd (s.queue 63).obj = .error (0xE, z)) := by
  refine ⟨⟨by decide +kernel, by decide +kernel, by decide +kernel, by decide +kernel, _, _, _, rfl, by decide +kernel, rfl, rfl, by decide +kernel,
      by decide +kernel, by decide +kernel, by decide +kernel, rfl⟩,
    ⟨by decide +kernel, by decide +kernel, by decide +kernel, by decide +kernel, _, _, rfl, by decide +kernel, rfl, rfl, by decide +kernel,
      by decide +kernel, by decide +kernel, by decide +kernel, by decide +kernel, rfl, by decide +kernel⟩,
    ⟨by decide +kernel, by decide +kernel, by decide +kernel, by decide +kernel, by decide +kernel, by decide +kernel, by decide +kernel,
      by decide +kernel, _, rfl⟩⟩

theorem witness_MemoryLevels :
    let w : State := regs [(F.LPD_RT_PERIOD_turns, 100), (F.LPD_CH_drift 127, 1)]
    let m := { up with rsv.mig := some (127, 3, lpdPages - 1) }
    (w.get F.LPD_RT_PERIOD_turns ≠ 0 ∧ w.get F.LPD_RT_BASE_turn ≤ w.turn ∧ (w.turn - w.get F.LPD_RT_BASE_turn) % 100 = 0 ∧ w.rsv.rt = none ∧
      w.rsv.rtWin ≠ 0 / 100 + 1 ∧ w.lpdChosen = some 127) ∧
    ((regs [(F.LPD_RT_PERIOD_turns, 100)]).lpdChosen = none ∨ up.lpdChosen = none) ∧ (regs [(F.LPD_RT_PERIOD_turns, 0)]).get F.LPD_RT_PERIOD_turns = 0 ∧
      ({ up with rsv.rt := some (127, 0), turn := 20000 }.rsv.rt = some (127, 0) ∧ 20000 ≤ 0 + 20000 ∧ 0 + 20000 < 20001) ∧ up.rsv.rt = none ∧
      up.rsv.mig = none ∧ m.rsv.mig = some (127, 3, lpdPages - 1) ∧ m.rsv.rt.any (fun (r : Nat × Nat) => r.1 == 127) = false ∧
      { m with rsv.rt := some (127, 0) }.rsv.rt.any (fun (r : Nat × Nat) => r.1 == 127) = true ∧ lpdPages ≤ lpdPages - 1 + 1 ∧ 0 + 1 < lpdPages ∧
      (regs [(F.MEM_CTL_scrub, 0)]).get F.MEM_CTL_scrub = 0 ∧ (regs [(F.MEM_CTL_scrub, 1)]).get F.MEM_CTL_scrub = 1 ∧
      (regs [(F.STEP_STATUS_strict, 1)]).get F.STEP_STATUS_strict = 1 ∧ up.get F.STEP_STATUS_strict = 0 := by decide +kernel
/-! ### Chapter 15 -/

/-- Roles: a member, the watermaster, its standby. -/
def wm : State := regs [(F.WM_CTL_role, 1), (F.WM_CTL_standby, 77), (F.PWR_STATUS_ready, 1), (F.FLT_CTL_en, 1)]
def standby : State := regs [(F.WM_CTL_role, 2), (F.WM_CTL_wm, 4095)]

theorem witness_StepDecisions :
    let armed := { up with nor.armed := [(3, 8)], turn := 8 }
    let held : State := { wm with flt.held := some (0x10, 3, 8), flt.pend := true }
    armed.nor.armed.find? (fun (a : Nat × Nat) => a.1 == (3 : BitVec 64).toNat) = some (3, 8) ∧ 8 ≤ armed.turn ∧ { armed with turn := 7 }.turn < 8 ∧
      (2 ^ 64 - 1 : BitVec 64).toNat ≠ up.get F.STEP_CTR_step ∧ (0 : BitVec 64).toNat = up.get F.STEP_CTR_step ∧
      wm.actsWm = true ∧ wm.flt.held = none ∧ held.actsWm = true ∧ held.flt.held = some (0x10, 3, 8) ∧ held.flt.pend = true ∧
      held.get F.WM_CTL_standby = 77 ∧ up.actsWm = false ∧ up.get F.WM_CTL_role = 0 ∧ (regs [(F.WM_CTL_role, 3)]).get F.WM_CTL_role = 3 ∧
      ¬ (wm.get F.WM_CTL_role = 0 ∨ wm.get F.WM_CTL_role = 3) ∧
      (let w : State := { up with flt.waits := [(3, 0)], beat := 2 ^ 40 }
       w.flt.waits.find? (fun (w : Nat × Nat) => w.1 == (3 : BitVec 64).toNat) = some (3, 0) ∧ 0 + 1000 * w.get F.PTN_CTL_wait ≤ w.beat) ∧
      0 < 0 + 1000 * (regs [(F.PTN_CTL_wait, 1)]).get F.PTN_CTL_wait := by decide +kernel

theorem witness_WatermasterAndManager :
    let managed : State := { wm with sec.sessions := [⟨1, 1, true, 0, 0, [], true⟩] }
    let r : FmReport := ⟨[], none, some 3, 0⟩
    let asks := { managed with flt.fm := [r], beat := 5000000000 }
    up.actsWm ≠ true ∧ wm.actsWm = true ∧ wm.fmSession = none ∧ managed.fmSession.isSome = true ∧ managed.actsWm = true ∧
      wm.get F.WM_CTL_standby ≠ 0xFFFF ∧ (regs [(F.WM_CTL_role, 1), (F.WM_CTL_standby, 0xFFFF)]).get F.WM_CTL_standby = 0xFFFF ∧
      (∀ m ∈ [0x10, 0x11, 0x83, 0x82], bits m 0 8 = m) ∧ asks.flt.fm[0]? = some r ∧ r.since + 5000000000 ≤ asks.beat ∧
      { asks with beat := 4999999999 }.beat < r.since + 5000000000 ∧ standby.get F.WM_CTL_role = 2 ∧
      (4095 : BitVec 16).toNat = standby.get F.WM_CTL_wm ∧ (4096 : BitVec 16).toNat ≠ standby.get F.WM_CTL_wm ∧ wm.get F.WM_CTL_role ≠ 2 ∧
      (let late := { standby with beat := 2 ^ 40 }
       late.flt.hbAt + 1000 * late.get F.WM_CTL_hb ≤ late.beat) ∧
      (let s := standby.set F.WM_CTL_hb 1
       s.beat < s.flt.hbAt + 1000 * s.get F.WM_CTL_hb) := by decide +kernel

theorem witness_OrdersAndFences :
    (regs [(F.FLT_CTL_en, 0)]).get F.FLT_CTL_en = 0 ∧ wm.get F.FLT_CTL_en = 1 ∧ (0 : BitVec 16).toNat ≠ wm.get F.WM_CTL_wm ∧
      (65535 : BitVec 16).toNat = wm.get F.WM_CTL_wm ∧ wm.get F.LEV_CTL_mode = 0 ∧ (regs [(F.LEV_CTL_mode, 1)]).get F.LEV_CTL_mode = 1 := by decide +kernel

theorem witness_LeveeMessages :
    let on : State := regs [(F.FLT_CTL_en, 1), (F.LEV_CTL_mode, 0), (F.PWR_STATUS_ready, 1), (F.LEV_CTL_probe, 1), (F.LEV_CTL_round, 1),
      (F.LEV_MEM_valid 63, 1), (F.LEV_MEM_module 63, 9), (F.SW_ID_module, 0)]
    let down : State := { on with flt.downAt := NMap.wr [] 143 1, beat := 2 ^ 40 }
    let b : Ballot := ⟨9, 1, 0, 8, 0, 0⟩
    let voted : State := { on with flt.ballots := [b] }
    let m : Motion := ⟨2, 8, 0xFF, false, 0, 1, 0, [], 0, 0⟩
    let moved : State := { on with flt.motions := [m] }
    on.levee = true ∧ (regs [(F.FLT_CTL_en, 1), (F.LEV_CTL_mode, 1)]).levee ≠ true ∧ down.held 143 = true ∧ bit down.fencedPorts 143 = false ∧
      on.held 143 = false ∧ bit (on.set (F.SW_FENCE_ports 2) (2 ^ 15)).fencedPorts 143 = true ∧ on.ready = true ∧ on.host.d3hot = false ∧
      (0 : BitVec 16).toNat = on.me ∧ (9 : BitVec 16).toNat ≠ on.me ∧
      voted.flt.ballots.find? (fun b => b.proposer == 9 && b.seq == 1 && b.round == 0) = some b ∧ b.vote = 0 ∧ { b with vote := 3 }.vote ≠ 0 ∧
      on.flt.ballots.find? (fun b => b.proposer == 9 && b.seq == 1 && b.round == 0) = none ∧ on.setDig < 2 ^ 32 ∧
      ((0 : BitVec 32).toNat ≠ on.setDig ∨ (1 : BitVec 32).toNat ≠ on.setDig) ∧ (8 : BitVec 16).toNat ≠ on.me ∧
      voted.probing 9 1 = some b ∧ b.target = 8 ∧ b.since + 1000 * on.get F.LEV_CTL_probe ≤ 1000 ∧ voted.beat < b.since + 1000 * on.get F.LEV_CTL_probe ∧
      moved.flt.motions.find? (fun p => p.seq == 1) = some m ∧ 9 ∈ moved.live ∧ (∀ v ∈ m.votes, v.1 ≠ 9) ∧ 10 ∉ moved.live ∧
      m.since + 1000 * moved.get F.LEV_CTL_round ≤ 1000 ∧ moved.beat < m.since + 1000 * moved.get F.LEV_CTL_round := by decide +kernel

theorem witness_Resilvering :
    let on : State := regs [(F.PWR_STATUS_ready, 1), (F.FLT_CTL_en, 1), (F.RSL_CTL_shard, 1023), (F.PTN_valid 1 511, 1), (F.PTN_module 1 511, 9),
      (F.PTN_pshard 1 511, 7), (F.ACK_TIMEOUT_us, 1)]
    let put := fun (st : Nat) => { on with nor.shards := OMap.put [] 1023 (shard1 0 st none none) }
    let r : Resilver := ⟨9, 7, 1, [], none, 0, 0⟩
    let s : State := { put 4 with flt.spares := OMap.put [] 1023 r }
    let l : Lend := ⟨9, 7, 1023, 1, some 0, 0⟩
    let lent : State := { put 1 with flt.lends := [l] }
    on.ready = true ∧ on.host.d3hot = false ∧ (put 0).shard ((put 0).get F.RSL_CTL_shard) = some (shard1 0 0 none none) ∧
      (put 0).partner ((put 0).get F.RSL_CTL_shard) = some (9, 7) ∧ on.get F.FLT_CTL_en = 1 ∧ (shard1 0 0 none none).st = 0 ∧
      (shard1 0 1 none none).st ≠ 0 ∧ (regs [(F.FLT_CTL_en, 0)]).get F.FLT_CTL_en = 0 ∧ up.shard 1023 = none ∧
      (∀ st ∈ [0, 1, 2, 3, 4, 5], (put st).shard 1023 = some (shard1 0 st none none)) ∧ (put 1).partner 1023 = some (9, 7) ∧ up.partner 1023 = none ∧
      on.resilverOf 9 1 = none ∧ s.resilverOf 9 1 = some (1023, r) ∧ s.shard 1023 = some (shard1 0 4 none none) ∧
      (imagePlanes (shard1 0 4 none none) [] []).isNone = true ∧ (imagePlanes (shard1 0 4 none none) manifest0 []).isSome = true ∧
      lent.flt.lends.find? (fun l => l.spare == 9 && l.seq == 1) = some l ∧ l.next = some 0 ∧ lent.rslCount l ≤ 0 + 1 ∧ l.next ≠ some 1 ∧
      s.flt.lends.find? (fun l => l.spare == 9 && l.seq == 1) = none ∧ s.flt.spares.find 1023 = some r ∧
      r.since + 1000 * s.get F.ACK_TIMEOUT_us ≤ 1000 ∧ s.beat < r.since + 1000 * s.get F.ACK_TIMEOUT_us := by decide +kernel

/-- A partner's shard whose image has more than one segment. -/
theorem witness_Resilvering_segments :
    let h := shard1 (packBits [(64, 64, 2), (192, 8, 0), (0xE0, 8, 0xFF)]) 1 none none
    let s := { up with nor.shards := OMap.put [] 1023 h }
    0 + 1 < s.rslCount ⟨9, 7, 1023, 1, some 0, 0⟩ := by decide +kernel
/-! ### The secure core. Whether a signature of the owner, a FINISH or an envelope verifies rests on opaque constants of Config, so that neither answer can be
computed: each of those clauses has its remaining hypotheses met here. -/

/-- A secured session 1 and one, 2, that FINISH has not secured, on binding 2, which has negotiated to the end; tenant 7 in slot 0. -/
def spoken : State :=
  { regs [(F.PWR_STATUS_ready, 1), (F.SEC_STATUS_lifecycle, 2)] with
    sec.sessions := [⟨1, 2, true, 0, 0, [], false⟩, ⟨2, 2, false, 5, 0, [], false⟩], sec.neg := NMap.wr [] 2 3, sec.owner := List.replicate 48 1,
    sec.tenants := OMap.put [] 0 ⟨7, 8, 0, 0, [], [⟨9, [], []⟩], 0, 0⟩ }

theorem witness_SpdmSessions :
    spoken.spdmUp = true ∧ spoken.get F.SEC_STATUS_lifecycle ≠ 3 ∧ spoken.sec.neg.rd 2 = 3 ∧ spoken.sec.neg.rd 0 < 1 ∧
      (regs [(F.SEC_STATUS_boot_fail, 1)]).spdmUp = false ∧ (regs [(F.SEC_STATUS_lifecycle, 3)]).get F.SEC_STATUS_lifecycle = 3 ∧
      spoken.session 2 (3 : BitVec 32).toNat = none ∧ (spoken.session 2 1).isSome = true ∧ (∀ x, spoken.session 2 1 = some x → x.secured = true) ∧
      (spoken.session 2 2).isSome = true ∧ (∀ x, spoken.session 2 2 = some x → x.secured = false) ∧ spoken.sec.sessions.length < 4 ∧
      4 ≤ (spoken.sec.sessions ++ spoken.sec.sessions).length ∧ (0 : BitVec 16).toNat = 0 ∧ (1 : BitVec 16).toNat ≠ spoken.sec.neg.rd 10 ∧
      (((spoken.sec.chunks.find 5).getD []).drop 0).take 8 = [] ∧
      (([1, 2, 3] : List Byte).drop ((2 : BitVec 16).toNat * (1 : BitVec 32).toNat)).take 1 ≠ [] := by
  refine ⟨by decide +kernel, by decide +kernel, by decide +kernel, by decide +kernel, by decide +kernel, by decide +kernel, by decide +kernel,
    by decide +kernel, ?_, by decide +kernel, ?_, by decide +kernel, by decide +kernel, by decide +kernel, by decide +kernel, by decide +kernel,
    by decide +kernel⟩ <;> · intro x h; cases h; rfl

theorem witness_SpdmEvidence : spoken.spdmUp = true ∧ spoken.get F.SEC_STATUS_lifecycle ≠ 3 ∧ 3 ≤ spoken.sec.neg.rd 2 ∧
    (∃ x, spoken.session 2 (1 : BitVec 32).toNat = some x ∧ x.secured = true) ∧ (9 : BitVec 8).toNat < 10 ∧ (0xFF : BitVec 8).toNat = 0xFF ∧
    10 ≤ (10 : BitVec 8).toNat ∧ (0 : Fin 8) = 0 ∧ (7 : Fin 8) ≠ 0 ∧ up.sec.owner = [] ∧ spoken.sec.owner ≠ [] :=
  ⟨by decide +kernel, by decide +kernel, by decide +kernel, ⟨_, rfl, rfl⟩, by decide +kernel⟩

/-- An enrollment record of tenant 8 with one key of id 3. -/
def record1 : List Byte := padTo 0x2A80 ([8, 0, 0, 0, 1, 1] ++ List.replicate 58 0 ++ [3]) ++ List.replicate 4723 0

theorem witness_OwnerRequests :
    (spoken.spdmUp = true ∧ spoken.get F.SEC_STATUS_lifecycle ≠ 3 ∧ 3 ≤ spoken.sec.neg.rd 2 ∧
      ∃ x, spoken.session 2 (1 : BitVec 32).toNat = some x ∧ x.secured = true) ∧
    spoken.sec.owner ≠ [] ∧ { spoken with sec.owner := [] }.sec.owner = [] ∧ spoken.enrollOk record1 = true ∧ spoken.enrollOk [] = false ∧
      (∀ j < 1, (spoken.sec.tenants.find j).isSome = true) ∧ spoken.sec.tenants.find 1 = none ∧
      spoken.tenant 6 = none ∧ (spoken.tenant 7).isSome = true ∧ spoken.tenantHolds 7 = false ∧
      { spoken with sec.owners := [(3, 7)] }.tenantHolds 7 = true ∧ spoken.assignOk 2 3839 7 = true ∧ spoken.assignOk 2 3840 7 = false ∧
      spoken.assignOk 1 383 7 = false ∧ spoken.assignOk 0 511 6 = false ∧ spoken.sec.roots.length < 8 ∧
      8 ≤ { spoken with sec.roots := List.replicate 8 [] }.sec.roots.length ∧ spoken.sec.owners.rd (2 * 65536 + 3839) ≠ 7 :=
  ⟨⟨by decide +kernel, by decide +kernel, by decide +kernel, _, rfl, rfl⟩, by decide +kernel⟩

theorem witness_MailboxControl :
    let fail : State := regs [(F.SEC_STATUS_boot_fail, 1)]
    let staged := fun (b : List Byte) => { spoken with host.staging := Bytes.wr [] 0 b }
    let head : List Byte := [2, 0, 0, 0, 5, 0, 0, 0, 0, 0, 0, 0, 64, 0, 0, 0] ++ List.replicate 48 0
    { up with host.d3hot := true }.host.d3hot = true ∧ fail.get F.SEC_STATUS_boot_fail = 1 ∧ up.host.d3hot = false ∧
      up.get F.SEC_STATUS_boot_fail = 0 ∧ State.reset.ready = false ∧ up.ready = true ∧ up.get F.MBX_ARG_offset + 48 ≤ stagingSize ∧
      ¬ up.get F.MBX_ARG_offset + (2 ^ 24 - 1) ≤ stagingSize ∧ fwHead head = some (2, 5) ∧ fwHead [] = none ∧
      (match (staged []).takeEnvelope ((staged []).host.staging.rd 0 48) 5 none .mailbox with
        | .error _ => true
        | .ok _ => false) = true ∧ up.sec.owner = [] ∧ spoken.sec.owner ≠ [] ∧
      (regs [(F.SEC_STATUS_lifecycle, 3)]).get F.SEC_STATUS_lifecycle = 3 ∧ up.get F.SEC_STATUS_lifecycle ≠ 3 ∧
      tokenMay 1 2 none true = true ∧ tokenMay 1 2 none false = false ∧ tokenMay 1 0 (some 2) true = false ∧ 4 < (regs [(F.FW_SVN_fuse, 5)]).get F.FW_SVN_fuse ∧
      up.get F.FW_SVN_fuse ≤ 5 := by decide +kernel

/-- In TEST an unsigned token of the right length for this device and no level acts or is turned away: its hypotheses but the binding to the opaque identity. -/
theorem witness_MailboxControl_unsigned :
    let s := { regs [(F.SEC_STATUS_lifecycle, 0), (F.PWR_STATUS_ready, 1)] with host.staging := [] }
    s.get F.SEC_STATUS_lifecycle = 0 ∧ fieldOf [] (envHead + 33) 1 = 0 ∧ s.get F.MBX_ARG_offset + (envHead + 64) ≤ stagingSize ∧ tokenMay 0 2 none false = true := by
  decide +kernel

theorem witness_DataEnvelopes :
    let w : Tenant := ⟨7, 8, 0, 0, [], [⟨9, [], []⟩], 0, 0⟩
    let s := { spoken with sec.owners := NMap.wr [] (2 * 65536 + 3839) 7 }
    let body : List Byte := [2, 0, 0, 0, 0, 0, 0, 0] ++ leBytes (3839 * 2 ^ 30) 8 ++ leBytes 8 8
    spoken.host.d3hot = false ∧ spoken.get F.SEC_STATUS_boot_fail = 0 ∧ spoken.ready = true ∧
      stagingSize < spoken.get F.MBX_ARG_offset + (2 ^ 24 - 1) ∧ spoken.get F.MBX_ARG_offset + 8 ≤ stagingSize ∧
      (match spoken.envCheck (spoken.host.staging.rd 0 8) 6 none with
        | .error c => c == 1
        | .ok _ => false) = true ∧ (spoken.keyOwner 9).isSome = true ∧ spoken.keyOwner 8 = none ∧
      s.dataRange w body = some (2, 3839 * 2 ^ 30, 8) ∧ spoken.dataRange w body = none ∧ body.length = 24 ∧ (body ++ body.take 8).length = 24 + 8 ∧
      s.get F.MBX_ARG_offset + (envHead + 32 + 8) ≤ stagingSize ∧ s.stageLocked 0 (envHead + 40) = false ∧
      { s with host.locks := [(0, 8, 0)] }.stageLocked 0 (envHead + 40) = true := by decide +kernel
/-! ### Resets and power -/

theorem witness_ResetLevels :
    let off := { State.reset with pwr.off := true }
    State.reset.pwr.off = false ∧ off.pwr.off = true ∧ up.ready = true ∧ up.host.d3hot = false ∧ up.pwr.off = false ∧ State.reset.ready = false ∧
      State.reset.flash.perm = [] ∧ (35999 : BitVec 16).toNat < 36000 ∧ 36000 ≤ (36000 : BitVec 16).toNat ∧ 63000 < (63001 : BitVec 16).toNat ∧
      (63000 : BitVec 16).toNat ≤ 63000 ∧ State.reset.get F.SEC_STATUS_boot_fail = 0 ∧ State.reset.get F.SEC_STATUS_lifecycle ≠ 3 ∧
      (regs [(F.SEC_STATUS_lifecycle, 3)]).get F.SEC_STATUS_lifecycle = 3 := by decide +kernel

theorem witness_BlockResetsRun :
    up.ready = true ∧ up.host.d3hot = false ∧ State.reset.ready = false ∧ up.get F.PWR_STATUS_brst_busy = 0 ∧
      (regs [(F.PWR_STATUS_brst_busy, 1)]).get F.PWR_STATUS_brst_busy = 1 ∧ up.pwr.brst = [] ∧ { up with pwr.brst := [10] }.pwr.brst = [10] ∧
      { up with pwr.brst := [10, 1] }.pwr.brst = 10 :: 1 :: [] := by decide +kernel

theorem witness_PowerController :
    let hot : State := up.set (F.ISL_temp 23) 1000
    let low : State := up.sets [(F.PWR_STATUS_vin_low, 1)]
    let lim := fun (l : List Nat) (d : Nat) => { up with pwr.lim := l.foldl (fun m j => m.wr j d) [], pwr.under := 9 }
    up.ready = true ∧ up.host.d3hot = false ∧ State.reset.ready = false ∧ (6 : BitVec 3) ≠ 0 ∧ (6 : BitVec 3) ≠ 7 ∧
      1000 ≤ sint 16 (hot.get (F.ISL_temp 23)) ∧ (∀ j < 23, ¬ 1000 ≤ sint 16 (hot.get (F.ISL_temp j))) ∧ (∀ j < 24, ¬ 1000 ≤ sint 16 (up.get (F.ISL_temp j))) ∧
      (∀ j ∈ kindIslands 0, up.pwr.lim.rd j = 0) ∧
      ((∀ j ∈ kindIslands 0, 1000 ≤ (lim (kindIslands 0) 1000).pwr.lim.rd j) ∧ ∀ j ∈ kindIslands 2, (lim (kindIslands 0) 1000).pwr.lim.rd j = 0) ∧
      95 * 100 ≤ 100 * 95 ∧ 100 * 94 < 95 * 100 ∧ up.pwr.under < 9 ∧ 9 ≤ (lim (kindIslands 1) 50).pwr.under ∧
      (∀ j ∈ kindIslands 1, (lim (kindIslands 1) 50).pwr.lim.rd j = 50) ∧ up.pwr.cool = false ∧ 560 ≤ sint 16 (560 : BitVec 16).toNat ∧
      { up with pwr.cool := true }.pwr.cool = true ∧ sint 16 (65535 : BitVec 16).toNat < 520 ∧ up.get F.PWR_STATUS_vin_low = 0 ∧
      low.get F.PWR_STATUS_vin_low = 1 ∧ (39999 : BitVec 16).toNat < 40000 ∧ 40000 ≤ (40000 : BitVec 16).toNat ∧ 41000 ≤ (41000 : BitVec 16).toNat ∧
      (40999 : BitVec 16).toNat < 41000 := by decide +kernel
/-! ### The host interface -/

theorem witness_FunctionStates :
    let s := { up with host.gapOpen := 2 ^ 63 }
    up.ready = true ∧ up.host.d3hot = false ∧ State.reset.ready = false ∧ bit up.host.gapOpen 63 = false ∧ bit s.host.gapOpen 63 = true ∧
      (0x100000 ≤ 0x1FFFFF ∧ 0x1FFFFF < 0x200000) ∧ ¬ (0x100000 ≤ 0x200000 ∧ 0x200000 < 0x200000) := by decide +kernel

theorem witness_DataWindow :
    let mem : State := (up.set F.DW_CTRL_space 2).set F.SEC_STATUS_lifecycle 1
    let own := { mem with sec.owners := [] , sec.tenants := OMap.put [] 0 ⟨0, 8, 0, 0, [], [], 0, 0⟩ }
    { up with host.d3hot := true }.host.d3hot = true ∧ State.reset.ready = false ∧ up.ready = true ∧ up.host.d3hot = false ∧
      up.takes R.DW_DATA = true ∧ State.reset.takes R.DW_DATA = false ∧ up.takes 0x104000 = true ∧ State.reset.takes 0x104000 = false ∧
      up.get F.DW_CTRL_space = 0 ∧ up.dwRefused 0 0 true = 0 ∧ up.dwRefused 0 4194304 true ≠ 0 ∧ own.get F.DW_CTRL_space ≠ 0 ∧
      own.dwRefused 2 0 true = 0 ∧ own.dwRefused 2 0 false = 0 ∧ own.dwRefused 2 (384 * 2 ^ 30) false ≠ 0 ∧
      (256 % 8 = 0 ∧ 8 ≤ 256 ∧ 4 % 8 ≠ 0 ∧ (List.replicate 8 (0 : Byte)).length % 8 = 0 ∧ 8 ≤ (List.replicate 8 (0 : Byte)).length) := by decide +kernel

theorem witness_RegisterWrites :
    let a := (0x100000 : BitVec 26).toNat
    ¬ ((0x104000 ≤ a ∧ a < 0x104100) ∨ (0x108000 ≤ a ∧ a < 0x10C000)) ∧ a % 8 = 0 ∧ mapped a = true ∧ mapped 0x3FFFFFF = false ∧
      (0x1040F8 : BitVec 26).toNat < 0x104100 ∧ (0x10BFFC : BitVec 26).toNat < 0x10C000 ∧ up.ready = true ∧ up.host.d3hot = false ∧
      State.reset.ready = false ∧ a % 0x4000 < 0x1000 ∧ unaliased (a / 0x4000 * 0x4000) = false ∧
      ackReg R.SIG_ACK = true ∧ ackReg a = false ∧ (0x3FFFFFF : BitVec 26).toNat % 8 ≠ 0 ∧
      (let f : RegField := ⟨0, 1, .rwl, 0⟩
       f.acc = .rwl ∧ (regs [(F.SW_CTL_en, 1)]).blockOn R.SW_CTL = true ∧ up.blockOn R.SW_CTL = false) ∧
      up.get F.CIS_CTL_en = 0 ∧ (regs [(F.CIS_CTL_en, 1), (F.MEM_CTL_en, 1), (F.FLT_CTL_en, 1)]).get F.CIS_CTL_en = 1 ∧
      (up.set F.CIS_CTL_en 1).cisBad = false ∧ ((up.sets [(F.CIS_SPILL_HBM_base 15, 1), (F.CIS_SPILL_HBM_size 15, 2 ^ 27 - 1)]).set F.CIS_CTL_en 1).cisBad = true ∧
      (up.set F.MEM_CTL_en 1).memCtlBad = false ∧ (up.sets [(F.MEM_RETAIN_base, 511), (F.MEM_RETAIN_size, 1)]).memCtlBad = true ∧
      (up.sets [(F.FLT_CTL_en, 1), (F.LEV_CTL_mode, 1)]).fltBad = false ∧ (up.set F.FLT_CTL_en 1).fltBad = true ∧
      up.get F.SW_CTL_en = 0 ∧ up.me = 0xFFFF ∧ (regs [(F.SW_ID_module, 5)]).me ≠ 0xFFFF ∧ up.get F.SEC_STATUS_debug = 0 ∧
      (regs [(F.SEC_STATUS_debug, 1)]).get F.SEC_STATUS_debug ≠ 0 := by decide +kernel

theorem witness_SideInterfaces :
    let d := fun (n : Nat) => regs [(F.SEC_STATUS_debug, n)]
    State.reset.pwr.off = false ∧ { up with pwr.off := true }.pwr.off ≠ false ∧
      (let s := (regs []).set (F.ISL_temp 23) 800
       (∀ j < 23, sint 16 (s.get (F.ISL_temp j)) < sint 16 (s.get (F.ISL_temp 23))) ∧ ∀ j < 24, sint 16 (s.get (F.ISL_temp j)) ≤ sint 16 (s.get (F.ISL_temp 23))) ∧
      (∀ j < 8, sint 16 (up.get (F.HBM_STACK_temp j)) ≤ sint 16 (up.get (F.HBM_STACK_temp 0))) ∧
      (d 0).get F.SEC_STATUS_debug = 0 ∧ (d 1).get F.SEC_STATUS_debug ≠ 0 ∧ (d 2).get F.SEC_STATUS_debug = 2 ∧ (d 1).blkBits = 0 ∧
      ((d 1).set F.SW_CTL_en 1).blkBits ≠ 0 ∧ (regs [(F.SEC_STATUS_lifecycle, 1)]).get F.SEC_STATUS_lifecycle = 1 ∧
      (2 ^ 29 - 8) + 8 ≤ levelSize 0 ∧ levelSize 0 < (2 ^ 29 - 7) + 8 ∧ up.memBad 0 0 8 = false ∧ (up.memPoison 0 0).memBad 0 0 8 = true := by decide +kernel

theorem witness_FieldLog :
    let e : JEntry := ⟨2, 0, 0, 0, 0, 0, 0, 0, 0, 0, 0⟩
    let s : State := { up with journal := [e] }
    let x : Export := ⟨[], ⟨[], [], [], [], [], 0⟩, []⟩
    { up with pwr.off := true }.pwr.off = true ∧ up.pwr.off = false ∧ up.get F.FLOG_PTIME_seconds < up.flash.lastAt + 600 ∧
      (let t := (regs [(F.FLOG_PTIME_seconds, 600)])
       t.flash.lastAt + 600 ≤ t.get F.FLOG_PTIME_seconds) ∧ up.journal = [] ∧ s.journal = e :: [] ∧ jPermanent 2 = true ∧ jPermanent 1 = false ∧
      up.get F.FLOG_STATUS_export_busy = 0 ∧ (regs [(F.FLOG_STATUS_export_busy, 1)]).get F.FLOG_STATUS_export_busy = 1 ∧ up.flash.exp = none ∧
      { up with flash.exp := some x }.flash.exp = some x ∧ { up with host.d3hot := true }.host.d3hot = true ∧ up.host.d3hot = false ∧ up.ready = true := by decide +kernel

/-! ### The spec's worked examples -/

/-- Table 02-10. -/
theorem test_convert : ([(0x3F808000, 3, 0), (0x3F818000, 3, 0), (0x43E80000, 4, 0), (0x43F00000, 4, 0), (0xC0200000, 10, 0), (0xC0200000, 10, 3),
    (0x4396599A, 10, 0)] : List (Nat × Nat × Nat)).map (fun p => (laneCvt (builtinFmt 1) (builtinFmt p.2.1) p.2.2 0 ⟨p.1, false⟩).bits)
    = [0x3F80, 0x3F82, 0x7E, 0x7F, 0xFE, 0xFD, 0x7F] := by decide +kernel

/-- The user slot of Table 02-10, and SR's example after it. -/
theorem test_convert_user : (laneCvt (builtinFmt 1) (fmtOfDesc 24 0x0000000600E1A441) 0 0 ⟨0x43F00000, false⟩).bits = 0x7E
    ∧ (laneCvt (builtinFmt 1) (builtinFmt 3) 4 0x3FFF ⟨0x3F804000, false⟩).bits = 0x3F81
    ∧ (laneCvt (builtinFmt 1) (builtinFmt 3) 4 0x4000 ⟨0x3F804000, false⟩).bits = 0x3F80 := by decide +kernel

/-- Chapter 2: VMUL of +0 and +inf, and the conversions of its NaN to binary16, bfloat16, E4M3, E2M1 and int8. -/
theorem test_nan_lane : laneMul (builtinFmt 1) 0 0 ⟨0, false⟩ ⟨0x7F800000, false⟩ = ⟨0x7FC00001, false, 1, 1⟩
    ∧ ([2, 3, 4, 8, 10].map (fun d => let r := laneCvt (builtinFmt 1) (builtinFmt d) 0 0 ⟨0x7FC00001, false⟩; (r.bits, r.pois)))
      = [(0x7E01, false), (0x7FC1, false), (0x7F, false), (0, true), (0, true)] := by decide +kernel

/-- Chapter 2: a block of E4M3 elements. -/
theorem test_mx_block : mxEncode (builtinFmt 4) 0 [] ([0x447A0000, 0xC0533333, 0x3A83126F].map (builtinFmt 1).decode) = (0x80, [0x7E, 0xBD, 0x00], false) := by
  decide +kernel

/-- Chapter 3: a product rounded once to binary32. -/
theorem test_product : productVal .c320 (builtinFmt 1) 0x3F800800 0x3F800800 = ((builtinFmt 1).decode 0x3F801000, true, false) := by decide +kernel

/-- Table 03-7: three contributions in two orders, the record and the rounded sums. -/
theorem test_cistern_orders :
    let enter := fun z x => (Slot.enter .c320 z ((builtinFmt 1).decode x) false false).slot
    let one := [0x4B800000, 0x3F800000, 0xCB800000].foldl enter .empty
    one = [0xCB800000, 0x4B800000, 0x3F800000].foldl enter .empty ∧ one.v = 2 ^ 149 ∧ one.tag .c320 / 2 ^ 40 % 2 = 1 ∧ one.tag .c320 % 2 ^ 40 = 2 ∧
      (one.encode .c320).1.bytes.take 9 = [0x95, 0, 0, 3, 3, 0, 0, 0, 1] ∧ (one.encode .c320).1.bytes.length = 24 ∧
      (one.roundOut .c320 (builtinFmt 1) 0 0).bits = 0x3F800000 ∧ (one.roundOut .c320 (builtinFmt 3) 0 0).bits = 0x3F80 := by decide +kernel

/-- Chapter 3: the same three as leaves of a tree, in two rank orders. -/
theorem test_tree_sums : orderedSum false [0x4B800000, 0x3F800000, 0xCB800000] = (0, 0)
    ∧ orderedSum false [0xCB800000, 0x3F800000, 0x4B800000] = (0x3F800000, 0) := by decide +kernel

/-- Table 04-3: the codes of four groups. -/
theorem test_groups : [groupCheck 0 5 0 258 (some 5), groupCheck 0 7 0 258 (some 5), groupCheck 0 9 0 258 (some 5), groupCheck 0 5 256 258 (some 1)]
    = [0, 2, 8, 3] := by decide +kernel

/-- Table 07-4: TOPK with both tie rules. -/
theorem test_topk :
    let l := [(0x3F000000, 17), (0x3F666666, 40), (0x7FC00001, 3), (0x3F666666, 12), (0x80000000, 8), (0, 9)].map
      (fun p => (⟨⟨p.1, false⟩, ⟨p.2, false⟩⟩ : Entry))
    (bestOf (builtinFmt 1) 1 0 4 l).map (fun e => e.payload) = [12, 40, 17, 9] ∧
      (bestOf (builtinFmt 1) 1 1 4 l).map (fun e => e.payload) = [40, 12, 17, 9] := by decide +kernel

/-- Chapter 9: the sums of squares of two members, their records and the clip factor 0.5. -/
theorem test_norm :
    let sq := fun n v => (⟨v * 2 ^ 1074, true, n - 1, .zero, false, []⟩ : Slot)
    let mine := sq 1024 64
    let peer := ((sq 576 36).encode .c2176).1
    ((mine.encode .c2176).1.desc, peer.desc, peer.val) = (0x0000040003000438, 0x0000024003000434, 9) ∧
      Norm.factor ⟨0, 0x4014000000000000, [1], 0, [], some mine, [(1, peer)], [], 0, none, false⟩ = 0x3FE0000000000000 := by decide +kernel

/-- Table 12-4: the colours of seven packets. -/
theorem test_meter :
    let s0 := (regs [(F.MTR_RATE_mode 40 0, 1), (F.MTR_RATE_cir 40 0, 640), (F.MTR_BKT_cbs 40 0, 32768), (F.MTR_BKT_ebs_pbs 40 0, 65536)]).fillMeter 40 0
    ((List.range 7).foldl (fun (p : List Nat × State) _ => let r := p.2.measure 40 0 16384; (p.1 ++ [r.1], { r.2 with beat := r.2.beat + 82 })) ([], s0)).1
      = [0, 0, 1, 1, 1, 1, 2] := by decide +kernel

/-- Chapter 14: the channel and the local page of an LPDDR address. -/
theorem test_lpddr : (lpdChan 0xC012345678, lpdPage 0xC012345678 * 4096 + 0x678) = (103, 0x180246678) ∧ lpdAddr 103 0x180246 + 0x678 = 0xC012345678 := by
  decide +kernel

end Sys2Proof.Tests
end

section
/-!
PROOFS. The block after cold reset (R11, R24, R47, R541, R571): every register reads its Reset column, every store is empty, no line is 1.
-/
namespace Sys2Proof.Machine
open Sys2Proof

/-! ### An empty store -/

/-- A map that lists nothing reads as its default at every key. -/
theorem SMap.getList_nil {β : Type} (x : β) (k n : Nat) : SMap.getList (fun _ => x) [] k n = List.replicate n x := by
  induction n generalizing k with
  | zero => rfl
  | succ n ih => simp [SMap.getList, SMap.get, ih, List.replicate_succ]

/-- No memory level holds anything but 0 at reset (R571, order 9). -/
theorem memBytes_reset (level a n : Nat) : State.reset.memBytes level a n = List.replicate n 0 := SMap.getList_nil 0 _ n

/-! ### The interrupt lines -/

/-- A block with no cause enabled asserts no vector's line (R558, R559). -/
theorem intLines_of_disabled (s : State) (h : s.get F.INT_EN_en = 0) : s.intLines = 0 := by
  simp [State.intLines, State.intPend, h, bitList]

/-! ### The registers with a Reset value of their own -/

/-- Every block is out of service, not ready, without a strict step, a cause enabled, a debug level or a boot failure. -/
theorem get_reset_enables : ∀ f ∈ [F.CMD_CTL_en, F.ENG_CTL_en, F.CIS_CTL_en, F.NOR_CTL_en, F.SW_CTL_en, F.GR_CTL_en, F.HG_CTL_en, F.PT_GCTL_en,
    F.MEM_CTL_en, F.TIME_CTL_en, F.AUD_CTL_en, F.FLT_CTL_en, F.TMUX_CTL_en, F.PWR_STATUS_ready, F.STEP_STATUS_strict, F.INT_EN_en,
    F.SEC_STATUS_debug, F.SEC_STATUS_boot_fail], State.reset.get f = 0 := by decide +kernel

/-- Profile PP3 is in effect (Table 18-12). -/
theorem get_reset_profile : State.reset.get F.PWR_STATUS_profile = 3 := by decide +kernel

/-- Cause k is mapped to vector k (Table 17-9). -/
theorem get_reset_intMap : ∀ k < 25, State.reset.get (F.INT_MAP_vector k) = k := by decide +kernel

/-- The format table holds the built-in descriptors (R47). -/
theorem word_reset_fmtDesc : ∀ k < 32, (State.reset.word (R.FMT_DESC k)).toNat = builtinDesc k := by decide +kernel

/-- Logical engine n is served by the engine of its home (R24). -/
theorem get_reset_engMap : ∀ n < 128, State.reset.get (F.ENG_MAP_phys n) = 17 * (n / 16) + n % 16 := by decide +kernel

/-- The 17th engine of each die is its spare, the first is active (R24, ENG_STATUS.role). -/
theorem get_reset_role : ∀ d < 8, State.reset.get (F.ENG_STATUS_role (17 * d + 16)) = 1 ∧ State.reset.get (F.ENG_STATUS_role (17 * d)) = 0 := by
  decide +kernel

/-- The first and last event counters of a page of events read 0 (Table 08-14). -/
theorem get_reset_evt : ∀ n ∈ [0, 511, 512, 4095], State.reset.get (evt n) = 0 := by decide +kernel

/-- At reset the lines last seen are those the causes give. -/
theorem lines_reset : State.reset.host.lines = State.reset.intLines :=
  (intLines_of_disabled _ (get_reset_enables _ (by simp))).symm

/-- Settles O2: the register tables' Reset values by evaluation, the rest of the state is empty. -/
theorem resetState : Obligations.ResetState := by
  unfold Obligations.ResetState
  have masked : ∀ v, (State.reset.msixEntry v).mask = true := fun _ => rfl
  have shards : ∀ n, State.reset.shard n = none := fun _ => rfl
  have queues : ∀ q, (State.reset.queue q).cmds = [] := fun _ => rfl
  exact ⟨fun _ => rfl, get_reset_enables, get_reset_profile, get_reset_intMap, word_reset_fmtDesc, get_reset_engMap, get_reset_role,
    masked, rfl, rfl, shards, get_reset_evt, queues, rfl, rfl, rfl, memBytes_reset, rfl, rfl, rfl, rfl, lines_reset⟩

end Sys2Proof.Machine
end

section
/-!
PROOFS. What a register write leaves of a word: the bits that no write changes although their field is RWL (Tables 13-7 and 14-9).
-/
namespace Sys2Proof.Machine
open Sys2Proof

/-- The value a field takes over its reserved bits `k`: there the held value, elsewhere the value asked for. -/
theorem testBit_keep (x cur k i : Nat) (h : k.testBit i = true) : ((x ^^^ (x &&& k)) ||| (cur &&& k)).testBit i = cur.testBit i := by
  simp [h]

/-- A write of a field in its word, whatever its mode, leaves every fixed bit of the register as it was. -/
theorem testBit_putRegField_of_fixed (s : State) (a : Nat) (m : WMode) (v : Nat) (r : Bool) (f : RegField) {i : Nat} (hi : i < 64)
    (h : (fixedBits a).testBit i = true) :
    ((s.putRegField a m v (s, r) f).1.word a).toNat.testBit i = (s.word a).toNat.testBit i := by
  simp only [State.putRegField]
  split_ifs
  · rfl
  · rfl
  · rfl
  · rw [State.word_set_self s ⟨a, f.lo, f.w⟩, testBit_putField _ _ _ _ hi]
    split_ifs with hf
    · obtain ⟨hlo, hhi⟩ : f.lo ≤ i ∧ i < f.lo + f.w := hf
      have inField (x : Nat) : (bits x f.lo f.w).testBit (i - f.lo) = x.testBit i := by
        rw [testBit_bits, Nat.add_sub_cancel' hlo, decide_eq_true (by omega), Bool.true_and]
      rw [testBit_keep _ _ _ _ ((inField _).trans h), inField]
    · rfl
  · rfl

/-- The field of a training entry, as the register tables have it (Table 13-7). -/
def trainField : RegField := ⟨0, 64, .rwl, 0⟩

/-- The training table's entry 0 has this field alone. -/
theorem fields_train : (famOf (R.PT_TRAIN 0)).map RegFam.fields = some [trainField] := by decide +kernel

/-- Bit 19 of a training entry is reserved and 0 at reset, and no write of the entry sets it. -/
theorem train_reserved_stays_clear (m : WMode) (v : Nat) (r : Bool) :
    ((State.reset.putRegField (R.PT_TRAIN 0) m v (State.reset, r) trainField).1.word (R.PT_TRAIN 0)).toNat.testBit 19 = false := by
  have clear : (State.reset.word (R.PT_TRAIN 0)).toNat.testBit 19 = false := by decide +kernel
  rw [testBit_putRegField_of_fixed _ _ _ _ _ _ (by decide) (by decide), clear]

/-- Refutes O58: the clause on one field asks for the value written in every RW and RWL field but those of RSV_MODE_7, yet bits [19] and
[63:56] of PT_TRAIN_e are reserved too (Table 13-7), and R15 ignores writes to them. While the ports are out of service a base write of 2^19
to PT_TRAIN_0 is in range and not refused, and leaves bit 19 at 0. -/
theorem not_registerWrites : ¬ Obligations.RegisterWrites := by
  unfold Obligations.RegisterWrites
  intro h
  obtain ⟨-, -, -, -, -, -, -, -, field, -⟩ :=
    h State.reset State.reset (BitVec.ofNat 26 (R.PT_TRAIN 0)) 0 (BitVec.ofNat 64 (2 ^ 19)) 0 [] trainField .base false
  obtain ⟨-, writes⟩ := field (by decide)
  obtain ⟨-, -, put⟩ := writes (.inr rfl)
  have off : State.reset.blockOn (R.PT_TRAIN 0) = false := by decide +kernel
  have inRange : State.reset.fieldOk (R.PT_TRAIN 0) 0 (2 ^ 19) = true := by decide +kernel
  have written : State.reset.putRegField (R.PT_TRAIN 0) .base (2 ^ 19) (State.reset, false) trainField =
      (State.reset.set (F.PT_TRAIN_entry 0) (2 ^ 19), false) :=
    put (.inl rfl) (fun ⟨_, on, _⟩ => Bool.false_ne_true (off.symm.trans on)) inRange
  have clear := train_reserved_stays_clear .base (2 ^ 19) false
  rw [written, State.word_set_self State.reset (F.PT_TRAIN_entry 0), testBit_putField _ _ _ _ (by decide)] at clear
  exact absurd clear (by decide)

end Sys2Proof.Machine
end

section
/-!
PROOFS. How a command answers: it completes with its effect, and data that it brings crosses, or waits whole while a crossing has no credit (R29).
-/
namespace Sys2Proof.Machine
open Sys2Proof

/-- A command that runs as `done v` completes with the effect `v`. -/
theorem completes {i : Instr} {s u v : State} (run : exec i s = done v) (effect : v = u) :
    ∃ t, exec i s = .next t ∧ Settled u t := by
  rw [run, effect]
  exact done_next u

section
variable {i : Instr} {xs : List Nat} {f : State → State} {s u : State}

/-- With a crossing full the command itself waits, behind what waits already. -/
theorem waits (run : exec i s = done (s.through xs i f)) (full : s.stuck xs = true) :
    ∃ t, exec i s = .next t ∧ Settled { s with xing.held := s.xing.held ++ [(xs, i)] } t :=
  completes run (if_pos full)

/-- With credit on every crossing it takes effect at once. -/
theorem crosses (run : exec i s = done (s.through xs i f)) (free : s.stuck xs = false) (effect : f s = u) :
    ∃ t, exec i s = .next t ∧ Settled u t :=
  completes run ((if_neg (Bool.eq_false_iff.mp free)).trans effect)

end

end Sys2Proof.Machine
end

section
/-!
PROOFS. The memory operations of engines that complete (R225, R227, R229, R456, R458), and the known-answer self-test (R163).
-/
namespace Sys2Proof.Machine
open Sys2Proof

section
variable {s : State} {eng : Fin 128} {k : Fin 16} {t : Strm}

/-! ### A crossing without credit -/

theorem gathLand_of_stuck (misses : Nat) (full : s.stuck (flumeOf (eng / 8) true) = true) : gathLand eng k misses s = s := by
  simp only [gathLand, full, if_true]
  split
  · split <;> rfl
  · rfl

theorem flumeRead_of_stuck (err : Fin 3) (miss : Bool) (full : s.stuck (flumeOf (eng / 8) true) = true) : flumeRead eng k err miss s = s := by
  simp only [flumeRead, full, or_true, if_true]
  split
  · split <;> rfl
  · rfl

theorem flumeWrite_of_stuck (full : s.stuck (flumeOf (eng / 8) false) = true) : flumeWrite eng k s = s := by
  simp only [flumeWrite, full, or_true, if_true]
  split
  · split <;> rfl
  · rfl

theorem turnoutComplete_of_stuck {n : Nat} {r : Req} (err : Fin 3) (miss : Bool) (request : s.eng.reqs[n]? = some r)
    (full : s.stuck (flumeOf (r.eng / 8) false) = true) : turnoutComplete n err miss s = s := by
  simp only [turnoutComplete, request, full, or_true, if_true]
  split <;> rfl

/-! ### Operations that take effect -/

/-- The oldest request's rows land, and its operation ends. -/
theorem gathLand_of_rows {r : Req} {q : Nat} {data : List (Byte × Bool)} {bad : List Nat} {fmt : Nat} {served : List Nat} {rowB : Nat} (misses : Nat)
    (free : s.stuck (flumeOf (eng / 8) true) = false) (oldest : s.eng.reqs.find? (fun r => r.landsIn eng k) = some r)
    (stream : s.strm eng k = some t) (rows : r.want = .rows q data bad fmt served rowB) :
    gathLand eng k misses s =
      let u := served.foldl (fun u a => u.useRow a rowB) (s.predictorMiss (min misses (served.filter (fun a => !s.placed a rowB)).length))
      let c := u.ctxAt eng r.ctx
      (({ u with eng.reqs := u.eng.reqs.erase r }.putStrm eng k { t with land := t.land ++ data, rowsDue := t.rowsDue - data.length }).origins c.coll
        (bad.map (fun i => (⟨5, 4, false, 0, eng, r.ctx, i, fmt, 0x68, 0xFF, c.chunk, c.elemIx + i⟩ : Origin)))).opDone eng r.ctx r.op := by
  simp only [gathLand, oldest, stream, rows, free, Bool.false_eq_true, if_false]

/-- The predictor serves no line where none is touched, where its flag is clear, or outside LPDDR (R463). -/
theorem unserved_iff (untouched : Prop) (flag : Bool) (level : Nat) :
    untouched ∨ flag = false ∨ ¬ level = 2 ↔ ¬ (¬ untouched ∧ flag = true ∧ level = 2) := by
  rw [not_and_or, not_and_or, not_not, Bool.not_eq_true]

/-- The next bytes of the sequence join the landing buffer. -/
theorem flumeRead_of_channel {ch : ChanRec} (err : Fin 3) (miss : Bool) (free : s.stuck (flumeOf (eng / 8) true) = false)
    (stream : s.strm eng k = some t) (channel : t.chan = some ch) (reads : ch.dir = 0) :
    flumeRead eng k err miss s =
      let n := flumeRoom t ch
      let a := ch.addr t.seqDone
      let u := if n = 0 then s else s.memError ch.level a err
      let u := if n ≠ 0 ∧ bit ch.predict 0 = true ∧ ch.level = 2 then
        (if miss = true ∧ u.placed a n = false then u.predictorMiss 1 else u.useRow a n) else u
      u.putStrm eng k { t with
        land := t.land ++ (List.range n).flatMap (fun i => u.memRd ch.level (ch.addr (t.seqDone + i)) 1)
        seqDone := t.seqDone + n } := by
  simp only [flumeRead, stream, channel, reads, free, unserved_iff, ite_not, ne_eq, not_true, Bool.false_eq_true, or_false, if_false, Bool.not_eq_true']

/-- The oldest write's bytes go to their places in the sequence, and its operation ends. -/
theorem flumeWrite_of_channel {ch : ChanRec} {op m : Nat} {rest : List (Nat × Nat)} (free : s.stuck (flumeOf (eng / 8) false) = false)
    (stream : s.strm eng k = some t) (channel : t.chan = some ch) (written : ch.dir = 1) (oldest : t.wops = (op, m) :: rest) :
    flumeWrite eng k s =
      let u := ((t.out.take m).zipIdx).foldl (fun u b =>
        if t.seqDone + b.2 < ch.total then u.memWr ch.level (ch.addr (t.seqDone + b.2)) [b.1] else u) s
      (u.putStrm eng k { t with out := t.out.drop m, wops := rest, seqDone := t.seqDone + m }).opDone eng t.ctx op := by
  simp only [flumeWrite, stream, channel, oldest, written, free, ne_eq, not_true, Bool.false_eq_true, or_false, if_false]

end

/-- A contribution whose slot no earlier request names enters its slot; with its last request the operation ends. -/
theorem turnoutComplete_of_add {s : State} {n : Nat} {r : Req} {tb : TableRec} {row col fmt b : Nat} {pz : Bool} (err : Fin 3) (miss : Bool)
    (request : s.eng.reqs[n]? = some r) (adds : r.want = .add tb row col fmt b pz) (first : ∀ q ∈ s.eng.reqs.take n, q.slot ≠ r.slot)
    (free : s.stuck (flumeOf (r.eng / 8) false) = false) :
    turnoutComplete n err miss s =
      let c := s.ctxAt r.eng r.ctx
      let a := tb.base + (row * tb.cols + col) * 64
      let u := { s with eng.reqs := s.eng.reqs.eraseIdx n }.memError tb.level a err
      let u := if bit tb.predict 0 = true ∧ tb.level = 2 then
        (if miss = true ∧ u.placed a 64 = false then u.predictorMiss 1 else u.useRow a 64) else u
      let u := u.scatterEnter c.coll c.chunk (row * tb.cols + col) (r.eng / 8) tb row col ((u.fmt fmt).decode b) pz
      if u.opBusy r then u else u.opDone r.eng r.ctx r.op := by
  have alone : (s.eng.reqs.take n).any (fun q => q.slot == r.slot) = false := by simpa using first
  have unserved := unserved_iff False (bit tb.predict 0) tb.level
  rw [false_or, not_false_eq_true, true_and] at unserved
  simp only [turnoutComplete, request, adds, alone, free, unserved, ite_not, ne_eq, Bool.false_eq_true, or_false, if_false, Bool.not_eq_true']

/-! ### The self-test -/

theorem katBurst_of_not_may {s : State} {ph : Fin 136} (ok : Bool) (sig : BitVec 32) (late : Nat) (may : s.katMay ph = false) :
    katBurst ph ok sig late s = s := by
  simp only [katBurst, may, Bool.not_false, if_true]

/-- A burst is counted, with what it delayed: the first of a pass notes its time, the 1,024th ends the pass. -/
theorem katBurst_of_may {s : State} {ph : Fin 136} (ok : Bool) (sig : BitVec 32) (late : Nat) (may : s.katMay ph = true) :
    katBurst ph ok sig late s =
      let n := s.eng.katN.rd ph
      let first := if n = 0 then { s with eng.katAt := s.eng.katAt.wr ph (s.get F.FLOG_PTIME_seconds + 1) } else s
      let u := (first.inc F.KAT_DELAY_COUNT_delay late).pert 10 late
      let v := if n + 1 = 1024 then
          { u with
            eng.katN := u.eng.katN.wr ph 0
            eng.katBins := u.eng.katBins.wr ph (u.eng.katBins.rd ph ||| 1 <<< tempBin (u.sluiceTemp (ph / 17))) }.inc F.KAT_PASS_COUNT_pass
        else { u with eng.katN := u.eng.katN.wr ph (n + 1) }
      if ok then v else v.residue none 0 ph (v.get (F.ENG_STATUS_logical ph)) 0 0 3 sig.toNat 0 := by
  simp only [katBurst, may, Bool.not_true, Bool.false_eq_true, if_false]

/-- Settles O23, clause by clause: what has no credit waits, and what completes takes effect. -/
theorem engineMemoryCompletions : Obligations.EngineMemoryCompletions := by
  unfold Obligations.EngineMemoryCompletions
  intro s eng k misses n err miss ok ph sig late r t0 ch rest op m reads writes
  refine ⟨fun full => ?_, fun full => ?_, fun request full => ?_, ?_, ?_, ?_, ?_, ?_, ?_⟩
  · have full := Bool.eq_true_of_not_eq_false full
    exact ⟨completes rfl (gathLand_of_stuck misses full), completes rfl (flumeRead_of_stuck err miss full)⟩
  · exact completes rfl (flumeWrite_of_stuck (Bool.eq_true_of_not_eq_false full))
  · exact completes rfl (turnoutComplete_of_stuck err miss request (Bool.eq_true_of_not_eq_false full))
  · exact fun _ _ _ _ _ _ free oldest stream rows => completes rfl (gathLand_of_rows misses free oldest stream rows)
  · exact fun free stream channel dir => completes rfl (flumeRead_of_channel err miss free stream channel dir)
  · exact fun free stream channel dir oldest => completes rfl (flumeWrite_of_channel free stream channel dir oldest)
  · exact fun _ _ _ _ _ _ request adds first free => completes rfl (turnoutComplete_of_add err miss request adds first free)
  · exact fun may => completes rfl (katBurst_of_not_may ok sig late may)
  · exact fun may => completes rfl (katBurst_of_may ok sig late may)

end Sys2Proof.Machine
end

section
/-!
PROOFS. What becomes of a chunk that arrives (R264 to R266, R272, R277, R278, R282): one rule for each case of CHUNK_RECEIVE.
-/
namespace Sys2Proof.Machine
open Sys2Proof

section
variable {port : Fin 144} {h : ChunkIn} {dsts : List Nat} {miss : List Miss} {s : State} {x : Nat} {c : Coll}

theorem takeChunk_of_unknown (unknown : s.collOf h.id = none) :
    takeChunk port h dsts miss s = if s.waitsFor h.id then s else s.membership none h.id h.chunk h.rank port 7 0xFFFF h.wire := by
  simp only [takeChunk, unknown]

theorem takeChunk_of_phase_zero (known : s.collOf h.id = some (x, c)) (pending : c.phase = 0) : takeChunk port h dsts miss s = s := by
  simp only [takeChunk, known, pending, if_true]

section
variable (known : s.collOf h.id = some (x, c)) (runs : c.phase ≠ 0)
include known runs

theorem takeChunk_of_parent {t : Nat} (above : (s.groupOf c).parentTree port = some t) :
    takeChunk port h dsts miss s = if c.cmd.routed then s.remoteChunk x port c h dsts else s.parentChunk x t port h := by
  simp only [takeChunk, known, runs, above, if_false]

variable (below : (s.groupOf c).parentTree port = none)
include below

theorem takeChunk_of_no_party (stranger : c.partyAt port h.chunk = none) :
    takeChunk port h dsts miss s = s.membership (some x) h.id h.chunk h.rank port 1 c.cmd.group h.wire := by
  simp only [takeChunk, known, runs, below, stranger, if_false]

variable {p : Party} {k : Nat} (party : c.partyAt port h.chunk = some (p, k))
include party

theorem takeChunk_of_routed_kid (kid : p.isKid = true) (routed : c.cmd.routed = true) :
    takeChunk port h dsts miss s = s.remoteChunk x port c h dsts := by
  simp only [takeChunk, known, runs, below, party, kid, routed, Bool.and_self, if_true, if_false]

/-! ### A chunk that is judged (Table 08-10) -/

variable (here : (p.isKid && c.cmd.routed) = false)
include here

theorem takeChunk_of_event {code : Nat} (judged : s.judge c p k h = .event code) :
    takeChunk port h dsts miss s = s.membership (some x) h.id h.chunk h.rank port code c.cmd.group h.wire := by
  simp only [takeChunk, known, runs, below, party, here, judged, Bool.false_eq_true, if_false]

theorem takeChunk_of_spill {r : Nat} (judged : s.judge c p k h = .spill r) :
    takeChunk port h dsts miss s = (s.spill r h.wire).putColl x { c with spilled := c.spilled + 1 } := by
  simp only [takeChunk, known, runs, below, party, here, judged, Bool.false_eq_true, if_false]

theorem takeChunk_of_bad {i : Nat} (judged : s.judge c p k h = .bad i) :
    takeChunk port h dsts miss s = ((s.putColl x (c.noteBegun k i true)).badChunk x i k h).settle x := by
  simp only [takeChunk, known, runs, below, party, here, judged, Bool.false_eq_true, if_false]

variable {i : Nat} (judged : s.judge c p k h = .take i)
include judged

theorem takeChunk_of_mayNotOpen (closed : s.mayNotOpen c i = true) : takeChunk port h dsts miss s = s := by
  simp only [takeChunk, known, runs, below, party, here, judged, closed, Bool.false_eq_true, if_false, if_true]

variable (opens : s.mayNotOpen c i = false)
include opens

theorem takeChunk_of_part (part : h.part = true) : takeChunk port h dsts miss s = s.putColl x (c.noteBegun k i false) := by
  simp only [takeChunk, known, runs, below, party, here, judged, opens, part, Bool.false_eq_true, if_false, if_true]

theorem takeChunk_of_whole (whole : h.part = false) :
    takeChunk port h dsts miss s =
      let u := s.putColl x (c.noteBegun k i true)
      let u := if p.isKid then u else u.noteLag x i port h.id
      ((u.noteSum x i k h).takeIn x i k port h.wire ⟨h.kind, h.rank, if p.isKid then h.covers else 1, h.fmt, h.data, h.pois, h.last⟩ dsts h.ecc
        miss).settle x := by
  simp only [takeChunk, known, runs, below, party, here, judged, opens, whole, Bool.false_eq_true, if_false]

end

end

/-- Settles O24: the chunk waits for its crossings, or crosses and falls under one of the rules above. -/
theorem chunkReceived : Obligations.ChunkReceived := by
  unfold Obligations.ChunkReceived
  intro s port h dsts miss x c t0 p k r code path becomes
  refine ⟨waits rfl, fun free => ?_⟩
  have becomes_of {u : State} : takeChunk port h dsts miss s = u → becomes u := crosses rfl free
  refine ⟨fun unknown => becomes_of (takeChunk_of_unknown unknown), fun known pending => becomes_of (takeChunk_of_phase_zero known pending),
    fun known runs => ⟨fun above => becomes_of (takeChunk_of_parent known runs above),
      fun below stranger => becomes_of (takeChunk_of_no_party known runs below stranger), fun below party => ⟨?_, fun here => ?_⟩⟩⟩
  · exact fun kid routed => becomes_of (takeChunk_of_routed_kid known runs below party kid routed)
  · refine ⟨fun judged => ?_, fun judged => ?_, fun j judged => ?_, fun j judged closed => ?_, fun j judged opens part => ?_,
      fun j judged opens whole => ?_⟩
    · exact becomes_of (takeChunk_of_event known runs below party here judged)
    · exact becomes_of (takeChunk_of_spill known runs below party here judged)
    · exact becomes_of (takeChunk_of_bad known runs below party here judged)
    · exact becomes_of (takeChunk_of_mayNotOpen known runs below party here judged closed)
    · exact becomes_of (takeChunk_of_part known runs below party here judged opens part)
    · exact becomes_of (takeChunk_of_whole known runs below party here judged opens whole)

end Sys2Proof.Machine
end

section
/-!
PROOFS. The messages and timers of the chunk protocol (R272, R275 to R278, R616): what each does to a collective of this module.
-/
namespace Sys2Proof.Machine
open Sys2Proof

section
variable {port : Fin 144} {s : State} {x t : Nat} {c : Coll}

/-! ### Halting (R616) -/

theorem haltedChunk_of_sender {h : ChunkIn} (known : s.collOf h.id = some (x, c)) (crc : h.crc = true)
    (sender : (((s.groupOf c).parentTree port).isSome || !(c.partiesAt port).isEmpty) = true) : haltedChunk port h s = s.haltColl x := by
  simp only [haltedChunk, known, crc, sender, Bool.not_true, Bool.false_eq_true, if_false, if_true]

/-! ### Acknowledgement (R275) -/

/-- A collective once the parties on a port have acknowledged its results up to `next`. -/
def State.acknowledged (s : State) (c : Coll) (port next : Nat) : Coll :=
  (c.partiesAt port).foldl (fun c q => { c with parties := setAt c.parties q.2 { q.1 with next := max q.1.next (min next (s.chunksOut c.cmd)) } }) c

section
variable {a : AckIn} (known : s.collOf a.id = some (x, c))
include known

theorem ackReceive_of_ack (results : a.contrib = false) (parties : (c.partiesAt port).isEmpty = false) (ack : a.nack = false) :
    ackReceive port a s = (s.putColl x (s.acknowledged c port a.next)).settle x := by
  simp only [ackReceive, known, results, parties, ack, Bool.false_eq_true, if_false]
  split <;> rfl

/-- The party that receives the refused chunk is given it again. -/
theorem ackReceive_of_nack {q : Party × Nat} (results : a.contrib = false) (nack : a.nack = true)
    (receiver : (c.partiesAt port).find? (fun q => c.receives (s.chunksOut c.cmd) (s.groupOf c).ranks a.nchunk q.2 q.1) = some q) :
    ackReceive port a s = ((s.putColl x (s.acknowledged c port a.next)).redeliver x q.2 a.nchunk).settle x := by
  simp only [ackReceive, known, results, receiver, nack, Bool.false_eq_true, if_false, if_true]
  rfl

/-- The parent acknowledges partials of its tree. -/
theorem ackReceive_of_parent (partials : a.contrib = true) (above : (s.groupOf c).parentTree port = some t) :
    ackReceive port a s =
      let u := s.putColl x (if t = 0 then { c with upNext0 := max c.upNext0 a.next } else { c with upNext1 := max c.upNext1 a.next })
      (if a.nack = true ∧ a.nchunk % 2 = t then u.resendUp x a.nchunk else u).settle x := by
  simp only [ackReceive, known, partials, above, if_true]

end

/-! ### Revocation and reissue (R277, R278) -/

section
variable {id : BitVec 32} (first last : BitVec 32) (reason : BitVec 8) (known : s.collOf id.toNat = some (x, c))
include known

/-- A contributor's chunks reopen, in rising order. -/
theorem revokeReceive_of_parties (below : (s.groupOf c).parentTree port = none) (parties : (c.partiesAt port).isEmpty = false) :
    revokeReceive port id first last reason s =
      let u := s.inc F.REVOKE_COUNT_received
      let own := (c.partiesAt port).flatMap (fun q => ((c.streamOf (u.chunksIn c.cmd) (max (u.chunksIn c.cmd) (u.chunksOut c.cmd)) q.1).filter
        (fun e => first.toNat ≤ e.1 && e.1 ≤ last.toNat)).map (·.2))
      ((sortBy (· ≤ ·) own.eraseDups).foldl (fun u i => u.reopen x i 1 true) u).settle x := by
  have below' : ((s.inc F.REVOKE_COUNT_received).groupOf c).parentTree port = none := below
  simp only [revokeReceive, known, below', parties, Bool.false_eq_true, if_false]

/-- Result chunk i of tree t counts as not received, and is relayed again once it has come again. -/
def State.withdraw (s : State) (x t reason i : Nat) : State :=
  match s.coll x with
  | none => s
  | some c =>
    let s := s.revokeResult x i reason
    match s.coll x with
    | some d =>
      let d := if t = 0 then { d with upAck0 := min d.upAck0 i } else { d with upAck1 := min d.upAck1 i }
      s.putColl x { d with relay := if c.relay.contains i then d.relay else d.relay ++ [i] }
    | none => s

/-- Partial chunk i leaves again where it is held, and reopens where it is not. -/
def State.giveAgain (s : State) (x reason i : Nat) : State :=
  match s.coll x with
  | none => s
  | some c =>
    if (c.chunk i).reopened then s
    else if c.kept.any (fun y => y.up && y.idx == i) then s.resendUp x i
    else s.reopen x i reason false

variable (above : (s.groupOf c).parentTree port = some t)
include above

theorem revokeReceive_of_parent :
    revokeReceive port id first last reason s =
      let u := s.inc F.REVOKE_COUNT_received
      (((List.range (u.chunksOut c.cmd)).filter (fun i => i % 2 == t && first.toNat ≤ i && i ≤ last.toNat)).foldl
        (fun u i => u.withdraw x t reason.toNat i) u).settle x := by
  have above' : ((s.inc F.REVOKE_COUNT_received).groupOf c).parentTree port = some t := above
  simp only [revokeReceive, known, above']
  rfl

theorem reissueReceive_of_parent :
    reissueReceive port id first last reason s =
      (((List.range (s.chunksOut c.cmd)).filter (fun i => i % 2 == t && first.toNat ≤ i && i ≤ last.toNat)).foldl
        (fun u i => u.giveAgain x reason.toNat i) s).settle x := by
  simp only [reissueReceive, known, above]
  rfl

end

/-! ### Timeouts (R276) -/

section
variable {x : Fin 4096} (known : s.coll x = some c) (runs : c.phase ≠ 0) (first : port.val ∉ c.late)
include known runs first

theorem ackTimeout_of_parent (stranger : c.partiesAt port = []) (above : (s.groupOf c).parentTree port = some t)
    (owes : c.parentOwes t = true) :
    ackTimeout x port s =
      ((s.putColl x { c with late := c.late ++ [port.val] }).faultReport 0x0A port 0 (catBits 0xFFFF c.cmd.collId 32)).pert 15 := by
  have early : c.late.contains port.val = false := by simpa using first
  simp only [ackTimeout, known, runs, early, stranger, above, owes, Bool.false_eq_true, or_false, if_false, List.isEmpty_nil, if_true,
    Option.any_some, Bool.not_true]
  rfl

theorem ackTimeout_of_party {q : Party × Nat} (party : (c.partiesAt port).head? = some q)
    (owes : (c.partiesAt port).any (fun q => s.owes c q.2 q.1) = true) :
    ackTimeout x port s =
      ((s.putColl x { c with late := c.late ++ [port.val] }).faultReport 0x0A port 0 (catBits q.1.rank c.cmd.collId 32)).pert 15 := by
  have early : c.late.contains port.val = false := by simpa using first
  have parties : (c.partiesAt port).isEmpty = false := List.isEmpty_eq_false_iff_exists_mem.mpr ⟨q, List.mem_of_head? party⟩
  simp only [ackTimeout, known, runs, early, party, parties, owes, Bool.false_eq_true, or_false, if_false, Bool.not_true]
  rfl

end

/-! ### Quorum (R272) -/

/-- The members of chunk i that have sent no byte of it, neither by what came nor by what is told in `begun`. -/
def Coll.silent (c : Coll) (nIn i : Nat) (begun : List Nat) : List Nat :=
  (c.contributors nIn i).filter (fun k => !(c.chunk i).got.any (fun g => g.1 == k) &&
    (match c.parties[k]? with
      | some p => !p.isKid && !begun.contains p.rank && !c.begun.contains (k, i)
      | none => false))

/-- The collective without the contributors `out` in chunk i, with a change entry of kind 2 for each. -/
def Coll.without (c : Coll) (i : Nat) (out : List Nat) : Coll :=
  { c.putChunk i { c.chunk i with excluded := (c.chunk i).excluded ++ out } with
    changes := c.changes ++ out.map (fun k => (⟨i, ((c.parties[k]?).map (·.rank)).getD 0, 1, 2⟩ : Change)) }

/-- A chunk that has all it waits for goes on. -/
def State.chunkOn (s : State) (x i : Nat) (miss : List Miss) : State :=
  match s.coll x with
  | none => s
  | some d => if !d.loaded && s.filled d i then (s.chunkWhole x i miss).settle x else s.settle x

theorem quorumWait_of_quorum {x : Fin 4096} {i : Nat} (begun : List Nat) (miss : List Miss) (known : s.coll x = some c)
    (quorum : c.cmd.isQuorum = true) (runs : c.phase ≠ 0) (inRange : i < s.chunksIn c.cmd) (lowest : (s.groupOf c).tier = 1)
    (pending : (c.chunk i).reduced = false) (reached : c.cmd.quorum ≤ (c.chunk i).got.length) :
    quorumWait x i begun miss s =
      let out := c.silent (s.chunksIn c.cmd) i begun
      (out.foldl (fun u k => (if c.loaded then u.deliverNone x i k else u).bitEvent c.step 3) (s.putColl x (c.without i out))).chunkOn x i miss := by
  have goes : ¬ ((!c.cmd.isQuorum) = true ∨ c.phase = 0 ∨ i ≥ s.chunksIn c.cmd ∨ (s.groupOf c).tier ≠ 1 ∨ (c.chunk i).reduced = true ∨
      (c.chunk i).got.length < c.cmd.quorum) := by
    simp [quorum, runs, inRange, lowest, pending, reached]
  simp only [quorumWait, known, if_neg goes]
  rfl

end

/-- Settles O25: each message crosses or waits, and then follows the rule for its sender. -/
theorem chunkProtocol : Obligations.ChunkProtocol := by
  unfold Obligations.ChunkProtocol
  intro s port h a id first last reason x xf c q t0 i begun miss wait path free
  have parties_of : q ∈ c.partiesAt port → (c.partiesAt port).isEmpty = false := fun member =>
    List.isEmpty_eq_false_iff_exists_mem.mpr ⟨q, member⟩
  refine ⟨waits rfl, waits rfl, waits rfl, waits rfl, fun free known crc sender => crosses rfl free (haltedChunk_of_sender known crc ?_),
    fun free known results member => ⟨fun ack => ?_, fun nack receiver => ?_⟩, fun free known partials above => ?_,
    fun free known below member => ?_, fun free known above => ?_, fun free known above => ?_, fun known runs first stranger above owes => ?_,
    fun known runs first party owes => ?_, fun known quorum runs inRange lowest pending reached => ?_⟩
  · rcases sender with above | member
    · rw [above, Option.isSome_some, Bool.true_or]
    · rw [parties_of member, Bool.not_false, Bool.or_true]
  · exact crosses rfl free (ackReceive_of_ack known results (parties_of member) ack)
  · exact crosses rfl free (ackReceive_of_nack known results nack receiver)
  · exact crosses rfl free (ackReceive_of_parent known partials above)
  · exact crosses rfl free (revokeReceive_of_parties first last reason known below (parties_of member))
  · exact crosses rfl free (revokeReceive_of_parent first last reason known above)
  · exact crosses rfl free (reissueReceive_of_parent first last reason known above)
  · exact completes rfl (ackTimeout_of_parent known runs first stranger above owes)
  · exact completes rfl (ackTimeout_of_party known runs first party owes)
  · exact completes rfl (quorumWait_of_quorum begun miss known quorum runs inRange lowest pending reached)

end Sys2Proof.Machine
end

section
/-!
PROOFS. Norm partials (R308, R311) and the arrival of COMMIT (R315, R316, R481).
-/
namespace Sys2Proof.Machine
open Sys2Proof

/-- A list of keyed values lists no value under a key that none of them has. -/
theorem any_key_eq_false {β : Type} {l : List (Nat × β)} {k : Nat} (absent : ∀ p ∈ l, p.1 ≠ k) : l.any (fun p => p.1 == k) = false :=
  List.any_eq_false.mpr fun p mem same => absent p mem (beq_iff_eq.mp same)

/-! ### NORM_PART: the state `u` it is judged in has the norm of its step open (log entry 26) -/

section
variable {re : Bool} {port : Fin 144} {set : Fin 16} {sender : BitVec 16} {step : BitVec 64} {record : List Byte} {s u : State}
  (opened : (if s.normPending set step.toNat then s.normRoll set step.toNat else s) = u)
include opened

theorem normPart_of_unknown (unknown : u.nor.norms.find set = none) :
    normPart re port set sender step record s = u.normEvent port 7 (16 + record.length) := by
  simp only [normPart, opened, unknown]

variable {n : Norm} (known : u.nor.norms.find set = some n)
include known

theorem normPart_of_past (past : n.step ≠ step.toNat ∨ u.normPending set n.step = false) :
    normPart re port set sender step record s = u.normEvent port 7 (16 + record.length) := by
  simp only [normPart, opened, known, if_pos past]

variable (live : ¬ (n.step ≠ step.toNat ∨ u.normPending set n.step = false))
include live

theorem normPart_of_stranger (stranger : sender.toNat ∉ n.peers) :
    normPart re port set sender step record s = u.normEvent port 1 (16 + record.length) := by
  have unlisted : n.peers.contains sender.toNat = false := by simpa using stranger
  simp only [normPart, opened, known, if_neg live, unlisted, Bool.not_false, if_true]

variable (peer : sender.toNat ∈ n.peers)
include peer

theorem normPart_of_second (first : re = false) (had : ∃ p ∈ n.parts, p.1 = sender.toNat) :
    normPart re port set sender step record s = u.normEvent port 2 (16 + record.length) := by
  have listed : n.peers.contains sender.toNat = true := by simpa using peer
  have again : n.parts.any (fun p => p.1 == sender.toNat) = true := by simpa using had
  simp only [normPart, opened, known, if_neg live, listed, again, first, Bool.not_true, Bool.not_false, Bool.false_eq_true, and_self, if_false,
    if_true]

/-- The record is kept as the sender's, a malformed one as the poisoned record that `normRec` makes of it, and what has begun starts again. -/
theorem normPart_of_record (wanted : re = true ∨ ∀ p ∈ n.parts, p.1 ≠ sender.toNat) :
    normPart re port set sender step record s =
      let v := if (normRec record).2 then u.inc F.CIS_BAD_RECORD_COUNT_bad else u
      (v.putNorm set { n with
        parts := n.parts.filter (fun p => p.1 != sender.toNat) ++ [(sender.toNat, (normRec record).1)] }).normRestart set := by
  have listed : n.peers.contains sender.toNat = true := by simpa using peer
  have keeps : ¬ ((!re) = true ∧ n.parts.any (fun p => p.1 == sender.toNat) = true) := by
    rcases wanted with reissue | absent
    · simp [reissue]
    · simp [any_key_eq_false absent]
  simp only [normPart, opened, known, if_neg live, listed, if_neg keeps, Bool.not_true, Bool.false_eq_true, if_false]

end

/-! ### NORM_PEER_TIMEOUT -/

section
variable {set : Fin 16} {peer : BitVec 16} {s : State} {n : Norm} (known : s.nor.norms.find set = some n)
include known

/-- A peer that owes its record, once the local slot has left, is reported. -/
theorem normTimeout_of_owing (left : n.sent.isSome = true) (listed : peer.toNat ∈ n.peers) (owes : ∀ p ∈ n.parts, p.1 ≠ peer.toNat)
    (first : peer.toNat ∉ n.reported) :
    normTimeout set peer s =
      ((s.putNorm set { n with reported := n.reported ++ [peer.toNat] }).faultReport 0x0B set 0 peer.toNat).pert 15 := by
  have due : ¬ (n.sent.isNone = true ∨ (!n.peers.contains peer.toNat) = true ∨ n.parts.any (fun p => p.1 == peer.toNat) = true ∨
      n.reported.contains peer.toNat = true) := by
    simp [Option.isNone_eq_false_iff.mpr left, listed, first, any_key_eq_false owes]
  simp only [normTimeout, known, if_neg due]

theorem normTimeout_of_not_owing (idle : n.sent = none ∨ peer.toNat ∉ n.peers ∨ (∃ p ∈ n.parts, p.1 = peer.toNat) ∨ peer.toNat ∈ n.reported) :
    normTimeout set peer s = s := by
  have idle' : n.sent.isNone = true ∨ (!n.peers.contains peer.toNat) = true ∨ n.parts.any (fun p => p.1 == peer.toNat) = true ∨
      n.reported.contains peer.toNat = true := by
    simpa using idle
  simp only [normTimeout, known, if_pos idle']

end

/-! ### COMMIT -/

section
variable {step turn : BitVec 64} {s : State}

theorem commit_of_disabled (off : s.get F.NOR_CTL_en = 0) : commit step turn s = s.commitNack 3 step.toNat 0xFFFF := by
  simp only [commit, if_pos off]

variable (on : s.get F.NOR_CTL_en ≠ 0)
include on

theorem commit_of_late (late : turn.toNat < s.turn) : commit step turn s = s.commitNack 2 step.toNat 0xFFFF := by
  simp only [commit, if_neg on, if_pos late]

variable (early : s.turn ≤ turn.toNat)
include early

theorem commit_of_member (member : s.get F.WM_CTL_role ≠ 2) :
    commit step turn s = { s with nor.armed := s.nor.armed ++ [(step.toNat, turn.toNat)] } := by
  simp only [commit, if_neg on, if_neg (Nat.not_lt.mpr early)]
  exact if_pos member

/-- The standby holds the COMMIT and takes its step as decided (log entry 33). -/
theorem commit_of_standby (standby : s.get F.WM_CTL_role = 2) :
    commit step turn s = State.commitAnswer { s with
      nor.armed := s.nor.armed ++ [(step.toNat, turn.toNat)]
      flt.held := some (0x10, step.toNat, turn.toNat)
      flt.settled := s.flt.settled ++ [step.toNat] } 0x12 0 step.toNat 0xFFFF := by
  simp only [commit, if_neg on, if_neg (Nat.not_lt.mpr early)]
  exact if_neg (not_not.mpr standby)

end

/-- Settles O27: a partial crosses or waits, and is then judged in turn; a peer is reported or not; a COMMIT is refused, armed or held. -/
theorem normAndCommitMessages : Obligations.NormAndCommitMessages := by
  unfold Obligations.NormAndCommitMessages
  intro s re port set sender step turn record n
  refine ⟨waits rfl, fun free => ?_, fun known left listed owes first => ?_, fun known idle => ?_, fun off => ?_, fun on late => ?_,
    fun on early => ⟨fun member => ?_, fun standby => ?_⟩⟩
  · intro u live event
    have live_of : live → ¬ (n.step ≠ step.toNat ∨ u.normPending set n.step = false) :=
      fun ⟨same, pending⟩ past => past.elim (absurd same) (Bool.eq_false_iff.mp · pending)
    refine ⟨fun unknown => ?_, fun known => ⟨fun past => ?_, fun running stranger => ?_, fun running peer first had => ?_,
      fun running peer wanted => ?_⟩⟩
    · exact crosses rfl free (normPart_of_unknown rfl unknown)
    · refine crosses rfl free (normPart_of_past rfl known ?_)
      exact (not_and_or.mp past).imp_right Bool.eq_false_iff.mpr
    · exact crosses rfl free (normPart_of_stranger rfl known (live_of running) stranger)
    · exact crosses rfl free (normPart_of_second rfl known (live_of running) peer first had)
    · exact crosses rfl free (normPart_of_record rfl known (live_of running) peer wanted)
  · exact completes rfl (normTimeout_of_owing known left listed owes first)
  · exact completes rfl (normTimeout_of_not_owing known idle)
  · exact completes rfl (commit_of_disabled off)
  · exact completes rfl (commit_of_late on late)
  · exact completes rfl (commit_of_member on early member)
  · exact completes rfl (commit_of_standby on early standby)

end Sys2Proof.Machine
end

section
/-!
PROOFS. The way of a packet into the switch core (R357 to R367, R375, R381): taking its header, and granting its buffer.
-/
namespace Sys2Proof.Machine
open Sys2Proof

/-! ### PACKET_HEADER_TAKE -/

section
variable {src : Fin 161} {h : BitVec 256} {data : List Byte} {s u : State} {k : Packet}

/-- Is a packet of a source there to be taken: does it come from a local source, or stand at the head of its class in its port's ingress buffer? -/
def State.there (s : State) (src : Nat) (k : Packet) : Bool :=
  decide (src ≥ 144) || (s.link src).ready.find? (fun q => q.cls == k.cls) == some k

theorem there_iff {src : Nat} : s.there src k = true ↔ src ≥ 144 ∨ (s.link src).ready.find? (fun q => q.cls == k.cls) = some k := by
  rw [State.there, Bool.or_eq_true, decide_eq_true_eq, beq_iff_eq]

theorem headerTake_of_held (bf : Option BasinFault) (packet : (⟨h.toNat, data⟩ : Packet) = k)
    (held : s.get F.SW_CTL_en = 0 ∨ s.blocked src k.cls = true ∨ s.stuck (enterOf src) = true ∨ (!s.there src k) = true) :
    headerTake src h data bf s = s := by
  rw [State.there] at held
  simp only [headerTake, packet, if_pos held]

variable (bf : Option BasinFault) (packet : (⟨h.toNat, data⟩ : Packet) = k)
  (taken : ¬ (s.get F.SW_CTL_en = 0 ∨ s.blocked src k.cls = true ∨ s.stuck (enterOf src) = true ∨ (!s.there src k) = true))
  (counted : (if src.val < 144 then (s.inc (F.PC_IN_PKT_count src k.cls)).inc (F.PC_IN_BYTE_count src k.cls) k.size else s) = u)
include packet taken counted

theorem headerTake_of_malformed (malformed : k.wellFormed = false) :
    headerTake src h data bf s = ((u.spill 5 data.length).disposed k src (32 + data.length)).leaveSource src k.cls := by
  rw [State.there] at taken
  simp only [headerTake, packet, if_neg taken, counted, malformed, Bool.not_false, if_true]

variable (wellFormed : k.wellFormed = true)
include wellFormed

/-- A packet whose epoch names a bank that a load is writing waits, unrouted. -/
theorem headerTake_of_writing (writing : (u.edge src k).2.sw.writing.any (fun w => w.bank == (u.edge src k).1.epoch) = true) :
    headerTake src h data bf s = { (u.edge src k).2.inc F.BP_COUNT_blocks with
      sw.waiting := (u.edge src k).2.sw.waiting ++ [⟨src, (u.edge src k).1, [], false, true⟩] } := by
  rw [State.there] at taken
  simp only [headerTake, packet, if_neg taken, counted, wellFormed, writing, Bool.not_true, Bool.false_eq_true, if_false, if_true]

variable (written : (u.edge src k).2.sw.writing.any (fun w => w.bank == (u.edge src k).1.epoch) = false)
include written

theorem headerTake_of_written :
    headerTake src h data bf s = (u.edge src k).2.routeIn ⟨src, (u.edge src k).1, [], false, false⟩ bf := by
  rw [State.there] at taken
  simp only [headerTake, packet, if_neg taken, counted, wellFormed, written, Bool.not_true, Bool.false_eq_true, if_false]

/-- A packet without a destination is disposed of. -/
theorem headerTake_of_error {t : State} (lost : (u.edge src k).2.destinations src (u.edge src k).1 = .error t) :
    headerTake src h data bf s = (t.disposed (u.edge src k).1 src (u.edge src k).1.size).leaveSource src (u.edge src k).1.cls := by
  rw [headerTake_of_written bf packet taken counted wellFormed written, State.routeIn]
  simp only [lost]

theorem headerTake_of_ok {t : State} {to_ : List (Nat × List Byte)}
    (routed : (u.edge src k).2.destinations src (u.edge src k).1 = .ok (to_, t)) :
    headerTake src h data bf s = t.letIn ⟨src, (u.edge src k).1, to_, false, false⟩ bf := by
  rw [headerTake_of_written bf packet taken counted wellFormed written, State.routeIn]
  simp only [routed]

end

/-! ### BUFFER_GRANT -/

section
variable {die : Fin 2} {s : State}

/-- The first waiting packet of a die, in the order of grants, that may have a buffer. -/
def State.grantee (s : State) (die : Nat) : Option Wait :=
  (s.waiters die).find? (fun w => (!s.ingress w.p || w.p.report || s.flowFree w.p die) && (s.choosePool die w.src w.p.cls w.p.size).isSome)

theorem bufferGrant_of_none (bf : Option BasinFault) (idle : s.get F.SW_CTL_en = 0 ∨ s.grantee die = none) : bufferGrant die bf s = s := by
  rw [State.grantee] at idle
  rcases idle with off | nobody
  · simp only [bufferGrant, if_pos off]
  · simp only [bufferGrant, nobody, ite_self]

variable {w : Wait} (bf : Option BasinFault) (on : s.get F.SW_CTL_en ≠ 0) (first : s.grantee die = some w)
include on first

theorem bufferGrant_of_granted {t : State} (granted : s.grantTo w bf = some t) :
    bufferGrant die bf s = { t with sw.waiting := t.sw.waiting.erase w, sw.granted := t.sw.granted.wr die w.src } := by
  rw [State.grantee] at first
  simp only [bufferGrant, if_neg on, first, granted]

/-- An upset that meets the allocation leaves the packet waiting (R367). -/
theorem bufferGrant_of_upset {c : Nat} (refused : s.grantTo w bf = none) (pool : s.choosePool die w.src w.p.cls w.p.size = some c) :
    bufferGrant die bf s = s.allocFault die c bf := by
  rw [State.grantee] at first
  simp only [bufferGrant, if_neg on, first, refused, pool]

end

/-! ### FREELIST_REBUILD_DONE -/

theorem freelistRebuilt_of_rebuilding {die : Fin 2} {k : Fin 3} {s : State} (busy : s.rebuilding die k = true) :
    freelistRebuilt die k s = s.rebuild die k := if_pos busy

theorem freelistRebuilt_of_not_rebuilding {die : Fin 2} {k : Fin 3} {s : State} (rebuilt : s.rebuilding die k = false) :
    freelistRebuilt die k s = s := if_neg (Bool.eq_false_iff.mp rebuilt)

end Sys2Proof.Machine
end

section
/-!
PROOFS. The way of a packet out of the switch core (R33, R391 to R396): what the choice of a head leaves alone, and PACKET_START.
-/
namespace Sys2Proof.Machine
open Sys2Proof

/-! ### The first success of a list -/

section
variable {α β : Type} {f : α → Option β}

theorem findMap?_eq_none {l : List α} (fails : ∀ a ∈ l, f a = none) : findMap? f l = none := by
  induction l with
  | nil => rfl
  | cons a l ih =>
    rw [findMap?, fails a List.mem_cons_self]
    exact ih (fun b mem => fails b (List.mem_cons_of_mem a mem))

theorem exists_of_findMap?_eq_some {l : List α} {b : β} (found : findMap? f l = some b) : ∃ a ∈ l, f a = some b := by
  induction l with
  | nil => exact absurd found (by simp [findMap?])
  | cons a l ih =>
    rw [findMap?] at found
    split at found
    case h_1 c hit => exact ⟨a, List.mem_cons_self, hit.trans found⟩
    case h_2 =>
      obtain ⟨c, mem, hit⟩ := ih found
      exact ⟨c, List.mem_cons_of_mem a mem, hit⟩

end

/-! ### Choosing a head moves the round robins alone -/

section
variable {s t : State} {p cls sub : Nat} {hs : List (Nat × Desc)} {h : Nat × Desc}

theorem roundRobin_rest (served : s.roundRobin p cls hs = some (h, t)) : t = { s with sw := t.sw } := by
  rw [State.roundRobin] at served
  split at served
  · cases served
    rfl
  · contradiction

theorem drr_rest (served : s.drr p cls sub hs = some (h, t)) : t = { s with sw := t.sw } := by
  simp only [State.drr] at served
  split at served
  · cases served
    rfl
  · split at served
    · cases served
      rfl
    · contradiction

theorem choose_rest (chosen : s.choose p cls = some (h, t)) : t = { s with sw := t.sw } := by
  simp only [State.choose, Option.ite_none_left_eq_some] at chosen
  obtain ⟨-, chosen⟩ := chosen
  generalize (if List.isEmpty _ = true then (_ : List (Nat × Desc)) else _) = hs at chosen
  by_cases off : s.get F.HG_CTL_en = 0
  · rw [if_pos off] at chosen
    exact roundRobin_rest chosen
  rw [if_neg off, Option.ite_none_left_eq_some] at chosen
  obtain ⟨-, chosen⟩ := chosen
  by_cases c1 : cls = 1
  · rw [if_pos c1, Option.map_eq_some_iff] at chosen
    obtain ⟨⟨g, u⟩, served, same⟩ := chosen
    cases same
    rw [drr_rest served]
  · rw [if_neg c1] at chosen
    exact drr_rest chosen

theorem classOrder_lt {c : Nat} (mem : c ∈ s.classOrder p) : c < 4 := by
  simp only [State.classOrder] at mem
  have all : ∀ l ∈ [[0, 1, 3, 2], [0, 3, 2, 1]], ∀ c ∈ l, c < 4 := by decide
  split_ifs at mem
  · exact all _ (by simp) c mem
  · exact all _ (by simp) c mem
  · exact all _ (by simp) c mem


end

/-! ### Counting the packet that starts -/

/-- A state once the start of a packet of a class is counted on a port. -/
def State.countStart (s : State) (p c : Nat) (d : Desc) : State :=
  let u := (s.inc (F.PC_OUT_PKT_count p c)).inc (F.PC_OUT_BYTE_count p c) d.p.size
  if d.demoted then u.inc (F.PC_DEMOTE_count p c) else u

/-- The counts of the ports' pages leave every field outside the pages alone. -/
theorem get_countStart (s : State) {p c : Nat} (d : Desc) (f : Fld) (port : p < 144) (cls : c < 4)
    (outside : f.reg < 0x2000000 ∨ 0x2300000 ≤ f.reg) : (s.countStart p c d).get f = s.get f := by
  have counts : ((s.inc (F.PC_OUT_PKT_count p c)).inc (F.PC_OUT_BYTE_count p c) d.p.size).get f = s.get f := by
    rw [State.get_inc_of_ne _ _ _ _ (by simp only [R.PC_OUT_BYTE]; omega), State.get_inc_of_ne _ _ _ _ (by simp only [R.PC_OUT_PKT]; omega)]
  rw [State.countStart]
  split
  · rw [State.get_inc_of_ne _ _ _ _ (by simp only [R.PC_DEMOTE]; omega), counts]
  · exact counts

theorem countStart_links (s : State) (p c : Nat) (d : Desc) : (s.countStart p c d).links = s.links := by
  rw [State.countStart]
  split <;> rfl

theorem shaperTake_rest (s : State) (p c n : Nat) : s.shaperTake p c n = { s with sw := (s.shaperTake p c n).sw } := by
  simp only [State.shaperTake]
  split_ifs <;> rfl

/-- What becomes of a packet's copy on a port rests on the link and the module's number alone. -/
theorem lastFurrow_congr {s t : State} (links : t.links = s.links) (me : t.me = s.me) (p : Nat) (k : Packet) :
    t.lastFurrow p k = s.lastFurrow p k := by
  simp only [State.lastFurrow, State.link, links, me]

/-- A state once the start of a packet is counted, and taken from its shaper's bucket while the headgates are on. -/
def State.chargeStart (s : State) (p c : Nat) (d : Desc) : State :=
  let u := s.countStart p c d
  if u.get F.HG_CTL_en = 1 then u.shaperTake p c d.p.size else u

/-- The charge moves neither the links nor the module's number. -/
theorem lastFurrow_chargeStart (s : State) {p c : Nat} (d : Desc) (port : p < 144) (cls : c < 4) (k : Packet) :
    (s.chargeStart p c d).lastFurrow p k = s.lastFurrow p k := by
  have links := countStart_links s p c d
  have me : (s.countStart p c d).me = s.me := get_countStart s d F.SW_ID_module port cls (.inl (by decide))
  rw [State.chargeStart]
  split
  · rw [shaperTake_rest]
    exact lastFurrow_congr links me _ _
  · exact lastFurrow_congr links me _ _

/-! ### PACKET_START -/

section
variable {out : Fin 161} {s v : State} (bf : Option BasinFault)

theorem packetStart_of_busy (port : out.val < 144) (busy : s.portFree out = false) : packetStart out bf s = s := by
  simp only [packetStart, if_pos port, busy, Bool.not_false, if_true]

section
variable (port : out.val < 144) (free : s.portFree out = true) (noted : (s.furrowsTo out).foldl State.noteHolds s = v)
include port free noted

theorem packetStart_of_none (held : ∀ c ∈ v.classOrder out, v.choose out c = none) : packetStart out bf s = v := by
  have fails : findMap? (fun c => (v.choose out c).map (fun r => (c, r))) (v.classOrder out) = none :=
    findMap?_eq_none (fun c mem => by rw [held c mem, Option.map_none])
  simp only [packetStart, if_pos port, free, noted, fails, Bool.not_true, Bool.false_eq_true, if_false]

/-- The head that the class order and the round robins choose leaves its furrow for the link. -/
theorem packetStart_of_chosen {c : Nat} {q : Nat × Desc} {t : State}
    (chosen : findMap? (fun c => (v.choose out c).map (fun r => (c, r))) (v.classOrder out) = some (c, q, t)) :
    packetStart out bf s =
      let u := t.chargeStart out c q.2
      (u.depart q.1 out q.2 (u.lastFurrow out q.2.p) bf).sendPacket out q.2.p := by
  obtain ⟨c', mem, hit⟩ := exists_of_findMap?_eq_some chosen
  obtain ⟨r, choice, same⟩ := Option.map_eq_some_iff.mp hit
  cases same
  have cls := classOrder_lt mem
  have rest := choose_rest choice
  have en : (t.countStart out c q.2).get F.HG_CTL_en = v.get F.HG_CTL_en := by
    rw [get_countStart t q.2 F.HG_CTL_en port cls (.inr (by decide)), rest]
    rfl
  have last : t.lastFurrow out q.2.p = v.lastFurrow out q.2.p := by
    rw [rest]
    rfl
  simp only [lastFurrow_chargeStart t q.2 port cls, last]
  simp only [State.chargeStart, en]
  simp only [packetStart, if_pos port, free, noted, chosen, Bool.not_true, Bool.false_eq_true, if_false]
  rfl

end

/-- The selector of a cluster, or of the management die, as a destination. -/
def innerDest (out : Fin 161) : Nat := if out.val = 160 then 0xFF else 0xE0 + (out.val - 144)

section
variable (inner : out.val ≥ 144) (noted : (s.furrowsTo (innerDest out)).foldl State.noteHolds s = v)
include inner noted

theorem packetStart_inner_of_none (held : findMap? (fun c => v.roundRobin out c (v.heads (innerDest out) c)) [0, 1, 3, 2] = none) :
    packetStart out bf s = v := by
  rw [innerDest] at noted held
  simp only [packetStart, if_neg (Nat.not_lt.mpr inner), noted, held]

theorem packetStart_inner_of_chosen {q : Nat × Desc} {t : State}
    (chosen : findMap? (fun c => v.roundRobin out c (v.heads (innerDest out) c)) [0, 1, 3, 2] = some (q, t)) :
    packetStart out bf s = (t.depart q.1 (innerDest out) q.2 true bf).arrive (innerDest out) q.2.p := by
  rw [innerDest] at noted chosen ⊢
  simp only [packetStart, if_neg (Nat.not_lt.mpr inner), noted, chosen]

end

end

/-- Settles O33: a packet is taken, granted its buffer and started by the rules of its case. -/
theorem packetsThroughTheSwitch : Obligations.PacketsThroughTheSwitch := by
  unfold Obligations.PacketsThroughTheSwitch
  intro s src out h data bf die pool w t0 t1 to_ c q k take there u
  refine ⟨fun held => ?_, fun on unblocked free atHead => ?_, ⟨fun idle => ?_, fun on first granted => ?_, fun on first refused chosen => ?_⟩,
    fun port => ⟨fun busy => ?_, fun free held => ?_, fun free chosen => ?_⟩, fun inner => ⟨fun held => ?_, fun chosen => ?_⟩, fun busy => ?_,
    fun rebuilt => ?_⟩
  · refine completes rfl (headerTake_of_held bf rfl ?_)
    exact held.imp_right (Or.imp_right (Or.imp_right fun absent => by rwa [Bool.not_eq_true', Bool.eq_false_iff, ne_eq, there_iff]))
  · have taken : ¬ (s.get F.SW_CTL_en = 0 ∨ s.blocked src k.cls = true ∨ s.stuck (enterOf src) = true ∨ (!s.there src k) = true) := by
      simp [on, unblocked, free, there_iff.mpr atHead]
    refine ⟨fun malformed => ?_, fun wellFormed => ⟨fun writing => ?_, fun written lost => ?_, fun written routed => ?_⟩⟩
    · exact completes rfl (headerTake_of_malformed bf rfl taken rfl malformed)
    · exact completes rfl (headerTake_of_writing bf rfl taken rfl wellFormed writing)
    · exact completes rfl (headerTake_of_error bf rfl taken rfl wellFormed written lost)
    · exact completes rfl (headerTake_of_ok bf rfl taken rfl wellFormed written routed)
  · exact completes rfl (bufferGrant_of_none bf idle)
  · exact completes rfl (bufferGrant_of_granted bf on first granted)
  · exact completes rfl (bufferGrant_of_upset bf on first refused chosen)
  · exact completes rfl (packetStart_of_busy bf port busy)
  · exact completes rfl (packetStart_of_none bf port free rfl held)
  · exact completes rfl (packetStart_of_chosen bf port free rfl chosen)
  · exact completes rfl (packetStart_inner_of_none bf inner rfl held)
  · exact completes rfl (packetStart_inner_of_chosen bf inner rfl chosen)
  · exact completes rfl (freelistRebuilt_of_rebuilding busy)
  · exact completes rfl (freelistRebuilt_of_not_rebuilding rebuilt)

end Sys2Proof.Machine
end

section
/-!
PROOFS. An instruction that does not issue (R140, R141): HALT at a context that has halted may end the context's RUN all the same (R236, R284).
-/
namespace Sys2Proof.Machine
open Sys2Proof

/-! ### The end of a collective -/

/-- A collective that releases what it holds leaves its context of the command processor (R284). -/
theorem coll_release (s : State) (x : Nat) (c : Coll) (halted : Bool) : (s.release x c halted).coll x = none := by
  have freed (l : List Nat) (u : State) : (l.foldl State.freeCmp u).cp = u.cp :=
    (Noted.foldl State.freeCmp (fun u k => (Noted.setWord u (R.CMP_CTL k) 0).trans (Noted.setWord _ (R.CMP_TURN k) 0)) l u).cp
  simp only [State.coll, State.release, freed]
  split <;> exact OMap.find_drop_self _ _

theorem cp_signal (s : State) (c : Cmd) : (s.signal c).cp = s.cp := by
  simp only [State.signal]
  split <;> rfl

theorem cp_endEvents (s : State) (step status : Nat) : (s.endEvents step status).cp = s.cp := by
  simp only [State.endEvents]
  split_ifs <;> rfl

theorem coll_endColl (s : State) (x status trap : Nat) : (s.endColl x status trap).coll x = none := by
  cases h : s.coll x with
  | none => simp only [State.endColl, h]
  | some c =>
    simp only [State.endColl, h]
    rw [State.coll, cp_signal, cp_endEvents]
    exact coll_release _ x c _

/-- A RUN whose contexts have all halted, with no operation open, is done (R256). -/
theorem coll_runDone_of_halted {s : State} {x : Nat} {q : Coll} (known : s.coll x = some q) (run : q.cmd.op = 0x0D)
    (halted : ∀ e ∈ s.eng.ctxs, e.2.coll = some x → e.2.st = 5 ∧ e.2.open_ = []) : (s.runDone x).coll x = none := by
  have all : ((s.eng.ctxs.filter (fun e => e.2.coll == some x)).map (·.2)).all (fun c => c.st == 5 && c.open_.isEmpty) = true := by
    simpa [imp_iff_not_or] using fun k c => halted (k, c)
  simp only [State.runDone, known, run, all, and_self, if_true]
  exact coll_endColl s x 0 0

/-! ### HALT at a halted context -/

/-- `execHalt` looks at the state of the context alone: at a HALTED context of collective `x`, a HALT that does not issue runs `runDone` too. -/
theorem exec_halt_of_idle {s : State} {a : Site} {f : LK} {x : Nat} (idle : s.canIssue a (f.word 0x82) = false)
    (member : (s.ctxAt a.eng a.ctx).coll = some x) (halted : (s.ctxAt a.eng a.ctx).st = 5) :
    exec (.halt a f) s = done (s.runDone x) := by
  change execHalt a f s = _
  simp only [execHalt, issue_idle idle, member, halted, if_true]

/-- The first context of the first engine, where no hardware error meets the instruction. -/
def haltSite : Site := ⟨0, 0, .none⟩

/-- The fields of a HALT. -/
def haltFields : LK := ⟨0, 0, 0, 0, 0, 0, 0, 0⟩

/-- The RUN of a program in queue 0, launched. -/
def launchedRun : Coll := { Coll.new ⟨0x0D⟩ 0 with phase := 1 }

/-- The block after reset, but for that RUN in context 0 of the command processor. Its only context of the engines is HALTED with no operation open,
so no instruction issues there. -/
def haltedRun : State :=
  { State.reset with
    eng.ctxs := [(0, { Ctx.free with st := 5, prog := 0, coll := some 0 })]
    cp.colls := OMap.put [] 0 launchedRun }

theorem haltedRun_idle (w : BitVec 64) : haltedRun.canIssue haltSite w = false := rfl

theorem coll_haltedRun : haltedRun.coll 0 = some launchedRun := rfl

theorem coll_runDone_haltedRun : (haltedRun.runDone 0).coll 0 = none :=
  coll_runDone_of_halted coll_haltedRun (by decide) (by simp [haltedRun, Ctx.free])

/-- Refutes O21: its first clause has every instruction that does not issue change nothing, in every state. `haltedRun` has a RUN whose contexts
have all halted; a HALT there does not issue, for its context is HALTED, but `execHalt` does not ask whether it did, and ends the RUN. -/
theorem not_issueAndChecks : ¬ Obligations.IssueAndChecks := by
  unfold Obligations.IssueAndChecks
  intro h
  obtain ⟨changesNothing, -⟩ := h haltedRun haltSite ⟨0, 0, 0, 0, 0, 0, 0, 0, 0, 0⟩ 0 0 0
  have idle := haltedRun_idle (haltFields.word 0x82)
  obtain ⟨t, run, unchanged⟩ := changesNothing (.halt haltSite haltFields) _ rfl rfl idle
  obtain ⟨t', run', ended⟩ := completes (exec_halt_of_idle idle rfl rfl) rfl
  obtain rfl : t = t' := Host.Outcome.next.inj (run.symm.trans run')
  have stays : t.coll 0 = some launchedRun := by rw [State.coll, unchanged.cp]; exact coll_haltedRun
  have ends : t.coll 0 = none := by rw [State.coll, ended.cp]; exact coll_runDone_haltedRun
  exact Option.some_ne_none _ (stays.symm.trans ends)

end Sys2Proof.Machine
end

section
/-!
PROOFS. The slots of the cistern: a read after a write, what an operation on a slot leaves alone, and one contribution and one merge (R87, R91, R96, R99).
-/
namespace Sys2Proof.Machine
open Sys2Proof

/-! ### Reads and writes of slots -/

@[simp] theorem slotRd_slotWr_self (s : State) (key : Nat) (z : Slot) : (s.slotWr key z).slotRd key = z := SMap.get_set_self _ _ _

theorem slotRd_slotWr_of_ne (s : State) {key q : Nat} (z : Slot) (h : q ≠ key) : (s.slotWr key z).slotRd q = s.slotRd q :=
  SMap.get_set_of_ne _ _ h

@[simp] theorem slotRd_slotTook (s : State) (key chunk q : Nat) : (s.slotTook key chunk).slotRd q = s.slotRd q := rfl

theorem Noted.ite {s t u : State} (p : Prop) [Decidable p] (yes : Noted s t) (no : Noted s u) : Noted s (if p then t else u) := by
  split
  · exact yes
  · exact no

/-- What only traps, counts or reports leaves every slot as it was. -/
theorem Noted.slotRd {s t : State} (h : Noted s t) (q : Nat) : t.slotRd q = s.slotRd q := by rw [State.slotRd, h.cis, State.slotRd]

/-! ### What follows an operation on a slot -/

section
variable (s : State) (a : Site) (c : Ctx) (x : Exact) (key elem op : Nat) (r : SlotRes)

/-- An operation on a slot writes it and notes its chunk; the rest is a count and a trap (R91, R92). -/
theorem noted_slotDone : Noted ((s.slotWr key r.slot).slotTook key c.chunk) (s.slotDone a c x key elem op r) := by
  rw [State.slotDone]
  exact (Noted.ite _ (.inc _ _ _) (.refl _)).trans (.ite _ (.overflowTrap _ _ _ _ _ _ _) (.refl _))

/-- The slot becomes the operation's result; every other slot, the engines and memory stay. -/
theorem slotDone_effect :
    (s.slotDone a c x key elem op r).slotRd key = r.slot ∧
      (∀ q, q ≠ key → (s.slotDone a c x key elem op r).slotRd q = s.slotRd q) ∧
      (s.slotDone a c x key elem op r).eng = s.eng ∧ (s.slotDone a c x key elem op r).mem = s.mem := by
  have noted := noted_slotDone s a c x key elem op r
  refine ⟨?_, fun q other => ?_, noted.eng, noted.mem⟩
  · rw [noted.slotRd, slotRd_slotTook, slotRd_slotWr_self]
  · rw [noted.slotRd, slotRd_slotTook, slotRd_slotWr_of_ne _ _ other]

/-- The same where a count came before the operation. -/
theorem slotDone_effect_of_noted {u : State} (noted : Noted s u) :
    (u.slotDone a c x key elem op r).slotRd key = r.slot ∧
      (∀ q, q ≠ key → (u.slotDone a c x key elem op r).slotRd q = s.slotRd q) ∧
      (u.slotDone a c x key elem op r).eng = s.eng ∧ (u.slotDone a c x key elem op r).mem = s.mem := by
  obtain ⟨result, others, eng, mem⟩ := slotDone_effect u a c x key elem op r
  exact ⟨result, fun q other => (others q other).trans (noted.slotRd q), eng.trans noted.eng, mem.trans noted.mem⟩

end

/-! ### The expected count (R99) -/

/-- The expected count rests on the collectives and on the format of their contributions. -/
theorem passes_congr {s t : State} (cp : t.cp = s.cp) (fmt : ∀ i < 32, t.fmt i = s.fmt i) (c : Ctx) (held n : Nat) :
    t.passes c held n = s.passes c held n := by
  have bound : t.boundColl c = s.boundColl c := by
    have coll : t.coll = s.coll := by funext y; rw [State.coll, cp, State.coll]
    rw [State.boundColl, coll, State.boundColl]
  have chunks (m : Cmd) : t.chunksIn m = s.chunksIn m := by
    have index : m.fmtIn < 32 := bits_lt _ _ 5
    simp only [State.chunksIn, State.perChunk, fmt _ index]
  simp only [State.passes, bound, chunks]

/-- The count of bad records is none of the format descriptors, which the expected count rests on. -/
theorem passes_inc_badRecord (s : State) (c : Ctx) (held n : Nat) :
    (s.inc F.CIS_BAD_RECORD_COUNT_bad).passes c held n = s.passes c held n := by
  refine passes_congr (State.inc_cp s _ 1) (fun i index => ?_) c held n
  have outside : R.FMT_DESC i ≠ F.CIS_BAD_RECORD_COUNT_bad.reg := by
    simp only [R.FMT_DESC, R.CIS_BAD_RECORD_COUNT]
    omega
  rw [State.fmt, State.word_inc_of_ne _ _ _ outside, State.fmt]

/-! ### One contribution and one merge -/

/-- The slot that element `e` of a CACC enters: with a fold, one for every element (R190). -/
def accKey (a : Site) (c : Ctx) (f : LC) (e : Nat) : Nat :=
  slotOf a c f.region.toNat (if f.fold = 1 then c.sc f.sSlot.toNat else c.sc f.sSlot.toNat + e)

/-- What the value or product of element `e` does to its slot in an exact region (R87, R191) where no lane fails. -/
def State.accEntry (s : State) (a : Site) (c : Ctx) (f : LC) (e : Nat) : SlotRes :=
  let fm := s.fmt f.fmt.toNat
  let x := Exact.ofIdx (s.region c.owner (a.eng / 8) f.region.toNat).fmt
  let va := c.elem fm f.v.toNat e
  let vb := c.elem fm f.vb.toNat e
  let p := if f.prod = 1 then productVal x fm va.bits vb.bits else (fm.decode va.bits, false, false)
  (s.slotRd (accKey a c f e)).enter x p.1 (va.pois || (f.prod == 1 && vb.pois)) p.2.1

/-- In an exact region a contribution with room enters its slot (R87), and is counted unless it was dropped or overflowed. -/
theorem accOne_of_room {s : State} {a : Site} {c : Ctx} {f : LC} (os : List Origin) {e : Nat}
    (unordered : (s.region c.owner (a.eng / 8) f.region.toNat).ordered = false)
    (room : s.passes c (s.slotRd (accKey a c f e)).count 1 = false) :
    (accOne a c f 0 (s, os) e).1 =
      let q := s.accEntry a c f e
      (if q.dropped || q.ovfNow then s else s.inc F.CIS_CONTRIB_COUNT_contrib).slotDone a c
        (Exact.ofIdx (s.region c.owner (a.eng / 8) f.region.toNat).fmt) (accKey a c f e) (c.elemIx + e) 0 q := by
  have noLane (i : Nat) : bit 0 i = false := Nat.zero_testBit i
  rw [accKey] at room
  simp only [accOne, unordered, room, noLane, Bool.and_false, Bool.or_false, Bool.false_eq_true, if_false]
  rfl

/-- A record with room merges into its slot (R96), counted first where it was malformed (R97). -/
theorem mergeOne_of_room {s : State} {a : Site} {c : Ctx} {x : Exact} {region slot elem : Nat} {rec : Rec} {bad : Bool}
    (room : s.passes c (s.slotRd (slotOf a c region slot)).count rec.cnt = false) :
    mergeOne a c x region s slot elem rec bad =
      (if bad then s.inc F.CIS_BAD_RECORD_COUNT_bad else s).slotDone a c x (slotOf a c region slot) elem 1
        ((s.slotRd (slotOf a c region slot)).merge x rec) := by
  have room' : (if bad then s.inc F.CIS_BAD_RECORD_COUNT_bad else s).passes c (s.slotRd (slotOf a c region slot)).count rec.cnt = false := by
    split
    · rw [passes_inc_badRecord, room]
    · exact room
  simp only [mergeOne, room', Bool.false_eq_true, if_false]

/-- Settles O17: within the expected count, one element or record is one operation on its slot, after at most a count. -/
theorem slotEntryAndMerge : Obligations.SlotEntryAndMerge := by
  unfold Obligations.SlotEntryAndMerge
  intro s a c f os e slot elem rec bad k fm r x va vb key z val mkey
  refine ⟨fun unordered room => ?_, fun room => ?_⟩
  · intro u
    have entered : u = _ := accOne_of_room os unordered room
    rw [entered]
    exact slotDone_effect_of_noted s _ _ _ _ _ _ _ (.ite _ (.refl s) (.inc s _ _))
  · intro u
    have merged : u = _ := mergeOne_of_room room
    rw [merged]
    exact slotDone_effect_of_noted s _ _ _ _ _ _ _ (.ite _ (.inc s _ _) (.refl s))

end Sys2Proof.Machine
end

section
/-!
PROOFS. CACC, CRND and CCLR (R190, R195 to R197): the moves of home slots that come first (R104), the slots rounded out, and the slots cleared.
-/
namespace Sys2Proof.Machine
open Sys2Proof

/-! ### Moves of home slots (R104) -/

section
variable (s : State) (a : Site) (c : Ctx) (region base : Nat)

theorem regs_moveGroup (reg : Nat) (r : Region) (g : Nat) (out : Bool) : (s.moveGroup reg r g out).regs = s.regs := by
  refine List.foldlRecOn (motive := fun u : State => u.regs = s.regs) _ _ rfl (fun u same i _ => ?_)
  simp only []
  split
  · exact same
  · split_ifs
    · exact same
    · exact same
    · exact same

theorem regs_visit (reg n : Nat) : (s.visit reg n).regs = s.regs := by
  rw [State.visit]
  split
  · rfl
  · simp only []
    split_ifs
    · rfl
    · rw [regs_moveGroup]
      exact regs_moveGroup s _ _ _ _
    · rw [regs_moveGroup]

theorem visits_succ (n : Nat) :
    s.visits a c region base (n + 1) = (s.visits a c region base n).visit (regionKey c.owner (a.eng / 8) region) (base + n) := by
  simp only [State.visits, List.range_succ, List.foldl_append, List.foldl_cons, List.foldl_nil]

theorem regs_visits (n : Nat) : (s.visits a c region base n).regs = s.regs := by
  induction n with
  | zero => rfl
  | succ n ih => rw [visits_succ, regs_visit, ih]

/-- A move of home slots leaves the format table alone. -/
theorem fmt_visits (n i : Nat) : (s.visits a c region base n).fmt i = s.fmt i := by
  simp only [State.fmt, State.word, regs_visits]

/-- A slot whose home lies in no spill level opens nothing. -/
theorem visit_of_not_spilled {reg n : Nat} (home : ∀ g, s.cis.regions.find reg = some g → g.spilled n = none) : s.visit reg n = s := by
  rw [State.visit]
  split
  · rfl
  · next r found => simp only [home r found, Option.isNone_none, true_or, if_true]

/-- Slots whose homes lie in no spill level are not moved. -/
theorem visits_of_not_spilled (n : Nat)
    (home : ∀ i < n, ∀ g, s.cis.regions.find (regionKey c.owner (a.eng / 8) region) = some g → g.spilled (base + i) = none) :
    s.visits a c region base n = s := by
  induction n with
  | zero => rfl
  | succ n ih =>
    rw [visits_succ, ih (fun i below => home i (Nat.lt_succ_of_lt below)), visit_of_not_spilled s (home n (Nat.lt_succ_self n))]

end

/-! ### Without a hardware error -/

section
variable {s : State} {a : Site} {c : Ctx} (quiet : a.hw = .none)
include quiet

theorem columnCheck_of_quiet (fmt : Nat) : s.columnCheck a c fmt = (0, s) := by rw [State.columnCheck, quiet]

theorem slotEcc_of_quiet (region base : Nat) : s.slotEcc a c region base = s := by rw [State.slotEcc, quiet]

end

/-! ### Slots cleared -/

/-- A state once the slots `key i` of a list are cleared. -/
def State.clears (s : State) (key : Nat → Nat) (l : List Nat) : State := l.foldl (fun u i => u.slotWr (key i) Slot.empty) s

section
variable (s : State) (key : Nat → Nat) (l : List Nat)

theorem clears_rest : s.clears key l = { s with cis.slots := (s.clears key l).cis.slots } := by
  induction l generalizing s with
  | nil => rfl
  | cons i l ih => exact ih (s.slotWr (key i) Slot.empty)

theorem slotRd_clears (q : Nat) : (s.clears key l).slotRd q = if ∃ i ∈ l, q = key i then Slot.empty else s.slotRd q := by
  induction l generalizing s with
  | nil => simp [State.clears]
  | cons i l ih =>
    have step : s.clears key (i :: l) = (s.slotWr (key i) Slot.empty).clears key l := rfl
    rw [step, ih]
    by_cases same : q = key i
    · simp [same]
    · simp [same, slotRd_slotWr_of_ne]

end

/-! ### Slots rounded out (R195) -/

/-- The first entry under `i` of a list of (place, value), where the values are those of a function of the place. -/
theorem find?_map_prodMk {β γ : Type} (g : Nat → β) (h : β → γ) (l : List Nat) (i : Nat) :
    ((l.map (fun j => (j, g j))).find? (fun p => p.1 == i)).map (fun p => h p.2) = if i ∈ l then some (h (g i)) else none := by
  induction l with
  | nil => rfl
  | cons j l ih =>
    by_cases same : j = i
    · simp [same]
    · simpa [same, Ne.symm same] using ih

/-- What CRND rounds out for element `i` in state `h`: the lane and the NaNs that the tree's last additions generate (R113). -/
def State.roundedSlot (h : State) (a : Site) (c : Ctx) (f : LC) (r : Region) (i : Nat) : LaneRes × Nat :=
  slotOut r (h.slotRd (slotOf a c f.region.toNat (c.sc f.sSlot.toNat + i))) (h.fmt f.fmt.toNat) f.rnd.toNat
    (rndOf f.rnd.toNat c.rngKey c.tau (h.stepOf c.coll) (c.sc f.sAux.toNat + i))

/-- The origins of the elements that CRND rounds out (R113, R614). -/
def roundOrigins (a : Site) (c : Ctx) (f : LC) (r : Region) (out : Nat → LaneRes × Nat) (on : List Nat) : List Origin :=
  on.flatMap (fun i =>
    List.replicate (out i).2 (roundOrigin a c 0x42 r.fmt (laneOf f.fmt.toNat i) i ⟨0, false, 1, 1⟩) ++
      (if (out i).1.cause = 0 then [] else [roundOrigin a c 0x42 f.fmt.toNat (laneOf f.fmt.toNat i) i (out i).1]))

/-- Where no element has a cause or generates a NaN, there is no origin. -/
theorem roundOrigins_eq_nil (a : Site) (c : Ctx) (f : LC) (r : Region) {out : Nat → LaneRes × Nat} {on : List Nat}
    (clean : ∀ i ∈ on, (out i).1.cause = 0 ∧ (out i).2 = 0) : roundOrigins a c f r out on = [] := by
  refine List.flatMap_eq_nil_iff.mpr fun i mem => ?_
  obtain ⟨cause, nans⟩ := clean i mem
  rw [nans, List.replicate_zero, if_pos cause, List.nil_append]

section
variable {s h : State} {a : Site} {c : Ctx} {f : LC} {r : Region} {on : List Nat}

theorem rndBody_of_not_ready (enabled : c.enabledList f.pg.toNat f.fmt.toNat = on) (region : s.region c.owner (a.eng / 8) f.region.toNat = r)
    (ready : s.slotsReady a c r f.region.toNat (on.map (c.sc f.sSlot.toNat + ·)) = false) : rndBody a f s c = .wait 2 := by
  simp only [rndBody, enabled, region, ready, Bool.not_false, if_true]

/-- Once every slot holds its expected count, the slots of the enabled elements are rounded out, and cleared if asked for. -/
theorem rndBody_of_ready (quiet : a.hw = .none) (enabled : c.enabledList f.pg.toNat f.fmt.toNat = on)
    (region : s.region c.owner (a.eng / 8) f.region.toNat = r)
    (moved : s.visits a c f.region.toNat (c.sc f.sSlot.toNat) (nElems f.fmt.toNat) = h)
    (ready : s.slotsReady a c r f.region.toNat (on.map (c.sc f.sSlot.toNat + ·)) = true) :
    rndBody a f s c =
      .next (if f.clr = 1 then h.clears (fun i => slotOf a c f.region.toNat (c.sc f.sSlot.toNat + i)) on else h)
        (c.setReg f.v.toNat (putElems (s.fmt f.fmt.toNat) (c.reg f.v.toNat)
          (fun i => if i ∈ on then some (h.roundedSlot a c f r i).1.lane else none)))
        (roundOrigins a c f r (h.roundedSlot a c f r) on) := by
  have fmt : s.fmt f.fmt.toNat = h.fmt f.fmt.toNat := by rw [← moved, fmt_visits]
  simp only [rndBody, enabled, region, ready, moved, fmt, slotEcc_of_quiet quiet, Bool.not_true, Bool.false_eq_true, if_false, List.flatMap_map,
    find?_map_prodMk _ (fun p : LaneRes × Nat => p.1.lane)]
  rfl

end

/-! ### The bodies of CACC and CCLR -/

section
variable {s : State} {a : Site} {c : Ctx} {f : LC}

/-- CACC enters its enabled elements in ascending order, one at a time (R190). -/
theorem accBody_of_quiet (quiet : a.hw = .none) :
    accBody a f s c =
      let u := (c.enabledList f.pg.toNat f.fmt.toNat).foldl (accOne a c f 0)
        (s.visits a c f.region.toNat (c.sc f.sSlot.toNat) (if f.fold = 1 then 1 else nElems f.fmt.toNat), [])
      .next u.1 c u.2 := by
  simp only [accBody, columnCheck_of_quiet quiet, slotEcc_of_quiet quiet]

/-- CCLR clears its slots (R197). -/
theorem clrBody_of_quiet (quiet : a.hw = .none) :
    clrBody a f s c =
      .next ((s.visits a c f.region.toNat (c.sc f.sSlot.toNat) (f.cnt.toNat + 1)).clears
        (fun i => slotOf a c f.region.toNat (c.sc f.sSlot.toNat + i)) (List.range (f.cnt.toNat + 1))) c [] := by
  rw [clrBody, slotEcc_of_quiet quiet, State.clears]

end

/-- Settles O16: each instruction's body, without a hardware error, is its effect on the slots and registers, and commits or waits. -/
theorem cisternAccumulateRoundClear : Obligations.CisternAccumulateRoundClear := by
  unfold Obligations.CisternAccumulateRoundClear
  intro s a f c k base r on key here
  refine ⟨visits_of_not_spilled s a c _ base, fun may => ?_, fun may ready => ?_, fun may ready => ?_, fun may => ?_⟩
  · exact completes rfl (issue_from may (accBody_of_quiet may.2))
  · obtain ⟨t, run, settled⟩ := completes (i := .crnd a f) rfl (issue_from may (rndBody_of_ready may.2 rfl rfl rfl ready))
    exact ⟨t, _, run, settled, roundOrigins_eq_nil _ _ _ _⟩
  · exact completes rfl (issue_waits may (rndBody_of_not_ready rfl rfl ready))
  · obtain ⟨t, run, settled⟩ := completes (i := .cclr a f) rfl (issue_from may (clrBody_of_quiet may.2))
    refine ⟨t, _, run, settled, clears_rest _ _ _, fun i below => ?_, fun q other => ?_⟩
    · rw [slotRd_clears, if_pos ⟨i, List.mem_range.mpr (Nat.lt_succ_of_le below), rfl⟩]
    · rw [slotRd_clears, if_neg]
      rintro ⟨i, below, same⟩
      exact other i (Nat.le_of_lt_succ (List.mem_range.mp below)) same

end Sys2Proof.Machine
end

section
/-!
PROOFS. SSEND (R208 to R210): the open chunk closed first, what the registers become as bytes, and the port, region or queue that takes them.
-/
namespace Sys2Proof.Machine
open Sys2Proof

/-! ### What an SSEND sends -/

/-- The most bytes that an SSEND sends to a stream at once (Table 07-3). -/
def State.sendMost (s : State) (f : LT) (t : Strm) : Nat := modeBytes (s.fmt f.fmt.toNat) t.smode t.lay t.mx

/-- The registers of an SSEND in the mode of its stream `t`, where the format is `fm` and the generator's values and the registers are those of
`s` and `c` (R208, R209). -/
def State.sendData (s : State) (f : LT) (fm : Fmt) (c : Ctx) (t : Strm) : Encoded :=
  encodeRegs fm t f.rnd.toNat (sendRs s f).1 (c.sc f.sBase.toNat) (c.sc f.sN.toNat) (t.out.length / max 1 (blockBytes fm t.mx t.lay) * 64)
    (c.reg f.v.toNat) (c.reg (f.v.toNat + 1))

/-- The chunk that an SSEND to stream `t` counts its elements in: none outside the fabric. -/
def sendChunk (f : LT) (t : Strm) : Nat := if f.stream.toNat < 8 then t.outIdx else 0

/-- The state once the failed groups of the data are taken (R209). -/
def State.sendTraps (s : State) (a : Site) (f : LT) (fm : Fmt) (c : Ctx) (t : Strm) : State :=
  (sendRs s f).2.sparseTraps c.coll (sendChunk f t) 0xFF a.eng a.ctx f.fmt.toNat t.lay t.mx (s.sendData f fm c t).bad

/-- The first-NaN origins of the data (Table 02-16). -/
def State.sendOrigins (s : State) (a : Site) (f : LT) (fm : Fmt) (c : Ctx) (t : Strm) : List Origin :=
  laneOrigins a 0x02 f.fmt.toNat 0xFF (sendChunk f t) (elemAtOff fm t t.out.length) true (s.sendData f fm c t).os

/-- A context whose position in stream `k` has advanced. -/
def Ctx.advanced (c : Ctx) (k n : Nat) : Ctx := { c with pos := c.pos.wr k (c.pos.rd k + n) }

/-- An output port whose open chunk has taken data, and its FIFO their credit (R146). -/
def Strm.takes (t : Strm) (e : Encoded) : Strm :=
  { t with out := t.out ++ e.data, outPois := t.outPois || e.pois, level := t.level + credit e.data.length }

/-! ### Where it goes -/

section
variable {s : State} {a : Site} {f : LT} {c : Ctx} {t0 : Strm} (stream : s.strm a.eng f.stream.toNat = some t0)
include stream

/-- Without credit in its port, or room in its queue, an SSEND waits (R146, R210). -/
theorem sendBody_of_no_room
    (full : ((f.stream.toNat = 4 ∨ f.stream.toNat = 5) ∧ t0.level + credit (s.sendMost f t0) > 16384) ∨
      (¬ (f.stream.toNat = 4 ∨ f.stream.toNat = 5) ∧ t0.mode ≠ 2 ∧ t0.out.length + s.sendMost f t0 > t0.cap)) :
    sendBody a f s c = .wait 3 := by
  simp only [State.sendMost] at full
  simp only [sendBody, stream]
  obtain noCredit | ⟨outside, noQueue⟩ := full
  · rw [if_pos noCredit]
  · rw [if_neg (fun h => outside h.1), if_pos ⟨by simpa using outside, noQueue⟩]

section
variable (port : f.stream.toNat = 4 ∨ f.stream.toNat = 5) (fits : t0.level + credit (s.sendMost f t0) ≤ 16384) {p : State × Ctx}
  (closed : s.closeFull a f.stream.toNat (s.sendMost f t0) t0 c = p)
include port fits closed

/-- The chunk closed first can end its collective, which unbinds the port: then no bytes are sent. -/
theorem sendBody_of_unbound (gone : p.1.strm a.eng f.stream.toNat = none) : sendBody a f s c = .next p.1 p.2 [] := by
  simp only [State.sendMost] at fits closed
  simp only [sendBody, stream, port, Nat.not_lt.mpr fits, closed, gone, decide_true, Bool.not_true, Bool.false_eq_true, and_false, false_and,
    if_true, if_false, gt_iff_lt]

variable {t : Strm} (bound : p.1.strm a.eng f.stream.toNat = some t)
include bound

/-- The bytes go to the open chunk (R208); with `close`, the chunk leaves, and the FENCE flag with it (R232). -/
theorem sendBody_of_port :
    sendBody a f s c =
      let k := f.stream.toNat
      let fm := s.fmt f.fmt.toNat
      let e := p.1.sendData f fm p.2 t
      let u := p.1.sendTraps a f fm p.2 t
      let os := p.1.sendOrigins a f fm p.2 t
      let c1 := (p.2.advanced k e.data.length).onward
      if f.edge = 1 then .send (u.putStrm a.eng k ((t.takes e).close (c1.fenced k))) (c1.unfence k) os t.coll
      else .go (u.putStrm a.eng k (t.takes e)) c1 os := by
  simp only [State.sendMost] at fits closed
  simp only [sendBody, stream, port, Nat.not_lt.mpr fits, closed, bound, decide_true, Bool.not_true, Bool.false_eq_true, and_false, false_and,
    if_true, if_false, gt_iff_lt]
  rfl

theorem sendBody_of_port_open (goesOn : f.edge ≠ 1) :
    sendBody a f s c =
      let fm := s.fmt f.fmt.toNat
      let e := p.1.sendData f fm p.2 t
      .go ((p.1.sendTraps a f fm p.2 t).putStrm a.eng f.stream.toNat (t.takes e)) (p.2.advanced f.stream.toNat e.data.length).onward
        (p.1.sendOrigins a f fm p.2 t) :=
  (sendBody_of_port stream port fits closed bound).trans (if_neg goesOn)

theorem sendBody_of_port_close (closes : f.edge = 1) :
    sendBody a f s c =
      let k := f.stream.toNat
      let fm := s.fmt f.fmt.toNat
      let e := p.1.sendData f fm p.2 t
      .send ((p.1.sendTraps a f fm p.2 t).putStrm a.eng k ((t.takes e).close (p.2.fenced k)))
        ((p.2.advanced k e.data.length).unfence k).onward (p.1.sendOrigins a f fm p.2 t) t.coll :=
  (sendBody_of_port stream port fits closed bound).trans (if_pos closes)

end

section
variable (outside : ¬ (f.stream.toNat = 4 ∨ f.stream.toNat = 5))
include outside

/-- The bytes go to the store region, from the position the stream had (R210). -/
theorem sendBody_of_region (region : t0.mode = 2) :
    sendBody a f s c =
      let fm := s.fmt f.fmt.toNat
      let e := s.sendData f fm c t0
      .go ((s.sendTraps a f fm c t0).regionWr a.eng t0 (c.pos.rd f.stream.toNat) e.data) (c.advanced f.stream.toNat e.data.length).onward
        (s.sendOrigins a f fm c t0) := by
  simp only [sendBody, stream, outside, region, NMap.rd_wr_self, Nat.add_sub_cancel, ne_eq, not_true, false_and, and_false, if_true, if_false]
  rfl

/-- The bytes go to the flume queue, and the operation stays open (R210). -/
theorem sendBody_of_queue (queue : t0.mode ≠ 2) (room : t0.out.length + s.sendMost f t0 ≤ t0.cap) :
    sendBody a f s c =
      let fm := s.fmt f.fmt.toNat
      let e := s.sendData f fm c t0
      let c1 := c.advanced f.stream.toNat e.data.length
      .go ((s.sendTraps a f fm c t0).putStrm a.eng f.stream.toNat
          { t0 with out := t0.out ++ e.data, wops := t0.wops ++ [(c.issued, e.data.length)] })
        { c1 with open_ := c.open_ ++ [c.issued] }.onward (s.sendOrigins a f fm c t0) := by
  simp only [State.sendMost] at room
  simp only [sendBody, stream, outside, queue, Nat.not_lt.mpr room, false_and, and_false, if_false, gt_iff_lt]
  rfl

end

end

/-- At an output port, what is done before the bytes are sent is to close the open chunk where it lacks their room. -/
theorem closeFull_of_port {k : Nat} (s : State) (a : Site) (n : Nat) (t : Strm) (c : Ctx) {port : Prop} [Decidable port] (h : port) :
    s.closeFull a k n t c =
      if port ∧ t.lacks n then ((s.putStrm a.eng k (t.close (c.fenced k))).collectOut t.coll, c.unfence k) else (s, c) := by
  simp only [State.closeFull, h, true_and]

/-- Settles O15: the body waits, or sends to its port, region or queue, and what it sends commits. -/
theorem streamSends : Obligations.StreamSends := by
  unfold Obligations.StreamSends
  intro s a f t0 t c k fm n port fence used p rs first e chunk u c1 os sent after waits stream may
  have closed (h : port) : s.closeFull a k n t0 c = p := closeFull_of_port s a n t0 c h
  have whole (h : ¬ port) : p = (s, c) := if_neg (fun both => h both.1)
  refine ⟨fun h fits gone => ?_, fun h fits bound goesOn => ?_, fun h fits bound closes => ?_, fun outside same region => ?_,
    fun outside same queue room => ?_, fun full => ?_⟩
  · exact completes rfl (issue_from may (sendBody_of_unbound stream h fits (closed h) gone))
  · exact completes rfl (issue_from may (sendBody_of_port_open stream h fits (closed h) bound goesOn))
  · exact completes rfl (issue_send may (sendBody_of_port_close stream h fits (closed h) bound closes))
  · subst same
    clear_value p
    obtain rfl := whole outside
    exact completes rfl (issue_from may (sendBody_of_region stream outside region))
  · subst same
    clear_value p
    obtain rfl := whole outside
    exact completes rfl (issue_from may (sendBody_of_queue stream outside queue room))
  · exact completes rfl (issue_waits may (sendBody_of_no_room stream full))

end Sys2Proof.Machine
end

section
/-!
PROOFS. The head of the queue served, from its checks to its acceptance (R252 to R254), for the commands that run as collectives.
-/
namespace Sys2Proof.Machine
open Sys2Proof

/-! ### The head command (R252) -/

/-- The state in which the head of queue `q` is checked: the round robin of its priority goes on behind it (R252). -/
def State.serves (s : State) (q : Nat) : State := { s with cp.rr := s.cp.rr.wr (s.get (F.Q_CTL_prio q)) ((q + 1) % 64) }

section
variable {s : State} {c : Cmd}

/-- The head of the queue served enters phase 2, on the engines named where it uses engines. -/
theorem headOp_of_served {op : Nat} {q : Fin 64} {engs : List (Fin 128)} (head : (s.queue q).cmds.head? = some c) (kind : c.op = op)
    (served : s.served = some q.val) (engines : c.usesEngines = false ∨ engs ≠ []) :
    headOp op q engs s = s.phase2 q c (engs.map (·.val)) := by
  have runs : ¬ (c.op ≠ op ∨ s.served ≠ some q.val ∨ (c.usesEngines = true ∧ engs = [])) := by
    rintro (other | unserved | ⟨uses, unnamed⟩)
    · exact other kind
    · exact unserved served
    · exact engines.elim (fun noUse => Bool.false_ne_true (noUse.symm.trans uses)) (fun named => named unnamed)
  simp only [headOp, head, if_neg runs]

/-- A collective that passes every check of Table 08-1 is accepted (R253). -/
theorem phase2_of_passed {q : Nat} {engs : List Nat} (collective : c.isColl = true) (first : (s.serves q).firstCheck q c engs = none)
    (last : (s.serves q).lastCheck c = none) : s.phase2 q c engs = (s.serves q).accept q c engs [] := by
  simp only [State.serves] at first last
  simp only [State.phase2, first, last, collective, if_true, State.serves]

/-! ### Acceptance (R253) -/

/-- The ops of collectives are 0x01 to 0x0D (Table 08-3). -/
theorem isColl_iff : c.isColl = true ↔ 1 ≤ c.op ∧ c.op ≤ 0x0D := by simp [Cmd.isColl]

/-- A collective reads no payload from the staging area (row 3 of Table 08-1). -/
theorem opLoads_of_isColl (collective : c.isColl = true) : opLoads c.op = false := by
  obtain ⟨-, below⟩ := isColl_iff.mp collective
  simp only [opLoads, Bool.or_eq_false_iff, Bool.and_eq_false_iff, beq_eq_false_iff_ne, decide_eq_false_iff_not]
  omega

/-- What acceptance does for a command without a payload. -/
theorem accept_of_isColl (q : Nat) (engs : List Nat) (obj : List Byte) (collective : c.isColl = true) :
    s.accept q c engs obj =
      let r := s.reserveCmps c
      let k := { r.2.2.newColl q c engs with cmp := r.1, locks := r.2.1 }
      let v := (r.2.2.normOpen c k.step).noteAccept q c
      let v := if v.audHold then v.inc F.AUD_HOLD_COUNT_holds else v
      (((v.putQueue q { v.queue q with wait := some k, obj := obj }).bindStreams (waitOwner q) k).copyPrograms k).advance q := by
  simp only [State.accept, opLoads_of_isColl collective, Bool.false_eq_true, if_false]

end

/-! ### The commands that run as collectives -/

/-- Each command that runs as a collective, with its op and the engines it runs on (Table 08-3). -/
def collectiveRows (q : Fin 64) (engs : List (Fin 128)) : List (Instr × Nat × List (Fin 128)) :=
  [(.allreduce q engs, 0x01, engs), (.reduceScatter q engs, 0x02, engs), (.reduce q engs, 0x03, engs), (.allgather q engs, 0x04, engs),
    (.broadcast q engs, 0x05, engs), (.alltoall q engs, 0x06, engs), (.dispatch q engs, 0x07, engs), (.idxGather q engs, 0x08, engs),
    (.poolGather q engs, 0x09, engs), (.scatterAdd q engs, 0x0A, engs), (.barrier q, 0x0B, []), (.fusedUpdate q engs, 0x0C, engs),
    (.run q engs, 0x0D, engs)]

theorem exec_collectiveRows (s : State) (q : Fin 64) (engs : List (Fin 128)) :
    ∀ e ∈ collectiveRows q engs, exec e.1 s = done (headOp e.2.1 q e.2.2 s) := by
  simp only [collectiveRows, List.forall_mem_cons]
  exact ⟨rfl, rfl, rfl, rfl, rfl, rfl, rfl, rfl, rfl, rfl, rfl, rfl, rfl, List.forall_mem_nil _⟩

theorem op_collectiveRows (q : Fin 64) (engs : List (Fin 128)) : ∀ e ∈ collectiveRows q engs, 1 ≤ e.2.1 ∧ e.2.1 ≤ 0x0D := by
  simp [collectiveRows]

/-- Settles O40: the head is served, passes its checks and is accepted, and has no payload to lock. -/
theorem collectivesAccepted : Obligations.CollectivesAccepted := by
  unfold Obligations.CollectivesAccepted
  intro s q engs c u e row head kind served engines first last r k v v'
  have collective : c.isColl = true := isColl_iff.mpr (kind ▸ op_collectiveRows q engs e row)
  have run : exec e.1 s = done (headOp e.2.1 q e.2.2 s) := exec_collectiveRows s q engs e row
  refine completes run ?_
  calc headOp e.2.1 q e.2.2 s = s.phase2 q c (e.2.2.map (·.val)) := headOp_of_served head kind served engines
    _ = u.accept q c (e.2.2.map (·.val)) [] := phase2_of_passed collective first last
    _ = _ := accept_of_isColl q _ [] collective

end Sys2Proof.Machine
end

section
/-!
PROOFS. The words of the Sluice instructions (R165 to R169, R199): what a word's bits are, what the decoder reads in it, and the round trip.
-/
namespace Sys2Proof
open BitVec (extractLsb'_append_eq_of_le extractLsb'_append_eq_of_add_le)

/-! ### The bits of a word, with its width written as the sum of its fields' widths (Tables 06-1 and 07-1) -/

theorem LV.wordBits_word (op : BitVec 8) (f : LV) (lo n : Nat) :
    wordBits (f.word op) lo n =
      (op ++ f.vd ++ f.va ++ f.vb ++ f.vc ++ f.fmt ++ f.rnd ++ f.pg ++ f.bs ++ f.sx ++ f.ext).extractLsb' lo n := rfl

theorem LS.wordBits_word (op : BitVec 8) (f : LS) (lo n : Nat) :
    wordBits (f.word op) lo n =
      (op ++ f.sd ++ f.sa ++ f.sb ++ (0 : BitVec 12) ++ f.imm).extractLsb' lo n := rfl

theorem LC.wordBits_word (op : BitVec 8) (f : LC) (lo n : Nat) :
    wordBits (f.word op) lo n =
      (op ++ f.v ++ f.vb ++ (0 : BitVec 5) ++ f.region ++ (0 : BitVec 1) ++ f.fmt ++ f.rnd ++ f.pg ++ f.prod ++ f.sSlot ++ f.sAux ++
      f.stream ++ f.fold ++ f.clr ++ f.cnt).extractLsb' lo n := rfl

theorem LT.wordBits_word (op : BitVec 8) (f : LT) (lo n : Nat) :
    wordBits (f.word op) lo n =
      (op ++ f.v ++ f.stream ++ f.mode ++ f.lay ++ f.edge ++ f.wc ++ f.sd ++ f.fmt ++ f.rnd ++ (0 : BitVec 4) ++ f.sBase ++ f.sN ++
      (0 : BitVec 16)).extractLsb' lo n := rfl

theorem LG.wordBits_word (op : BitVec 8) (f : LG) (lo n : Nat) :
    wordBits (f.word op) lo n =
      (op ++ (0 : BitVec 5) ++ f.va ++ f.vb ++ f.tbl ++ f.shape ++ f.fmt ++ (0 : BitVec 3) ++ f.pg ++ (0 : BitVec 1) ++ f.sRow ++
      f.sCol ++ f.stream ++ (0 : BitVec 12)).extractLsb' lo n := rfl

theorem LK.wordBits_word (op : BitVec 8) (f : LK) (lo n : Nat) :
    wordBits (f.word op) lo n =
      (op ++ f.sd ++ f.sa ++ f.h ++ f.wc ++ f.fab ++ f.cond ++ (0 : BitVec 12) ++ f.p ++ (0 : BitVec 1) ++ f.imm).extractLsb' lo n := rfl

theorem LL.wordBits_word (op : BitVec 8) (f : LL) (lo n : Nat) :
    wordBits (f.word op) lo n =
      (op ++ f.trips ++ (0 : BitVec 12) ++ f.imm).extractLsb' lo n := rfl

/-! ### The opcode of a word (R165) -/

@[simp] theorem LV.opcode_word (op : BitVec 8) (f : LV) : wordBits (f.word op) 56 8 = op := by
  simp [-Nat.reduceAdd, LV.wordBits_word, extractLsb'_append_eq_of_le]

@[simp] theorem LS.opcode_word (op : BitVec 8) (f : LS) : wordBits (f.word op) 56 8 = op := by
  simp [-Nat.reduceAdd, LS.wordBits_word, extractLsb'_append_eq_of_le]

@[simp] theorem LC.opcode_word (op : BitVec 8) (f : LC) : wordBits (f.word op) 56 8 = op := by
  simp [-Nat.reduceAdd, LC.wordBits_word, extractLsb'_append_eq_of_le]

@[simp] theorem LT.opcode_word (op : BitVec 8) (f : LT) : wordBits (f.word op) 56 8 = op := by
  simp [-Nat.reduceAdd, LT.wordBits_word, extractLsb'_append_eq_of_le]

@[simp] theorem LG.opcode_word (op : BitVec 8) (f : LG) : wordBits (f.word op) 56 8 = op := by
  simp [-Nat.reduceAdd, LG.wordBits_word, extractLsb'_append_eq_of_le]

@[simp] theorem LK.opcode_word (op : BitVec 8) (f : LK) : wordBits (f.word op) 56 8 = op := by
  simp [-Nat.reduceAdd, LK.wordBits_word, extractLsb'_append_eq_of_le]

@[simp] theorem LL.opcode_word (op : BitVec 8) (f : LL) : wordBits (f.word op) 56 8 = op := by
  simp [-Nat.reduceAdd, LL.wordBits_word, extractLsb'_append_eq_of_le]

/-! ### Its fields -/

@[simp] theorem LV.ofWord_word (op : BitVec 8) (f : LV) : LV.ofWord (f.word op) = f := by
  simp [-Nat.reduceAdd, LV.ofWord, LV.wordBits_word, extractLsb'_append_eq_of_le, extractLsb'_append_eq_of_add_le]

@[simp] theorem LS.ofWord_word (op : BitVec 8) (f : LS) : LS.ofWord (f.word op) = f := by
  simp [-Nat.reduceAdd, LS.ofWord, LS.wordBits_word, extractLsb'_append_eq_of_le, extractLsb'_append_eq_of_add_le]

@[simp] theorem LC.ofWord_word (op : BitVec 8) (f : LC) : LC.ofWord (f.word op) = f := by
  simp [-Nat.reduceAdd, LC.ofWord, LC.wordBits_word, extractLsb'_append_eq_of_le, extractLsb'_append_eq_of_add_le]

@[simp] theorem LT.ofWord_word (op : BitVec 8) (f : LT) : LT.ofWord (f.word op) = f := by
  simp [-Nat.reduceAdd, LT.ofWord, LT.wordBits_word, extractLsb'_append_eq_of_le, extractLsb'_append_eq_of_add_le]

@[simp] theorem LG.ofWord_word (op : BitVec 8) (f : LG) : LG.ofWord (f.word op) = f := by
  simp [-Nat.reduceAdd, LG.ofWord, LG.wordBits_word, extractLsb'_append_eq_of_le, extractLsb'_append_eq_of_add_le]

@[simp] theorem LK.ofWord_word (op : BitVec 8) (f : LK) : LK.ofWord (f.word op) = f := by
  simp [-Nat.reduceAdd, LK.ofWord, LK.wordBits_word, extractLsb'_append_eq_of_le, extractLsb'_append_eq_of_add_le]

@[simp] theorem LL.ofWord_word (op : BitVec 8) (f : LL) : LL.ofWord (f.word op) = f := by
  simp [-Nat.reduceAdd, LL.ofWord, LL.wordBits_word, extractLsb'_append_eq_of_le, extractLsb'_append_eq_of_add_le]

/-! ### What the encoder and the decoder say of an instruction -/

/-- Instruction `i` issues at `a` under the opcode `op`, and the decoder reads the word `w` that encodes it, which begins with `op`, as `i`. -/
structure Instr.Spelled (i : Instr) (a : Site) (op : BitVec 8) (w : BitVec 64) : Prop where
  site : i.site = some a
  opcode : i.opcode = some op
  word : encodeSluice i = some w
  leads : wordBits w 56 8 = op
  read : readOpcode a w = some i

/-- Command `i` is none of the Sluice instructions. -/
structure Instr.Wordless (i : Instr) : Prop where
  site : i.site = none
  opcode : i.opcode = none
  word : encodeSluice i = none

/-- A Sluice instruction is read back from its word; no other command has one. -/
theorem Instr.spelled_or_wordless (i : Instr) : (∃ a op w, i.Spelled a op w) ∨ i.Wordless := by
  cases i with
  | vadd a f | vsub a f | vmul a f | vfma a f | vmax a f | vmin a f | vabs a f | vcvt a f | vcmp a f | vand a f | vor a f | vxor a f
  | vandn a f | vshl a f | vshr a f | vsra a f | vmov a f | vbcast a f | vlane a f | viota a f | plog a f | vsort a f | topk a f
  | mergek a f | vcompress a f | vexpand a f | vselect a f | spdec a f | spenc a f | prune a f | rngk a f =>
    exact .inl ⟨a, _, f.word _, rfl, rfl, rfl, LV.opcode_word _ f, by rw [readOpcode, LV.opcode_word, LV.ofWord_word]; rfl⟩
  | smovi a f | smovhi a f | sadd a f | saddi a f | ssub a f | smul a f | sand a f | sor a f | sxor a f | sshli a f | sshri a f =>
    exact .inl ⟨a, _, f.word _, rfl, rfl, rfl, LS.opcode_word _ f, by rw [readOpcode, LS.opcode_word, LS.ofWord_word]; rfl⟩
  | cacc a f | cmerge a f | crnd a f | cxport a f | cclr a f =>
    exact .inl ⟨a, _, f.word _, rfl, rfl, rfl, LC.opcode_word _ f, by rw [readOpcode, LC.opcode_word, LC.ofWord_word]; rfl⟩
  | srecv a f | ssend a f | speek a f =>
    exact .inl ⟨a, _, f.word _, rfl, rfl, rfl, LT.opcode_word _ f, by rw [readOpcode, LT.opcode_word, LT.ofWord_word]; rfl⟩
  | gath a f | scadd a f =>
    exact .inl ⟨a, _, f.word _, rfl, rfl, rfl, LG.opcode_word _ f, by rw [readOpcode, LG.opcode_word, LG.ofWord_word]; rfl⟩
  | waitev a f | sigev a f | fence a f | lock a f | brp a f | halt a f =>
    exact .inl ⟨a, _, f.word _, rfl, rfl, rfl, LK.opcode_word _ f, by rw [readOpcode, LK.opcode_word, LK.ofWord_word]; rfl⟩
  | loop a f =>
    exact .inl ⟨a, _, f.word _, rfl, rfl, rfl, LL.opcode_word _ f, by rw [readOpcode, LL.opcode_word, LL.ofWord_word]; rfl⟩
  | _ => exact .inr ⟨rfl, rfl, rfl⟩

/-- The decoder reads an instruction at the site it is asked for. -/
theorem site_of_readOpcode {a : Site} {w : BitVec 64} {i : Instr} (read : readOpcode a w = some i) : i.site = some a := by
  unfold readOpcode at read
  split at read <;> cases read <;> rfl

/-- The decoder answers what it reads in a word only where that encodes to the word: no reserved bit is dropped (R168). -/
theorem decodeSluice_eq_some_iff {a : Site} {w : BitVec 64} {i : Instr} :
    decodeSluice a w = some i ↔ readOpcode a w = some i ∧ encodeSluice i = some w := by
  rw [decodeSluice]
  cases readOpcode a w with
  | none => simp
  | some j =>
    by_cases same : encodeSluice j = some w
    · simp only [same, if_true, Option.some.injEq]
      exact ⟨fun read => ⟨read, read ▸ same⟩, And.left⟩
    · simp only [same, if_false, Option.some.injEq, reduceCtorEq, false_iff, not_and]
      exact fun read => read ▸ same

/-- The spelling of an instruction that has a word. -/
theorem Instr.spelled_of_encodeSluice {i : Instr} {w : BitVec 64} (word : encodeSluice i = some w) : ∃ a op, i.Spelled a op w := by
  obtain ⟨a, op, v, spelled⟩ | wordless := i.spelled_or_wordless
  · obtain rfl := Option.some.inj (spelled.word.symm.trans word)
    exact ⟨a, op, spelled⟩
  · exact absurd (wordless.word.symm.trans word) (Option.some_ne_none w).symm

/-- The round trip from an instruction to its word and back. -/
theorem decodeSluice_of_encodeSluice {i : Instr} {a : Site} {w : BitVec 64} (site : i.site = some a) (word : encodeSluice i = some w) :
    decodeSluice a w = some i := by
  obtain ⟨b, op, spelled⟩ := i.spelled_of_encodeSluice word
  obtain rfl := Option.some.inj (spelled.site.symm.trans site)
  exact decodeSluice_eq_some_iff.mpr ⟨spelled.read, word⟩

/-- Settles O4: every command is a Sluice instruction with its spelling, or has neither site, opcode nor word. -/
theorem roundTrip : Obligations.RoundTrip := by
  unfold Obligations.RoundTrip
  refine ⟨fun i a w => decodeSluice_of_encodeSluice, fun i a w decoded => ?_, fun i => ?_, fun i w word => ?_⟩
  · obtain ⟨read, word⟩ := decodeSluice_eq_some_iff.mp decoded
    exact ⟨site_of_readOpcode read, word⟩
  · obtain ⟨a, op, w, spelled⟩ | wordless := i.spelled_or_wordless
    · simp [spelled.site, spelled.opcode, spelled.word]
    · simp [wordless.site, wordless.opcode, wordless.word]
  · obtain ⟨a, op, spelled⟩ := i.spelled_of_encodeSluice word
    rw [spelled.opcode, ← spelled.leads, wordBits]

/-- A word whose opcode the decoder does not know is read as no instruction (R169). -/
theorem decodeSluice_append_of_reserved (a : Site) (op : BitVec 8) (low : BitVec 56) (reserved : op = 0x00 ∨ op = 0xFF) :
    decodeSluice a (op ++ low) = none := by
  have leads : wordBits (op ++ low) 56 8 = op := BitVec.extractLsb'_append_eq_left
  have unread : readOpcode a (op ++ low) = none := by
    obtain rfl | rfl := reserved <;> rw [readOpcode, leads] <;> rfl
  rw [decodeSluice, unread]

/-- Settles O3: the worked words are those of the encoder, so they are read back. -/
theorem instructionWords : Obligations.InstructionWords := by
  unfold Obligations.InstructionWords
  intro a low
  have back {i : Instr} {w : BitVec 64} (site : i.site = some a) (word : encodeSluice i = some w) :
      decodeSluice a w = some i ∧ encodeSluice i = some w := ⟨decodeSluice_of_encodeSluice site word, word⟩
  refine ⟨?_, decodeSluice_append_of_reserved a _ low (.inl rfl), decodeSluice_append_of_reserved a _ low (.inr rfl), rfl, ?_, rfl⟩
  · simp only [List.forall_mem_cons]
    exact ⟨back rfl rfl, back rfl rfl, back rfl rfl, back rfl rfl, back rfl rfl, back rfl rfl, List.forall_mem_nil _⟩
  · have loop : decodeSluice a 0x8000010000000000 = some (.loop a ⟨16, 0⟩) := decodeSluice_of_encodeSluice rfl rfl
    rw [loop]
    exact Option.some_ne_none _

end Sys2Proof
end

section
/-!
PROOFS. An instruction that changes its context alone and has no origins: it completes with that context at the next instruction.
-/
namespace Sys2Proof.Machine
open Sys2Proof

theorem issue_next {s : State} {a : Site} {w : BitVec 64} {fmt : Nat} {d : Dest} {body : State → Ctx → Act} {c : Ctx} (may : s.issues a w)
    (effect : body s (s.running a) = .next s c []) : issue a w fmt d body s = s.commits a c.onward :=
  issue_commits may effect

theorem next_completes {i : Instr} {s : State} {a : Site} {w : BitVec 64} {fmt : Nat} {d : Dest} {body : State → Ctx → Act} {c : Ctx}
    (run : exec i s = done (issue a w fmt d body s)) (may : s.issues a w) (effect : body s (s.running a) = .next s c []) :
    ∃ t, exec i s = .next t ∧ Settled (s.commits a c.onward) t :=
  completes run (issue_next may effect)

end Sys2Proof.Machine
end

section
/-!
PROOFS. The scalar instructions (R187, Table 06-8): a scalar holds its result modulo 2^64.
-/
namespace Sys2Proof.Machine
open Sys2Proof

/-- A scalar register holds 64 bits of the value written. -/
theorem Ctx.setSc_congr (c : Ctx) (i : Nat) {v w : Nat} (same : v % 2 ^ 64 = w % 2 ^ 64) : c.setSc i v = c.setSc i w := by
  rw [setSc, same, setSc]

/-! ### The operations of Table 06-8 -/

theorem simm_eq (f : LS) : simm f = f.imm.toNat + (if f.imm.toNat < 2 ^ 31 then 0 else 2 ^ 64 - 2 ^ 32) := by
  have narrow := f.imm.isLt
  rw [simm, uint, sint, Nat.mod_eq_of_lt narrow]
  split <;> omega

theorem catBits_eq (a b w : Nat) : catBits a b w = 2 ^ w * a + b % 2 ^ w := by
  rw [catBits, ← Nat.shiftLeft_add_eq_or_of_lt (Nat.mod_lt b (Nat.two_pow_pos w)), Nat.shiftLeft_eq, Nat.mul_comm]

/-- The difference is taken modulo 2^64 (R18). -/
theorem uint_sub_mod (x y : Nat) : uint 64 ((x : Int) - y) % 2 ^ 64 = (x + (2 ^ 64 - y % 2 ^ 64)) % 2 ^ 64 := by
  rw [uint]
  omega

/-! ### Completion -/

/-- A scalar instruction completes with a result that equals the body's modulo 2^64. -/
theorem scalar_completes {i : Instr} {s : State} {a : Site} {f : LS} {op : BitVec 8} {fn : Nat → Nat → Nat → Nat} {r : Nat}
    (run : exec i s = done (scalar a op f fn s))
    (result : fn ((s.running a).sc f.sa.toNat) ((s.running a).sc f.sb.toNat) ((s.running a).sc f.sd.toNat) % 2 ^ 64 = r % 2 ^ 64)
    (may : s.issues a (f.word op)) :
    ∃ t, exec i s = .next t ∧ Settled (s.commits a ((s.running a).setSc f.sd.toNat (r % 2 ^ 64)).onward) t := by
  rw [Ctx.setSc_congr _ _ ((Nat.mod_mod r _).trans result.symm)]
  exact next_completes run may rfl

/-- Settles O7: each instruction's operation is that of Table 06-8 modulo 2^64. -/
theorem scalarResults : Obligations.ScalarResults := by
  unfold Obligations.ScalarResults
  intro s a f c x y d imm n
  have amount : bits f.imm.toNat 0 6 = n := bits_zero_mod _ 6
  have signed : simm f = imm := simm_eq f
  simp only [List.forall_mem_cons]
  exact ⟨scalar_completes rfl (by rw [signed]),
    scalar_completes rfl (by rw [catBits_eq]),
    scalar_completes rfl rfl,
    scalar_completes rfl (by rw [signed]),
    scalar_completes rfl (uint_sub_mod x y),
    scalar_completes rfl rfl,
    scalar_completes rfl rfl,
    scalar_completes rfl rfl,
    scalar_completes rfl rfl,
    scalar_completes rfl (by rw [amount, Nat.shiftLeft_eq]),
    scalar_completes rfl (by rw [amount, Nat.shiftRight_eq_div_pow]),
    List.forall_mem_nil _⟩

end Sys2Proof.Machine
end

section
/-!
PROOFS. The vector instructions of chapter 6 (R173 to R186, R218): the elements, bits or scalar that each one writes.
-/
namespace Sys2Proof.Machine
open Sys2Proof

/-! ### Arithmetic (R178, R179) -/

/-- An arithmetic instruction completes with the unit's results on the enabled elements, and takes their origins. -/
theorem arith_completes {i : Instr} {s : State} {a : Site} {op : BitVec 8} {f : LV} (fn : Fmt → Nat → Nat → Lane → Lane → Lane → LaneRes)
    (run : exec i s = done (arith a op f fn s)) (may : s.issues a (f.word op)) :
    let c := s.running a
    let k := f.fmt.toNat
    let fm := s.fmt k
    let y := fun i => if f.bs.toNat = 1 then (⟨c.sc (f.vb.toNat % 16) % 2 ^ fm.width, false⟩ : Lane) else c.elem fm f.vb.toNat i
    let res := fun i =>
      if c.enabled f.pg.toNat k i then
        some (fn fm f.rnd.toNat (s.rndV c f i) (c.elem fm f.va.toNat i) (y i) (c.elem fm f.vc.toNat i))
      else none
    let c' := c.setReg f.vd.toNat (putElems fm (c.reg f.vd.toNat) (fun i => (res i).map LaneRes.lane))
    ∃ t, exec i s = .next t ∧ Settled ((s.commits a c'.onward).origins c.coll (originsOf c a op.toNat k res)) t :=
  completes run (issue_commits may rfl)

/-- Settles O8: each instruction is an arithmetic one with its unit's function. -/
theorem vectorArithmetic : Obligations.VectorArithmetic := by
  unfold Obligations.VectorArithmetic
  intro s a f c k fm
  simp only [List.forall_mem_cons]
  exact ⟨arith_completes (fun fm m r x y _ => laneAdd fm m r x y) rfl,
    arith_completes (fun fm m r x y _ => laneSub fm m r x y) rfl,
    arith_completes (fun fm m r x y _ => laneMul fm m r x y) rfl,
    arith_completes (fun fm m r x y z => laneFma fm m r x y z) rfl,
    arith_completes (fun fm _ _ x y _ => laneMaxMin fm true x y) rfl,
    arith_completes (fun fm _ _ x y _ => laneMaxMin fm false x y) rfl,
    arith_completes (fun fm _ _ x _ _ => laneAbs fm x) rfl,
    List.forall_mem_nil _⟩

/-! ### Bitwise and shift instructions (R183, R184) -/

/-- An amount of the width or more shifts every bit out to the left (R18). -/
theorem shl_mod (w x n : Nat) : shl w x n % 2 ^ w = x * 2 ^ n % 2 ^ w := by
  rw [shl]
  split
  · next far => rw [Nat.zero_mod, Nat.mod_eq_zero_of_dvd (Dvd.dvd.mul_left (Nat.pow_dvd_pow 2 far) x)]
  · rw [Nat.mod_mod, Nat.shiftLeft_eq]

/-- And to the right. -/
theorem shr_eq {w x : Nat} (fits : x < 2 ^ w) (n : Nat) : shr w x n = x / 2 ^ n := by
  rw [shr]
  split
  · next far => rw [Nat.div_eq_of_lt (fits.trans_le (Nat.pow_le_pow_right two_pos far))]
  · exact Nat.shiftRight_eq_div_pow x n

/-- A signed reading in `w` bits lies between -2^w and 2^w. -/
theorem sint_bounds (w x : Nat) : -(2 ^ w : Int) ≤ sint w x ∧ sint w x < 2 ^ w := by
  have low : ((x % 2 ^ w : Nat) : Int) < 2 ^ w := by exact_mod_cast Nat.mod_lt x (Nat.two_pow_pos w)
  rw [sint]
  push_cast at low ⊢
  split <;> omega

/-- A signed number between -b and b is 0 or -1 once divided by b or more: the sign alone is left. -/
theorem ediv_eq_of_bounds {m b c : Int} (above : -b ≤ m) (below : m < b) (more : b ≤ c) : m / c = m / b := by
  obtain sign | sign := Int.lt_or_le m 0
  · rw [Int.ediv_eq_neg_one_of_neg_of_le sign (by omega), Int.ediv_eq_neg_one_of_neg_of_le sign (by omega)]
  · rw [Int.ediv_eq_zero_of_lt sign (below.trans_le more), Int.ediv_eq_zero_of_lt sign below]

/-- An arithmetic shift is a division rounded down, for amounts of the width or more too (R18, R184). -/
theorem sra_eq (w x n : Nat) : sra w x n = uint w (sint w x / (2 : Int) ^ n) := by
  rw [sra, Int.shiftRight_eq_div_pow]
  push_cast
  obtain ⟨above, below⟩ := sint_bounds w x
  obtain near | far := Nat.le_total n w
  · rw [Nat.min_eq_left near]
  · rw [Nat.min_eq_right far, ediv_eq_of_bounds above below (pow_le_pow_right₀ one_le_two far)]

/-- Bitwise NOT in `w` bits. -/
theorem xor_ones_eq (w y : Nat) : y % 2 ^ w ^^^ (2 ^ w - 1) = 2 ^ w - 1 - y % 2 ^ w := by
  have low : y % 2 ^ w < 2 ^ w := Nat.mod_lt y (Nat.two_pow_pos w)
  refine Nat.eq_of_testBit_eq fun i => ?_
  rw [Nat.sub_sub, Nat.add_comm 1, Nat.testBit_two_pow_sub_succ low, Nat.testBit_xor, Nat.testBit_two_pow_sub_one]
  by_cases inside : i < w <;> simp [inside]

/-- A bitwise or shift instruction completes with the values of a function that equals its own modulo 2^W. -/
theorem raw_completes {i : Instr} {s : State} {a : Site} {op : BitVec 8} {f : LV} {two : Bool} (fn : Nat → Nat → Nat → Nat)
    (g : Nat → Nat → Nat) (run : exec i s = done (raw a op f two fn s))
    (value : ∀ x y, x < 2 ^ rawWidth f.fmt.toNat →
      fn (rawWidth f.fmt.toNat) x y % 2 ^ rawWidth f.fmt.toNat = g x y % 2 ^ rawWidth f.fmt.toNat) (may : s.issues a (f.word op)) :
    let c := s.running a
    let k := f.fmt.toNat
    let w := rawWidth k
    let res := fun i =>
      if c.enabled f.pg.toNat k i then
        let x := rawElem k (c.reg f.va.toNat) i
        let y := c.rawB (s.fmt k) f.vb.toNat f.bs.toNat i
        some (⟨g (x.bits % 2 ^ w) y.bits % 2 ^ w, x.pois || (two && y.pois)⟩ : Lane)
      else none
    ∃ t, exec i s = .next t ∧ Settled (s.commits a (c.setReg f.vd.toNat (putRaw k (c.reg f.vd.toNat) res)).onward) t := by
  have low (x : Nat) : x % 2 ^ rawWidth f.fmt.toNat < 2 ^ rawWidth f.fmt.toNat := Nat.mod_lt x (Nat.two_pow_pos _)
  refine completes run ((issue_commits may rfl).trans ?_)
  simp only [value _ _ (low _)]
  rfl

/-- Settles O9: each function's values are those of R183 and R184 modulo 2^W. -/
theorem bitwiseAndShift : Obligations.BitwiseAndShift := by
  unfold Obligations.BitwiseAndShift
  intro s a f c k w isel amt
  simp only [List.forall_mem_cons]
  exact ⟨raw_completes (fun _ x y => x &&& y) (fun x y => x &&& y) rfl fun _ _ _ => rfl,
    raw_completes (fun _ x y => x ||| y) (fun x y => x ||| y) rfl fun _ _ _ => rfl,
    raw_completes (fun _ x y => x ^^^ y) (fun x y => x ^^^ y) rfl fun _ _ _ => rfl,
    raw_completes (fun w x y => x &&& (y % 2 ^ w ^^^ (2 ^ w - 1))) (fun x y => x &&& (2 ^ w - 1 - y % 2 ^ w)) rfl fun x y _ => by
      rw [xor_ones_eq]; rfl,
    raw_completes (fun w x y => shl w x (amt y)) (fun x y => x * 2 ^ amt y) rfl fun x y _ => shl_mod w x (amt y),
    raw_completes (fun w x y => shr w x (amt y)) (fun x y => x / 2 ^ amt y) rfl fun x y fits => by rw [shr_eq fits],
    raw_completes (fun w x y => sra w x (amt y)) (fun x y => uint w (sint w x / (2 : Int) ^ amt y)) rfl fun x y _ => by
      rw [sra_eq]; rfl, List.forall_mem_nil _⟩

/-! ### Moves and conversion (R180, R181, R185, R218) -/

/-- The half of the source register as a condition on the destination element (R181). -/
theorem cvtSrc_eq (src dst half j : Nat) :
    cvtSrc src dst half j =
      if is64 src = is64 dst then some j
      else if is64 dst then some (64 * half + j)
      else if j / 64 = half then some (j - 64 * half) else none := by
  have inHalf : (64 * half ≤ j ∧ j < 64 * half + 64) ↔ j / 64 = half := by omega
  simp only [cvtSrc, inHalf]

/-- VCVT completes with the converted elements, and takes their origins. -/
theorem vcvt_completes {s : State} {a : Site} {f : LV} (may : s.issues a (f.word 0x17)) :
    let c := s.running a
    let res := cvtRes s c f
    let c' := c.setReg f.vd.toNat (putElems (s.fmt (cvtDst f)) (c.reg f.vd.toNat) (fun i => (res i).map LaneRes.lane))
    ∃ t, exec (.vcvt a f) s = .next t ∧ Settled ((s.commits a c'.onward).origins c.coll (originsOf c a 0x17 (cvtDst f) res)) t :=
  completes rfl (issue_commits may rfl)

/-- VIOTA's stride is the low half of the word's ext field (Table 06-3). -/
theorem iotaBody_eq (f : LV) (s : State) (c : Ctx) :
    iotaBody f s c = .next s (c.setReg f.vd.toNat (putElems (builtinFmt 13) (c.reg f.vd.toNat) (fun i =>
      if c.enabled f.pg.toNat 13 i then
        some ⟨uint 32 ((c.sc (f.va.toNat % 16) % 2 ^ 32 : Nat) + (i : Int) * sint 16 (f.ext.toNat % 2 ^ 16)), false⟩
      else none))) [] := by
  rw [iotaBody, bits_zero_mod]

/-- Settles O10: each body writes the elements its rule names, and VCVT takes the origins of its results. -/
theorem movesAndConversion : Obligations.MovesAndConversion := by
  unfold Obligations.MovesAndConversion
  intro s a f c k fm on y iota puts
  refine ⟨?_, fun may => ?_⟩
  · simp only [List.forall_mem_cons]
    exact ⟨fun may => next_completes rfl may rfl, fun may => next_completes rfl may rfl, fun may => next_completes rfl may (iotaBody_eq f s c),
      fun may => next_completes rfl may rfl, List.forall_mem_nil _⟩
  · intro dst half src res
    have same : res = cvtRes s c f := funext fun j => by rw [cvtRes, cvtSrc_eq]; rfl
    rw [same]
    exact vcvt_completes may

/-! ### Predicates and lanes (R182, R185, R186) -/

/-- The bits set one after another in a number. -/
theorem testBit_foldl_or (l : List Nat) (x j : Nat) :
    (l.foldl (fun a i => a ||| 1 <<< i) x).testBit j = (x.testBit j || decide (j ∈ l)) := by
  induction l generalizing x with
  | nil => simp
  | cons i l ih =>
    rw [List.foldl_cons, ih, Nat.testBit_or, Nat.shiftLeft_eq, Nat.one_mul, Nat.testBit_two_pow]
    by_cases same : i = j
    · simp [same]
    · simp [same, Ne.symm same]

/-- A predicate that an element's bit is put to, or that keeps its own. -/
theorem bit_putBits (k old : Nat) (new : Nat → Option Bool) {j : Nat} (inside : j < 128) :
    bit (putBits k old new) j = (new (if is64 k then j / 2 else j)).getD (bit old j) := by
  rw [bit, putBits, testBit_foldl_or, Nat.zero_testBit, Bool.false_or]
  cases put : new (if is64 k then j / 2 else j) with
  | none => simp [inside, put]
  | some b => simp [inside, put]

/-- VCMP's bits: the relation where the element is enabled, else what the predicate held. -/
theorem bit_cmp (s : State) (c : Ctx) (f : LV) (old : Nat) {j : Nat} (inside : j < 128) :
    bit (putBits f.fmt.toNat old (cmpBits s c f)) j =
      let k := f.fmt.toNat
      let fm := s.fmt k
      let i := if is64 k then j / 2 else j
      if c.enabled f.pg.toNat k i then
        relHolds (bits f.ext.toNat 17 3) (cmpElems fm (c.elem fm f.va.toNat i) (c.operandB fm f.vb.toNat f.bs.toNat i))
      else bit old j := by
  rw [bit_putBits _ _ _ inside]
  simp only [cmpBits]
  split_ifs <;> rfl

/-- Each function of PLOG on one bit (Table 06-3). -/
theorem bit_plogFunc (func x y : Nat) {j : Nat} (inside : j < 128) (known : func < 4) :
    bit (plogFunc func x y) j =
      (if func = 0 then bit x j && bit y j else if func = 1 then bit x j || bit y j
        else if func = 2 then bit x j != bit y j else bit x j && !bit y j) := by
  have one : allOnes.testBit j = true := by rw [allOnes, Nat.testBit_two_pow_sub_one, decide_eq_true inside]
  obtain rfl | rfl | rfl | rfl : func = 0 ∨ func = 1 ∨ func = 2 ∨ func = 3 := by omega
  · exact Nat.testBit_and x y j
  · exact Nat.testBit_or x y j
  · exact Nat.testBit_xor x y j
  · change (x &&& (y ^^^ allOnes)).testBit j = (x.testBit j && !y.testBit j)
    rw [Nat.testBit_and, Nat.testBit_xor, one, Bool.xor_true]

/-- Settles O11: the predicates' bits are those of R182 and R186, and the scalar is the element of R185. -/
theorem predicatesAndLanes : Obligations.PredicatesAndLanes := by
  unfold Obligations.PredicatesAndLanes
  intro s a f c k fm y rel pd pa pb func el
  refine ⟨fun may => ?_, fun may => ?_, fun may => ?_⟩
  · obtain ⟨t, run, settled⟩ := next_completes (i := .vcmp a f) rfl may rfl
    exact ⟨t, _, run, settled, fun j => bit_cmp s c f _⟩
  · obtain ⟨t, run, settled⟩ := next_completes (i := .plog a f) rfl may rfl
    refine ⟨t, _, run, settled, fun j inside => ?_⟩
    rw [bits_zero_mod]
    exact bit_plogFunc func pa pb inside (Nat.mod_lt _ four_pos)
  · refine next_completes rfl may ?_
    rw [vlaneBody, bits_zero_mod]
    rfl

end Sys2Proof.Machine
end

section
/-!
PROOFS. CMERGE and CXPORT (R193, R194, R196, R613): the items merged one by one, the slots' records sent in slot order, and where they wait.
-/
namespace Sys2Proof.Machine
open Sys2Proof

/-! ### CMERGE (R193) -/

theorem storeEcc_of_quiet {s : State} {a : Site} (quiet : a.hw = .none) : s.storeEcc a = s := by rw [State.storeEcc, quiet]

/-- No lane fails where no error is. -/
theorem bit_zero (i : Nat) : bit 0 i = false := Nat.zero_testBit i

/-- A fold whose second part stands still. -/
theorem foldl_prodMk_left {α β γ : Type} (g : α → γ → α) (l : List γ) (x : α) (y : β) :
    l.foldl (fun st p => (g st.1 p, st.2)) (x, y) = (l.foldl g x, y) := by
  induction l generalizing x with
  | nil => rfl
  | cons p l ih => exact ih (g x p)

/-- A context that has taken `m` bytes of stream `k`, from a port those of chunk `chunk`. -/
def Ctx.merges (c : Ctx) (k m chunk : Nat) : Ctx :=
  { c with pos := c.pos.wr k (c.pos.rd k + m), chunk := if k < 4 then chunk else c.chunk, elemIx := if k < 4 then 0 else c.elemIx }

/-- In an exact region an item is a record that merges into its slot (R96). -/
def mergeRecord (a : Site) (c : Ctx) (f : LC) (x : Exact) (base : Nat) (u : State) (p : (Rec × Bool) × Nat) : State :=
  mergeOne a c x f.region.toNat u (base + p.2) p.2 p.1.1 p.1.2

/-- In an ordered region an item is a leaf of its slot, within the expected count (R99, R192). -/
def mergeLeaf (a : Site) (c : Ctx) (f : LC) (r : Region) (x : Exact) (base : Nat) (u : State × List Origin) (p : (Rec × Bool) × Nat) :
    State × List Origin :=
  let key := slotOf a c f.region.toNat (base + p.2)
  if u.1.passes c (stackLeaves (u.1.slotRd key).stack) 1 then (u.1.overCount c 4, u.2)
  else
    let q := u.1.leafPush key c.chunk (x == .c2176) p.1.1.val
    (q.2, u.2 ++ List.replicate q.1 (c.origin a 0x41 r.fmt p.2 p.2 ⟨0, false, 1, 1⟩))

section
variable {s : State} {a : Site} {c : Ctx} {f : LC} {r : Region} {x : Exact} {got : Option (List (Rec × Bool) × Strm × Nat × Nat)}
  (region : s.region c.owner (a.eng / 8) f.region.toNat = r) (format : Exact.ofIdx r.fmt = x)
  (read : s.mergeItems a c f.stream.toNat x r.ordered (f.cnt.toNat + 1) (if x = .c2176 then 8 else 4) = got)
include region format read

/-- While the stream does not hold its items, CMERGE waits. -/
theorem mergeBody_of_none (missing : got = none) : mergeBody a f 0 s c = .wait 3 := by
  simp only [mergeBody, region, format, beq_iff_eq, read, missing]

variable {items : List (Rec × Bool)} {t : Strm} {m chunk : Nat} (quiet : a.hw = .none) (found : got = some (items, t, m, chunk))
include quiet found

/-- In an exact region the items merge into the slots one by one. -/
theorem mergeBody_of_unordered (unordered : r.ordered = false) :
    mergeBody a f 0 s c =
      let base := c.sc f.sSlot.toNat
      let c' := c.merges f.stream.toNat m chunk
      .next ((items.zipIdx).foldl (mergeRecord a c' f x base)
        ((s.visits a c f.region.toNat base (f.cnt.toNat + 1)).putStrm a.eng f.stream.toNat t)) c' [] := by
  simp only [mergeBody, region, format, beq_iff_eq, read, found, columnCheck_of_quiet quiet, slotEcc_of_quiet quiet, storeEcc_of_quiet quiet]
  simp only [unordered, bit_zero, Bool.or_self, Bool.false_eq_true, if_false]
  exact congrArg (fun u : State × List Origin => Act.next u.1 (c.merges f.stream.toNat m chunk) u.2)
    (foldl_prodMk_left (mergeRecord a (c.merges f.stream.toNat m chunk) f x (c.sc f.sSlot.toNat)) items.zipIdx _ [])

/-- In an ordered region they become leaves. -/
theorem mergeBody_of_ordered (ordered : r.ordered = true) :
    mergeBody a f 0 s c =
      let base := c.sc f.sSlot.toNat
      let c' := c.merges f.stream.toNat m chunk
      let u := (items.zipIdx).foldl (mergeLeaf a c' f r x base)
        ((s.visits a c f.region.toNat base (f.cnt.toNat + 1)).putStrm a.eng f.stream.toNat t, [])
      .next u.1 c' u.2 := by
  simp only [mergeBody, region, format, beq_iff_eq, read, found, columnCheck_of_quiet quiet, slotEcc_of_quiet quiet, storeEcc_of_quiet quiet]
  simp only [ordered, bit_zero, Bool.or_self, Bool.false_eq_true, if_false, if_true]
  rfl

end

/-! ### CXPORT (R194) -/

/-- The most bytes that a CXPORT sends at once. -/
def exportMost (f : LC) (r : Region) (x : Exact) : Nat :=
  (f.cnt.toNat + 1) * (if r.ordered then (if x = .c2176 then 8 else 4) else 8 * x.fullLen)

/-- What CXPORT makes of its slots in state `h`: the state with the slots written and counted, the bytes in slot order and the origins (R194). -/
def State.exportItems (h : State) (a : Site) (c : Ctx) (f : LC) (r : Region) : State × List Byte × List Origin :=
  (List.range (f.cnt.toNat + 1)).foldl (exportOne a c f r (f.clr == 1) 0) (h, [], [])

/-- An output port whose open chunk has taken the records of a CXPORT, and its FIFO their credit (R146). -/
def Strm.takesItems (t : Strm) (n : Nat) (data : List Byte) : Strm :=
  { t with out := t.out ++ data, outUp := true, outRecs := t.outRecs + n, level := t.level + credit data.length }

/-- Does the open chunk of an engine's port hold the engine's share of the records? -/
def State.shareFull (s : State) (x : Option Nat) (eng : Nat) (t : Strm) : Bool :=
  match x.bind s.coll with
  | some q => decide (t.outRecs ≥ s.shareOf q eng t.outIdx)
  | none => false

section
variable {s : State} {a : Site} {c : Ctx} {f : LC} {r : Region} {x : Exact} {t : Strm}
  (region : s.region c.owner (a.eng / 8) f.region.toNat = r) (stream : s.strm a.eng f.stream.toNat = some t)
include region stream

theorem exportBody_of_not_ready
    (ready : s.slotsReady a c r f.region.toNat ((List.range (f.cnt.toNat + 1)).map (c.sc f.sSlot.toNat + ·)) = false) :
    exportBody a f 0 s c = .wait 2 := by
  simp only [exportBody, stream, region, ready, Bool.not_false, if_true]

variable (format : Exact.ofIdx r.fmt = x)
  (ready : s.slotsReady a c r f.region.toNat ((List.range (f.cnt.toNat + 1)).map (c.sc f.sSlot.toNat + ·)) = true)
include format ready

/-- Without credit in its port, or room in its queue, CXPORT waits (R146, R194). -/
theorem exportBody_of_no_room
    (full : (f.stream.toNat < 8 ∧ t.level + credit (exportMost f r x) > 16384) ∨
      (8 ≤ f.stream.toNat ∧ t.mode = 3 ∧ t.out.length + exportMost f r x > t.cap)) :
    exportBody a f 0 s c = .wait 3 := by
  simp only [exportMost] at full
  simp only [exportBody, stream, region, format, ready, Bool.not_true, Bool.false_eq_true, if_false]
  obtain noCredit | ⟨outside, noRoom⟩ := full
  · rw [if_pos noCredit]
  · rw [if_neg (fun port => Nat.not_lt.mpr outside port.1), if_pos ⟨outside, noRoom⟩]

variable (quiet : a.hw = .none) {h : State} (moved : s.visits a c f.region.toNat (c.sc f.sSlot.toNat) (f.cnt.toNat + 1) = h)
include quiet moved

/-- The records go to the open chunk of the port, which leaves once it holds the engine's share, and the FENCE flag with it (R194, R232). -/
theorem exportBody_of_port (port : f.stream.toNat < 8) (fits : t.level + credit (exportMost f r x) ≤ 16384) :
    exportBody a f 0 s c =
      let k := f.stream.toNat
      let e := h.exportItems a c f r
      let c1 := c.advanced k e.2.1.length
      let u := t.takesItems (f.cnt.toNat + 1) e.2.1
      if e.1.shareFull c.coll a.eng u then .send (e.1.putStrm a.eng k (u.close (c.fenced k))) (c1.unfence k).onward e.2.2 t.coll
      else .next (e.1.putStrm a.eng k u) c1 e.2.2 := by
  simp only [exportMost] at fits
  simp only [exportBody, stream, region, format, ready, moved, slotEcc_of_quiet quiet, port, Nat.not_lt.mpr fits, Nat.not_le.mpr port,
    gt_iff_lt, ge_iff_le, and_false, false_and, Bool.not_true, Bool.false_eq_true, if_false, if_true]
  rfl

/-- The bytes go to the store region, from the position the stream had. -/
theorem exportBody_of_region (outside : 8 ≤ f.stream.toNat) (inStore : t.mode = 2) :
    exportBody a f 0 s c =
      let k := f.stream.toNat
      let e := h.exportItems a c f r
      .next (e.1.regionWr a.eng t (c.pos.rd k) e.2.1) (c.advanced k e.2.1.length) e.2.2 := by
  simp only [exportBody, stream, region, format, ready, moved, slotEcc_of_quiet quiet, Nat.not_lt.mpr outside, inStore,
    Nat.reduceEqDiff, gt_iff_lt, and_false, false_and, Bool.not_true, Bool.false_eq_true, if_false, if_true]
  rfl

/-- The bytes go to the flume queue, and the operation stays open. -/
theorem exportBody_of_queue (outside : 8 ≤ f.stream.toNat) (queue : t.mode = 3) (room : t.out.length + exportMost f r x ≤ t.cap) :
    exportBody a f 0 s c =
      let k := f.stream.toNat
      let e := h.exportItems a c f r
      .next (e.1.putStrm a.eng k { t with out := t.out ++ e.2.1, wops := t.wops ++ [(c.issued, e.2.1.length)] })
        { c.advanced k e.2.1.length with open_ := c.open_ ++ [c.issued] } e.2.2 := by
  simp only [exportMost] at room
  simp only [exportBody, stream, region, format, ready, moved, slotEcc_of_quiet quiet, Nat.not_lt.mpr outside, Nat.not_lt.mpr room, queue,
    gt_iff_lt, and_false, false_and, Bool.not_true, Bool.false_eq_true, if_false]
  rfl

end

/-- Settles O18: the body waits, or merges its items, or sends the slots' records to its port, region or queue, and what it does commits. -/
theorem cisternMergeExport : Obligations.CisternMergeExport := by
  unfold Obligations.CisternMergeExport
  intro s a f t0 t1 items m chunk c k base r x n h got most ready e c1 waits
  refine ⟨fun may found unordered => ?_, fun may found ordered => ?_, fun may missing => ?_, fun may stream unready => ?_,
    fun may stream isReady full => ?_, fun may stream isReady port fits => ?_, fun may stream isReady outside inStore => ?_,
    fun may stream isReady outside queue room => ?_⟩
  · exact completes rfl (issue_from may (mergeBody_of_unordered rfl rfl rfl may.2 found unordered))
  · exact completes rfl (issue_from may (mergeBody_of_ordered rfl rfl rfl may.2 found ordered))
  · exact completes rfl (issue_waits may (mergeBody_of_none rfl rfl rfl missing))
  · exact completes rfl (issue_waits may (exportBody_of_not_ready rfl stream unready))
  · exact completes rfl (issue_waits may (exportBody_of_no_room rfl stream rfl isReady full))
  · have body := exportBody_of_port rfl stream rfl isReady may.2 rfl port fits
    refine ⟨fun goesOn => ?_, fun closes => ?_⟩
    · exact completes rfl (issue_from may (body.trans (if_neg (Bool.eq_false_iff.mp goesOn))))
    · exact completes rfl (issue_send may (body.trans (if_pos closes)))
  · exact completes rfl (issue_from may (exportBody_of_region rfl stream rfl isReady may.2 rfl outside inStore))
  · exact completes rfl (issue_from may (exportBody_of_queue rfl stream rfl isReady may.2 rfl outside queue room))

end Sys2Proof.Machine
end

section
/-!
PROOFS. What an instruction that commits leaves alone: a residue event it ends (R154) moves no context and no stream.
-/
namespace Sys2Proof.Machine
open Sys2Proof

/-! ### A residue event (R154) -/

/-- `t` has the engines of `s` but for which of them retire. -/
def SameEngines (s t : State) : Prop := t.eng = { s.eng with retiring := t.eng.retiring }

namespace SameEngines

variable {s t u : State}

theorem refl (s : State) : SameEngines s s := rfl

theorem of_eng (same : t.eng = s.eng) : SameEngines s t := by rw [SameEngines, same]

theorem of_noted (h : Noted s t) : SameEngines s t := of_eng h.eng

theorem trans (h : SameEngines s t) (k : SameEngines t u) : SameEngines s u := by
  rw [SameEngines, k, h]

theorem ite (p : Prop) [Decidable p] (yes : SameEngines s t) (no : SameEngines s u) : SameEngines s (if p then t else u) := by
  split
  · exact yes
  · exact no

theorem ctxAt (h : SameEngines s t) (e x : Nat) : t.ctxAt e x = s.ctxAt e x := by
  rw [State.ctxAt, State.ctxOf, h, State.ctxAt, State.ctxOf]

theorem strm (h : SameEngines s t) (e n : Nat) : t.strm e n = s.strm e n := by
  rw [State.strm, h, State.strm]

theorem journalPut (s : State) (kind sub unit temp mv sig detail : Nat) : SameEngines s (s.journalPut kind sub unit temp mv sig detail) :=
  .ite _ (of_eng rfl) (.ite _ (of_eng rfl) (of_eng rfl))

theorem degrade (s : State) (kind phys cluster col : Nat) : SameEngines s (s.degrade kind phys cluster col) := by
  unfold State.degrade
  extract_lets noted marked
  have toMarked : SameEngines s marked := .ite _ (of_eng rfl) (of_eng rfl)
  exact toMarked.trans (of_noted ((Noted.set _ _ _).trans (.faultReport _ _ _ _ _)))

/-- A residue event counts, records, reports and journals; of the engines it can only let one retire. -/
theorem residue (s : State) (x : Option Nat) (kind phys logical cluster col outcome sig chunk : Nat) :
    SameEngines s (s.residue x kind phys logical cluster col outcome sig chunk) := by
  unfold State.residue
  extract_lets die unit r noted pending third retire id counted recorded told written judged engines retired
  have toCounted : SameEngines s counted := .ite _ (of_eng rfl) (of_eng rfl)
  have toTold : SameEngines counted told :=
    .of_noted (.ite _ ((Noted.inc _ _ _).trans (.trapNotice _ _ _ _ _ _ _))
      (((Noted.sets _ _).trans (.inc _ _ _)).trans (.trapNotice _ _ _ _ _ _ _)))
  have toWritten : SameEngines told written := .journalPut _ _ _ _ _ _ _ _
  have toJudged : SameEngines written judged :=
    .ite _ (of_eng ((State.bitEvent_eng _ _ _).trans ((Noted.inc _ _ _).trans (.faultReport _ _ _ _ _)).eng))
      (.ite _ (.refl _) (.of_noted (.pert _ _ _)))
  have toRetired : SameEngines judged retired := .ite _ rfl (.refl judged)
  exact (toCounted.trans (toTold.trans (toWritten.trans toJudged))).trans
    (.ite _ (toRetired.trans (.journalPut _ _ _ _ _ _ _ _)) (.ite _ (.degrade _ _ _ _ _) (.refl judged)))

end SameEngines

/-! ### What stands after an instruction has committed -/

/-- The context that an instruction leaves once it has committed `c` (R142): its loops and program counter, and no check failed. -/
def Ctx.committed (c : Ctx) : Ctx :=
  { c with loops := (wrapLoops c.loops c.pc).1, pc := (wrapLoops c.loops c.pc).2, issued := c.issued + 1, tries := 0, failed := 0 }

namespace State

variable (s : State) (a : Site) (c : Ctx)

@[simp] theorem ctxAt_commits : (s.commits a c).ctxAt a.eng a.ctx = c.committed := by
  rw [commits]
  split
  · exact ctxAt_putCtx_self _ _ _ _
  · exact ((SameEngines.residue _ _ _ _ _ _ _ _ _ _).ctxAt _ _).trans (ctxAt_putCtx_self _ _ _ _)

@[simp] theorem strm_commits (e n : Nat) : (s.commits a c).strm e n = s.strm e n := by
  rw [commits]
  split
  · rfl
  · exact (SameEngines.residue _ _ _ _ _ _ _ _ _ _).strm _ _

end State

end Sys2Proof.Machine
end

section
/-!
PROOFS. VSORT, TOPK, MERGEK, VCOMPRESS and VEXPAND (R212 to R214, R216, R217): one compare-exchange stage, the best entries, the moved elements.
-/
namespace Sys2Proof.Machine
open Sys2Proof

/-! ### A compare-exchange stage (R212) -/

/-- A field of one bit holds 1 where the bit is set. -/
theorem bits_one_beq_one (x lo : Nat) : (bits x lo 1 == 1) = bit x lo := by
  rw [bits, bit, Nat.pow_one, Nat.shiftRight_eq_div_pow, Nat.testBit_eq_decide_div_mod_eq]
  rfl

section
variable (fm : Fmt) (sk : Nat) {j i desc : Nat} (e : Nat → Entry) (lower : bit i j = false)
include lower

/-- The partner of a place whose bit `j` is clear has that bit set. -/
theorem bit_partner : bit (i + 2 ^ j) j = true := by
  simp only [bit] at lower ⊢
  rw [Nat.add_comm, Nat.testBit_two_pow_add_eq, lower, Bool.not_false]

/-- A place and its partner are ordered ascending where bit `sk` of the lower equals the direction, else descending. -/
theorem sortStage_pair {down : Bool} (direction : (desc == 1) = down) :
    let p := i + 2 ^ j
    let lo := if sortBefore fm (e p) (e i) then e p else e i
    let hi := if sortBefore fm (e p) (e i) then e i else e p
    let out := sortStage fm sk j desc e
    if bit i sk = down then out i = lo ∧ out p = hi else out i = hi ∧ out p = lo := by
  have segment : (i >>> sk % 2 == 0) = !bit i sk := by
    rw [← bits_one_beq_one]
    obtain even | odd := Nat.mod_two_eq_zero_or_one (i >>> sk)
    · simp [bits, even]
    · simp [bits, odd]
  simp only [sortStage, lower, bit_partner lower, Nat.add_sub_cancel, if_true, Bool.false_eq_true, if_false, segment, direction]
  cases bit i sk <;> cases down <;> simp

end

/-! ### Elements moved (R216, R217) -/

section
variable (c : Ctx) (pg k : Nat)

theorem mem_enabledList {i : Nat} : i ∈ c.enabledList pg k ↔ i < nElems k ∧ c.enabled pg k i = true := by
  simp only [Ctx.enabledList, List.mem_filter, List.mem_range]

/-- An enabled element stands once in the list of the enabled elements. -/
theorem findIdx_enabledList {m i : Nat} (place : (c.enabledList pg k)[m]? = some i) : (c.enabledList pg k).findIdx (· == i) = m := by
  have once : (c.enabledList pg k).Nodup := List.nodup_range.filter _
  obtain ⟨inside, rfl⟩ := List.getElem?_eq_some_iff.mp place
  exact once.idxOf_getElem m inside

end

/-- VCOMPRESS's elements: the enabled ones from place 0 up, +0 behind them. -/
theorem compressBody_eq (f : LV) (s : State) (c : Ctx) :
    compressBody f s c =
      let fm := s.fmt f.fmt.toNat
      let on := c.enabledList f.pg.toNat f.fmt.toNat
      .next s ((c.setReg f.vd.toNat (putElems fm (c.reg f.vd.toNat) (fun m =>
        some (match on[m]? with
          | some i => c.elem fm f.va.toNat i
          | none => ⟨0, false⟩)))).setSc (filterSd f) on.length) [] := by
  have element (o : Option Nat) (g : Nat → Lane) :
      (o.map g).getD ⟨0, false⟩ = match o with
        | some i => g i
        | none => ⟨0, false⟩ := by cases o <;> rfl
  simp only [compressBody, element]

/-- Settles O12: VSORT's stage orders each pair of places, TOPK and MERGEK keep the best of their candidates, and the filters move the enabled elements. -/
theorem sortAndFilter : Obligations.SortAndFilter := by
  unfold Obligations.SortAndFilter
  intro s a f c k fm on old sk j desc n best sd
  refine ⟨fun may => ?_, fun may => ?_, fun may => ?_, fun may => ?_, fun may => ?_⟩
  · obtain ⟨t, run, settled⟩ := next_completes (i := .vsort a f) rfl may rfl
    exact ⟨t, _, run, settled, fun i _ lower => sortStage_pair fm sk old lower (bits_one_beq_one _ 13)⟩
  · exact next_completes rfl may rfl
  · exact next_completes rfl may rfl
  · exact next_completes rfl may (compressBody_eq f s c)
  · obtain ⟨t, run, settled⟩ := next_completes (i := .vexpand a f) rfl may rfl
    refine ⟨t, _, run, settled, fun m i place => ?_, fun i _ off => ?_⟩
    · have enabled := ((mem_enabledList c _ _).mp (List.mem_of_getElem? place)).2
      rw [if_pos enabled, findIdx_enabledList c _ _ place]
    · exact if_neg (Bool.eq_false_iff.mp off)

end Sys2Proof.Machine
end

section
/-!
PROOFS. SPDEC, SPENC and PRUNE (R219 to R222): the 64 groups of a block, their positions and value slots, and the traps of those that fail.
-/
namespace Sys2Proof.Machine
open Sys2Proof

/-! ### Lists over the groups of a block -/

section
variable {α : Type} {m : Nat}

/-- Entry `q` of a list over the first `m` numbers. -/
theorem getD_map_range (h : Nat → α) (d : α) {q : Nat} (inside : q < m) : ((List.range m).map h).getD q d = h q := by
  simp [List.getD, inside]

theorem zipIdx_map_range (h : Nat → α) : ((List.range m).map h).zipIdx = (List.range m).map (fun q => (h q, q)) := by
  refine List.ext_getElem (by simp) fun i _ _ => ?_
  simp

/-- Lists of one length, one behind the other: entry `j` lies in list j / n, at place j mod n. -/
theorem getElem?_flatMap_range (h : Nat → List α) {n : Nat} (length : ∀ q, (h q).length = n) (j : Nat) :
    ((List.range m).flatMap h)[j]? = if j < m * n then (h (j / n))[j % n]? else none := by
  induction m with
  | zero => simp
  | succ m ih =>
    have first : ((List.range m).flatMap h).length = m * n := by simp [List.length_flatMap, length]
    rw [List.range_succ, List.flatMap_append, List.flatMap_singleton, List.getElem?_append, first, ih, Nat.succ_mul]
    obtain below | above := Nat.lt_or_ge j (m * n)
    · rw [if_pos below, if_pos below, if_pos (Nat.lt_add_right n below)]
    · rw [if_neg (Nat.not_lt.mpr above)]
      split
      · next inside =>
        have place : j / n = m := Nat.div_eq_of_lt_le above (by rwa [Nat.succ_mul])
        rw [place, Nat.mod_eq_sub_mul_div, place, Nat.mul_comm]
      · next outside => exact List.getElem?_eq_none (by rw [length]; omega)

end

/-- The elements written to a register are those of its 128 places. -/
theorem putElems_congr {fm : Fmt} (old : List Lane) {new new' : Nat → Option Lane} (same : ∀ i < 128, new i = new' i) :
    putElems fm old new = putElems fm old new' := by
  simp only [putElems]
  split
  · refine List.map_congr_left fun j mem => ?_
    have inside := List.mem_range.mp mem
    rw [same (j / 2) (by omega)]
  · refine List.map_congr_left fun j mem => ?_
    rw [same j (List.mem_range.mp mem)]

/-! ### Successive registers -/

/-- A context whose `n` vector registers from `v` on are written. -/
def Ctx.fillRegs (c : Ctx) (v n : Nat) (l : Nat → List Lane) : Ctx := (List.range n).foldl (fun c r => c.setReg (v + r) (l r)) c

section
variable (c : Ctx) (v n : Nat) (l : Nat → List Lane)

theorem Ctx.fillRegs_succ : c.fillRegs v (n + 1) l = (c.fillRegs v n l).setReg (v + n) (l n) := by
  simp only [fillRegs, List.range_succ, List.foldl_append, List.foldl_cons, List.foldl_nil]

/-- Only vector registers are written. -/
theorem Ctx.fillRegs_rest : c.fillRegs v n l = { c with v := (c.fillRegs v n l).v } := by
  induction n with
  | zero => rfl
  | succ n ih => rw [fillRegs_succ, setReg, ih]

theorem Ctx.coll_fillRegs : (c.fillRegs v n l).coll = c.coll := by rw [fillRegs_rest]

/-- A register that is none of them keeps its lanes. -/
theorem Ctx.reg_fillRegs_of_ne {x : Nat} (other : ∀ r < n, x % 32 ≠ (v + r) % 32) : (c.fillRegs v n l).reg x = c.reg x := by
  induction n with
  | zero => rfl
  | succ n ih =>
    rw [fillRegs_succ, reg_setReg_of_ne _ _ (other n (Nat.lt_succ_self n)), ih fun r below => other r (Nat.lt_succ_of_lt below)]

/-- Each of up to 32 registers holds its lanes. -/
theorem Ctx.reg_fillRegs {n : Nat} (few : n ≤ 32) {r : Nat} (inside : r < n) : (c.fillRegs v n l).reg (v + r) = l r := by
  induction n with
  | zero => exact absurd inside (Nat.not_lt_zero r)
  | succ n ih =>
    rw [fillRegs_succ]
    obtain rfl | below := Nat.eq_or_lt_of_le (Nat.le_of_lt_succ inside)
    · exact reg_setReg_self _ _ _
    · rw [reg_setReg_of_ne _ _ (by omega), ih (Nat.le_of_succ_le few) below]

end

/-! ### SPDEC (R220) -/

/-- The dense registers hold the positions of the 64 groups of a block. -/
theorem mul_denseRegs (lay : Nat) : 128 * denseRegs lay = 64 * layG lay := by
  rw [denseRegs, layG]
  split <;> rfl

theorem denseRegs_le (lay : Nat) : denseRegs lay ≤ 32 := by
  rw [denseRegs, layG]
  split <;> decide

/-- The failed groups of a block: their codes, numbers and maps. -/
def failedGroups (code map : Nat → Nat) : List BadGroup :=
  (List.range 64).filterMap (fun q => if code q = 0 then none else some ⟨code q, q, map q, 0⟩)

/-- The trap code of group `q` of SPDEC's block: none where the metadata marks the group (R220). -/
def decCode (f : LV) (c : Ctx) (q : Nat) : Nat :=
  let m := c.reg (f.va.toNat + 1)
  if metaBad m q then 0
  else groupCheck (spLay f) (metaMap (spLay f) m q) (c.sc (spBase f) + layG (spLay f) * q) (c.sc (spLen f)) none

/-- The map, the trap code and the mark of each group of SPDEC's block. -/
def decInfo (f : LV) (c : Ctx) : List (Nat × Nat × Bool) :=
  (List.range 64).map (fun q => (metaMap (spLay f) (c.reg (f.va.toNat + 1)) q, decCode f c q, metaBad (c.reg (f.va.toNat + 1)) q))

/-- Position `j` of SPDEC's block. -/
def decDense (f : LV) (fm : Fmt) (c : Ctx) (j : Nat) : Lane :=
  let g := layG (spLay f)
  let p := (decInfo f c).getD (j / g) (0, 0, false)
  decPos fm (layN (spLay f)) p.1 p.2.1 p.2.2 (c.elem fm f.va.toNat) (j / g) (j % g)

/-- The lanes of dense register `r`. -/
def decReg (f : LV) (fm : Fmt) (c : Ctx) (r : Nat) : List Lane := putElems fm zeroReg (fun i => some (decDense f fm c (128 * r + i)))

section
variable (f : LV) (c : Ctx)

theorem spdecBody_eq (a : Site) (s : State) :
    spdecBody a f s c =
      let fm := s.fmt f.fmt.toNat
      let g := layG (spLay f)
      let u := s.blockTraps a c 0x60 f (failedGroups (decCode f c) (metaMap (spLay f) (c.reg (f.va.toNat + 1))))
        (fun q => (List.range g).map (g * q + ·))
      .next u.1 (c.fillRegs f.vd.toNat (denseRegs (spLay f)) (decReg f fm c)) u.2 := by
  have failed : failedGroups (decCode f c) (metaMap (spLay f) (c.reg (f.va.toNat + 1))) =
      (decInfo f c).zipIdx.filterMap (fun p => if p.1.2.1 = 0 then none else some ⟨p.1.2.1, p.2, p.1.1, 0⟩) := by
    rw [decInfo, zipIdx_map_range, List.filterMap_map]
    rfl
  rw [failed]
  rfl

/-- A position within the 64 groups is that of its group. -/
theorem decDense_eq (fm : Fmt) {j : Nat} (inside : j < 64 * layG (spLay f)) :
    decDense f fm c j =
      let g := layG (spLay f)
      let q := j / g
      let m := c.reg (f.va.toNat + 1)
      decPos fm (layN (spLay f)) (metaMap (spLay f) m q) (decCode f c q) (metaBad m q) (c.elem fm f.va.toNat) q (j % g) := by
  have group : j / layG (spLay f) < 64 := Nat.div_lt_of_lt_mul (by rwa [Nat.mul_comm])
  simp only [decDense, decInfo, getD_map_range _ _ group]

end

/-! ### SPENC (R221) -/

section
variable (f : LV) (fm : Fmt) (c : Ctx)

/-- Position `i` of group `q` of the dense registers. -/
def denseAt (q i : Nat) : Lane :=
  c.elem fm (f.va.toNat + (layG (spLay f) * q + i) / 128) ((layG (spLay f) * q + i) % 128)

/-- The map of group `q`: the mask's, or that of the nonzero positions (R221). -/
def encMap (q : Nat) : Nat :=
  if spMsk f then metaMap (spLay f) (c.reg f.vb.toNat) q
  else nonzeroMap fm (layG (spLay f)) (c.sc (spBase f) + layG (spLay f) * q) (c.sc (spLen f)) (denseAt f fm c q)

/-- Group `q` encoded. -/
def encAt (q : Nat) : Nat × Nat × List Lane :=
  encGroup fm (spLay f) (encMap f fm c q) (c.sc (spBase f) + layG (spLay f) * q) (c.sc (spLen f)) (denseAt f fm c q)

/-- The trap code of group `q`. -/
def encCode (q : Nat) : Nat :=
  groupCheck (spLay f) (encMap f fm c q) (c.sc (spBase f) + layG (spLay f) * q) (c.sc (spLen f)) none

/-- Value slot `j` of the block: its group's kept position, +0, or the group's poison. -/
def encValue (j : Nat) : Lane :=
  let q := j / layN (spLay f)
  if encCode f fm c q ≠ 0 then ⟨(slotPoison fm false (encCode f fm c q)).bits, (slotPoison fm false (encCode f fm c q)).pois⟩
  else match (bitList (encMap f fm c q) (layG (spLay f)))[j % layN (spLay f)]? with
    | some i => denseAt f fm c q i
    | none => ⟨0, false⟩

/-- The map that group `q` keeps. -/
def encKept (q : Nat) : Nat :=
  if encCode f fm c q ≠ 0 then badMap (spLay f) (encMap f fm c q) (c.sc (spBase f) + layG (spLay f) * q) (c.sc (spLen f)) else encMap f fm c q

theorem encAt_of_failed {q : Nat} (failed : encCode f fm c q ≠ 0) :
    encAt f fm c q = (encKept f fm c q, encCode f fm c q, List.replicate (layN (spLay f))
      ⟨(slotPoison fm false (encCode f fm c q)).bits, (slotPoison fm false (encCode f fm c q)).pois⟩) := by
  rw [encKept, if_pos failed]
  exact if_pos failed

theorem encAt_of_sound {q : Nat} (sound : encCode f fm c q = 0) :
    encAt f fm c q = (encKept f fm c q, encCode f fm c q, (List.range (layN (spLay f))).map (fun j =>
      ((bitList (encMap f fm c q) (layG (spLay f)))[j]?.map (denseAt f fm c q)).getD ⟨0, false⟩)) := by
  rw [encKept, if_neg (not_not.mpr sound), sound]
  exact if_neg (not_not.mpr sound)

theorem encAt_map (q : Nat) : (encAt f fm c q).1 = encKept f fm c q := by
  obtain sound | failed := eq_or_ne (encCode f fm c q) 0
  · rw [encAt_of_sound f fm c sound]
  · rw [encAt_of_failed f fm c failed]

theorem encAt_code (q : Nat) : (encAt f fm c q).2.1 = encCode f fm c q := by
  obtain sound | failed := eq_or_ne (encCode f fm c q) 0
  · rw [encAt_of_sound f fm c sound]
  · rw [encAt_of_failed f fm c failed]

theorem length_encAt (q : Nat) : (encAt f fm c q).2.2.length = layN (spLay f) := by
  obtain sound | failed := eq_or_ne (encCode f fm c q) 0
  · rw [encAt_of_sound f fm c sound, List.length_map, List.length_range]
  · rw [encAt_of_failed f fm c failed, List.length_replicate]

theorem getElem?_encAt (j : Nat) (positive : 0 < layN (spLay f)) :
    (encAt f fm c (j / layN (spLay f))).2.2[j % layN (spLay f)]? = some (encValue f fm c j) := by
  have place : j % layN (spLay f) < layN (spLay f) := Nat.mod_lt j positive
  rw [encValue]
  obtain sound | failed := eq_or_ne (encCode f fm c (j / layN (spLay f))) 0
  · rw [encAt_of_sound f fm c sound, if_neg (not_not.mpr sound), List.getElem?_map, List.getElem?_range place, Option.map_some]
    cases (bitList (encMap f fm c (j / layN (spLay f))) (layG (spLay f)))[j % layN (spLay f)]? <;> rfl
  · rw [encAt_of_failed f fm c failed, if_pos failed, List.getElem?_replicate, if_pos place]

/-- The value slots from place 0 up. -/
theorem getElem?_encSlots (j : Nat) :
    (((List.range 64).flatMap (fun q => (encAt f fm c q).2.2))[j]?).getD ⟨0, false⟩ =
      if j < 64 * layN (spLay f) then encValue f fm c j else ⟨0, false⟩ := by
  have positive : 0 < layN (spLay f) := by rw [layN]; split <;> decide
  rw [getElem?_flatMap_range _ (length_encAt f fm c)]
  split
  · rw [getElem?_encAt f fm c j positive, Option.getD_some]
  · rfl

theorem spencBody_eq (a : Site) (s : State) (format : s.fmt f.fmt.toNat = fm) :
    spencBody a f s c =
      let n := layN (spLay f)
      let u := s.blockTraps a c 0x61 f (failedGroups (encCode f fm c) (encMap f fm c)) (fun q => (List.range n).map (n * q + ·))
      .next u.1 ((c.setReg f.vd.toNat (putElems fm zeroReg (fun j => some (if j < 64 * n then encValue f fm c j else ⟨0, false⟩)))).setReg
        (f.vd.toNat + 1) (metaReg (spLay f) ((List.range 64).map (encKept f fm c)) ((List.range 64).map (fun q => encCode f fm c q != 0)))) u.2 := by
  have groups : spencBody a f s c =
      let n := layN (spLay f)
      let groups := (List.range 64).map (fun q => (encMap f fm c q, encAt f fm c q))
      let u := s.blockTraps a c 0x61 f
        (groups.zipIdx.filterMap (fun p => if p.1.2.2.1 = 0 then none else some (⟨p.1.2.2.1, p.2, p.1.1, 0⟩ : BadGroup)))
        (fun q => (List.range n).map (n * q + ·))
      .next u.1 ((c.setReg f.vd.toNat (putElems fm zeroReg (fun j => some (((groups.flatMap (fun p => p.2.2.2))[j]?).getD ⟨0, false⟩)))).setReg
        (f.vd.toNat + 1) (metaReg (spLay f) (groups.map (fun p => p.2.1)) (groups.map (fun p => p.2.2.1 != 0)))) u.2 := by
    subst format
    rfl
  rw [groups]
  simp only [zipIdx_map_range, List.filterMap_map, List.flatMap_map, List.map_map, Function.comp_def, getElem?_encSlots, encAt_map, encAt_code, failedGroups]

end

/-- The traps of a block's failed groups end no collective. -/
theorem outlives_blockTraps (s : State) (a : Site) (c : Ctx) (op : Nat) (f : LV) (bad : List BadGroup) (lanes : Nat → List Nat) (x : Option Nat) :
    s.outlives (s.blockTraps a c op f bad lanes).1 x = true :=
  outlives_of_cp (Noted.sparseTraps _ _ _ _ _ _ _ _ _ _).cp x

/-- SPDEC completes with the dense registers, and takes the traps and origins of the failed groups. -/
theorem spdec_completes {s : State} {a : Site} {f : LV} (may : s.issues a (f.word 0x60)) :
    let c := s.running a
    let g := layG (spLay f)
    let u := s.blockTraps a c 0x60 f (failedGroups (decCode f c) (metaMap (spLay f) (c.reg (f.va.toNat + 1))))
      (fun q => (List.range g).map (g * q + ·))
    let c' := c.fillRegs f.vd.toNat (denseRegs (spLay f)) (decReg f (s.fmt f.fmt.toNat) c)
    ∃ t, exec (.spdec a f) s = .next t ∧ Settled ((u.1.commits a c'.onward).origins c.coll u.2) t := by
  intro c g u c'
  rw [← Ctx.coll_fillRegs c f.vd.toNat (denseRegs (spLay f)) (decReg f (s.fmt f.fmt.toNat) c)]
  exact completes rfl (issue_go may (spdecBody_eq f c a s) (outlives_blockTraps _ _ _ _ _ _ _ _))

/-- Settles O13: the bodies of SPDEC and SPENC trap the failed groups and write their registers, and PRUNE writes its maps. -/
theorem sparseInstructions : Obligations.SparseInstructions := by
  unfold Obligations.SparseInstructions
  intro s a f c fm lay g n base len
  refine ⟨fun may => ?_, fun may => ?_, fun may => ?_⟩
  · intro m code slot dense bad u
    obtain ⟨t, run, settled⟩ := spdec_completes may
    refine ⟨t, c.fillRegs f.vd.toNat (denseRegs lay) (decReg f fm c), run, settled, Ctx.fillRegs_rest _ _ _ _, fun r inside => ?_,
      fun x others => ?_⟩
    · rw [Ctx.reg_fillRegs _ _ _ (denseRegs_le lay) inside]
      refine putElems_congr _ fun i below => congrArg some (decDense_eq f c fm ?_)
      rw [← mul_denseRegs lay]
      omega
    · exact Ctx.reg_fillRegs_of_ne _ _ _ _ others
  · exact completes rfl (issue_go may (spencBody_eq f fm c a s rfl) (outlives_blockTraps _ _ _ _ _ _ _ _))
  · exact next_completes rfl may rfl

end Sys2Proof.Machine
end

section
/-!
PROOFS. SRECV and SPEEK (R202 to R207): what is taken from the stream, the registers and status it becomes, and what a SPEEK leaves alone.
-/
namespace Sys2Proof.Machine
open Sys2Proof

/-! ### What a read delivers -/

/-- What the bytes that a read took become in the mode of stream `t` (R203, R205, R206). -/
def State.received (s : State) (c : Ctx) (f : LT) (t : Strm) (g : Got) : Decoded :=
  let base := c.sc f.sBase.toNat
  decodeGot (s.fmt f.fmt.toNat) t g base (c.sc f.sN.toNat) (s.maskOf c.coll f.stream.toNat t.lay base)

/-- The status scalar of a read (R202), and the state once it is known. -/
def State.recvStatusOf (s : State) (c : Ctx) (f : LT) (t : Strm) (g : Got) : Nat × State :=
  recvStatus s f.stream.toNat (s.received c f t g).count g

/-- The context with the registers of a read, and its status where the word asks for it. -/
def State.recvCtx (s : State) (c : Ctx) (f : LT) (t : Strm) (g : Got) : Ctx :=
  if f.wc = 1 then (c.setRegs f.v.toNat (s.received c f t g).regs).setSc f.sd.toNat (s.recvStatusOf c f t g).1
  else c.setRegs f.v.toNat (s.received c f t g).regs

/-- The state once the status of a read is known, where the word asks for it. -/
def State.recvState (s : State) (c : Ctx) (f : LT) (t : Strm) (g : Got) : State :=
  if f.wc = 1 then (s.recvStatusOf c f t g).2 else s

/-- The context of an SRECV: its position advances, and at an input port it stands at an element of the chunk. -/
def State.recvOnward (s : State) (c : Ctx) (f : LT) (t : Strm) (g : Got) : Ctx :=
  let c2 := (s.recvCtx c f t g).advanced f.stream.toNat g.bytes.length
  if f.stream.toNat < 4 then { c2 with chunk := g.chunk, elemIx := elemAtOff (s.fmt f.fmt.toNat) t g.off } else c2

/-- The port that the bytes of a read came from, 0xFF for none. -/
def Got.port (g : Got) : Nat := (g.from_.map (·.2)).getD 0xFF

/-- The state once the stream stands behind the bytes of an SRECV, and the skipped bytes, infinities, blocks and failed groups are counted and
trapped. -/
def State.recvTraps (s : State) (a : Site) (c : Ctx) (f : LT) (t : Strm) (g : Got) (behind : Strm) (skipped : List Seg) : State :=
  let d := s.received c f t g
  let u := (((s.recvState c f t g).putStrm a.eng f.stream.toNat behind).skipSegs skipped).inc F.MX_INF_COUNT_mxinf d.inf
  let u := if t.smode = 3 ∧ d.count > 0 then u.inc F.SPT_BLOCK_COUNT_blocks else u
  u.sparseTraps c.coll g.chunk g.port a.eng a.ctx f.fmt.toNat t.lay t.mx d.bad

section
variable (s : State) (a : Site) (c : Ctx) (f : LT) (t : Strm) (g : Got)

/-- The status of a read can use a free value, and nothing else. -/
theorem recvState_rest : s.recvState c f t g = { s with fresh := (s.recvState c f t g).fresh } := by
  simp only [State.recvState, State.recvStatusOf, recvStatus]
  split_ifs
  · rfl
  · split <;> rfl
  · rfl

theorem noted_skipSegs (l : List Seg) : Noted s (s.skipSegs l) :=
  .foldl _ (fun _ _ => .ite _ (.refl _) ((Noted.inc _ _ _).trans (.spill _ _ _))) l s

/-- Neither the counts nor the traps of an SRECV end a collective. -/
theorem cp_recvTraps (behind : Strm) (skipped : List Seg) : (s.recvTraps a c f t g behind skipped).cp = s.cp := by
  have counted := ((noted_skipSegs ((s.recvState c f t g).putStrm a.eng f.stream.toNat behind) skipped).trans
    (.inc _ F.MX_INF_COUNT_mxinf (s.received c f t g).inf)).trans
    (.ite (t.smode = 3 ∧ (s.received c f t g).count > 0) (.inc _ F.SPT_BLOCK_COUNT_blocks 1) (.refl _))
  have trapped := counted.trans (.sparseTraps _ c.coll g.chunk g.port a.eng a.ctx f.fmt.toNat t.lay t.mx (s.received c f t g).bad)
  refine trapped.cp.trans ?_
  rw [State.putStrm_cp, recvState_rest]

end

/-- A read moves no context to another collective. -/
theorem coll_recvOnward (s : State) (c : Ctx) (f : LT) (t : Strm) (g : Got) : (s.recvOnward c f t g).coll = c.coll := by
  have written (l : List (List Lane × Nat)) : (l.foldl (fun c p => c.setReg (f.v.toNat + p.2) p.1) c).coll = c.coll :=
    List.foldlRecOn (motive := fun u : Ctx => u.coll = c.coll) _ _ rfl (fun _ same _ _ => same)
  have read : (s.recvCtx c f t g).coll = c.coll := by
    rw [State.recvCtx]
    split <;> exact written _
  simp only [State.recvOnward]
  split <;> exact read

/-! ### The bodies -/

section
variable {s : State} {a : Site} {f : LT} {c : Ctx} {t0 : Strm} (stream : s.strm a.eng f.stream.toNat = some t0) (quiet : a.hw = .none)
include stream quiet

/-- SRECV waits while its stream has not the data, or while it would open a chunk and every window holds one (R35, R202). -/
theorem recvBody_of_missing
    (missing : (f.edge = 1 ∧ s.windowFull a c = true) ∨
      s.take a.eng c f.stream.toNat (s.sendMost f t0) (f.edge == 1) none = none) : recvBody a f false s c = .wait 3 := by
  simp only [State.sendMost] at missing
  simp only [recvBody, stream, quiet, Hw.badWord, Bool.not_false, Bool.true_and, Bool.and_eq_true, beq_iff_eq]
  obtain full | empty := missing
  · rw [if_pos full]
  · rw [empty, ite_self]

theorem peekBody_of_missing (missing : s.take a.eng c f.stream.toNat (s.sendMost f t0) false none = none) : recvBody a f true s c = .wait 3 := by
  simp only [State.sendMost] at missing
  simp only [recvBody, stream, quiet, Hw.badWord, Bool.not_true, Bool.false_and, Bool.false_eq_true, if_false, missing]

variable {g : Got} {t1 : Strm} {skipped : List Seg}

theorem recvBody_of_taken (shut : ¬ (f.edge = 1 ∧ s.windowFull a c = true))
    (taken : s.take a.eng c f.stream.toNat (s.sendMost f t0) (f.edge == 1) none = some (g, t1, skipped)) :
    recvBody a f false s c =
      .next (s.recvTraps a c f t0 g t1 skipped) (s.recvOnward c f t0 g)
        (laneOrigins a 0x01 f.fmt.toNat g.port g.chunk (elemAtOff (s.fmt f.fmt.toNat) t0 g.off) false (s.received c f t0 g).os) := by
  simp only [State.sendMost] at taken
  simp only [recvBody, stream, quiet, Hw.badWord, Bool.not_false, Bool.true_and, Bool.and_eq_true, beq_iff_eq, if_neg shut, taken,
    storeEcc_of_quiet quiet, Bool.false_eq_true, if_false]
  rfl

theorem peekBody_of_taken (taken : s.take a.eng c f.stream.toNat (s.sendMost f t0) false none = some (g, t1, skipped)) :
    recvBody a f true s c = .next (s.recvState c f t0 g) (s.recvCtx c f t0 g) [] := by
  simp only [State.sendMost] at taken
  simp only [recvBody, stream, quiet, Hw.badWord, Bool.not_true, Bool.false_and, Bool.false_eq_true, if_false, taken, if_true]
  rfl

end

/-! ### Completion -/

section
variable {s : State} {a : Site} {f : LT} {t0 t1 : Strm} {g : Got} {skipped : List Seg} (stream : s.strm a.eng f.stream.toNat = some t0)
include stream

/-- SRECV completes behind its bytes. -/
theorem srecv_completes (may : s.issues a (f.word 0x01)) (shut : ¬ (f.edge = 1 ∧ s.windowFull a (s.running a) = true))
    (taken : s.take a.eng (s.running a) f.stream.toNat (s.sendMost f t0) (f.edge == 1) none = some (g, t1, skipped)) :
    let c := s.running a
    ∃ t, exec (.srecv a f) s = .next t ∧
      Settled (((s.recvTraps a c f t0 g t1 skipped).commits a (s.recvOnward c f t0 g).onward).origins c.coll
        (laneOrigins a 0x01 f.fmt.toNat g.port g.chunk (elemAtOff (s.fmt f.fmt.toNat) t0 g.off) false (s.received c f t0 g).os)) t := by
  intro c
  rw [← coll_recvOnward s c f t0 g]
  exact completes rfl (issue_go may (recvBody_of_taken stream may.2 shut taken) (outlives_of_cp (cp_recvTraps _ _ _ _ _ _ _ _) _))

/-- SPEEK completes with the registers and status alone: every stream of the engine stands where it stood. -/
theorem speek_completes (may : s.issues a (f.word 0x03))
    (taken : s.take a.eng (s.running a) f.stream.toNat (s.sendMost f t0) false none = some (g, t1, skipped)) :
    let c := s.running a
    ∃ t, exec (.speek a f) s = .next t ∧ Settled ((s.recvState c f t0 g).commits a (s.recvCtx c f t0 g).onward) t ∧
      ∀ x, t.strm a.eng x = s.strm a.eng x := by
  intro c
  have stands : (s.recvState c f t0 g).cp = s.cp := by rw [recvState_rest]
  obtain ⟨t, run, settled⟩ := completes (i := .speek a f) rfl (issue_go may (peekBody_of_taken stream may.2 taken) (outlives_of_cp stands _))
  refine ⟨t, run, settled, fun x => ?_⟩
  rw [settled.strm, origins_nil, State.strm_commits, recvState_rest]
  rfl

end

/-- Settles O14: each body waits, or delivers what it took, and an SRECV stands behind it. -/
theorem streamReads : Obligations.StreamReads := by
  unfold Obligations.StreamReads
  intro s a f t0 t1 g skipped c k fm n base d st w c1 opens stream
  refine ⟨fun may missing => ?_, fun may shut taken => ?_, fun may missing => ?_, fun may taken => ?_⟩
  · exact completes rfl (issue_waits may (recvBody_of_missing stream may.2 missing))
  · exact srecv_completes stream may shut taken
  · exact completes rfl (issue_waits may (peekBody_of_missing stream may.2 missing))
  · exact speek_completes stream may taken

end Sys2Proof.Machine
end

section
/-!
PROOFS. GATH, SCADD and RNGK (R224 to R228, R457 to R462): the requests made lane by lane, and what an index outside the table leaves alone.
-/
namespace Sys2Proof.Machine
open Sys2Proof

/-! ### An index outside the table (R459) -/

/-- `t` is `s` but for registers and what has left the block, and its format descriptors are those of `s`. -/
structure Told (s t : State) : Prop where
  rest : t = { s with regs := t.regs, out := t.out }
  fmt  : ∀ i < 32, t.fmt i = s.fmt i

namespace Told

variable {s t u : State}

theorem refl (s : State) : Told s s := ⟨rfl, fun _ _ => rfl⟩

theorem trans (h : Told s t) (k : Told t u) : Told s u :=
  ⟨by rw [k.rest, h.rest], fun i inside => (k.fmt i inside).trans (h.fmt i inside)⟩

theorem eng (h : Told s t) : t.eng = s.eng := by rw [h.rest]
theorem cp (h : Told s t) : t.cp = s.cp := by rw [h.rest]

theorem set (s : State) {f : Fld} (v : Nat) (above : R.FMT_DESC 32 ≤ f.reg) : Told s (s.set f v) := by
  refine ⟨rfl, fun i inside => ?_⟩
  have outside : R.FMT_DESC i ≠ f.reg := by
    simp only [R.FMT_DESC] at above ⊢
    omega
  rw [State.fmt, State.word_set_of_ne _ _ _ outside, State.fmt]

theorem inc (s : State) {f : Fld} (n : Nat) (above : R.FMT_DESC 32 ≤ f.reg) : Told s (s.inc f n) := set s _ above

theorem sets (l : List (Fld × Nat)) (above : ∀ p ∈ l, R.FMT_DESC 32 ≤ p.1.reg) (s : State) : Told s (s.sets l) := by
  induction l generalizing s with
  | nil => exact refl s
  | cons p l ih =>
    obtain ⟨first, rest⟩ := List.forall_mem_cons.mp above
    exact (set s p.2 first).trans (ih rest _)

theorem send (s : State) (d c n : Nat) (l : List (Nat × Nat × Nat)) : Told s (s.send d c n l) := ⟨rfl, fun _ _ => rfl⟩

theorem trapNotice (s : State) (code coll chunk seq turn unit : Nat) : Told s (s.trapNotice code coll chunk seq turn unit) := by
  simp only [State.trapNotice, State.sendWm]
  split
  · exact send _ _ _ _ _
  · exact (send _ _ _ _ _).trans (send _ _ _ _ _)

/-- An index outside the table is counted, recorded unless a record is pending, and notified. -/
theorem gatherIndex (s : State) (x : Option Nat) (chunk index eng lane handle op : Nat) (pois : Bool) :
    Told s (s.gatherIndex x chunk index eng lane handle op pois) := by
  have counted : Told s (s.inc F.GIX_COUNT_count) := inc s 1 (by decide)
  simp only [State.gatherIndex]
  split
  · exact (counted.trans (inc _ 1 (by decide))).trans (trapNotice _ _ _ _ _ _ _)
  · refine ((counted.trans (sets _ ?_ _)).trans (inc _ 1 (by decide))).trans (trapNotice _ _ _ _ _ _ _)
    simp only [List.forall_mem_cons, List.not_mem_nil, false_implies, implies_true, and_true]
    decide

end Told

/-! ### GATH (R225, R226) -/

section
variable {a : Site} {f : LG} {s : State} {c : Ctx} {t0 : Strm} {tb : TableRec}

/-- A request of a row ends no collective. -/
theorem cp_gathOne (st : State × List (Byte × Bool) × List Nat) (i : Nat) : (gathOne a c f tb st i).1.cp = st.1.cp := by
  simp only [gathOne]
  split
  · exact (Told.gatherIndex _ _ _ _ _ _ _ _ _).cp
  · rfl

theorem cp_lookAhead (rows : List Nat) : (s.lookAhead tb rows).cp = s.cp := by
  rw [State.lookAhead]
  split
  · rfl
  · refine List.foldlRecOn (motive := fun u : State => u.cp = s.cp) _ _ rfl (fun u same r _ => ?_)
    simp only []
    split <;> exact same

/-- The rows of the enabled lanes, requested in ascending lane order (R225): the state, the bytes and the lanes of poison rows. -/
def gathRows (a : Site) (f : LG) (s : State) (c : Ctx) (tb : TableRec) : State × List (Byte × Bool) × List Nat :=
  (c.enabledList f.pg.toNat 13).foldl (gathOne a c f tb) (s, [], [])

/-- The indices of the rows requested. -/
def gathGood (a : Site) (f : LG) (s : State) (c : Ctx) (tb : TableRec) : List Nat :=
  ((c.enabledList f.pg.toNat 13).filter (fun i => !(gathRows a f s c tb).2.2.contains i)).map (fun i => (c.index f.va.toNat i).1)

/-- The state once the predictor has fetched the rows ahead, behind other requests of the cluster (R462). -/
def gathAhead (a : Site) (f : LG) (s : State) (c : Ctx) (tb : TableRec) : State :=
  if s.turnoutQueue (a.eng / 8) = 0 then (gathRows a f s c tb).1 else (gathRows a f s c tb).1.lookAhead tb (gathGood a f s c tb)

/-- The bytes that a GATH makes due. -/
def gathDue (f : LG) (c : Ctx) (tb : TableRec) : Nat := (c.enabledList f.pg.toNat 13).length * tb.rowBytes

/-- The request that a GATH leaves with the turnout. -/
def gathReq (a : Site) (f : LG) (s : State) (c : Ctx) (tb : TableRec) : Req :=
  let v := gathAhead a f s c tb
  let served := if v.predicted tb then (gathGood a f s c tb).map (fun i => (v.rowPlace tb i).2) else []
  ⟨a.eng, a.ctx, c.issued, .rows f.stream.toNat (gathRows a f s c tb).2.1 (gathRows a f s c tb).2.2 tb.fmt served tb.rowBytes⟩

/-- The state once the request is made and its room is due. -/
def gathDone (a : Site) (f : LG) (s : State) (c : Ctx) (t0 : Strm) (tb : TableRec) : State :=
  let u := (gathAhead a f s c tb).putStrm a.eng f.stream.toNat { t0 with rowsDue := t0.rowsDue + gathDue f c tb }
  { u with eng.reqs := u.eng.reqs ++ [gathReq a f s c tb] }

theorem cp_gathDone : (gathDone a f s c t0 tb).cp = s.cp := by
  have rows : (gathRows a f s c tb).1.cp = s.cp :=
    List.foldlRecOn (motive := fun u : State × List (Byte × Bool) × List Nat => u.1.cp = s.cp) _ _ rfl
      (fun _ same _ _ => (cp_gathOne _ _).trans same)
  change (gathAhead a f s c tb).cp = s.cp
  rw [gathAhead]
  split
  · exact rows
  · exact (cp_lookAhead _).trans rows

variable (stream : s.strm a.eng f.stream.toNat = some t0) (table : s.tableAt c f.tbl.toNat = some tb)
include stream table

theorem gathBody_of_no_room (full : t0.land.length + t0.rowsDue + gathDue f c tb > t0.cap) : gathBody a f s c = .wait 3 := by
  rw [gathDue] at full
  simp only [gathBody, stream, table, if_pos full]

theorem gathBody_of_room (room : t0.land.length + t0.rowsDue + gathDue f c tb ≤ t0.cap) :
    gathBody a f s c = .next (gathDone a f s c t0 tb) { c with open_ := c.open_ ++ [c.issued] } [] := by
  rw [gathDue] at room
  simp only [gathBody, stream, table, if_neg (Nat.not_lt.mpr room)]
  rfl

end

/-! ### SCADD (R226) -/

/-- The row that lane `i` of a SCADD adds to: its own index, or one for all. -/
def scaddRow (f : LG) (c : Ctx) (i : Nat) : Nat := if f.shape = 0 then (c.lane f.va.toNat i).bits % 2 ^ 32 else c.sc f.sRow.toNat

/-- And the column. -/
def scaddCol (f : LG) (c : Ctx) (i : Nat) : Nat := if f.shape = 0 then c.sc f.sCol.toNat else c.sc f.sCol.toNat + i

/-- Is the slot of lane `i` outside the table, or its index poisoned (R459)? -/
def scaddBad (f : LG) (c : Ctx) (tb : TableRec) (i : Nat) : Bool :=
  decide (f.shape = 0) && (c.lane f.va.toNat i).pois || decide (scaddRow f c i ≥ tb.rows) || decide (scaddCol f c i ≥ tb.cols)

/-- The request of lane `i`, whose elements are of format `fm`. -/
def scaddReq (a : Site) (f : LG) (fm : Fmt) (c : Ctx) (tb : TableRec) (i : Nat) : Req :=
  ⟨a.eng, a.ctx, c.issued, .add tb (scaddRow f c i) (scaddCol f c i) f.fmt.toNat (c.elem fm f.vb.toNat i).bits (c.elem fm f.vb.toNat i).pois⟩

section
variable (a : Site) (f : LG) (s : State) (c : Ctx) (tb : TableRec)

/-- One lane is told of, or makes its request. -/
theorem scaddOne_eq (st : State × List Req) (i : Nat) :
    scaddOne a c f tb st i =
      if scaddBad f c tb i then
        (st.1.gatherIndex c.coll c.chunk (scaddRow f c i) a.eng i f.tbl.toNat 2 (decide (f.shape = 0) && (c.lane f.va.toNat i).pois), st.2)
      else (st.1, st.2 ++ [scaddReq a f (st.1.fmt f.fmt.toNat) c tb i]) := by
  by_cases shape : f.shape = 0
  · simp [scaddOne, scaddBad, scaddReq, scaddRow, scaddCol, Ctx.index, shape, or_assoc]
  · simp only [scaddOne, scaddBad, scaddReq, scaddRow, scaddCol, if_neg shape, decide_eq_false shape, Bool.false_and, Bool.false_or,
      Bool.or_eq_true, decide_eq_true_iff, Bool.false_eq_true, false_or]

theorem scaddOne_of_bad (st : State × List Req) {i : Nat} (bad : scaddBad f c tb i = true) :
    ∃ u, scaddOne a c f tb st i = (u, st.2) ∧ Told st.1 u := by
  rw [scaddOne_eq, if_pos bad]
  exact ⟨_, rfl, .gatherIndex _ _ _ _ _ _ _ _ _⟩

theorem scaddOne_of_good (st : State × List Req) {i : Nat} (good : scaddBad f c tb i = false) :
    scaddOne a c f tb st i = (st.1, st.2 ++ [scaddReq a f (st.1.fmt f.fmt.toNat) c tb i]) := by
  rw [scaddOne_eq, if_neg (Bool.eq_false_iff.mp good)]

/-- The lanes whose slots are in the table make one request each, in ascending order; the others are told of. -/
theorem foldl_scaddOne (l : List Nat) (st : State × List Req) :
    ∃ u, l.foldl (scaddOne a c f tb) st =
        (u, st.2 ++ (l.filter (fun i => !scaddBad f c tb i)).map (scaddReq a f (st.1.fmt f.fmt.toNat) c tb)) ∧
      Told st.1 u ∧ ((∀ i ∈ l, scaddBad f c tb i = false) → u = st.1) := by
  induction l generalizing st with
  | nil => exact ⟨st.1, by simp, .refl _, fun _ => rfl⟩
  | cons i l ih =>
    cases bad : scaddBad f c tb i with
    | true =>
      obtain ⟨v, one, told⟩ := scaddOne_of_bad a f c tb st bad
      obtain ⟨u, rest, all, _⟩ := ih (v, st.2)
      refine ⟨u, ?_, told.trans all, fun none => absurd (none i List.mem_cons_self) (by simp [bad])⟩
      rw [List.foldl_cons, one, rest, told.fmt _ f.fmt.isLt]
      simp [bad]
    | false =>
      obtain ⟨u, rest, all, same⟩ := ih (st.1, st.2 ++ [scaddReq a f (st.1.fmt f.fmt.toNat) c tb i])
      refine ⟨u, ?_, all, fun none => same fun j mem => none j (List.mem_cons_of_mem i mem)⟩
      rw [List.foldl_cons, scaddOne_of_good a f c tb st bad, rest]
      simp [bad]

end

/-- The lanes that a SCADD enables. -/
def scaddLanes (f : LG) (c : Ctx) : List Nat := c.enabledList f.pg.toNat f.fmt.toNat

/-- The requests of a SCADD. -/
def scaddReqs (a : Site) (f : LG) (s : State) (c : Ctx) (tb : TableRec) : List Req :=
  ((scaddLanes f c).filter (fun i => !scaddBad f c tb i)).map (scaddReq a f (s.fmt f.fmt.toNat) c tb)

section
variable {a : Site} {f : LG} {s : State} {c : Ctx} {tb : TableRec} (table : s.tableAt c f.tbl.toNat = some tb)
include table

theorem scaddBody_of_no_room (full : s.turnoutRoom (a.eng / 8) = false) : scaddBody a f s c = .wait 3 := by
  simp only [scaddBody, table, full, Bool.not_false, if_true]

theorem scaddBody_of_room (room : s.turnoutRoom (a.eng / 8) = true) :
    ∃ u, scaddBody a f s c =
        .next { u with eng.reqs := s.eng.reqs ++ scaddReqs a f s c tb }
          { c with open_ := if scaddReqs a f s c tb = [] then c.open_ else c.open_ ++ [c.issued] } [] ∧
      Told s u ∧ ((∀ i ∈ scaddLanes f c, scaddBad f c tb i = false) → u = s) := by
  obtain ⟨u, requests, told, same⟩ := foldl_scaddOne a f c tb (scaddLanes f c) (s, [])
  refine ⟨u, ?_, told, same⟩
  rw [scaddLanes, List.nil_append] at requests
  simp only [scaddBody, table, room, Bool.not_true, Bool.false_eq_true, if_false, requests, told.eng, List.isEmpty_iff]
  rfl

end

/-! ### RNGK (R228) -/

theorem rngkBody_of_key {f : LV} (s : State) (c : Ctx) (gen : bit f.ext.toNat 19 = false) :
    rngkBody f s c = .next s { c with rngKey := s.seedKeyOf c (bits f.ext.toNat 15 4), tau := c.sc (f.va.toNat % 16) % 2 ^ 32 } [] := by
  rw [rngkBody, gen, if_neg Bool.false_ne_true]

theorem rngkBody_of_values {f : LV} (s : State) (c : Ctx) (gen : bit f.ext.toNat 19 = true) :
    rngkBody f s c = .next s (c.setReg f.vd.toNat (putElems (builtinFmt 13) (c.reg f.vd.toNat) (fun i =>
      if c.enabled f.pg.toNat 13 i then
        some ⟨rndOf 4 c.rngKey c.tau (s.stepOf c.coll) (c.sc f.sx.toNat + i), false⟩ else none))) [] := by
  rw [rngkBody, if_pos gen]

/-- Settles O19: GATH waits or leaves one request for its rows, SCADD waits or leaves one for each lane in the table, and RNGK takes its key or writes
the generator's values. -/
theorem gatherScatterAndGenerator : Obligations.GatherScatterAndGenerator := by
  unfold Obligations.GatherScatterAndGenerator
  intro s a f v t0 tb c k on due
  refine ⟨fun may stream table room => ?_, fun may stream table full => ?_, fun may table => ?_, fun u empty => ?_, fun may table room => ?_,
    fun may gen => ?_, fun may gen => ?_⟩
  · exact completes rfl (issue_go may (gathBody_of_room stream table room) (outlives_of_cp cp_gathDone _))
  · exact completes rfl (issue_waits may (gathBody_of_no_room stream table full))
  · cases room : s.turnoutRoom (a.eng / 8) with
    | true =>
      obtain ⟨t, run, _⟩ := done_next (issue a (f.word 0x69) f.fmt.toNat (.src [f.vb.toNat] (s.fmt f.fmt.toNat)) (scaddBody a f) s)
      exact ⟨t, run, nofun⟩
    | false =>
      obtain ⟨t, run, settled⟩ := completes (i := .scadd a f) rfl (issue_waits may (scaddBody_of_no_room table room))
      exact ⟨t, run, fun _ => settled⟩
  · rw [State.turnoutRoom, empty]
    rfl
  · intro row col bad lanes reqs
    obtain ⟨u, body, told, same⟩ := scaddBody_of_room table room
    obtain ⟨t, run, settled⟩ := completes (i := .scadd a f) rfl (issue_go may body (outlives_of_cp told.cp _))
    exact ⟨t, u, run, settled, told.rest, same⟩
  · exact next_completes rfl may (rngkBody_of_key s c gen)
  · exact next_completes rfl may (rngkBody_of_values s c gen)

end Sys2Proof.Machine
end

section
/-!
PROOFS. WAITEV, SIGEV, FENCE, LOCK, LOOP, BRP and HALT (R230 to R236): what each body answers, and what follows a LOCK or HALT that has committed.
-/
namespace Sys2Proof.Machine
open Sys2Proof

/-! ### Waits (R230 to R232) -/

/-- A counter has reached a threshold of 32 bits (R230). -/
theorem evtMet_iff {s : State} {n t : Nat} (narrow : t < 2 ^ 32) : s.evtMet n t = true ↔ (s.get (evt n) + 2 ^ 32 - t) % 2 ^ 32 < 2 ^ 31 := by
  rw [State.evtMet, Nat.mod_eq_of_lt narrow, decide_eq_true_iff]

section
variable {s : State} {c : Ctx} {f : LK}

theorem waitevBody_of_met {n t : Nat} (counter : s.eventOf c f.h.toNat = n) (threshold : (c.sc f.sa.toNat + f.imm.toNat) % 2 ^ 32 = t)
    (reached : s.evtMet n t = true) : waitevBody f s c = .next s c [] := by
  simp only [waitevBody, counter, threshold, reached, if_true]

theorem waitevBody_of_not_met {n t : Nat} (counter : s.eventOf c f.h.toNat = n) (threshold : (c.sc f.sa.toNat + f.imm.toNat) % 2 ^ 32 = t)
    (short : ¬ s.evtMet n t = true) : waitevBody f s c = .next s { c with st := 4, wait := .event n t } [] := by
  simp only [waitevBody, counter, threshold, short, Bool.false_eq_true, if_false]

theorem sigevBody_of_idle (idle : c.open_ = []) : sigevBody f s c = .next (s.evtAdd (s.eventOf c f.h.toNat) f.imm.toNat) c [] := by
  simp only [sigevBody, idle, List.isEmpty_nil, if_true]

theorem sigevBody_of_busy (busy : c.open_ ≠ []) :
    sigevBody f s c = .next s { c with sigs := c.sigs ++ [⟨s.eventOf c f.h.toNat, f.imm.toNat, c.issued⟩] } [] := by
  simp only [sigevBody, List.isEmpty_iff, busy, if_false]

/-- A context whose next packets carry the FENCE flag, where `fab` asks for it (R232). -/
def Ctx.flagged (c : Ctx) (f : LK) : Ctx := if f.fab = 1 then { c with fab := 3 } else c

theorem Ctx.open_flagged : (c.flagged f).open_ = c.open_ := by
  rw [flagged]
  split <;> rfl

theorem fenceBody_of_idle (idle : c.open_ = []) : fenceBody f s c = .next s (c.flagged f) [] := by
  have none : (c.flagged f).open_.isEmpty = true := by rw [Ctx.open_flagged, idle, List.isEmpty_nil]
  exact if_pos none

theorem fenceBody_of_busy (busy : c.open_ ≠ []) : fenceBody f s c = .next s { c.flagged f with st := 4, wait := .fence (f.fab == 1) } [] := by
  have some : ¬ (c.flagged f).open_.isEmpty = true := by rwa [Ctx.open_flagged, List.isEmpty_iff]
  exact if_neg some

/-! ### LOOP and BRP (R234, R235) -/

/-- LOOP opens the frame of its body at the next instruction. -/
theorem loopBody_eq (l : LL) :
    loopBody l s c = .go s { c with pc := c.pc + 1, loops := ⟨c.pc + 1, c.pc + l.imm.toNat % 2 ^ 12, l.trips.toNat⟩ :: c.loops } [] := rfl

/-- The test as a condition: any bit, all bits, or none (Table 06-4). -/
theorem brpTest_iff (f : LK) (p : Nat) :
    brpTest f.cond.toNat p = true ↔
      (f.cond = 0 ∧ p % 2 ^ 128 ≠ 0) ∨ (f.cond = 1 ∧ p % 2 ^ 128 = 2 ^ 128 - 1) ∨ (f.cond = 2 ∧ p % 2 ^ 128 = 0) := by
  obtain code | code | code | code : f.cond = 0 ∨ f.cond = 1 ∨ f.cond = 2 ∨ f.cond = 3 := by
    generalize f.cond = x
    decide +revert
  · simp [code, brpTest]
  · simp [code, brpTest, allOnes]
  · simp [code, brpTest]
  · simp [code, brpTest]

theorem brpBody_of_taken (taken : brpTest f.cond.toNat (c.pr f.p.toNat) = true) :
    brpBody f s c = .go s { c with pc := c.pc + 1 + f.imm.toNat } [] := by
  rw [brpBody, if_pos taken]

theorem brpBody_of_not_taken (passed : ¬ brpTest f.cond.toNat (c.pr f.p.toNat) = true) : brpBody f s c = .go s { c with pc := c.pc + 1 } [] := by
  rw [brpBody, if_neg passed, Nat.add_zero]

end

/-! ### What follows a LOCK or HALT that has committed (R233, R236) -/

section
variable {s : State} {a : Site} {f : LK}

/-- A context whose instruction may issue does not wait for the end of an earlier one (Table 05-3). -/
theorem st_of_canIssue {w : BitVec 64} (may : s.canIssue a w = true) : (s.ctxAt a.eng a.ctx).st ≠ 4 := by
  intro four
  simp [State.canIssue, four] at may

/-- The context of a LOCK arrives at its lock at once. -/
theorem exec_lock_of_issues (may : s.issues a (f.word 0x7B)) :
    exec (.lock a f) s =
      done ((s.commits a { s.running a with st := 4, wait := .lock f.h.toNat (f.wc == 1) f.sd.toNat }.onward).lockEnter a f) := by
  change execLock a f s = _
  rw [execLock, issue_next may rfl]
  refine congrArg done (if_pos ⟨st_of_canIssue may.1, ?_⟩)
  rw [State.ctxAt_commits]
  rfl

/-- A HALT outside a collective halts its context alone. -/
theorem exec_halt_of_no_coll (may : s.issues a (f.word 0x82)) (alone : (s.running a).coll = none) :
    exec (.halt a f) s = done (s.commits a { s.running a with st := 5 }.onward) := by
  change execHalt a f s = _
  have left : ((s.commits a { s.running a with st := 5 }.onward).ctxAt a.eng a.ctx).coll = none := by rw [State.ctxAt_commits]; exact alone
  rw [execHalt, issue_next may rfl]
  simp only [left]

/-- A HALT in a collective can be the last of its RUN. -/
theorem exec_halt_of_coll {x : Nat} (may : s.issues a (f.word 0x82)) (member : (s.running a).coll = some x) :
    exec (.halt a f) s = done ((s.commits a { s.running a with st := 5 }.onward).runDone x) := by
  change execHalt a f s = _
  have left : ((s.commits a { s.running a with st := 5 }.onward).ctxAt a.eng a.ctx).coll = some x := by rw [State.ctxAt_commits]; exact member
  have halted : ((s.commits a { s.running a with st := 5 }.onward).ctxAt a.eng a.ctx).st = 5 := by rw [State.ctxAt_commits]; rfl
  rw [execHalt, issue_next may rfl]
  simp only [left, halted, if_true]

end

/-- Settles O20: each body goes on or waits, and a LOCK or HALT that has committed arrives at its lock or can end its RUN. -/
theorem synchronisationAndControl : Obligations.SynchronisationAndControl := by
  unfold Obligations.SynchronisationAndControl
  intro s a f l c n t0 p cf test
  have reached : s.evtMet n t0 = true ↔ (s.get (evt n) + 2 ^ 32 - t0) % 2 ^ 32 < 2 ^ 31 := evtMet_iff (Nat.mod_lt _ (Nat.two_pow_pos 32))
  have taken : brpTest f.cond.toNat (c.pr f.p.toNat) = true ↔ test := brpTest_iff f _
  refine ⟨fun may met => ?_, fun may short => ?_, fun may idle => ?_, fun may busy => ?_, fun may idle => ?_, fun may busy => ?_, fun may => ?_,
    fun may => ?_, fun may holds => ?_, fun may fails => ?_, fun may => ?_⟩
  · exact next_completes rfl may (waitevBody_of_met rfl rfl (reached.mpr met))
  · exact next_completes rfl may (waitevBody_of_not_met rfl rfl (mt reached.mp short))
  · exact completes rfl (issue_from may (sigevBody_of_idle idle))
  · exact next_completes rfl may (sigevBody_of_busy busy)
  · exact next_completes rfl may (fenceBody_of_idle idle)
  · exact next_completes rfl may (fenceBody_of_busy busy)
  · exact completes (exec_lock_of_issues may) rfl
  · exact completes rfl (issue_commits may (loopBody_eq l))
  · exact completes rfl (issue_commits may (brpBody_of_taken (taken.mpr holds)))
  · exact completes rfl (issue_commits may (brpBody_of_not_taken (mt taken.mp fails)))
  · intro u
    cases member : c.coll with
    | none => exact completes (exec_halt_of_no_coll may member) rfl
    | some x => exact completes (exec_halt_of_coll may member) rfl

end Sys2Proof.Machine
end

section
/-!
PROOFS. WAITEV_COMPLETE, FENCE_COMPLETE, SPARE_ATTACH and SPARE_DETACH (R156, R157, R160, R230, R232).
-/
namespace Sys2Proof.Machine
open Sys2Proof

/-! ### The waits of a context end -/

section
variable {s : State} {eng : Fin 128} {ctx : Fin 8}

theorem waitevComplete_of_met {n t : Nat} (waits : (s.ctxAt eng ctx).wait = .event n t) (reached : s.evtMet n t = true) :
    waitevComplete eng ctx s = s.putCtx eng ctx { s.ctxAt eng ctx with st := 1, wait := .none } := by
  simp only [waitevComplete, waits, reached, if_true]

theorem fenceComplete_of_idle {fab : Bool} (waits : (s.ctxAt eng ctx).wait = .fence fab) (idle : (s.ctxAt eng ctx).open_ = []) :
    fenceComplete eng ctx s = s.putCtx eng ctx { s.ctxAt eng ctx with st := 1, wait := .none } := by
  simp only [fenceComplete, waits, idle, List.isEmpty_nil, if_true]

end

/-! ### The spare engine (R157, R160) -/

/-- The state once the die's spare runs engine `ph`, which was stopped. -/
def State.attachSpare (s : State) (die ph : Nat) : State :=
  ({ s with eng.attach := s.eng.attach.put die ph, eng.stopped := s.eng.stopped.filter (· ≠ ph) }.sets
    [(F.ENG_STATUS_attached ph, 1), (F.ENG_STATUS_peer ph, spareOf die), (F.ENG_STATUS_attached (spareOf die), 1),
      (F.ENG_STATUS_peer (spareOf die), ph)]).pert 8

/-- The state once the die's spare has left engine `ph`, which resumes. -/
def State.detachSpare (s : State) (die ph : Nat) : State :=
  ({ s with eng.attach := s.eng.attach.drop die }.sets
    [(F.ENG_STATUS_attached ph, 0), (F.ENG_STATUS_peer ph, 0xFF), (F.ENG_STATUS_attached (spareOf die), 0),
      (F.ENG_STATUS_peer (spareOf die), 0xFF)]).pert 8

section
variable {s : State} {die : Fin 8} {ph : Nat}

theorem spareAttach_of_stopped (stopped : s.waitingEngine die = some ph) (free : s.eng.attach.find die = none)
    (spare : s.get (F.ENG_STATUS_role (spareOf die)) = 1) : spareAttach die s = s.attachSpare die ph := by
  have may : ¬ ((s.eng.attach.find die).isSome = true ∨ s.get (F.ENG_STATUS_role (spareOf die)) ≠ 1) := by simp [free, spare]
  have others : s.eng.stopped.filter (· != ph) = s.eng.stopped.filter (· ≠ ph) := List.filter_congr fun p _ => by rw [Bool.eq_iff_iff]; simp
  simp only [spareAttach, stopped, if_neg may, others]
  rfl

theorem spareAttach_of_retiring (none : s.waitingEngine die = none)
    (due : s.eng.retiring.find? (fun p => p / 17 == die.val && s.mayTakeOver p) = some ph) : spareAttach die s = s.takeOver ph := by
  simp only [spareAttach, none, due]

/-- An engine whose eight contexts are each at a return point is at one. -/
theorem atReturn_of_returnPoints
    (points : ∀ i < 8, s.returnPoint (s.get (F.ENG_STATUS_logical ph)) (s.ctxAt (s.get (F.ENG_STATUS_logical ph)) i) = true) :
    s.atReturn ph = true :=
  List.all_eq_true.mpr fun i mem => points i (List.mem_range.mp mem)

theorem spareDetach_of_atReturn (attached : s.eng.attach.find die = some ph) (stays : ph ∉ s.eng.retiring) (returned : s.atReturn ph = true) :
    spareDetach die s = s.detachSpare die ph := by
  have may : ¬ ((!s.atReturn ph) = true ∨ s.eng.retiring.contains ph = true) := by simp [returned, stays]
  simp only [spareDetach, attached, if_neg may]
  rfl

end

/-- Settles O22: each wait that ends makes its context READY, and the spare attaches, takes over or detaches. -/
theorem engineWaitsAndSpare : Obligations.EngineWaitsAndSpare := by
  unfold Obligations.EngineWaitsAndSpare
  intro s eng ctx die n th ph fab c sp
  refine ⟨fun waits reached => ?_, fun waits idle => ?_, fun stopped free spare => ?_, fun none due => ?_, fun attached stays points => ?_⟩
  · exact completes rfl (waitevComplete_of_met waits reached)
  · exact completes rfl (fenceComplete_of_idle waits idle)
  · exact completes rfl (spareAttach_of_stopped stopped free spare)
  · exact completes rfl (spareAttach_of_retiring none due)
  · exact completes rfl (spareDetach_of_atReturn attached stays (atReturn_of_returnPoints points))

end Sys2Proof.Machine
end

section
/-!
PROOFS. One step of the block: the command in front, or a pulse of the turn clock (log entry 36).
-/
namespace Sys2Proof.Machine
open Sys2Proof

/-- A command at the front of the queue is the one that runs, with the queue's rest behind it. -/
theorem step_of_cons {s : State} {c : Instr} {rest : List Instr} (front : s.pending = c :: rest) : step s = exec c { s with pending := rest } := by
  simp only [step, front]

/-- On an empty queue the turn clock moves on. -/
theorem step_of_empty {s : State} (empty : s.pending = []) : step s = done (idle s) := by simp only [step, empty]

/-- Without power nothing moves on a pulse. -/
theorem idle_of_off {s : State} (off : s.pwr.off = true) : idle s = s := if_pos off

/-- Settles O1: the front of the queue says which of the two a step is. -/
theorem stepRunsFront : Obligations.StepRunsFront := by
  unfold Obligations.StepRunsFront
  intro c s rest
  refine ⟨step_of_cons rfl, fun empty => ?_, fun empty off => ?_⟩
  · rw [step_of_empty empty]
    exact done_next (idle s)
  · rw [step_of_empty empty, idle_of_off off]
    exact done_next s

end Sys2Proof.Machine
end

section
/-!
PROOFS. The messages and timers of locks and barriers (R342 to R345), a rule for each branch.
-/
namespace Sys2Proof.Machine
open Sys2Proof

section
variable {s : State} {x : Nat} {c : Coll} {port : Fin 144} {h : Fin 16} {seq id : BitVec 32}

/-! ### LOCK_ARRIVE (R344): a BARRIER's lock is 16, whatever the handle of the message -/

section
variable {count : BitVec 16} {m : Member} {k : Kid}

theorem lockArriveMsg_of_unknown (unknown : s.collOf id.toNat = none) :
    lockArriveMsg port h count seq id s = s.membership none id.toNat 0 count.toNat port 7 0xFFFF 32 := by
  simp only [lockArriveMsg, unknown]

section
variable (known : s.collOf id.toNat = some (x, c))
include known

section
variable (member : (s.groupOf c).members.find? (fun m => m.port == port.val) = some m)
include member

theorem lockArriveMsg_of_fenced_member (fenced : m.fenced = true) : lockArriveMsg port h count seq id s = s.spill 6 32 := by
  simp only [lockArriveMsg, known, member, fenced, if_true]

/-- An endpoint arrives at a BARRIER alone, and with its own rank. -/
theorem lockArriveMsg_of_wrong_member (present : m.fenced = false)
    (wrong : (if c.cmd.op = 0x0B then 16 else h.val) ≠ 16 ∨ m.rank ≠ count.toNat) :
    lockArriveMsg port h count seq id s = s.membership (some x) id.toNat 0 count.toNat port 1 c.cmd.group 32 := by
  simp only [lockArriveMsg, known, member, present, Bool.false_eq_true, if_false, if_pos wrong]

theorem lockArriveMsg_of_member (present : m.fenced = false) (barrier : (if c.cmd.op = 0x0B then 16 else h.val) = 16)
    (own : m.rank = count.toNat) : lockArriveMsg port h count seq id s = s.lockArrive x 16 seq.toNat m.rank 1 false := by
  simp only [lockArriveMsg, known, member, present, barrier, own, Bool.false_eq_true, ne_eq, not_true_eq_false, or_self, if_false]

end

section
variable (stranger : (s.groupOf c).members.find? (fun m => m.port == port.val) = none)
include stranger

theorem lockArriveMsg_of_nobody (childless : (s.groupOf c).kids.find? (fun k => k.tree == 0 && bit k.ports port) = none) :
    lockArriveMsg port h count seq id s = s.membership (some x) id.toNat 0 count.toNat port 1 c.cmd.group 32 := by
  simp only [lockArriveMsg, known, stranger, childless]

variable (child : (s.groupOf c).kids.find? (fun k => k.tree == 0 && bit k.ports port) = some k)
include child

theorem lockArriveMsg_of_fenced_child (fenced : k.fenced = true) : lockArriveMsg port h count seq id s = s.spill 6 32 := by
  simp only [lockArriveMsg, known, stranger, child, fenced, if_true]

/-- A child counts no more ranks at a BARRIER than it covers. -/
theorem lockArriveMsg_of_excess (present : k.fenced = false) (excess : count.toNat > k.covers)
    (barrier : (if c.cmd.op = 0x0B then 16 else h.val) = 16) :
    lockArriveMsg port h count seq id s = s.membership (some x) id.toNat 0 count.toNat port 6 c.cmd.group 32 := by
  simp only [lockArriveMsg, known, stranger, child, present, Bool.false_eq_true, if_false, if_pos (And.intro excess barrier)]

theorem lockArriveMsg_of_child (present : k.fenced = false)
    (fits : count.toNat ≤ k.covers ∨ (if c.cmd.op = 0x0B then 16 else h.val) ≠ 16) :
    lockArriveMsg port h count seq id s = s.lockArrive x (if c.cmd.op = 0x0B then 16 else h.val) seq.toNat k.low count.toNat true := by
  have within : ¬ (count.toNat > k.covers ∧ (if c.cmd.op = 0x0B then 16 else h.val) = 16) := fun ⟨excess, barrier⟩ =>
    fits.elim (fun few => Nat.not_lt.mpr few excess) (fun handle => handle barrier)
  simp only [lockArriveMsg, known, stranger, child, present, Bool.false_eq_true, if_false, if_neg within]

end

end

end

/-! ### LOCK_RELEASE (R344) -/

section
variable {l : LockUse} {tRel : BitVec 64}

/-- Arming a lock and passing its release down takes no time. -/
theorem turn_armLock (s : State) (x h group : Nat) (l : LockUse) (t : Nat) : (s.armLock x h group l t).turn = s.turn :=
  (Noted.sets _ _).turn

theorem turn_releaseDown (s : State) (h : Nat) (c : Coll) (g : Group) (seq t : Nat) : (s.releaseDown h c g seq t).turn = s.turn :=
  (Noted.foldl _ (fun u _ => Noted.send u _ _ _ _) (lockKids g) s).turn

section
variable (known : s.collOf id.toNat = some (x, c)) (lock : s.lockAt x (if c.cmd.op = 0x0B then 16 else h.val) = some l)
include known lock

theorem lockRelease_of_other (other : bit (s.groupOf c).par0 port = false ∨ l.seq ≠ seq.toNat ∨ l.tRel.isSome = true) :
    lockRelease port h seq id tRel s = s := by
  have refused : (!bit (s.groupOf c).par0 port) = true ∨ l.seq ≠ seq.toNat ∨ l.tRel.isSome = true := by simpa using other
  simp only [lockRelease, known, lock, if_pos refused]

theorem lockRelease_of_parent (parent : bit (s.groupOf c).par0 port = true) (use : l.seq = seq.toNat) (unarmed : l.tRel = none) :
    lockRelease port h seq id tRel s =
      let lh := if c.cmd.op = 0x0B then 16 else h.val
      let u := (s.armLock x lh c.cmd.group l tRel.toNat).releaseDown lh c (s.groupOf c) l.seq tRel.toNat
      if s.turn > tRel.toNat then ((u.inc F.CMP_LATE_COUNT_release).pert 13).lockFire x lh else u := by
  simp only [lockRelease, known, lock, parent, use, unarmed, turn_releaseDown, turn_armLock, Bool.not_true, Bool.false_eq_true, ne_eq,
    not_true_eq_false, Option.isSome_none, or_self, if_false]

end

end

end

/-! ### LOCK_RELEASE_FIRE and LOCK_PARTICIPANT_TIMEOUT (R344, R345) -/

section
variable {s : State} {x : Fin 4096} {h : Fin 17} {l : LockUse} (lock : s.lockAt x h = some l)
include lock

theorem lockReleaseFire_of_armed {t : Nat} (armed : l.tRel = some t) :
    lockReleaseFire x h s = if s.turn < t then s else s.lockFire x h := by
  simp only [lockReleaseFire, lock, armed]

variable {c : Coll} {who : Nat} (known : s.coll x = some c)
include known

/-- A participant is owed while it belongs to the lock and has not arrived. -/
theorem lockTimeout_eq : lockTimeout x h who s =
    if l.passed = true ∨ who ∈ l.reported ∨ ¬ ((who ∈ s.lockLocals x h (s.groupOf c) ∧ who ∉ l.locals) ∨
        ((∃ k ∈ lockKids (s.groupOf c), k.low = who) ∧ ∀ q ∈ l.kids, q.1 ≠ who)) then s
    else ((s.putLock x h { l with reported := l.reported ++ [who] }).faultReport 0x0C c.cmd.group 0 who).pert 15 := by
  have owed : ((s.lockLocals x h (s.groupOf c)).contains who && !l.locals.contains who ||
      (lockKids (s.groupOf c)).any (fun k => k.low == who) && !l.kids.any (fun k => k.1 == who)) = true ↔
      (who ∈ s.lockLocals x h (s.groupOf c) ∧ who ∉ l.locals) ∨ ((∃ k ∈ lockKids (s.groupOf c), k.low = who) ∧ ∀ q ∈ l.kids, q.1 ≠ who) := by
    simp
  simp only [lockTimeout, known, lock, List.contains_iff_mem, Bool.not_eq_true', ← Bool.not_eq_true, owed]

end

/-- Settles O32: each message or timer takes the branch its hypotheses name. -/
theorem lockMessages : Obligations.LockMessages := by
  unfold Obligations.LockMessages
  intro s port h hh xf count seq id tRel who x tr c m k l g lh member child arrive release
  refine ⟨fun unknown => completes rfl (lockArriveMsg_of_unknown unknown), fun known => ⟨?_, ?_, ?_, ?_, ?_, ?_, ?_⟩, ?_, ?_, ?_, ?_⟩
  · exact fun own fenced => completes rfl (lockArriveMsg_of_fenced_member known own fenced)
  · exact fun own present wrong => completes rfl (lockArriveMsg_of_wrong_member known own present wrong)
  · exact fun own present barrier rank => completes rfl (lockArriveMsg_of_member known own present barrier rank)
  · exact fun stranger kid fenced => completes rfl (lockArriveMsg_of_fenced_child known stranger kid fenced)
  · exact fun stranger kid present excess barrier => completes rfl (lockArriveMsg_of_excess known stranger kid present excess barrier)
  · exact fun stranger kid present fits => completes rfl (lockArriveMsg_of_child known stranger kid present fits)
  · exact fun stranger childless => completes rfl (lockArriveMsg_of_nobody known stranger childless)
  · intro known lock parent use unarmed
    have released := lockRelease_of_parent (tRel := tRel) known lock parent use unarmed
    exact ⟨fun early => completes rfl (released.trans (if_neg (Nat.not_lt.mpr early))), fun late => completes rfl (released.trans (if_pos late))⟩
  · exact fun known lock other => completes rfl (lockRelease_of_other known lock other)
  · intro lock armed
    have fired := lockReleaseFire_of_armed lock armed
    exact ⟨fun due => completes rfl (fired.trans (if_neg (Nat.not_lt.mpr due))), fun early => completes rfl (fired.trans (if_pos early))⟩
  · intro known lock owed
    have told := lockTimeout_eq (who := who) lock known
    refine ⟨fun waits first owes => completes rfl (told.trans (if_neg ?_)), fun settled => completes rfl (told.trans (if_pos settled))⟩
    rintro (passed | again | arrived)
    · exact Bool.false_ne_true (waits.symm.trans passed)
    · exact first again
    · exact arrived owes

end Sys2Proof.Machine
end

section
/-!
PROOFS. Orders of the watermaster (R495, R496): all six are judged alike, and differ in what acting on them does.
-/
namespace Sys2Proof.Machine
open Sys2Proof

section
variable {s : State} {sender action seq : Nat} {act : State → Nat × State}

theorem order_of_off (off : s.get F.FLT_CTL_en = 0) : s.order sender action seq act = s := if_pos off

theorem order_of_foreign (on : s.get F.FLT_CTL_en = 1) (foreign : sender ≠ s.get F.WM_CTL_wm) :
    s.order sender action seq act = s.inc F.ORDER_COUNT_foreign := by
  simp only [State.order, on, one_ne_zero, if_false, if_pos foreign]

theorem order_of_watermaster (on : s.get F.FLT_CTL_en = 1) (own : sender = s.get F.WM_CTL_wm) :
    s.order sender action seq act =
      let u := if (act s).1 = 0 then (act s).2.inc F.ORDER_COUNT_applied
        else ((act s).2.inc F.ORDER_COUNT_refused).faultReport 0x10 action 0 seq
      u.sendWm 0x84 32 [(8, 8, (act s).1), (96, 32, seq), (128, 64, u.turn)] := by
  simp only [State.order, on, own, one_ne_zero, if_false, ne_eq, not_true_eq_false]

/-- A command that runs as an order changes nothing with the fault block off, is foreign from anyone but the watermaster, and is acted on and
answered otherwise. -/
theorem order_completes {i : Instr} {r : Nat × State} (run : exec i s = done (s.order sender action seq act)) (acts : act s = r) :
    (s.get F.FLT_CTL_en = 0 → ∃ t, exec i s = .next t ∧ Settled s t) ∧
    (s.get F.FLT_CTL_en = 1 → sender ≠ s.get F.WM_CTL_wm → ∃ t, exec i s = .next t ∧ Settled (s.inc F.ORDER_COUNT_foreign) t) ∧
    (s.get F.FLT_CTL_en = 1 → sender = s.get F.WM_CTL_wm → ∃ t, exec i s = .next t ∧ Settled
      (let u := if r.1 = 0 then r.2.inc F.ORDER_COUNT_applied else (r.2.inc F.ORDER_COUNT_refused).faultReport 0x10 action 0 seq
       u.sendWm 0x84 32 [(8, 8, r.1), (96, 32, seq), (128, 64, u.turn)]) t) := by
  subst acts
  exact ⟨fun off => completes run (order_of_off off), fun on foreign => completes run (order_of_foreign on foreign),
    fun on own => completes run (order_of_watermaster on own)⟩

end

/-- What TAKEOVER does once it is taken as the watermaster's (R481): nothing in levee mode or at a module that is no standby. -/
def takeoverAct (s : State) : Nat × State :=
  if s.get F.LEV_CTL_mode = 0 then (2, s) else if s.get F.WM_CTL_role ≠ 2 then (1, s) else (0, s.takeover)

/-- The fault manager's TAKEOVER counts in its session as one of the watermaster. -/
theorem exec_wmOrderTakeover (s : State) (sender : BitVec 16) (fm : Bool) (seq : BitVec 32) :
    exec (.wmOrderTakeover sender fm seq) s = done (s.order (if fm = true ∧ s.fmSession.isSome = true then s.get F.WM_CTL_wm else sender.toNat)
      6 seq.toNat takeoverAct) := rfl

/-- Settles O45: the six orders differ in their sender, their action and what acting on them does, and the due fences apply in order. -/
theorem ordersAndFences : Obligations.OrdersAndFences := by
  unfold Obligations.OrdersAndFences
  intro s sender target port code seq id first last at_ step shard fm answer from_ orders
  refine ⟨?_, completes rfl rfl⟩
  simp only [orders, List.forall_mem_cons]
  exact ⟨order_completes rfl rfl, order_completes rfl rfl, order_completes rfl rfl, order_completes rfl rfl, order_completes rfl rfl,
    order_completes (exec_wmOrderTakeover s sender fm seq) rfl, List.forall_mem_nil _⟩

end Sys2Proof.Machine
end

section
/-!
PROOFS. The checks of the head command and its rejection (R252, R253, R255), for collectives and loads.
-/
namespace Sys2Proof.Machine
open Sys2Proof

/-! ### Phase 2: the first check that fails rejects -/

section
variable {s : State} {q : Nat} {c : Cmd} {engs : List Nat} {r : Nat}

theorem phase2_of_first (fails : (s.serves q).firstCheck q c engs = some r) : s.phase2 q c engs = (s.serves q).reject q c r := by
  simp only [State.serves] at fails
  simp only [State.phase2, fails, State.serves]

section
variable (first : (s.serves q).firstCheck q c engs = none)
include first

theorem phase2_of_last (collective : c.isColl = true) (fails : (s.serves q).lastCheck c = some r) :
    s.phase2 q c engs = (s.serves q).reject q c r := by
  simp only [State.serves] at first fails
  simp only [State.phase2, first, fails, collective, if_true, State.serves]

variable (load : c.isColl = false) {v w : State} {b : List Byte}
include load

theorem phase2_of_no_object (fails : (s.serves q).object q c = .error (r, v)) : s.phase2 q c engs = v.reject q c r := by
  simp only [State.serves] at first fails
  simp only [State.phase2, first, fails, load, Bool.false_eq_true, if_false]

variable (object : (s.serves q).object q c = .ok (b, v))
include object

theorem phase2_of_load_last (fails : v.lastCheck c = some r) : s.phase2 q c engs = v.reject q c r := by
  simp only [State.serves] at first object
  simp only [State.phase2, first, object, fails, load, Bool.false_eq_true, if_false]

variable (last : v.lastCheck c = none)
include last

theorem phase2_of_load_error (fails : v.loadEffect c b = .error (r, w)) : s.phase2 q c engs = w.reject q c r := by
  simp only [State.serves] at first object
  simp only [State.phase2, first, object, last, fails, load, Bool.false_eq_true, if_false]

theorem phase2_of_load_ok (passes : v.loadEffect c b = .ok w) : s.phase2 q c engs = v.accept q c [] b := by
  simp only [State.serves] at first object
  simp only [State.phase2, first, object, last, passes, load, Bool.false_eq_true, if_false]

end

end

/-! ### The command rows -/

/-- Each load, with its op (Table 08-3). -/
def loadRows (q : Fin 64) : List (Instr × Nat) :=
  [(.loadProgram q, 0x20), (.unloadProgram q, 0x21), (.loadFormats q, 0x22), (.loadRules q, 0x23), (.loadGroup q, 0x24), (.unloadGroup q, 0x25),
    (.eventAdd q, 0x26), (.loadRoutes q, 0x30), (.loadTableBind q, 0x31), (.loadSeeds q, 0x32), (.loadProfile q, 0x33)]

theorem exec_loadRows (s : State) (q : Fin 64) : ∀ e ∈ loadRows q, exec e.1 s = done (headOp e.2 q [] s) := by
  simp only [loadRows, List.forall_mem_cons]
  exact ⟨rfl, rfl, rfl, rfl, rfl, rfl, rfl, rfl, rfl, rfl, rfl, List.forall_mem_nil _⟩

theorem op_loadRows (q : Fin 64) : ∀ e ∈ loadRows q, 0x20 ≤ e.2 := by simp [loadRows]

/-- A load is no collective. -/
theorem isColl_of_loadRows {q : Fin 64} {e : Instr × Nat} {c : Cmd} (row : e ∈ loadRows q) (kind : c.op = e.2) : c.isColl = false := by
  have above := op_loadRows q e row
  exact Bool.eq_false_iff.mpr fun collective => by have := isColl_iff.mp collective; omega

/-- Each command row, with its op and the engines it runs on: the collectives, and the loads, which name none. -/
def commandRows (q : Fin 64) (engs : List (Fin 128)) : List (Instr × Nat × List (Fin 128)) :=
  collectiveRows q engs ++ (loadRows q).map (fun e => (e.1, e.2, []))

theorem exec_commandRows (s : State) (q : Fin 64) (engs : List (Fin 128)) :
    ∀ e ∈ commandRows q engs, exec e.1 s = done (headOp e.2.1 q e.2.2 s) := by
  simp only [commandRows, List.forall_mem_append, List.forall_mem_map]
  exact ⟨exec_collectiveRows s q engs, exec_loadRows s q⟩

/-- A row whose op is no collective's names no engines. -/
theorem engines_commandRows {q : Fin 64} {engs : List (Fin 128)} {e : Instr × Nat × List (Fin 128)} {c : Cmd} (row : e ∈ commandRows q engs)
    (kind : c.op = e.2.1) (load : c.isColl = false) : e.2.2 = [] := by
  rcases List.mem_append.mp row with collective | loads
  · exact absurd (isColl_iff.mpr (kind ▸ op_collectiveRows q engs e collective)) (Bool.eq_false_iff.mp load)
  · obtain ⟨l, -, rfl⟩ := List.mem_map.mp loads
    rfl

/-! ### A row that does not run -/

section
variable {s : State} {q : Fin 64} {op : Nat} {engs : List (Fin 128)}

theorem headOp_of_empty (empty : (s.queue q).cmds = []) : headOp op q engs s = s := by simp only [headOp, empty, List.head?_nil]

theorem headOp_of_other {c : Cmd} (head : (s.queue q).cmds.head? = some c)
    (other : c.op ≠ op ∨ s.served ≠ some q.val ∨ (c.usesEngines = true ∧ engs = [])) : headOp op q engs s = s := by
  simp only [headOp, head, if_pos other]

end

/-- Settles O39: every row runs the head through phase 2, whose checks are those of its op; a load names no engines. -/
theorem commandChecks : Obligations.CommandChecks := by
  unfold Obligations.CommandChecks
  intro s v w q engs c r b u rejected e row
  have row : e ∈ commandRows q engs := row
  have run : exec e.1 s = done (headOp e.2.1 q e.2.2 s) := exec_commandRows s q engs e row
  refine ⟨fun empty => completes run (headOp_of_empty empty), fun head => ⟨fun other => completes run (headOp_of_other head other), ?_⟩⟩
  intro kind served engines
  have phase2 : headOp e.2.1 q e.2.2 s = s.phase2 q c (e.2.2.map (·.val)) := headOp_of_served head kind served engines
  refine ⟨fun fails => completes run (phase2.trans (phase2_of_first fails)),
    fun first collective fails => completes run (phase2.trans (phase2_of_last first collective fails)), fun first load => ?_⟩
  have phase2 : headOp e.2.1 q e.2.2 s = s.phase2 q c [] := phase2.trans (by rw [engines_commandRows row kind load, List.map_nil])
  exact ⟨fun fails => completes run (phase2.trans (phase2_of_no_object first load fails)),
    fun object fails => completes run (phase2.trans (phase2_of_load_last first load object fails)),
    fun object last fails => completes run (phase2.trans (phase2_of_load_error first load object last fails))⟩

end Sys2Proof.Machine
end

section
/-!
PROOFS. Loads (R252 to R257, R381): acceptance without engines, comparators or locks; and the start, which takes effect, fails, or begins to write
a routing bank.
-/
namespace Sys2Proof.Machine
open Sys2Proof

/-! ### The queue served -/

/-- The head of the queue served has not been accepted yet (R252). -/
theorem held_of_served {s : State} {q : Nat} (served : s.served = some q) : (s.queue q).held = false := by
  have ready : s.queueReady q = true := by
    simp only [State.served] at served
    rcases Option.or_eq_some_iff.mp served with found | ⟨-, headed⟩
    · exact (List.mem_filter.mp (List.mem_filter.mp (List.mem_of_find?_eq_some found)).1).2
    · exact (List.mem_filter.mp (List.mem_filter.mp (List.mem_of_head? headed)).1).2
  simp only [State.queueReady, Bool.and_eq_true, Bool.not_eq_true'] at ready
  exact ready.1.2

theorem ctx_of_not_held {x : Queue} (free : x.held = false) : x.ctx = none := by
  simp only [Queue.held, Bool.or_eq_false_iff, Option.isSome_eq_false_iff, Option.isNone_iff_eq_none] at free
  exact free.2

/-! ### What a load leaves out of its acceptance, being no collective -/

/-- The ops of the other commands lie beside those of the collectives (Table 08-3). -/
theorem op_of_load {c : Cmd} (load : c.isColl = false) : c.op = 0 ∨ 0x0D < c.op := by
  have outside := mt isColl_iff.mpr (Bool.eq_false_iff.mp load)
  omega

theorem usesEngines_of_load {c : Cmd} (load : c.isColl = false) : c.usesEngines = false := by
  have outside := op_of_load load
  refine Bool.eq_false_iff.mpr fun uses => ?_
  simp only [Cmd.usesEngines, Cmd.loadedProg, load, Cmd.isReduce, Bool.false_and, Bool.false_or, Bool.or_eq_true, Bool.and_eq_true,
    decide_eq_true_eq, beq_iff_eq] at uses
  omega

/-- What is latched of a load: no comparator, no lock. -/
def State.loadColl (s : State) (q : Nat) (c : Cmd) : Coll := { s.newColl q c [] with cmp := none, locks := [] }

/-- A load is counted, and its payload in the staging area locked (R556). -/
def State.countLoad (s : State) (q : Nat) (c : Cmd) : State :=
  let n := s.noteAccept q c
  if opLoads c.op then { n with host.locks := n.host.locks ++ [(c.elements, c.chunkBytes, q)] } else n

/-- The state in which an accepted load with object `b` waits at the head of its queue. -/
def State.holdLoad (s : State) (q : Nat) (c : Cmd) (b : List Byte) : State :=
  (s.countLoad q c).putQueue q { (s.countLoad q c).queue q with wait := some (s.loadColl q c), obj := b }

theorem audHold_countLoad (s : State) (q : Nat) (c : Cmd) : (s.countLoad q c).audHold = (s.noteAccept q c).audHold := by
  simp only [State.countLoad]
  split <;> rfl

section
variable {s : State} {q : Nat} {c : Cmd} {b : List Byte} (load : c.isColl = false)
include load

theorem normOpen_of_load (step : Nat) : s.normOpen c step = s := by
  have other : c.op ≠ 0x0C := fun update => by have := op_of_load load; omega
  simp only [State.normOpen, other, false_and, if_false]
  split <;> rfl

/-- A load that launches by no turn reserves no comparator. -/
theorem reserveCmps_of_load (unlaunched : c.launch = false) : s.reserveCmps c = (none, [], s) := by
  have other : c.op ≠ 0x0B := fun barrier => by have := op_of_load load; omega
  simp only [State.reserveCmps, State.lockHandles, Cmd.loadedProg, load, unlaunched, other, Bool.false_and, Bool.false_eq_true, if_false,
    List.zip_nil_left, List.foldl_nil]

theorem queue_countLoad : (s.countLoad q c).queue q = s.queue q := by
  simp only [State.countLoad, State.noteAccept, load, Bool.not_false, if_true]
  split <;> rfl

theorem queue_holdLoad : (s.holdLoad q c b).queue q = { s.queue q with wait := some (s.loadColl q c), obj := b } := by
  rw [State.holdLoad, queue_countLoad load]
  exact SMap.get_set_self _ _ _

/-! ### Acceptance -/

/-- A load that launches by no turn, while no audit hold stands, is accepted and goes as far as it can. -/
theorem accept_of_load (unlaunched : c.launch = false) (free : (s.countLoad q c).audHold = false) :
    s.accept q c [] b = (s.holdLoad q c b).advance q := by
  have noEngines : (s.loadColl q c).engs = [] := ite_self _
  have bound (u : State) : u.bindStreams (waitOwner q) (s.loadColl q c) = u := by rw [State.bindStreams, noEngines, List.foldl_nil]
  have copied (u : State) : u.copyPrograms (s.loadColl q c) = u := by
    simp only [State.copyPrograms, noEngines, List.foldl_nil]
    split <;> rfl
  rw [audHold_countLoad] at free
  simp only [State.accept, reserveCmps_of_load load unlaunched, normOpen_of_load load, free, Bool.false_eq_true, if_false]
  exact congrArg (State.advance · q) ((copied _).trans (bound _))

end

/-! ### The start (phase 4) -/

section
variable {s z : State} {q : Nat} {c : Cmd}

/-- A load with nothing to wait for starts. -/
theorem advance_of_load {k : Coll} (alone : (s.queue q).ctx = none) (wait : (s.queue q).wait = some k) (load : k.cmd.isColl = false)
    (timeless : k.cmp = none) (unlaunched : k.cmd.launch = false) (bankless : s.sw.writing.any (fun y => y.queue == q) = false)
    (joined : s.get F.LEV_STATUS_isolated = 0) (ready : s.loadReady k.cmd (s.queue q).obj = true) : s.advance q = s.startLoad q k.cmd false := by
  simp only [State.advance, alone, wait, load, timeless, unlaunched, bankless, joined, ready, Bool.false_eq_true, if_false, Bool.or_self,
    beq_self_eq_true, Bool.and_self, Bool.or_true, if_true, Option.isSome_none, Bool.false_and]

/-- A load need not wait while no audit hold stands, and one of a routing bank while none is written and its own is free (R351, R380). -/
theorem loadReady_of_free {b : List Byte} (free : s.audHold = false) (routes : c.op = 0x30 → s.sw.writing = none ∧ s.routesReady b = true) :
    s.loadReady c b = true := by
  simp only [State.loadReady, free, Bool.not_false, Bool.true_and, Bool.or_eq_true, bne_iff_ne, Bool.and_eq_true, Option.isNone_iff_eq_none]
  exact (Classical.em (c.op = 0x30)).elim (fun bank => .inr (routes bank)) .inl

theorem startLoad_of_error {r : Nat} (fails : s.loadEffect c (s.queue q).obj = .error (r, z)) :
    s.startLoad q c false = (z.reject q c r).unlock_ q := by
  simp only [State.startLoad, Bool.false_eq_true, if_false, fails]

section
variable (passes : s.loadEffect c (s.queue q).obj = .ok z)
include passes

theorem startLoad_of_ok (bankless : c.op ≠ 0x30 ∨ routeMode (s.queue q).obj = 2) : s.startLoad q c false = z.finishLoad q c s.turn := by
  have whole : ¬ (c.op = 0x30 ∧ routeMode (s.queue q).obj ≠ 2) := fun ⟨routes, bank⟩ => bankless.elim (· routes) bank
  simp only [State.startLoad, Bool.false_eq_true, if_false, passes, if_neg whole]

/-- A load that writes a routing bank is under way until it has written it (R381). -/
theorem startLoad_of_bank (routes : c.op = 0x30) (bank : routeMode (s.queue q).obj ≠ 2) :
    s.startLoad q c false = s.beginRoutes q (s.queue q).obj c.launch := by
  simp only [State.startLoad, Bool.false_eq_true, if_false, passes, if_pos (And.intro routes bank)]

end

end

/-! ### From the head of the queue to the start -/

/-- CMD_RESOURCES_GRANTED lets the accepted head of a queue go on. -/
theorem resourcesGranted_of_wait {s : State} {q : Fin 64} {k : Coll} (wait : (s.queue q).wait = some k) : resourcesGranted q s = s.advance q := by
  simp only [resourcesGranted, Queue.held, wait, Option.isSome_some, Bool.true_or, if_true]

/-- A load at the head of the queue served whose checks pass, and which need not wait, starts at once. -/
theorem headOp_of_load {s v w : State} {q : Fin 64} {c : Cmd} {op : Nat} {b : List Byte} (head : (s.queue q).cmds.head? = some c)
    (kind : c.op = op) (served : s.served = some q.val) (load : c.isColl = false) (first : (s.serves q).firstCheck q c [] = none)
    (object : (s.serves q).object q c = .ok (b, v)) (last : v.lastCheck c = none) (passes : v.loadEffect c b = .ok w)
    (same : v.queue q = s.queue q) (unlaunched : c.launch = false) (free : (v.countLoad q c).audHold = false)
    (joined : (v.holdLoad q c b).get F.LEV_STATUS_isolated = 0)
    (bankless : (v.holdLoad q c b).sw.writing.any (fun y => y.queue == q.val) = false)
    (routes : c.op = 0x30 → (v.holdLoad q c b).sw.writing = none ∧ (v.holdLoad q c b).routesReady b = true) :
    headOp op q [] s = (v.holdLoad q c b).startLoad q c false := by
  have queue := queue_holdLoad (s := v) (q := q) (b := b) load
  have alone : ((v.holdLoad q c b).queue q).ctx = none := by
    rw [queue, same]
    exact ctx_of_not_held (x := s.queue q) (held_of_served served)
  have wait : ((v.holdLoad q c b).queue q).wait = some (v.loadColl q c) := by rw [queue]
  have ready : (v.holdLoad q c b).loadReady c ((v.holdLoad q c b).queue q).obj = true := by
    rw [queue]
    exact loadReady_of_free (s := v.holdLoad q c b) free routes
  calc headOp op q [] s = s.phase2 q c [] := headOp_of_served head kind served (.inl (usesEngines_of_load load))
    _ = v.accept q c [] b := phase2_of_load_ok first load object last passes
    _ = (v.holdLoad q c b).advance q := accept_of_load load unlaunched free
    _ = (v.holdLoad q c b).startLoad q c false :=
      advance_of_load (k := v.loadColl q c) alone wait load rfl unlaunched bankless joined ready

/-- Settles O41: an accepted load that need not wait starts at once, and its effect decides how the start ends. -/
theorem loadsTakeEffect : Obligations.LoadsTakeEffect := by
  unfold Obligations.LoadsTakeEffect
  intro s q c b v w z r k
  refine ⟨?_, ?_⟩
  · intro u e row head kind served first object last passes same unlaunched n₀ n k held free joined bankless routes
    have run : exec e.1 s = done (headOp e.2 q [] s) := exec_loadRows s q e row
    have load : c.isColl = false := isColl_of_loadRows row kind
    have started : headOp e.2 q [] s = held.startLoad q c false :=
      headOp_of_load head kind served load first object last passes same unlaunched free joined bankless routes
    have obj : (held.queue q).obj = b := congrArg Queue.obj (queue_holdLoad (s := v) (q := q) (b := b) load)
    refine ⟨fun effect whole => completes run (started.trans ?_), fun effect bank mode => completes run (started.trans ?_)⟩
    · exact startLoad_of_ok (obj.symm ▸ effect) (obj.symm ▸ whole)
    · rw [startLoad_of_bank (obj.symm ▸ effect) bank (obj.symm ▸ mode), obj, unlaunched]
  · intro alone wait load timeless unlaunched bankless joined ready fails
    refine completes rfl ?_
    calc resourcesGranted q s = s.advance q := resourcesGranted_of_wait wait
      _ = s.startLoad q k.cmd false := advance_of_load alone wait load timeless unlaunched bankless joined ready
      _ = (z.reject q k.cmd r).unlock_ q := startLoad_of_error fails

end Sys2Proof.Machine
end

section
/-!
PROOFS. The passes of an update (R303, R305, R308 to R310): what UPDATE_PASS_START runs, and for what it waits.
-/
namespace Sys2Proof.Machine
open Sys2Proof

section
variable {s : State} {x : Nat} {miss : List Miss} {j : Job} (job : s.job x miss = some j)
include job

theorem passStart_of_ended (idle : j.c.phase = 0 ∨ j.f.ended = true) : passStart x miss s = s := by
  simp only [passStart, job, if_pos idle]

variable (begun : j.c.phase ≠ 0) (working : j.f.ended = false)
include begun working

/-- An embedding update runs whole (R319). -/
theorem passStart_of_embedding (embedding : j.f.dense = false) : passStart x miss s = (s.embedUpdate j).settle x := by
  simp only [passStart, job, begun, working, embedding, Bool.false_eq_true, or_self, if_false, Bool.not_false, if_true]

variable (dense : j.f.dense = true)
include dense

/-- No pass starts of an update that is streamed, lacks a gradient chunk, or has had all its passes. -/
theorem passStart_of_none_due (idle : j.streamed = true ∨ ¬ (s.rootChunks j.c).all j.f.fed.contains = true ∨ j.f.pass ≥ j.r.passes) :
    passStart x miss s = s := by
  simp only [passStart, job, begun, working, dense, Bool.false_eq_true, or_self, if_false, Bool.not_true]
  exact if_pos (by simpa only [Bool.not_eq_true', Bool.not_eq_true] using idle)

variable (staged : j.streamed = false) (fed : (s.rootChunks j.c).all j.f.fed.contains = true) (more : j.f.pass < j.r.passes)
include staged fed more

theorem passStart_of_unclipped (unclipped : j.r.clip = false) : passStart x miss s = (s.runPass j (j.f.pass + 1)).settle x := by
  simp only [passStart, job, begun, working, dense, staged, fed, Nat.not_le.mpr more, unclipped, Bool.false_eq_true, or_self, if_false,
    Bool.not_true, Bool.not_false, if_true]

variable {n : Norm} (clipped : j.r.clip = true) (norm : s.nor.norms.find j.h.record.nset = some n)
include clipped norm

/-- A clipped update waits for the norm of its own step (R308). -/
theorem passStart_of_norm_awaited (awaited : n.complete = false ∨ n.step ≠ j.c.step) : passStart x miss s = s := by
  simp only [passStart, job, begun, working, dense, staged, fed, Nat.not_le.mpr more, clipped, norm, Bool.false_eq_true, or_self, if_false,
    Bool.not_true]
  exact if_pos (awaited.imp_left (Bool.not_eq_true' _).mpr)

variable (complete : n.complete = true) (step : n.step = j.c.step)
include complete step

/-- A non-finite norm has the update skipped where the rule says so (R310). -/
theorem passStart_of_skip (nonFinite : n.total.nonFinite = true) (skip : j.r.nfSkip = true) :
    passStart x miss s = (s.skipUpdate j).settle x := by
  simp only [passStart, job, begun, working, dense, staged, fed, Nat.not_le.mpr more, clipped, norm, complete, step, nonFinite, skip,
    Bool.false_eq_true, or_self, if_false, Bool.not_true, ne_eq, not_true_eq_false, and_self, if_true]

/-- The pass of a clipped update runs with the clip factor of its norm, which is noted as used (R309). -/
theorem passStart_of_norm (runs : n.total.nonFinite = false ∨ j.r.nfSkip = false) :
    passStart x miss s = (State.runPass { s with nor.norms := s.nor.norms.put j.h.record.nset { n with used := some n.factor } }
      { j with f := { j.f with k := n.factor } } (j.f.pass + 1)).settle x := by
  have unskipped : ¬ (n.total.nonFinite = true ∧ j.r.nfSkip = true) := not_and_or.mpr (runs.imp Bool.eq_false_iff.mp Bool.eq_false_iff.mp)
  simp only [passStart, job, begun, working, dense, staged, fed, Nat.not_le.mpr more, clipped, norm, complete, step, if_neg unskipped,
    Bool.false_eq_true, or_self, if_false, Bool.not_true, ne_eq, not_true_eq_false]

end

/-- Settles O26, by the order in which UPDATE_PASS_START asks: is there work, of which kind, are its gradients in, and is its norm complete. -/
theorem updatePasses : Obligations.UpdatePasses := by
  unfold Obligations.UpdatePasses
  intro s x miss j n job i inputs
  refine ⟨fun idle => ?_, fun begun working embedding => ?_, fun begun working dense idle => ?_,
    fun begun working dense staged fed more => ⟨fun unclipped => ?_, fun clipped norm => ⟨fun awaited => ?_,
      fun complete step nonFinite skip => ?_, fun complete step runs => ?_⟩⟩⟩
  · exact completes rfl (passStart_of_ended job idle)
  · exact completes rfl (passStart_of_embedding job begun working embedding)
  · exact completes rfl (passStart_of_none_due job begun working dense idle)
  · exact completes rfl (passStart_of_unclipped job begun working dense staged fed more unclipped)
  · exact completes rfl (passStart_of_norm_awaited job begun working dense staged fed more clipped norm awaited)
  · exact completes rfl (passStart_of_skip job begun working dense staged fed more clipped norm complete step nonFinite skip)
  · exact completes rfl (passStart_of_norm job begun working dense staged fed more clipped norm complete step runs)

end Sys2Proof.Machine
end

section
/-!
PROOFS. Snapshots and restores (R321 to R324): how a snapshot ends, and how a restore begins, takes its segments, and ends.
-/
namespace Sys2Proof.Machine
open Sys2Proof

/-- A register command acts while the block is ready and not in D3hot. -/
theorem State.bar_of_open {s : State} (f : State → State) (opened : s.ready = true ∧ s.host.d3hot = false) : s.bar f = f s := by
  obtain ⟨ready, awake⟩ := opened
  simp only [State.bar, ready, awake, Bool.not_false, Bool.and_self, if_true]

theorem filter_ne_eq_filter_bne (l : List Nat) (m : Nat) : l.filter (· ≠ m) = l.filter (· != m) :=
  List.filter_congr fun q _ => by simp only [bne, beq_eq_decide, decide_not]

/-! ### Snapshots (R321 to R323) -/

section
variable {s : State} {n : Fin 1024} {h : Shard} {p : Snap}

theorem snapReq_of_shard (known : s.shard n = some h) : snapReq n s = s.putShard n { h with wanted := true } := by
  simp only [snapReq, known]

theorem snapTimeout_of_running (known : s.shard n = some h) (running : h.snap = some p) : snapTimeout n s = s.snapFail n h p := by
  simp only [snapTimeout, known, running]

end

section
variable {s : State} {status : BitVec 8} {seg : BitVec 32} {t object : BitVec 64} {k : Nat} {h : Shard} {p : Snap}
  (running : s.snapOf object.toNat t.toNat = some (k, h, p))
include running

theorem snapAck_of_failure (fails : status ≠ 0) : snapAck status seg t object s = s.snapFail k h p := by
  simp only [snapAck, running, if_pos fails]

variable (success : status = 0) {owed : List Nat} (left : p.owed.filter (· ≠ seg.toNat) = owed)
include success left

theorem snapAck_of_owed (more : owed ≠ []) :
    snapAck status seg t object s = s.putShard k { h with snap := some { p with owed := owed } } := by
  have left : p.owed.filter (· != seg.toNat) = owed := (filter_ne_eq_filter_bne _ _).symm.trans left
  simp only [snapAck, running, if_neg (not_not.mpr success), left, if_neg (mt List.isEmpty_iff.mp more)]

/-- The last segment acknowledged ends the snapshot (R323). -/
theorem snapAck_of_last (last : owed = []) :
    snapAck status seg t object s = (((s.putShard k { h with snap := none }).inc F.SNAP_COUNT_done).snapNotice k p.t).snapNext k := by
  have left : p.owed.filter (· != seg.toNat) = owed := (filter_ne_eq_filter_bne _ _).symm.trans left
  simp only [snapAck, running, if_neg (not_not.mpr success), left, if_pos (List.isEmpty_iff.mpr last)]

end

/-! ### The start of a restore -/

section
variable {s : State} {n : Fin 1024} {port : BitVec 8} {h : Shard}

/-- NOR_RESTORE on a shard that is neither EMPTY nor LOST, or is none, is counted as rejected (R549). -/
theorem norRestore_of_unfit (unfit : s.shard n = none ∨ (s.shard n = some h ∧ h.st ≠ 0 ∧ h.st ≠ 5)) :
    norRestore n port s = (s.inc F.NOR_REJ_COUNT_rej).set F.NOR_REJ_ADDR_addr R.NOR_RESTORE := by
  rcases unfit with unknown | ⟨known, busy⟩
  · simp only [norRestore, unknown]
  · simp only [norRestore, known, if_pos busy]

theorem norRestore_of_fit (known : s.shard n = some h) (fit : h.st = 0 ∨ h.st = 5) :
    norRestore n port s =
      (s.putShard n { h with st := 4, restore := some ⟨port.toNat, s.get F.NOR_RESTORE_OBJ_object, [], none, 0⟩ }).emit
        (.msg (s.endpoint port.toNat) clsD (leBytes (packBits [(0, 8, 0x32), (128, 64, s.get F.NOR_RESTORE_OBJ_object)]) 32)) := by
  have idle : ¬ (h.st ≠ 0 ∧ h.st ≠ 5) := by simpa only [ne_eq, not_and_or, not_not] using fit
  simp only [norRestore, known, if_neg idle]

end

/-! ### Segments that return -/

/-- The tag that a segment returned to a restore must carry (R322, Table 09-12). -/
def State.restoreTag (s : State) (n : Nat) (h : Shard) (r : Restore) (last : Bool) (seg t : Nat) (ct : List Byte) : List Byte :=
  gcmTag (s.snapKeyOf h.record.tenant r.object) (segNonce n t seg) (segHeader last n seg t r.object ct.length) ct

/-- A restore with one more segment, deciphered. -/
def State.restoreKeep (s : State) (n : Nat) (h : Shard) (r : Restore) (last : Bool) (seg t : Nat) (ct : List Byte) : Restore :=
  { r with
    segs := r.segs.put seg (gcmCrypt (s.snapKeyOf h.record.tenant r.object) (segNonce n t seg) ct)
    last := if last then some seg else r.last
    t := t }

/-- Are the segments 0 to k in? -/
def Restore.whole (r : Restore) (k : Nat) : Prop := ∀ i < k + 1, (r.segs.find i).isSome = true

theorem Restore.all_iff_whole {r : Restore} {k : Nat} : (List.range (k + 1)).all (fun i => (r.segs.find i).isSome) = true ↔ r.whole k := by
  simp only [Restore.whole, List.all_eq_true, List.mem_range]

/-- Segment 0, the manifest (Table 09-15). -/
def Restore.manifest (r : Restore) : List Byte := (r.segs.find 0).getD []

/-- The image: the segments behind the manifest. -/
def Restore.image (r : Restore) (k : Nat) : List Byte := ((List.range k).map (fun i => (r.segs.find (i + 1)).getD [])).flatten

/-- A restore whose segments so far are those of `r` goes on while one is missing, and otherwise ends as the checks of its image say (R324). -/
def State.restoreOn (s : State) (n : Nat) (h : Shard) (r : Restore) : State :=
  match r.last with
  | none => s.putShard n { h with restore := some r }
  | some k =>
    if !(List.range (k + 1)).all (fun i => (r.segs.find i).isSome) then s.putShard n { h with restore := some r }
    else match imagePlanes h r.manifest (r.image k) with
      | none => (s.putShard n { h with st := 0, restore := none }).inc F.SNAP_COUNT_failed
      | some (h1, planes) => (s.putImage h1 planes).putShard n { h1 with
          st := 1, live := 0, t := fieldOf r.manifest 0x80 8, ver0 := fieldOf r.manifest 0x88 4, ver1 := 2 ^ 32, restore := none, skipped := false }

section
variable {s : State} {n : Nat} {h : Shard} {r : Restore}

theorem restoreOn_of_endless (endless : r.last = none) : s.restoreOn n h r = s.putShard n { h with restore := some r } := by
  simp only [State.restoreOn, endless]

variable {k : Nat} (ended : r.last = some k)
include ended

theorem restoreOn_of_missing (missing : ¬ r.whole k) : s.restoreOn n h r = s.putShard n { h with restore := some r } := by
  have missing := Bool.eq_false_iff.mpr (mt Restore.all_iff_whole.mp missing)
  simp only [State.restoreOn, ended, missing, Bool.not_false, if_true]

variable (whole : r.whole k)
include whole

theorem restoreOn_of_bad_image (bad : imagePlanes h r.manifest (r.image k) = none) :
    s.restoreOn n h r = (s.putShard n { h with st := 0, restore := none }).inc F.SNAP_COUNT_failed := by
  simp only [State.restoreOn, ended, Restore.all_iff_whole.mpr whole, bad, Bool.not_true, Bool.false_eq_true, if_false]

theorem restoreOn_of_image {h1 : Shard} {planes : List (List Byte)} (sound : imagePlanes h r.manifest (r.image k) = some (h1, planes)) :
    s.restoreOn n h r = (s.putImage h1 planes).putShard n { h1 with
      st := 1, live := 0, t := fieldOf r.manifest 0x80 8, ver0 := fieldOf r.manifest 0x88 4, ver1 := 2 ^ 32, restore := none,
      skipped := false } := by
  simp only [State.restoreOn, ended, Restore.all_iff_whole.mpr whole, sound, Bool.not_true, Bool.false_eq_true, if_false]

end

section
variable {s : State} {n : Fin 1024} {last : Bool} {seg : BitVec 32} {t object : BitVec 64} {ct tag : List Byte} {h : Shard} {r : Restore}
  (known : s.shard n = some h) (restoring : h.restore = some r) (same : r.object = object.toNat)
include known restoring same

theorem restoreSegment_of_forged (forged : s.restoreTag n h r last seg.toNat t.toNat ct ≠ tag) :
    restoreSegment n last seg t object ct tag s =
      ((s.putShard n { h with st := 0, restore := none }).inc F.SNAP_COUNT_failed).sigTrap 0x0B 0 0 ⟨4, 0xFFFFFFFF, r.port⟩ := by
  simp only [restoreSegment, known, restoring, if_neg (not_not.mpr same)]
  exact if_pos forged

theorem restoreSegment_of_genuine (genuine : s.restoreTag n h r last seg.toNat t.toNat ct = tag) :
    restoreSegment n last seg t object ct tag s = s.restoreOn n h (s.restoreKeep n h r last seg.toNat t.toNat ct) := by
  simp only [restoreSegment, known, restoring, if_neg (not_not.mpr same)]
  exact if_neg (not_not.mpr genuine)

end

/-- Settles O28: one lemma for each way a snapshot or a restore can go. -/
theorem snapshotsAndRestores : Obligations.SnapshotsAndRestores := by
  unfold Obligations.SnapshotsAndRestores
  intro s n port last status seg tt object ct tag h h1 p r k planes asked
  refine ⟨fun opened known => ?_, fun running => ⟨fun fails => ?_, fun success more => ?_, fun success ended => ?_⟩, fun known running => ?_,
    fun u => ?_, fun opened unfit => ?_, fun opened known fit => ?_, fun known restoring same => ⟨fun forged => ?_, fun genuine part => ?_,
      fun genuine ended whole => ?_⟩⟩
  · exact completes rfl ((State.bar_of_open _ opened).trans (snapReq_of_shard known))
  · exact completes rfl (snapAck_of_failure running fails)
  · exact completes rfl (snapAck_of_owed running success rfl more)
  · exact completes rfl (snapAck_of_last running success rfl ended)
  · exact completes rfl (snapTimeout_of_running known running)
  · rfl
  · exact completes rfl ((State.bar_of_open _ opened).trans (norRestore_of_unfit unfit))
  · exact completes rfl ((State.bar_of_open _ opened).trans (norRestore_of_fit known fit))
  · exact completes rfl (restoreSegment_of_forged known restoring same forged)
  · have goesOn := restoreSegment_of_genuine known restoring same genuine
    rcases part with endless | ⟨ended, missing⟩
    · exact completes rfl (goesOn.trans (restoreOn_of_endless endless))
    · exact completes rfl (goesOn.trans (restoreOn_of_missing ended missing))
  · have goesOn := restoreSegment_of_genuine known restoring same genuine
    exact ⟨fun bad => completes rfl (goesOn.trans (restoreOn_of_bad_image ended whole bad)),
      fun sound => completes rfl (goesOn.trans (restoreOn_of_image ended whole sound))⟩

end Sys2Proof.Machine
end

section
/-!
PROOFS. COMMIT_APPLY with two COMMITs of one step armed (R316): the one with the earlier turn takes effect, whichever arrived first.
-/
namespace Sys2Proof.Machine
open Sys2Proof

/-- The block after reset at turn 5, where a COMMIT of step 3 for turn 9 has arrived, and after it one for turn 5. -/
def twoCommits : State := { State.reset with nor.armed := [(3, 9), (3, 5)], turn := 5 }

/-- The COMMIT for turn 5 takes effect, and that for turn 9 stays armed. -/
theorem armed_commitTurn_twoCommits : (commitTurn 3 twoCommits).nor.armed = [(3, 9)] := by decide +kernel

/-- Refutes O43: its first clause takes the armed COMMIT of the step that arrived first, and has nothing change before that one's turn.
`commitTurn` takes the one with the earliest turn, as R316 has each COMMIT take effect at its own: in `twoCommits` the COMMIT for turn 5 is
due, while the clause waits for turn 9. (The clause on the close of the present step fails too: it has bit 1 of the word of STEP_STATUS
written, which the model leaves alone, for a read takes it from `State.closing`.) -/
theorem not_stepDecisions : ¬ Obligations.StepDecisions := by
  unfold Obligations.StepDecisions
  intro h
  obtain ⟨commits, -⟩ := h twoCommits 3 0 [] 0 0 0 0 0 0 0 0 0 0 0 (3, 9) 0 0 0 (0, 0)
  obtain ⟨-, early⟩ := commits rfl
  obtain ⟨t, run, unchanged⟩ := early (by decide)
  obtain ⟨t', run', committed⟩ := completes (i := .commitApply 3) (s := twoCommits) (u := commitTurn 3 twoCommits) rfl rfl
  obtain rfl : t = t' := Host.Outcome.next.inj (run.symm.trans run')
  have stays : t.nor.armed = [(3, 9), (3, 5)] := congrArg Noria.armed unchanged.nor
  have applied : t.nor.armed = [(3, 9)] := (congrArg Noria.armed committed.nor).trans armed_commitTurn_twoCommits
  exact absurd (stays.symm.trans applied) (by decide)

end Sys2Proof.Machine
end

section
/-!
PROOFS. The registers that the delivery of interrupts leaves alone.
-/
namespace Sys2Proof.Machine
open Sys2Proof

/-- A register outside the run of INT_VEC counts no interrupt messages (Table 17-9). -/
theorem not_isVecReg {a : Nat} (outside : a < R.INT_VEC 0 ∨ R.INT_VEC 63 < a) : ¬ isVecReg a := by
  rintro ⟨v, inside, same⟩
  simp only [R.INT_VEC] at outside same
  omega

end Sys2Proof.Machine
end

section
/-!
PROOFS. TIME_RESP with a large offset on a module that is locked (R338, R339): the fall of `locked` is a timing event, which the audit counts.
-/
namespace Sys2Proof.Machine
open Sys2Proof

/-- The block after reset, but that time is on and locked; it is not the master. -/
def lockedModule : State := (State.reset.set F.TIME_CTL_en 1).set F.TIME_STATUS_locked 1

/-- A TIME_RESP that measures 50 sixteenths of a turn unlocks, and the audit counts the timing event 14 of the step (Table 10-2). -/
theorem perts_timeResp_lockedModule : (timeResp 0 0 100 0 0 lockedModule).det.audit.perts.rd 14 = 1 := by decide +kernel

/-- Refutes O31: its clause on TIME_RESP has nothing of the state but registers, interrupts, messages, the turn counter and the time base change.
An offset above 2 ns unlocks (R339), which is a timing event of the step (R330, Table 10-2, code 14), and `unlock` counts it among those of the
audit too: in `lockedModule` that count goes from 0 to 1. -/
theorem not_timeExchange : ¬ Obligations.TimeExchange := by
  unfold Obligations.TimeExchange
  intro h
  obtain ⟨-, -, -, -, -, measured, -⟩ := h lockedModule 0 0 0 0 0 0 100 0
  obtain ⟨t, run, frame, -⟩ := measured (by decide +kernel) (by decide +kernel) rfl rfl
  obtain ⟨t', run', settled⟩ :=
    completes (i := .timeResp 0 0 100 0 0) (s := lockedModule) (u := timeResp 0 0 100 0 0 lockedModule) rfl rfl
  obtain rfl : t = t' := Host.Outcome.next.inj (run.symm.trans run')
  have uncounted : t.det.audit.perts.rd 14 = 0 := by rw [frame]; rfl
  have counted : t.det.audit.perts.rd 14 = 1 := by rw [settled.det, perts_timeResp_lockedModule]
  exact absurd (uncounted.symm.trans counted) (by decide)

end Sys2Proof.Machine
end

section
/-!
PROOFS. The watermaster, the fault manager and heartbeats (R481, R486, R488, R498): who acts on a message, and what then is forwarded.
-/
namespace Sys2Proof.Machine
open Sys2Proof

/-! ### A module that is not the watermaster -/

section
variable {s : State} {m : BitVec 256} (other : ¬ s.actsWm = true)
include other

theorem trapNoticeIn_of_other : trapNoticeIn m s = s := if_pos (by simpa using other)

theorem faultReportIn_of_other : faultReportIn m s = s := if_pos (by simpa using other)

theorem stragglerIn_of_other : stragglerIn m s = s := if_pos (by simpa using other)

theorem orderAckIn_of_other : orderAckIn m s = s := if_pos (by simpa using other)

theorem fmOrder_of_other : fmOrder m s = s := if_pos (.inl (by simpa using other))

theorem heartbeatSend_of_other : heartbeatSend s = s := if_pos (.inl (by simpa using other))

end

/-! ### The watermaster -/

section
variable {s : State} {m : BitVec 256}

theorem heartbeatSend_of_alone (alone : s.get F.WM_CTL_standby = 0xFFFF) : heartbeatSend s = s := if_pos (.inr alone)

theorem fmOrder_of_no_session (sessionless : s.fmSession = none) : fmOrder m s = s := if_pos (.inr (Option.isNone_iff_eq_none.mpr sessionless))

variable (wm : s.actsWm = true)
include wm

theorem trapNoticeIn_of_wm : trapNoticeIn m s = s.fmSend (leBytes m.toNat 32) := by
  simp only [trapNoticeIn, wm, Bool.not_true, Bool.false_eq_true, if_false]

theorem orderAckIn_of_wm : orderAckIn m s = s.fmSend (leBytes m.toNat 32) := by
  simp only [orderAckIn, wm, Bool.not_true, Bool.false_eq_true, if_false]

theorem stragglerIn_of_wm : stragglerIn m s = (s.fmSend (leBytes m.toNat 32)).intEvent 16 := by
  simp only [stragglerIn, wm, Bool.not_true, Bool.false_eq_true, if_false]

/-- A fault report of severity 1 or 2 asks for a decision in manager mode, and has its sender fenced where FLT_POLICY says so (R486, R488). -/
theorem faultReportIn_of_wm : faultReportIn m s =
    let from_ := bits m.toNat 16 16
    let kind := bits m.toNat 8 8
    let bad := bits m.toNat 48 2 = 1 ∨ bits m.toNat 48 2 = 2
    let u := if s.get F.LEV_CTL_mode = 1 ∧ bad then s.fmAsk (leBytes m.toNat 32) (some from_) none else s.fmSend (leBytes m.toNat 32)
    if bad ∧ 1 ≤ kind ∧ kind ≤ 16 ∧ bit (u.get F.FLT_POLICY_propose) (kind - 1) then u.propose 2 from_ 0xFF kind else u := by
  simp only [faultReportIn, wm, Bool.not_true, Bool.false_eq_true, if_false, Bool.or_eq_true, beq_iff_eq]

theorem heartbeatSend_of_standby (standby : s.get F.WM_CTL_standby ≠ 0xFFFF) :
    heartbeatSend s = s.sendMod (s.get F.WM_CTL_standby) 0x85 32 [(64, 64, s.turn), (128, 64, s.get F.NOR_LAST_COMMIT_step)] := by
  simp only [heartbeatSend, wm, standby, Bool.not_true, Bool.false_eq_true, or_self, if_false]

/-! ### The fault manager's orders -/

variable (session : s.fmSession.isSome = true)
include session

theorem fmOrder_of_decision (decides : bits m.toNat 0 8 = 0x10 ∨ bits m.toNat 0 8 = 0x11) :
    fmOrder m s = s.decideStep (bits m.toNat 0 8) (bits m.toNat 64 64) := by
  simp only [fmOrder, wm, Option.isNone_eq_false_iff.mpr session, Bool.not_true, Bool.false_eq_true, or_self, if_false, if_pos decides]

/-- A WM_ORDER decides the reports about its target, and goes to it, a FENCE to the whole domain with its apply turn. -/
theorem fmOrder_of_order (order : bits m.toNat 0 8 = 0x83) : fmOrder m s =
    let target := bits m.toNat 32 16
    let fence := bits m.toNat 8 8 = 1
    let l := [(0, 8, 0x83), (8, 8, bits m.toNat 8 8), (16, 16, s.me), (32, 160, bits m.toNat 32 160),
      (192, 64, if fence then s.turn + 1000000 else bits m.toNat 192 64)]
    let u := { s with flt.fm := s.flt.fm.filter (fun r => r.module != some target) }
    (if fence then u.domain else [target]).foldl (fun u t => u.send (moduleAddr t) clsS 32 l) u := by
  have undecided : ¬ (bits m.toNat 0 8 = 0x10 ∨ bits m.toNat 0 8 = 0x11) := by omega
  simp only [fmOrder, wm, Option.isNone_eq_false_iff.mpr session, Bool.not_true, Bool.false_eq_true, or_self, if_false, if_neg undecided,
    if_neg (not_not.mpr order), beq_iff_eq]

theorem fmOrder_of_other_type (commit : bits m.toNat 0 8 ≠ 0x10) (discard : bits m.toNat 0 8 ≠ 0x11) (order : bits m.toNat 0 8 ≠ 0x83) :
    fmOrder m s = s := by
  simp only [fmOrder, wm, Option.isNone_eq_false_iff.mpr session, Bool.not_true, Bool.false_eq_true, or_self, if_false, commit, discard,
    if_pos order]

end

/-! ### Reports kept for the fault manager, and its ports -/

section
variable {s : State} {k : Nat} {r : FmReport} (kept : s.flt.fm[k]? = some r)
include kept

theorem fmResend_of_due (due : r.since + 5000000000 ≤ s.beat) :
    fmResend k s = ({ s with flt.fm := setAt s.flt.fm k { r with since := s.beat } }.inc F.FM_RESEND_COUNT_resends).fmSend r.body := by
  simp only [fmResend, kept, if_neg (Nat.not_lt.mpr due)]

theorem fmResend_of_early (early : s.beat < r.since + 5000000000) : fmResend k s = s := by
  simp only [fmResend, kept, if_pos early]

end

/-- MANAGEMENT_PORT_CHANGE leaves the port as told, and the other one alone. -/
theorem bit_mgmtChange (port : Fin 2) (up : Bool) (s : State) (j : Nat) :
    bit (mgmtChange port up s).flt.mgmt j = if j = port.val then up else bit s.flt.mgmt j := by
  by_cases has : bit s.flt.mgmt port = up
  · have kept : (mgmtChange port up s).flt.mgmt = s.flt.mgmt := if_pos has
    rw [kept]
    split
    · next same => rw [same, has]
    · rfl
  · have flipped : (mgmtChange port up s).flt.mgmt = s.flt.mgmt ^^^ 2 ^ port.val := by
      rw [← Nat.one_shiftLeft]
      exact if_neg has
    rw [flipped, bit, Nat.testBit_xor]
    split
    · next same =>
      rw [same, Nat.testBit_two_pow_self, Bool.xor_true]
      exact Bool.not_eq.mpr has
    · next differs => rw [Nat.testBit_two_pow_of_ne (Ne.symm differs), Bool.xor_false, bit]

/-! ### Heartbeats (R481) -/

section
variable {s : State}

theorem heartbeat_of_standby {sender : BitVec 16} (standby : s.get F.WM_CTL_role = 2) (wm : sender.toNat = s.get F.WM_CTL_wm) :
    heartbeat sender s = { s with flt.miss := 0, flt.hbAt := s.beat } := by
  simp only [heartbeat, standby, wm, ne_eq, not_true_eq_false, or_self, if_false]

theorem heartbeat_of_other {sender : BitVec 16} (other : s.get F.WM_CTL_role ≠ 2 ∨ sender.toNat ≠ s.get F.WM_CTL_wm) :
    heartbeat sender s = s := if_pos other

/-- The third miss in a row has the standby propose a fence of the watermaster. -/
theorem heartbeatMiss_of_due (standby : s.get F.WM_CTL_role = 2) (due : s.flt.hbAt + 1000 * s.get F.WM_CTL_hb ≤ s.beat) :
    heartbeatMiss s =
      let u := { s with flt.miss := s.flt.miss + 1, flt.hbAt := s.beat }
      if s.flt.miss + 1 < 3 then u else u.propose 2 (s.get F.WM_CTL_wm) 0xFF 0 := by
  simp only [heartbeatMiss, standby, Nat.not_lt.mpr due, ne_eq, not_true_eq_false, or_self, if_false]
  rfl

theorem heartbeatMiss_of_not_due (idle : s.get F.WM_CTL_role ≠ 2 ∨ s.beat < s.flt.hbAt + 1000 * s.get F.WM_CTL_hb) : heartbeatMiss s = s :=
  if_pos idle

end

/-- WM_ANNOUNCE writes the two names of WM_CTL and leaves the module's own role. -/
theorem get_announce (sender : BitVec 16) (s : State) : (announce sender s).get F.WM_CTL_wm = sender.toNat ∧
    (announce sender s).get F.WM_CTL_standby = 0xFFFF ∧ (announce sender s).get F.WM_CTL_role = s.get F.WM_CTL_role := by
  have two : announce sender s = (s.set F.WM_CTL_wm sender.toNat).set F.WM_CTL_standby 0xFFFF := rfl
  refine ⟨?_, ?_, ?_⟩
  · rw [two, State.get_set_of_disjoint _ _ _ _ (by decide) (by decide), State.get_set_self _ _ _ (by decide)]
    exact Nat.mod_eq_of_lt sender.isLt
  · rw [two, State.get_set_self _ _ _ (by decide)]
    rfl
  · rw [two, State.get_set_of_disjoint _ _ _ _ (by decide) (by decide), State.get_set_of_disjoint _ _ _ _ (by decide) (by decide)]

/-- Settles O44, message by message: who acts on it, and what it then does. -/
theorem watermasterAndManager : Obligations.WatermasterAndManager := by
  unfold Obligations.WatermasterAndManager
  intro s m k port up sender r wm
  refine ⟨fun other => ?_, fun wm => ⟨?_, ?_, ?_, ?_, fun sessionless => ?_, fun session => ⟨fun decides => ?_, fun order => ?_,
      fun commit discard order => ?_⟩, fun alone => ?_, fun standby => ?_⟩, fun kept => ⟨fun due => ?_, fun early => ?_⟩, ?_,
    fun standby own => ?_, fun idle => ?_, fun standby due => ?_, fun idle => ?_, ?_⟩
  · simp only [List.forall_mem_cons]
    exact ⟨completes rfl (trapNoticeIn_of_other other), completes rfl (faultReportIn_of_other other),
      completes rfl (stragglerIn_of_other other), completes rfl (orderAckIn_of_other other), completes rfl (fmOrder_of_other other),
      completes rfl (heartbeatSend_of_other other), List.forall_mem_nil _⟩
  · exact completes rfl (trapNoticeIn_of_wm wm)
  · exact completes rfl (orderAckIn_of_wm wm)
  · exact completes rfl (stragglerIn_of_wm wm)
  · exact completes rfl (faultReportIn_of_wm wm)
  · exact completes rfl (fmOrder_of_no_session sessionless)
  · exact completes rfl (fmOrder_of_decision wm session decides)
  · exact completes rfl (fmOrder_of_order wm session order)
  · exact completes rfl (fmOrder_of_other_type wm session commit discard order)
  · exact completes rfl (heartbeatSend_of_alone alone)
  · exact completes rfl (heartbeatSend_of_standby wm standby)
  · exact completes rfl (fmResend_of_due kept due)
  · exact completes rfl (fmResend_of_early kept early)
  · obtain ⟨t, run, settled⟩ := completes (i := .managementPortChange port up) (s := s) rfl rfl
    have mgmt : t.flt.mgmt = (mgmtChange port up s).flt.mgmt := congrArg Flt.mgmt settled.flt
    refine ⟨t, run, ?_, fun j differs => ?_, ?_⟩
    · rw [mgmt, bit_mgmtChange, if_pos rfl]
    · rw [mgmt, bit_mgmtChange, if_neg differs]
    · rw [mgmt]
      exact settled
  · exact completes rfl (heartbeat_of_standby standby own)
  · exact completes rfl (heartbeat_of_other idle)
  · exact completes rfl (heartbeatMiss_of_due standby due)
  · exact completes rfl (heartbeatMiss_of_not_due idle)
  · obtain ⟨t, run, settled⟩ := completes (i := .wmAnnounce sender) (s := s) rfl rfl
    obtain ⟨wm, standby, role⟩ := get_announce sender s
    have outside : ¬ isVecReg R.WM_CTL := not_isVecReg (by decide)
    exact ⟨t, run, settled, (settled.get _ outside).trans wm, (settled.get _ outside).trans standby, (settled.get _ outside).trans role⟩

end Sys2Proof.Machine
end

section
/-!
PROOFS. The memory levels by themselves (R461 to R477): retrain windows, migration, the thermal ladder of the stacks, the scrubber, the predictor.
-/
namespace Sys2Proof.Machine
open Sys2Proof

/-! ### Retraining (R469, R470) -/

/-- A retrain window opens: windows are set, its turn has come, no channel retrains, and it has not opened in this turn (R469). -/
def State.windowOpens (s : State) : Prop :=
  s.get F.LPD_RT_PERIOD_turns ≠ 0 ∧ s.get F.LPD_RT_BASE_turn ≤ s.turn ∧
    (s.turn - s.get F.LPD_RT_BASE_turn) % s.get F.LPD_RT_PERIOD_turns = 0 ∧ s.rsv.rt = none ∧
    s.rsv.rtWin ≠ (s.turn - s.get F.LPD_RT_BASE_turn) / s.get F.LPD_RT_PERIOD_turns + 1

/-- The window is noted, so that it opens once. -/
def State.openWindow (s : State) : State :=
  { s with rsv.rtWin := (s.turn - s.get F.LPD_RT_BASE_turn) / s.get F.LPD_RT_PERIOD_turns + 1 }

section
variable {s : State}

/-- The definition asks for what keeps a window closed. -/
theorem not_windowOpens_iff : ¬ s.windowOpens ↔ s.get F.LPD_RT_PERIOD_turns = 0 ∨ s.turn < s.get F.LPD_RT_BASE_turn ∨
    (s.turn - s.get F.LPD_RT_BASE_turn) % s.get F.LPD_RT_PERIOD_turns ≠ 0 ∨ s.rsv.rt.isSome ∨
    s.rsv.rtWin = (s.turn - s.get F.LPD_RT_BASE_turn) / s.get F.LPD_RT_PERIOD_turns + 1 := by
  simp only [State.windowOpens, not_and_or, not_not, Nat.not_le, ← ne_eq, Option.ne_none_iff_isSome]

theorem retrainWindow_of_closed (closed : ¬ s.windowOpens) : retrainWindow s = s := if_pos (not_windowOpens_iff.mp closed)

section
variable (opens : s.windowOpens)
include opens

theorem retrainWindow_of_channel {n : Nat} (chosen : s.openWindow.lpdChosen = some n) : retrainWindow s = s.openWindow.retrain n := by
  simp only [State.openWindow] at chosen ⊢
  simp only [retrainWindow, if_neg (mt not_windowOpens_iff.mpr (not_not.mpr opens)), chosen]

theorem retrainWindow_of_no_channel (none : s.openWindow.lpdChosen = none) : retrainWindow s = s.openWindow := by
  simp only [State.openWindow] at none ⊢
  simp only [retrainWindow, if_neg (mt not_windowOpens_iff.mpr (not_not.mpr opens)), none]

end

theorem retrainEnd_of_idle (waited : Bool) (idle : s.rsv.rt = none) : retrainEnd waited s = s := by simp only [retrainEnd, idle]

theorem retrainTimeout_of_idle (idle : s.rsv.rt = none) : retrainTimeout s = s := by simp only [retrainTimeout, idle]

section
variable {n t0 : Nat} (retrains : s.rsv.rt = some (n, t0))
include retrains

section
variable (within : s.turn ≤ t0 + 20000)
include within

theorem retrainEnd_of_within (waited : Bool) :
    retrainEnd waited s =
      let u := { s with rsv.rt := none, rsv.trained := s.rsv.trained.wr n s.beat }
      let u := (u.inc (F.LPD_CH_retrains n)).set (F.LPD_CH_drift n) 0
      (if waited then u.pert 5 else u).retrainFlagged n := by
  simp only [retrainEnd, retrains, gt_iff_lt, if_neg (Nat.not_lt.mpr within)]

theorem retrainTimeout_of_within : retrainTimeout s = s := by
  simp only [retrainTimeout, retrains, if_pos within]

end

section
variable (late : t0 + 20000 < s.turn)
include late

theorem retrainEnd_of_late (waited : Bool) : retrainEnd waited s = s := by
  simp only [retrainEnd, retrains, gt_iff_lt, if_pos late]

/-- A retrain that has not ended in time is a training failure of its channel (R471). -/
theorem retrainTimeout_of_late :
    retrainTimeout s = (({ s with rsv.rt := none }.inc (F.LPD_CH_retrains n)).lpdFail n 0).retrainFlagged n := by
  simp only [retrainTimeout, retrains, if_neg (Nat.not_le.mpr late)]

end

end

end

/-! ### Migration (R473) -/

section
variable {s : State}

theorem pageCopy_of_none (bad : Bool) (idle : s.rsv.mig = none) : pageCopy bad s = s := by simp only [pageCopy, idle]

variable {n spare page : Nat} (migrates : s.rsv.mig = some (n, spare, page))
include migrates

theorem pageCopy_of_retraining (bad : Bool) (retrains : s.rsv.rt.any (fun r => r.1 == n) = true) : pageCopy bad s = s := by
  simp only [pageCopy, migrates, retrains, if_true]

variable (free : s.rsv.rt.any (fun r => r.1 == n) = false)
include free

theorem pageCopy_of_more (bad : Bool) (more : page + 1 < lpdPages) :
    pageCopy bad s =
      let u := if bad then s.poisonPage n page else s
      { u with rsv.mig := some (n, spare, page + 1) }.set F.LPD_MIG_ptr ((page + 1) / 32) := by
  simp only [pageCopy, migrates, free, Bool.false_eq_true, if_false, ge_iff_le, if_neg (Nat.not_le.mpr more)]

/-- After the last page the spare serves the channel. -/
theorem pageCopy_of_last (bad : Bool) (last : lpdPages ≤ page + 1) :
    pageCopy bad s = ((if bad then s.poisonPage n page else s).set F.LPD_MIG_ptr (lpdPages / 32)).migrated n spare := by
  simp only [pageCopy, migrates, free, Bool.false_eq_true, if_false, ge_iff_le, if_pos last]

end

/-! ### What the ladder leaves of a stack's reading (R475 to R477) -/

/-- `t` shows the reading of stack `k` that `s` shows. -/
def SameReading (k : Fin 8) (s t : State) : Prop := t.get (F.HBM_STACK_temp k) = s.get (F.HBM_STACK_temp k)

namespace SameReading

variable {k : Fin 8} {s t u : State}

theorem refl (s : State) : SameReading k s s := rfl

theorem trans (h : SameReading k s t) (j : SameReading k t u) : SameReading k s u := Eq.trans j h

/-- A write of another register, or of the stack's register above the reading. -/
theorem set (s : State) (f : Fld) (v : Nat) (beside : R.HBM_STACK k ≠ f.reg ∨ 16 ≤ f.lo) : SameReading k s (s.set f v) := by
  rcases beside with other | above
  · exact State.get_set_of_ne s f _ v other
  · exact State.get_set_of_disjoint s f _ v (.inl above) (show 0 + 16 ≤ 64 by decide)

theorem inc (s : State) (f : Fld) (n : Nat) (beside : R.HBM_STACK k ≠ f.reg ∨ 16 ≤ f.lo) : SameReading k s (s.inc f n) := set s f _ beside

theorem pert (s : State) {code : Nat} (n : Nat) (known : code < 16) : SameReading k s (s.pert code n) := by
  refine (refl s).trans (set _ (F.PERT_events code) _ (.inl ?_))
  have := k.isLt
  simp only [R.HBM_STACK, R.PERT]
  omega

/-- The queue of journal entries counts in FLOG_STATUS what it drops, and writes no other register. -/
theorem journalPut (s : State) (kind sub unit temp mv sig detail : Nat) : SameReading k s (s.journalPut kind sub unit temp mv sig detail) := by
  have other : R.HBM_STACK k ≠ R.FLOG_STATUS := by
    have := k.isLt
    simp only [R.HBM_STACK, R.FLOG_STATUS]
    omega
  simp only [State.journalPut]
  split
  · exact refl s
  · split
    · exact inc s F.FLOG_STATUS_dropped 1 (.inl other)
    · exact refl s

theorem intEvent (s : State) {cause : Nat} (known : cause < 25) : SameReading k s (s.intEvent cause) := by
  refine inc s (F.INT_EVT_events cause) 1 (.inl ?_)
  have := k.isLt
  simp only [R.HBM_STACK, R.INT_EVT]
  omega

/-- The flags of MEM_STATUS lie in a register of their own. -/
theorem memStatus (s : State) (lo w v : Nat) : SameReading k s (s.set ⟨R.MEM_STATUS, lo, w⟩ v) := by
  refine set s _ v (.inl ?_)
  simp only [R.HBM_STACK, R.MEM_STATUS]
  omega

theorem thermalMsg (s : State) (type reason unit temp : Nat) : SameReading k s (s.thermalMsg type reason unit temp) := by
  simp only [State.thermalMsg, State.sendWm]
  split <;> exact refl s

theorem flogAdd (s : State) (off n by_ : Nat) : SameReading k s (s.flogAdd off n by_) := rfl

/-- A step of the ladder is shown and put in the journal. -/
theorem moveTo (s : State) (step sub temp mv : Nat) :
    SameReading k s ((s.set (F.HBM_STACK_step k) step).journalPut 5 sub (24 + k) temp mv 0 0) :=
  (set s (F.HBM_STACK_step k) step (.inr (Nat.le_refl 16))).trans (journalPut _ 5 sub (24 + k) temp mv 0 0)

/-- Step 3 pauses class C: it is counted, shown, and told to the watermaster. -/
theorem pause (s : State) (off temp : Nat) : SameReading k s
    (((((((s.inc (F.HBM_STACK_pauses k)).flogAdd off 4).pert 3).set ⟨R.MEM_STATUS, 5 + k, 1⟩ 1).intEvent 15)).thermalMsg 0x70 1 k temp) := by
  have counted : SameReading k s (((s.inc (F.HBM_STACK_pauses k)).flogAdd off 4).pert 3) :=
    ((inc s _ 1 (.inr (show 16 ≤ 48 by decide))).trans (flogAdd _ off 4 1)).trans (pert _ 1 (by decide))
  exact counted.trans ((memStatus _ (5 + k) 1 1).trans ((intEvent _ (by decide)).trans (thermalMsg _ 0x70 1 k temp)))

theorem hbmEnter (s : State) (temp st : Nat) : SameReading k s (s.hbmEnter k temp st) := by
  simp only [State.hbmEnter]
  split
  · exact refl s
  · have moved := moveTo (k := k) s st st temp (s.unitMv (136 + k))
    have counted (u : State) : SameReading k u (if st ≥ 2 then u.inc (F.HBM_STACK_entries k) else u) := by
      split
      · exact inc u _ 1 (.inr (show 16 ≤ 32 by decide))
      · exact refl u
    split
    · exact (moved.trans (counted _)).trans (pert _ 1 (by decide))
    · exact (moved.trans (counted _)).trans (pause _ _ temp)

theorem hbmLeave (s : State) (temp st : Nat) : SameReading k s (s.hbmLeave k temp st) := by
  simp only [State.hbmLeave]
  split
  · exact refl s
  · have moved := moveTo (k := k) s (st - 1) (0x80 + st) temp (s.unitMv (136 + k))
    split
    · exact moved
    · have resumed := moved.trans (memStatus _ (5 + k) 1 0)
      split
      · exact resumed.trans (thermalMsg _ 0x71 1 k temp)
      · exact resumed

theorem foldl {α : Type} (g : State → α → State) (hg : ∀ s x, SameReading k s (g s x)) (l : List α) (s : State) : SameReading k s (l.foldl g s) := by
  induction l generalizing s with
  | nil => exact refl s
  | cons x l ih => exact (hg s x).trans (ih _)

end SameReading

/-- Whatever the ladder does, the stack shows the reading. -/
theorem get_temp_hbmSample (k : Fin 8) (temp : BitVec 16) (s : State) : (hbmSample k temp s).get (F.HBM_STACK_temp k) = temp.toNat := by
  have shown : (s.set (F.HBM_STACK_temp k) temp.toNat).get (F.HBM_STACK_temp k) = temp.toNat := by
    rw [State.get_set_self _ _ _ (show 0 + 16 ≤ 64 by decide)]
    exact Nat.mod_eq_of_lt temp.isLt
  have ladder : SameReading k (s.set (F.HBM_STACK_temp k) temp.toNat) (hbmSample k temp s) :=
    (SameReading.foldl _ (fun u st => SameReading.hbmEnter u temp.toNat st) [1, 2, 3] _).trans
      (SameReading.foldl _ (fun u st => SameReading.hbmLeave u temp.toNat st) [3, 2, 1] _)
  exact Eq.trans ladder shown

/-! ### Scrubbing and prediction (R461, R467) -/

section
variable {s : State}

theorem scrubRead_of_off (lpd : Bool) (err : Fin 3) (off : s.get F.MEM_CTL_scrub = 0) : scrubRead lpd err s = s := if_pos off

theorem scrubRead_of_on (lpd : Bool) (err : Fin 3) (on : s.get F.MEM_CTL_scrub = 1) :
    scrubRead lpd err s =
      let level := 1 + b2n lpd
      let a := s.rsv.scrub.rd level
      { s with rsv.scrub := s.rsv.scrub.wr level ((a + 64) % levelSize level) }.memError level a err := by
  simp only [scrubRead, on, one_ne_zero, if_false]

theorem predictorEpoch_of_strict (hot : List Nat) (strict : s.get F.STEP_STATUS_strict = 1) : predictorEpoch hot s = s := if_pos strict

theorem predictorEpoch_of_free (hot : List Nat) (free : s.get F.STEP_STATUS_strict = 0) : predictorEpoch hot s = s.epoch hot := by
  simp only [predictorEpoch, free, zero_ne_one, if_false]

end

/-- Settles O42, event by event; the reading of a stack stands through every step of the ladder it causes. -/
theorem memoryLevels : Obligations.MemoryLevels := by
  unfold Obligations.MemoryLevels
  intro s waited bad lpd k temp err hot ch n t0 spare page
  refine ⟨?_, fun retrains within => ⟨?_, ?_⟩, fun retrains late => ⟨?_, ?_⟩, fun idle => ⟨?_, ?_⟩, ?_, fun paused => ?_,
    fun migrates free => ⟨fun more => ?_, fun last => ?_⟩, ?_, fun off => ?_, fun on => ?_, fun strict => ?_, fun free => ?_⟩
  · intro p base opens u
    exact ⟨fun opens chosen => completes rfl (retrainWindow_of_channel opens chosen),
      fun opens none => completes rfl (retrainWindow_of_no_channel opens none), fun closed => completes rfl (retrainWindow_of_closed closed)⟩
  · exact completes rfl (retrainEnd_of_within retrains within waited)
  · exact completes rfl (retrainTimeout_of_within retrains within)
  · exact completes rfl (retrainEnd_of_late retrains late waited)
  · exact completes rfl (retrainTimeout_of_late retrains late)
  · exact completes rfl (retrainEnd_of_idle waited idle)
  · exact completes rfl (retrainTimeout_of_idle idle)
  · exact completes rfl rfl
  · rcases paused with none | ⟨migrates, retrains⟩
    · exact completes rfl (pageCopy_of_none bad none)
    · exact completes rfl (pageCopy_of_retraining migrates bad retrains)
  · exact completes rfl (pageCopy_of_more migrates free bad more)
  · exact completes rfl (pageCopy_of_last migrates free bad last)
  · obtain ⟨t, run, settled⟩ := completes (i := .hbmTempSample k temp) (s := s) rfl rfl
    have outside : ¬ isVecReg (R.HBM_STACK k) := not_isVecReg (.inr (by simp only [R.INT_VEC, R.HBM_STACK]; omega))
    exact ⟨t, run, settled, (settled.get _ outside).trans (get_temp_hbmSample k temp s)⟩
  · exact completes rfl (scrubRead_of_off lpd err off)
  · exact completes rfl (scrubRead_of_on lpd err on)
  · exact completes rfl (predictorEpoch_of_strict hot strict)
  · exact completes rfl (predictorEpoch_of_free hot free)

end Sys2Proof.Machine
end

section
/-!
PROOFS. Step records (R347, R348, R350): the parts that leave, the hash chain they form, and what else their writing moves.
-/
namespace Sys2Proof.Machine
open Sys2Proof

/-! ### Lengths -/

theorem length_leBytes (x n : Nat) : (leBytes x n).length = n := by
  induction n generalizing x with
  | zero => rfl
  | succ n ih => rw [leBytes, List.length_cons, ih]

theorem length_beBytes (x n : Nat) : (beBytes x n).length = n := by rw [beBytes, List.length_reverse, length_leBytes]

theorem length_padTo {n : Nat} {b : List Byte} (fits : b.length ≤ n) : (padTo n b).length = n := by
  rw [padTo, List.length_append, List.length_replicate, Nat.add_sub_cancel' fits]

theorem length_pieces {α : Type} (n k : Nat) (l : List α) : (pieces n k l).length = k := by
  induction k generalizing l with
  | zero => rfl
  | succ k ih => rw [pieces, List.length_cons, ih]

/-- Compressing a block keeps the eight words of the hash. -/
theorem length_shaBlock (p : Sha) {h : List Nat} (words : h.length = 8) (blk : List Byte) : (shaBlock p h blk).length = 8 := by
  simp only [shaBlock, List.length_map, List.length_zip, words, Vector.length_toList, Nat.min_self]

theorem length_foldl_shaBlock (p : Sha) (bs : List (List Byte)) {h : List Nat} (words : h.length = 8) : (bs.foldl (shaBlock p) h).length = 8 := by
  induction bs generalizing h with
  | nil => exact words
  | cons b bs ih => exact ih (length_shaBlock p words b)

theorem length_sha384 (m : List Byte) : (sha384 m).length = 48 := by
  have initial : sha384P.h.length = 8 := by decide +kernel
  have words (hs : List Nat) : (hs.flatMap (fun w => beBytes w 8)).length = 8 * hs.length := by
    induction hs with
    | nil => rfl
    | cons w ws ih => rw [List.flatMap_cons, List.length_append, length_beBytes, ih, List.length_cons]; omega
  rw [sha384, shaDigest, List.length_take]
  change min 48 (List.flatMap (fun w => beBytes w 8) _).length = 48
  rw [words, length_foldl_shaBlock sha384P _ initial]
  decide

/-- The device's two signatures, of 96 and 4,627 bytes, fit a trailer (R350). -/
theorem length_trailer (s : State) (m : List Byte) : (padTo 4736 (s.aliasSign m)).length = 4736 := by
  refine length_padTo ?_
  rw [State.aliasSign, List.length_append, Vector.length_toList, Vector.length_toList]
  decide

/-! ### One part -/

/-- What stands in a part's field prev_hash (Table 10-9). -/
def prevField (part : List Byte) : List Byte := (part.drop 0x18).take 48

/-- The hash that the next part carries (R350). -/
def State.prevHash (s : State) : List Byte := s.det.audit.prevHash.getD s.bootHash

/-- The body of the next part. -/
def State.partBody (s : State) (i : StepInfo) (part : Nat) (entries : List (List Byte)) (last : Bool) : List Byte :=
  s.partHeader i part (s.get F.AUD_SEQ_parts) entries.length last s.prevHash ++ entries.flatten

/-- A header has 0x18 bytes before its prev_hash. -/
theorem State.partHeader_shape (s : State) (i : StepInfo) (part seq e : Nat) (last : Bool) (prev : List Byte) :
    ∃ front : List Byte, front.length = 0x18 ∧ ∃ rest, s.partHeader i part seq e last prev = front ++ (padTo 48 prev ++ rest) := by
  refine ⟨leBytes 0x52455453 4 ++ leBytes 1 2 ++ leBytes (part + (if last then 0x8000 else 0)) 2 ++ leBytes i.step 8 ++ leBytes seq 8, ?_, ?_⟩
  · simp only [List.length_append, length_leBytes]
  · -- `delta`: an equation lemma of the header would have its bytes evaluated.
    delta State.partHeader
    simp only [List.append_assoc]
    exact ⟨_, rfl⟩

theorem prevField_partBody (s : State) (i : StepInfo) (part : Nat) (entries : List (List Byte)) (last : Bool) (whole : s.prevHash.length = 48) :
    prevField (s.partBody i part entries last) = s.prevHash := by
  have pad : padTo 48 s.prevHash = s.prevHash := by simp only [padTo, whole, Nat.sub_self, List.replicate_zero, List.append_nil]
  obtain ⟨front, length, rest, shape⟩ := s.partHeader_shape i part (s.get F.AUD_SEQ_parts) entries.length last s.prevHash
  rw [State.partBody, shape, pad, prevField, List.append_assoc, List.append_assoc, List.drop_left' length, List.take_left' whole]

theorem State.length_bootHash (s : State) : s.bootHash.length = 48 := by
  rw [State.bootHash]
  exact length_sha384 _

/-- The next part carries a whole hash, if the last one written left a whole one. -/
theorem State.length_prevHash {s : State} (whole : ∀ h, s.det.audit.prevHash = some h → h.length = 48) : s.prevHash.length = 48 := by
  rw [State.prevHash]
  cases written : s.det.audit.prevHash with
  | none =>
    rw [Option.getD_none]
    exact s.length_bootHash
  | some h =>
    rw [Option.getD_some]
    exact whole h written

section
variable (s : State) (i : StepInfo) (part : Nat) (entries : List (List Byte)) (last : Bool)

theorem parts_putPart : (s.putPart i part entries last).det.audit.parts = s.det.audit.parts.put (s.get F.AUD_SEQ_parts)
    (s.partBody i part entries last ++ padTo 4736 (s.aliasSign (s.partBody i part entries last))) := rfl

theorem prevHash_putPart : (s.putPart i part entries last).det.audit.prevHash = some (sha384 (s.partBody i part entries last)) := rfl

theorem audit_putPart : (s.putPart i part entries last).det.audit = { s.det.audit with
    parts := (s.putPart i part entries last).det.audit.parts, prevHash := (s.putPart i part entries last).det.audit.prevHash } := rfl

/-- AUD_SEQ counts the part; AUD_FREE, AUD_STATUS and the audit's cause lie in other registers. -/
theorem seq_putPart : (s.putPart i part entries last).get F.AUD_SEQ_parts = (s.get F.AUD_SEQ_parts + 1) % 2 ^ F.AUD_SEQ_parts.w := by
  have counted (u : State) : ((u.inc F.AUD_SEQ_parts).auditSpace.intEvent 20).get F.AUD_SEQ_parts =
      (u.get F.AUD_SEQ_parts + 1) % 2 ^ F.AUD_SEQ_parts.w := by
    rw [State.intEvent, State.get_inc_of_ne _ _ _ _ (by decide), State.auditSpace, State.sets, List.foldl_cons, List.foldl_cons, List.foldl_nil,
      State.get_set_of_ne _ F.AUD_STATUS_hold _ _ (show R.AUD_SEQ ≠ R.AUD_STATUS by decide),
      State.get_set_of_ne _ F.AUD_FREE_kib _ _ (show R.AUD_SEQ ≠ R.AUD_FREE by decide), State.get_inc_self _ _ _ (by decide)]
  exact counted _

end

/-! ### The parts of a record -/

/-- Parts are written one behind the other; of `n` parts the last is number n - 1. -/
def State.putParts (s : State) (i : StepInfo) (n : Nat) (ps : List (List (List Byte) × Nat)) : State :=
  ps.foldl (fun s p => s.putPart i p.2 p.1 (p.2 + 1 == n)) s

section
variable (i : StepInfo) (n : Nat)

theorem seq_putParts (ps : List (List (List Byte) × Nat)) (s : State) :
    (s.putParts i n ps).get F.AUD_SEQ_parts = (s.get F.AUD_SEQ_parts + ps.length) % 2 ^ F.AUD_SEQ_parts.w := by
  induction ps generalizing s with
  | nil => exact (Nat.mod_eq_of_lt (s.get_lt F.AUD_SEQ_parts)).symm
  | cons p ps ih =>
    calc (s.putParts i n (p :: ps)).get F.AUD_SEQ_parts = ((s.putPart i p.2 p.1 (p.2 + 1 == n)).get F.AUD_SEQ_parts + ps.length) % 2 ^ _ := ih _
      _ = ((s.get F.AUD_SEQ_parts + 1) % 2 ^ _ + ps.length) % 2 ^ _ := by rw [seq_putPart]
      _ = (s.get F.AUD_SEQ_parts + (ps.length + 1)) % 2 ^ _ := by rw [Nat.mod_add_mod, Nat.add_assoc, Nat.add_comm 1]

/-- Of the audit the parts change the parts kept and the last hash. -/
theorem audit_putParts (ps : List (List (List Byte) × Nat)) (s : State) : (s.putParts i n ps).det.audit = { s.det.audit with
    parts := (s.putParts i n ps).det.audit.parts, prevHash := (s.putParts i n ps).det.audit.prevHash } := by
  induction ps generalizing s with
  | nil => rfl
  | cons p ps ih =>
    have rest := ih (s.putPart i p.2 p.1 (p.2 + 1 == n))
    rw [audit_putPart] at rest
    exact rest

/-- While AUD_SEQ does not wrap, earlier parts stay. -/
theorem find_putParts_of_lt (ps : List (List (List Byte) × Nat)) (s : State) (fits : s.get F.AUD_SEQ_parts + ps.length < 2 ^ F.AUD_SEQ_parts.w)
    {k : Nat} (earlier : k < s.get F.AUD_SEQ_parts) : (s.putParts i n ps).det.audit.parts.find k = s.det.audit.parts.find k := by
  induction ps generalizing s with
  | nil => rfl
  | cons p ps ih =>
    rw [List.length_cons] at fits
    have seq : (s.putPart i p.2 p.1 (p.2 + 1 == n)).get F.AUD_SEQ_parts = s.get F.AUD_SEQ_parts + 1 := by
      rw [seq_putPart]
      exact Nat.mod_eq_of_lt (by omega)
    calc (s.putParts i n (p :: ps)).det.audit.parts.find k = (s.putPart i p.2 p.1 (p.2 + 1 == n)).det.audit.parts.find k :=
          ih (s.putPart i p.2 p.1 (p.2 + 1 == n)) (by omega) (by omega)
      _ = s.det.audit.parts.find k := by rw [parts_putPart, OMap.find_put_of_ne _ _ (Nat.ne_of_lt earlier)]

/-- What the j-th of the parts that lead from `s` to `t` is: its body and trailer, and its place in the chain (R350). -/
structure Chained (s t : State) (j n : Nat) (body trailer : List Byte) : Prop where
  found  : t.det.audit.parts.find (s.get F.AUD_SEQ_parts + j) = some (body ++ trailer)
  length : trailer.length = 4736
  first  : j = 0 → prevField body = s.prevHash
  next   : ∀ part, j + 1 < n → t.det.audit.parts.find (s.get F.AUD_SEQ_parts + (j + 1)) = some part → prevField part = sha384 body
  last   : j + 1 = n → t.det.audit.prevHash = some (sha384 body)

/-- A part that carries a whole hash carries the same with its trailer behind it. -/
theorem prevField_append {body trailer : List Byte} (whole : (prevField body).length = 48) : prevField (body ++ trailer) = prevField body := by
  rw [prevField, List.length_take, List.length_drop] at whole
  rw [prevField, prevField, List.drop_append_of_le_length (by omega), List.take_append_of_le_length (by rw [List.length_drop]; omega)]

theorem chained_putParts (ps : List (List (List Byte) × Nat)) (s : State)
    (fits : s.get F.AUD_SEQ_parts + ps.length < 2 ^ F.AUD_SEQ_parts.w) (whole : s.prevHash.length = 48) :
    ∀ j < ps.length, ∃ body trailer, Chained s (s.putParts i n ps) j ps.length body trailer := by
  induction ps generalizing s with
  | nil => exact fun j inside => absurd inside (Nat.not_lt_zero j)
  | cons p ps ih =>
    rw [List.length_cons] at fits ⊢
    let body := s.partBody i p.2 p.1 (p.2 + 1 == n)
    let u := s.putPart i p.2 p.1 (p.2 + 1 == n)
    have seq : u.get F.AUD_SEQ_parts = s.get F.AUD_SEQ_parts + 1 := by
      rw [seq_putPart]
      exact Nat.mod_eq_of_lt (by omega)
    have hash : u.prevHash = sha384 body := rfl
    have rest := ih u (by omega) (by rw [hash]; exact length_sha384 _)
    intro j inside
    cases j with
    | zero =>
      refine ⟨body, padTo 4736 (s.aliasSign body), ?_, length_trailer s body, fun _ => prevField_partBody s i p.2 p.1 _ whole,
        fun part more found => ?_, fun alone => ?_⟩
      · calc (u.putParts i n ps).det.audit.parts.find (s.get F.AUD_SEQ_parts) = u.det.audit.parts.find (s.get F.AUD_SEQ_parts) :=
              find_putParts_of_lt i n ps u (by omega) (by omega)
          _ = some (body ++ padTo 4736 (s.aliasSign body)) := by rw [parts_putPart, OMap.find_put_self]
      · obtain ⟨body', trailer', chained⟩ := rest 0 (by omega)
        have carried : prevField body' = sha384 body := (chained.first rfl).trans hash
        have same : part = body' ++ trailer' := by
          have := chained.found
          rw [seq] at this
          exact Option.some.inj (found.symm.trans this)
        rw [same, prevField_append (by rw [carried]; exact length_sha384 _), carried]
      · obtain rfl : ps = [] := List.length_eq_zero_iff.mp (by omega)
        rfl
    | succ j =>
      obtain ⟨body', trailer', found, length, -, next, last⟩ := rest j (by omega)
      have place (k : Nat) : u.get F.AUD_SEQ_parts + k = s.get F.AUD_SEQ_parts + (k + 1) := by omega
      rw [place] at found next
      exact ⟨body', trailer', found, length, fun none => absurd none (Nat.succ_ne_zero j), fun part more => next part (by omega),
        fun all => last (by omega)⟩

end

/-! ### What else the writing of a record moves -/

/-- `t` is `s` but for registers, interrupts, messages, the audit, and what is exchanged with partners. -/
structure Recorded (s t : State) : Prop where
  rest : t = { s with regs := t.regs, host := t.host, out := t.out, det.audit := t.det.audit, flt.waits := t.flt.waits, flt.recs := t.flt.recs,
                      flt.hashes := t.flt.hashes }

namespace Recorded

variable {s t u : State}

theorem refl (s : State) : Recorded s s := ⟨rfl⟩

theorem trans (h : Recorded s t) (k : Recorded t u) : Recorded s u := ⟨by rw [k.rest, h.rest]⟩

theorem settled (h : Settled s t) : Recorded s t := ⟨by rw [h.rest]⟩

theorem set (s : State) (f : Fld) (v : Nat) : Recorded s (s.set f v) := ⟨rfl⟩

theorem audit (s : State) (a : Audit) : Recorded s { s with det.audit := a } := ⟨rfl⟩

theorem auditSpace (s : State) : Recorded s s.auditSpace := (set s F.AUD_FREE_kib _).trans (set _ F.AUD_STATUS_hold _)

theorem putPart (i : StepInfo) (part : Nat) (entries : List (List Byte)) (last : Bool) (s : State) : Recorded s (s.putPart i part entries last) := by
  simp only [State.putPart]
  exact (audit s _).trans ((set _ F.AUD_SEQ_parts _).trans ((auditSpace _).trans (set _ (F.INT_EVT_events 20) _)))

theorem putParts (i : StepInfo) (n : Nat) (ps : List (List (List Byte) × Nat)) (s : State) : Recorded s (s.putParts i n ps) := by
  induction ps generalizing s with
  | nil => exact refl s
  | cons p ps ih => exact (putPart i p.2 p.1 (p.2 + 1 == n) s).trans (ih (s.putPart i p.2 p.1 (p.2 + 1 == n)))

end Recorded

/-- What the exchange with partners leaves: the audit and AUD_SEQ too (R499, R500). -/
structure Exchanged (s t : State) : Prop extends Recorded s t where
  det : t.det = s.det
  seq : t.get F.AUD_SEQ_parts = s.get F.AUD_SEQ_parts

namespace Exchanged

variable {s t u : State}

theorem refl (s : State) : Exchanged s s := ⟨.refl s, rfl, rfl⟩

theorem trans (h : Exchanged s t) (k : Exchanged t u) : Exchanged s u :=
  ⟨h.toRecorded.trans k.toRecorded, k.det.trans h.det, k.seq.trans h.seq⟩

theorem emit (s : State) (o : Out) : Exchanged s (s.emit o) := ⟨⟨rfl⟩, rfl, rfl⟩

theorem tellWm (s : State) (b : List Byte) : Exchanged s (s.tellWm b) := by
  simp only [State.tellWm]
  split
  · exact emit _ _
  · exact (emit _ _).trans (emit _ _)

theorem sendWm (s : State) (type n : Nat) (l : List (Nat × Nat × Nat)) : Exchanged s (s.sendWm type n l) := by
  simp only [State.sendWm]
  split
  · exact emit _ _
  · exact (emit _ _).trans (emit _ _)

theorem inc (s : State) (f : Fld) (n : Nat) (other : R.AUD_SEQ ≠ f.reg) : Exchanged s (s.inc f n) :=
  ⟨⟨rfl⟩, rfl, State.get_inc_of_ne s f _ n other⟩

/-- What is owed to partners and what they have sent. -/
theorem partners (s : State) (w : List (Nat × Nat)) (r h : List ShardHash) :
    Exchanged s { s with flt.waits := w, flt.recs := r, flt.hashes := h } := ⟨⟨rfl⟩, rfl, rfl⟩

theorem foldl {α : Type} (g : State → α → State) (hg : ∀ s x, Exchanged s (g s x)) (l : List α) (s : State) : Exchanged s (l.foldl g s) := by
  induction l generalizing s with
  | nil => exact refl s
  | cons x l ih => exact (hg s x).trans (ih _)

theorem verdict (s : State) (step : Nat) (late : Bool) : Exchanged s (s.verdict step late) := by
  simp only [State.verdict]
  split
  · exact refl s
  · split
    · exact refl s
    · refine Exchanged.trans ?_ (sendWm _ _ _ _)
      refine Exchanged.trans ?_ (inc _ F.PTN_COUNT_bad _ (by decide))
      refine Exchanged.trans ?_ (inc _ F.PTN_COUNT_matched _ (by decide))
      exact partners s _ _ _

theorem sendHashes (s : State) (step : Nat) : Exchanged s (s.sendHashes step) := by
  simp only [State.sendHashes]
  refine (Exchanged.trans (foldl _ (fun u e => ?_) _ s) (partners _ _ _ _)).trans (verdict _ step false)
  split
  · exact refl u
  · exact (partners u _ _ _).trans (emit _ _)

end Exchanged

/-! ### STEP_RECORD_WRITE -/

/-- The entries of a step record: the seed sets used, the collectives, the shards in ascending number (R348). -/
def State.stepEntries (s : State) (i : StepInfo) (n : Nat) : List (List Byte) :=
  i.seeds.map (·.2) ++ (s.det.audit.ends.filter (fun e => e.step == n)).map EndRec.bytes ++
    (sortBy (fun a b => decide (a.shard ≤ b.shard)) (s.det.audit.shards.filter (fun e => e.step == n))).map ShardRecd.bytes

theorem length_stepEntries (s : State) (i : StepInfo) (n : Nat) :
    (s.stepEntries i n).length = i.seeds.length + (s.det.audit.ends.filter (fun e => e.step == n)).length +
      (s.det.audit.shards.filter (fun e => e.step == n)).length := by
  simp only [State.stepEntries, List.length_append, List.length_map, length_sortBy]

/-- How many parts a record of `e` entries takes: one for every 16,384, and at least one (R348). -/
def partCount (e : Nat) : Nat := max 1 ((e + 16383) / 16384)

/-- The parts of a record, numbered. -/
def State.stepParts (s : State) (i : StepInfo) (n : Nat) : List (List (List Byte) × Nat) :=
  (pieces 16384 (partCount (s.stepEntries i n).length) (s.stepEntries i n)).zipIdx

theorem length_stepParts (s : State) (i : StepInfo) (n : Nat) : (s.stepParts i n).length = partCount (s.stepEntries i n).length := by
  rw [State.stepParts, List.length_zipIdx, length_pieces]

/-- The state with the parts of a record written. -/
def State.writeParts (s : State) (i : StepInfo) (n : Nat) : State := s.putParts i (partCount (s.stepEntries i n).length) (s.stepParts i n)

/-- STEP_DIGEST leaves (R347), and the hashes of partnered shards (R499). -/
def State.tellRecord (s : State) (n : Nat) : State :=
  (s.tellWm (leBytes (packBits [(0, 8, 0x41), (16, 16, s.me), (64, 64, n), (128, 64, s.get F.AUD_SEQ_parts - 1),
    (192, 8, b2n (s.stepChanged n))]) 32 ++ padTo 48 (s.det.audit.prevHash.getD []) ++ List.replicate 16 0)).sendHashes n

theorem exchanged_tellRecord (s : State) (n : Nat) : Exchanged s (s.tellRecord n) := (Exchanged.tellWm s _).trans (.sendHashes _ n)

/-- A step whose record is written is no longer open, and the next record has no outcome of it yet. -/
def Audit.close (a : Audit) (n : Nat) : Audit :=
  { a with steps := a.steps.filter (fun i => i.step != n), shards := a.shards.filter (fun e => e.step != n), prev := (0, 0, 0) }

def State.closeStep (s : State) (n : Nat) : State := { s with det.audit := s.det.audit.close n }

theorem get_closeStep (s : State) (n : Nat) (f : Fld) : (s.closeStep n).get f = s.get f := rfl

/-- The step's record written, told and closed. -/
def State.recordStep (s : State) (i : StepInfo) (n : Nat) : State := ((s.writeParts i n).tellRecord n).closeStep n

section
variable (s : State) (i : StepInfo) (n : Nat)

theorem recorded_recordStep : Recorded s (s.recordStep i n) :=
  (Recorded.putParts i _ _ s).trans ((exchanged_tellRecord (s.writeParts i n) n).toRecorded.trans (.audit _ _))

/-- The audit keeps the ended collectives; its parts and its last hash are those the parts leave. -/
theorem audit_recordStep : (s.recordStep i n).det.audit = Audit.close { s.det.audit with
    parts := (s.writeParts i n).det.audit.parts, prevHash := (s.writeParts i n).det.audit.prevHash } n :=
  calc (s.recordStep i n).det.audit = (s.writeParts i n).det.audit.close n :=
        congrArg (Audit.close · n) (congrArg Det.audit (exchanged_tellRecord (s.writeParts i n) n).det)
    _ = _ := congrArg (Audit.close · n) (audit_putParts i _ _ s)

/-- AUD_SEQ counts the parts, modulo its width. -/
theorem seq_recordStep : (s.recordStep i n).get F.AUD_SEQ_parts =
    (s.get F.AUD_SEQ_parts + partCount (s.stepEntries i n).length) % 2 ^ F.AUD_SEQ_parts.w :=
  calc (s.recordStep i n).get F.AUD_SEQ_parts = ((s.writeParts i n).tellRecord n).get F.AUD_SEQ_parts := get_closeStep _ n _
    _ = (s.writeParts i n).get F.AUD_SEQ_parts := (exchanged_tellRecord (s.writeParts i n) n).seq
    _ = (s.get F.AUD_SEQ_parts + (s.stepParts i n).length) % 2 ^ F.AUD_SEQ_parts.w := seq_putParts i _ _ s
    _ = _ := by rw [length_stepParts]

end

section
variable {s : State} {step : BitVec 64} {i : StepInfo} (opened : s.det.audit.steps.find? (fun i => i.step == step.toNat) = some i)
include opened

theorem stepRecordWrite_of_early (early : i.closed = none ∨ s.stepDone step.toNat = false) : stepRecordWrite step s = s := by
  have waits : i.closed.isNone = true ∨ (!s.stepDone step.toNat) = true := by simpa using early
  simp only [stepRecordWrite, opened, if_pos waits]

variable (closed : i.closed.isSome = true) (done : s.stepDone step.toNat = true)
include closed done

theorem stepRecordWrite_of_done : stepRecordWrite step s = s.recordStep i step.toNat := by
  have due : ¬ (i.closed.isNone = true ∨ (!s.stepDone step.toNat) = true) := by simp [Option.isNone_eq_false_iff.mpr closed, done]
  simp only [stepRecordWrite, opened, if_neg due, length_pieces]
  rfl

end

/-- Settles O30: the writing of a part carries the hash the last one left, and leaves its own; a part found later is the one put there. -/
theorem auditChain : Obligations.AuditChain := by
  unfold Obligations.AuditChain
  intro s t step i opened closed done whole entries parts seq fits run k inside
  obtain ⟨t', run', settled⟩ := completes (i := .stepRecordWrite step) rfl (stepRecordWrite_of_done opened closed done)
  obtain rfl : t = t' := Host.Outcome.next.inj (run.symm.trans run')
  have count : (s.stepParts i step.toNat).length = parts := by rw [length_stepParts, length_stepEntries]; rfl
  have audit : t.det.audit = (s.recordStep i step.toNat).det.audit := congrArg Det.audit settled.det
  rw [audit, audit_recordStep]
  obtain ⟨body, trailer, chained⟩ := chained_putParts i (partCount (s.stepEntries i step.toNat).length) (s.stepParts i step.toNat) s
    (count.symm ▸ fits) (State.length_prevHash whole) k (count.symm ▸ inside)
  rw [count] at chained
  exact ⟨body, trailer, chained.found, chained.length, chained.first, chained.next, chained.last⟩

end Sys2Proof.Machine
end

section
/-!
PROOFS. The step counter (R331, R333): what begins a step, and what a write of the strict mode leaves for the next one.
-/
namespace Sys2Proof.Machine
open Sys2Proof

/-! ### A step opens (R333, R577) -/

section
variable {s : State} {f : Fld}

theorem State.get_setDigest_of_ne {reg : Nat → Nat} (d : List Byte) (other : ∀ n, f.reg ≠ reg n) : (s.setDigest reg d).get f = s.get f := by
  have folded (l : List Nat) (u : State) :
      (l.foldl (fun t n => t.setWord (reg n) (BitVec.ofNat 64 (digestWord d n))) u).get f = u.get f := by
    induction l generalizing u with
    | nil => rfl
    | cons n l ih => exact (ih _).trans (State.get_setWord_of_ne u f _ (other n))
  exact folded _ s

/-- The profile that PWR_CTL asks for takes effect; PROF_DIGEST and the cause POWER lie elsewhere. -/
theorem State.get_profile_takeProfile (s : State) : s.takeProfile.get F.PWR_STATUS_profile = s.get F.PWR_CTL_profile := by
  have taken (u : State) : (u.set F.PWR_STATUS_profile (u.get F.PWR_CTL_profile)).get F.PWR_STATUS_profile = u.get F.PWR_CTL_profile := by
    rw [State.get_set_self _ _ _ (by decide)]
    exact Nat.mod_eq_of_lt (u.get_lt F.PWR_CTL_profile)
  have told (u : State) : (if u.get F.PWR_STATUS_profile = u.get F.PWR_CTL_profile then u else u.intEvent 24).get F.PWR_CTL_profile =
      u.get F.PWR_CTL_profile := by
    split
    · rfl
    · exact State.get_inc_of_ne u (F.INT_EVT_events 24) F.PWR_CTL_profile 1 (by decide)
  rw [State.takeProfile, taken, told]
  split
  · exact State.get_setDigest_of_ne _ (fun n => by simp only [R.PWR_CTL, R.PROF_DIGEST]; omega)
  · rfl

end

/-- The registers of a step that opens: its number, the strict mode asked for, no collective accepted, the profile asked for. -/
theorem get_openStep (s : State) {step : Nat} (fits : step < 2 ^ 64) : (s.openStep step).get F.STEP_CTR_step = step ∧
    (s.openStep step).get F.STEP_STATUS_strict = s.get F.GCTL_strict ∧ (s.openStep step).get F.STEP_STATUS_accepted = 0 ∧
    (s.openStep step).get F.PWR_STATUS_profile = s.get F.PWR_CTL_profile := by
  have listed (u : State) (l : List StepInfo) (f : Fld) : State.get { u with det.audit.steps := l } f = u.get f := rfl
  have written (f : Fld) : (s.openStep step).get f = ((((s.clearBitEvents (· == step)).takeProfile.set F.STEP_CTR_step step).set
    F.STEP_STATUS_strict (s.get F.GCTL_strict)).set F.STEP_STATUS_accepted 0).get f := by
    rw [State.openStep]
    exact listed _ _ f
  simp only [written]
  refine ⟨?_, ?_, ?_, ?_⟩
  · rw [State.get_set_of_ne _ _ _ _ (by decide), State.get_set_of_ne _ _ _ _ (by decide), State.get_set_self _ _ _ (by decide)]
    exact Nat.mod_eq_of_lt fits
  · rw [State.get_set_of_disjoint _ _ _ _ (by decide) (by decide), State.get_set_self _ _ _ (by decide)]
    exact Nat.mod_eq_of_lt (s.get_lt F.GCTL_strict)
  · rw [State.get_set_self _ _ _ (by decide), Nat.zero_mod]
  · rw [State.get_set_of_ne _ _ _ _ (by decide), State.get_set_of_ne _ _ _ _ (by decide), State.get_set_of_ne _ _ _ _ (by decide)]
    exact State.get_profile_takeProfile _

/-! ### Register writes -/

section
variable {s : State} {v : BitVec 64}

theorem stepCtrWrite_of_same (same : v.toNat = s.get F.STEP_CTR_step) : stepCtrWrite v s = s := if_pos same

section
variable (other : v.toNat ≠ s.get F.STEP_CTR_step)
include other

/-- While the audit is enabled the write is ignored and counted (R12, R548). -/
theorem stepCtrWrite_of_enabled (on : s.get F.AUD_CTL_en = 1) :
    stepCtrWrite v s = (s.inc F.AUD_REJ_COUNT_rej).set F.AUD_REJ_ADDR_addr R.STEP_CTR := by
  simp only [stepCtrWrite, if_neg other, if_pos on]

theorem stepCtrWrite_of_disabled (off : s.get F.AUD_CTL_en ≠ 1) : stepCtrWrite v s = s.openStep v.toNat := by
  simp only [stepCtrWrite, if_neg other, if_neg off]

end

/-- A write of GCTL.strict shows there, and not yet in the step under way (R331). -/
theorem get_strictWrite (b : Bool) (s : State) :
    (strictWrite b s).get F.GCTL_strict = b2n b ∧ (strictWrite b s).get F.STEP_STATUS_strict = s.get F.STEP_STATUS_strict := by
  refine ⟨?_, State.get_set_of_ne s F.GCTL_strict F.STEP_STATUS_strict _ (by decide)⟩
  rw [strictWrite, State.get_set_self _ _ _ (by decide)]
  cases b <;> rfl

end

/-- Settles O29: a write of the counter opens a step or does not, one of the strict mode waits for the next step, and a step record leaves in
parts, each of which AUD_SEQ counts. -/
theorem stepsAndRecords : Obligations.StepsAndRecords := by
  unfold Obligations.StepsAndRecords
  intro s v step b i asked n
  refine ⟨fun live same => ?_, fun live other on => ?_, fun live other off => ?_, fun live => ?_, fun opened early => ?_,
    fun opened closed done => ?_⟩
  · exact completes rfl ((State.bar_of_open _ live).trans (stepCtrWrite_of_same same))
  · exact completes rfl ((State.bar_of_open _ live).trans (stepCtrWrite_of_enabled other on))
  · obtain ⟨t, run, settled⟩ :=
      completes (i := .stepCtrWrite v) rfl ((State.bar_of_open _ live).trans (stepCtrWrite_of_disabled other off))
    obtain ⟨counter, strict, accepted, profile⟩ := get_openStep s v.isLt
    have stepStatus : ¬ isVecReg R.STEP_STATUS := not_isVecReg (by decide)
    exact ⟨t, run, settled, (settled.get _ (not_isVecReg (by decide))).trans counter, (settled.get _ stepStatus).trans strict,
      (settled.get _ stepStatus).trans accepted, (settled.get _ (not_isVecReg (by decide))).trans profile⟩
  · obtain ⟨t, run, settled⟩ := completes (i := .gctlStrictWrite b) rfl (State.bar_of_open _ live)
    obtain ⟨asks, stays⟩ := get_strictWrite b s
    exact ⟨t, run, settled, (settled.get _ (not_isVecReg (by decide))).trans asks, (settled.get _ (not_isVecReg (by decide))).trans stays⟩
  · exact completes rfl (stepRecordWrite_of_early opened early)
  · intro entries parts seq
    obtain ⟨t, run, settled⟩ := completes (i := .stepRecordWrite step) rfl (stepRecordWrite_of_done opened closed done)
    have count : partCount (s.stepEntries i n).length = parts := by rw [length_stepEntries]; rfl
    have audit : t.det.audit = _ := (congrArg Det.audit settled.det).trans (audit_recordStep s i n)
    have record := (recorded_recordStep s i n).trans (.settled settled)
    have kept {α : Type} (l : List α) (key : α → Nat) : l.filter (fun x => key x != n) = l.filter (fun x => key x ≠ n) :=
      List.filter_congr fun x _ => by simp only [bne, beq_eq_decide, decide_not]
    refine ⟨t, run, record.rest, ?_, fun fits k earlier => ?_, ?_, ?_, ?_, ?_⟩
    · rw [settled.get _ (not_isVecReg (by decide)), seq_recordStep, count]
    · rw [audit]
      exact find_putParts_of_lt i _ (s.stepParts i n) s ((length_stepParts s i n).trans count ▸ fits) earlier
    · rw [audit]
      exact kept _ StepInfo.step
    · rw [audit]
      exact kept _ ShardRecd.step
    · rw [audit]
      rfl
    · rw [audit]
      rfl

end Sys2Proof.Machine
end
section
/-!
PROOFS. The gauge ring's tail, the headgates and their marks, delivery reports, telemetry and meters (R384, R392 to R409).
-/
namespace Sys2Proof.Machine
open Sys2Proof

/-! ### The gauge ring (R384) -/

section
variable {s : State} {v : BitVec 18}

theorem grTailWrite_of_held (held : (v.toNat + 262144 - s.get F.GR_TAIL_tail) % 262144 ≤ s.sw.grHeld) :
    grTailWrite v s = s.gaugeRelease ((v.toNat + 262144 - s.get F.GR_TAIL_tail) % 262144) := if_pos held

theorem grTailWrite_of_outside (outside : s.sw.grHeld < (v.toNat + 262144 - s.get F.GR_TAIL_tail) % 262144) : grTailWrite v s = s :=
  if_neg (Nat.not_le.mpr outside)

/-- The tail moves around the ring of 2^18 records up to the value written. -/
theorem get_tail_gaugeRelease (s : State) (v : BitVec 18) :
    (s.gaugeRelease ((v.toNat + 262144 - s.get F.GR_TAIL_tail) % 262144)).get F.GR_TAIL_tail = v.toNat := by
  have tail : s.get F.GR_TAIL_tail < 262144 := s.get_lt F.GR_TAIL_tail
  have written : v.toNat < 262144 := v.isLt
  rw [State.gaugeRelease, State.get_set_self _ _ _ (by decide), show 2 ^ F.GR_TAIL_tail.w = 262144 from rfl]
  omega

end

/-! ### Calendars, promotions and marks (R392, R393, R399) -/

section
variable {s : State} {port : Fin 144}

theorem calBankSwitch_of_first (first : s.slot port = 0) :
    calBankSwitch port s = s.set (F.HG_PSTATUS_active port) (s.get (F.HG_PORT_cal_bank port)) := if_pos first

theorem calBankSwitch_of_later (later : s.slot port ≠ 0) : calBankSwitch port s = s := if_neg later

section
variable {cls : Fin 4} {src : Fin 161} {d : Desc} {rest : List Desc} (head : s.furrow (furrowKey src port cls) = d :: rest)
include head

theorem starvePromote_of_starved (on : s.get F.HG_CTL_en ≠ 0) (red : d.p.red = true) (demoted : d.promo = false)
    (starved : d.headAt + s.get F.HG_STARVE_turns ≤ s.beat) :
    starvePromote port cls src s =
      (s.putFurrow (furrowKey src port cls) ({ d with promo := true } :: rest)).inc F.STARVE_COUNT_promoted := by
  simp only [starvePromote, head, Desc.demoted, on, red, demoted, Nat.not_lt.mpr starved, Bool.not_false, Bool.and_self, Bool.not_true,
    Bool.false_eq_true, or_self, if_false]

theorem starvePromote_of_unstarved (unstarved : s.get F.HG_CTL_en = 0 ∨ d.p.red = false ∨ d.promo = true ∨
    s.beat < d.headAt + s.get F.HG_STARVE_turns) : starvePromote port cls src s = s := by
  simp only [starvePromote, head]
  refine if_pos (unstarved.imp_right ?_)
  rintro (green | promoted | early)
  · exact .inl (by rw [Desc.demoted, green]; rfl)
  · exact .inl (by rw [Desc.demoted, promoted, Bool.not_true, Bool.and_false]; rfl)
  · exact .inr early

end

variable {m : Fin 2}

theorem meterMark_of_none_due (idle : s.sw.marks.rd (8 * port.val + 4 * m.val) = 0 ∨ (s.sw.marks.rd (8 * port.val + 4 * m.val + 2) ≠ 0 ∧
    s.beat + 1 < s.sw.marks.rd (8 * port.val + 4 * m.val + 2) + s.get F.MARK_GAP_turns)) : meterMark port m s = s := if_pos idle

/-- The count and the bytes of the marks leave in one message, and the gap begins. -/
theorem meterMark_of_due (marked : s.sw.marks.rd (8 * port.val + 4 * m.val) ≠ 0) (gap : s.sw.marks.rd (8 * port.val + 4 * m.val + 2) = 0 ∨
    s.sw.marks.rd (8 * port.val + 4 * m.val + 2) + s.get F.MARK_GAP_turns ≤ s.beat + 1) :
    meterMark port m s =
      let i := 8 * port.val + 4 * m.val
      { s.send (catBits s.me port 8) clsM 32 [(0, 8, 0x51), (8, 2, m.val + 2), (16, 16, s.me), (32, 32, s.sw.marks.rd i),
          (64, 64, s.sw.marks.rd (i + 1)), (128, 64, s.turn)] with
        sw.marks := ((s.sw.marks.wr i 0).wr (i + 1) 0).wr (i + 2) (s.beat + 1) } := by
  refine if_neg ?_
  rintro (unmarked | ⟨sent, early⟩)
  · exact marked unmarked
  · exact gap.elim sent (Nat.not_le.mpr early)

end

/-! ### Delivery reports (R402, R403) -/

section
variable {s : State} {src : BitVec 24} {cls : Fin 4} {mc tree : Bool} {a : Acc}

section
variable {id : BitVec 32} (known : s.sw.accs.find (flowPacket src.toNat cls mc tree id.toNat id.toNat).flow = some a)
include known

theorem dlvReportSend_of_due (due : 256 * s.get F.DLV_CTL_bytes ≤ a.owed ∨ (a.owed > 0 ∧ a.since + s.get F.DLV_CTL_turns ≤ s.beat)) :
    dlvReportSend src cls mc tree id s = s.sendReport (flowPacket src.toNat cls mc tree id.toNat id.toNat).flow a := by
  simp only [dlvReportSend, known]
  exact if_pos due

theorem dlvReportSend_of_early (few : a.owed < 256 * s.get F.DLV_CTL_bytes) (early : a.owed = 0 ∨ s.beat < a.since + s.get F.DLV_CTL_turns) :
    dlvReportSend src cls mc tree id s = s := by
  simp only [dlvReportSend, known]
  refine if_neg ?_
  rintro (many | ⟨owing, late⟩)
  · exact Nat.not_le.mpr few many
  · exact early.elim owing.ne' (Nat.not_lt.mpr late)

end

section
variable {module : BitVec 16} {dst : BitVec 24} {coll n : BitVec 32}

/-- A report of no flow that this module copies is for a flow of its own ingress edge, if for any. -/
theorem dlvReport_of_no_copy (edge : mc = false ∨ s.sw.accs.find (flowPacket src.toNat cls mc tree dst.toNat coll.toNat).flow = none) :
    dlvReport module src cls mc tree dst coll n s =
      let key := (flowPacket src.toNat cls mc tree dst.toNat coll.toNat).flow
      (if (s.sw.flows.find key).isSome then s.inc F.DLV_COUNT_received else s).flowReport key n.toNat := by
  have uncopied : (if mc then s.sw.accs.find (flowPacket src.toNat cls mc tree dst.toNat coll.toNat).flow else none) = none := by
    rcases edge with single | absent
    · exact if_neg (Bool.eq_false_iff.mp single)
    · rw [absent, ite_self]
  simp only [dlvReport, uncopied]

theorem State.flowReport_of_unknown {key : Nat} (unknown : s.sw.flows.find key = none) (bytes : Nat) :
    s.flowReport key bytes = s.inc F.DLV_BAD_COUNT_bad := by
  simp only [State.flowReport, unknown]

variable (multicast : mc = true) (copied : s.sw.accs.find (flowPacket src.toNat cls mc tree dst.toNat coll.toNat).flow = some a)
include multicast copied

theorem dlvReport_of_stranger (stranger : ∀ e ∈ a.prog, e.1 < 144 → (s.link e.1).peer ≠ module.toNat) :
    dlvReport module src cls mc tree dst coll n s = s.inc F.DLV_BAD_COUNT_bad := by
  simp only [dlvReport, if_pos multicast, copied]
  refine if_neg ?_
  simp only [List.any_eq_true, Bool.and_eq_true, beq_iff_eq, decide_eq_true_eq]
  rintro ⟨e, within, peer, port⟩
  exact stranger e within port peer

/-- What a copy's module reports is progress of the copies sent to it. -/
theorem dlvReport_of_copy (known : ∃ e ∈ a.prog, e.1 < 144 ∧ (s.link e.1).peer = module.toNat) :
    dlvReport module src cls mc tree dst coll n s =
      (s.inc F.DLV_COUNT_received).putAcc (flowPacket src.toNat cls mc tree dst.toNat coll.toNat).flow { a with
        prog := a.prog.map (fun e => if e.1 < 144 ∧ (s.link e.1).peer = module.toNat then (e.1, e.2 + n.toNat) else e)
        since := if a.owed = 0 then s.beat else a.since } := by
  simp only [dlvReport, if_pos multicast, copied]
  refine if_pos ?_
  simp only [List.any_eq_true, Bool.and_eq_true, beq_iff_eq, decide_eq_true_eq]
  obtain ⟨e, within, port, peer⟩ := known
  exact ⟨e, within, peer, port⟩

end

end

/-! ### Counters that step once each -/

/-- Counting in each field of a list moves registers only. -/
theorem State.rest_incEach (l : List Fld) (s : State) :
    l.foldl (fun u f => u.inc f) s = { s with regs := (l.foldl (fun u f => u.inc f) s).regs } := by
  induction l generalizing s with
  | nil => rfl
  | cons f l ih =>
    rw [List.foldl_cons, ih (s.inc f)]
    rfl

theorem State.get_incEach_of_ne {l : List Fld} {f : Fld} (other : ∀ g ∈ l, f.reg ≠ g.reg) (s : State) :
    (l.foldl (fun u f => u.inc f) s).get f = s.get f := by
  induction l generalizing s with
  | nil => rfl
  | cons g l ih =>
    obtain ⟨here, later⟩ := List.forall_mem_cons.mp other
    exact (ih later (s.inc g)).trans (State.get_inc_of_ne s g f 1 here)

/-- Of fields in registers of their own, each counts once. -/
theorem State.get_incEach {l : List Fld} {f : Fld} (apart : l.Pairwise (fun g h => g.reg ≠ h.reg)) (within : f ∈ l) (fits : f.lo + f.w ≤ 64)
    (s : State) : (l.foldl (fun u f => u.inc f) s).get f = (s.get f + 1) % 2 ^ f.w := by
  induction l generalizing s with
  | nil => cases within
  | cons g l ih =>
    obtain ⟨first, later⟩ := List.pairwise_cons.mp apart
    rcases List.mem_cons.mp within with rfl | within
    · exact (State.get_incEach_of_ne first (s.inc f)).trans (State.get_inc_self s f 1 fits)
    · rw [List.foldl_cons, ih later within (s.inc g), State.get_inc_of_ne s g f 1 (first f within).symm]

/-! ### Telemetry (R407) -/

/-- The packets toward a port in a class, by furrow. -/
def egressQueue (furrows : List (Nat × List Desc)) (q : Nat × Nat) : List (Nat × List Desc) :=
  furrows.filter (fun e => e.1 / 4 % 256 == q.1 && e.1 % 4 == q.2)

/-- The bytes in an egress queue. -/
def egressDepth (furrows : List (Nat × List Desc)) (q : Nat × Nat) : Nat :=
  (((egressQueue furrows q).flatMap (·.2)).map (fun d => d.p.size)).sum

/-- The ages of an egress queue's heads. -/
def egressAges (furrows : List (Nat × List Desc)) (beat : Nat) (q : Nat × Nat) : List Nat :=
  ((egressQueue furrows q).filterMap (fun e => e.2.head?)).map (fun d => beat - d.entered)

/-- The two histogram counters of an egress queue that a sample counts in. -/
def sampledBins (furrows : List (Nat × List Desc)) (beat : Nat) (q : Nat × Nat) : List Fld :=
  let ages := egressAges furrows beat q
  [F.HIST_DEPTH_count q.1 q.2 (depthBin (egressDepth furrows q)), F.HIST_DELAY_count q.1 q.2 (delayBin ages.isEmpty (ages.foldl max 0))]

/-- The egress queues: a port and a class. -/
def egressQueues : List (Nat × Nat) := List.range 144 ×ˢ List.range 4

/-- The counters of one sample. -/
def State.sampled (s : State) : List Fld := egressQueues.flatMap (sampledBins s.sw.furrows s.beat)

theorem mem_egressQueues {q : Nat × Nat} : q ∈ egressQueues ↔ q.1 < 144 ∧ q.2 < 4 := by
  rw [egressQueues, List.mem_product, List.mem_range, List.mem_range]

theorem depthBin_le (n : Nat) : depthBin n ≤ 15 := by
  unfold depthBin
  split <;> omega

theorem delayBin_le (empty : Bool) (age : Nat) : delayBin empty age ≤ 15 := by
  unfold delayBin
  split <;> omega

theorem histDelay_eq (p c k : Nat) : R.HIST_DELAY p c k = R.HIST_DEPTH p c (16 + k) := by
  simp only [R.HIST_DEPTH, R.HIST_DELAY]
  omega

/-- The bins of a queue lie in its own two rows of 16 registers: depth first, then delay. -/
theorem reg_sampledBins {furrows : List (Nat × List Desc)} {beat : Nat} {q : Nat × Nat} {f : Fld} (within : f ∈ sampledBins furrows beat q) :
    ∃ i < 32, f.reg = R.HIST_DEPTH q.1 q.2 i := by
  simp only [sampledBins, List.mem_cons, List.not_mem_nil, or_false] at within
  rcases within with rfl | rfl
  · exact ⟨_, (depthBin_le _).trans_lt (show 15 < 32 by decide), rfl⟩
  · refine ⟨_, ?_, histDelay_eq _ _ _⟩
    exact Nat.add_lt_add_left ((delayBin_le _ _).trans_lt (show 15 < 16 by decide)) 16

/-- The two bins of a queue differ. -/
theorem sampledBins_apart (furrows : List (Nat × List Desc)) (beat : Nat) (q : Nat × Nat) :
    (sampledBins furrows beat q).Pairwise (fun f g => f.reg ≠ g.reg) := by
  refine List.pairwise_pair.mpr ?_
  have shallow := depthBin_le (egressDepth furrows q)
  simp only [histDelay_eq, R.HIST_DEPTH]
  omega

/-- No two counters of a sample are the same register. -/
theorem State.sampled_apart (s : State) : s.sampled.Pairwise (fun f g => f.reg ≠ g.reg) := by
  refine List.pairwise_flatMap.mpr ⟨fun q _ => sampledBins_apart _ _ q, ?_⟩
  refine (List.nodup_range.product List.nodup_range).pairwise_of_forall_ne fun q hq r hr different f hf g hg same => different ?_
  obtain ⟨i, row, rf⟩ := reg_sampledBins hf
  obtain ⟨j, row', rg⟩ := reg_sampledBins hg
  have qc := (mem_egressQueues.mp hq).2
  have rc := (mem_egressQueues.mp hr).2
  rw [rf, rg] at same
  simp only [R.HIST_DEPTH] at same
  exact Prod.ext (by omega) (by omega)

theorem mem_sampled {s : State} {q : Nat × Nat} {f : Fld} (queue : q ∈ egressQueues) (bin : f ∈ sampledBins s.sw.furrows s.beat q) :
    f ∈ s.sampled := List.mem_flatMap.mpr ⟨q, queue, bin⟩

theorem telemetrySample_of_skipped {s : State} (skipped : s.turn % 2 ^ s.get F.HG_SAMPLE_shift ≠ 0) : telemetrySample s = s := if_pos skipped

/-- A sample counts once in each of its counters; what it counts does not change the time the next queue's ages are taken at. -/
theorem telemetrySample_of_due {s : State} (due : s.turn % 2 ^ s.get F.HG_SAMPLE_shift = 0) :
    telemetrySample s = s.sampled.foldl (fun u f => u.inc f) s := by
  have counted (qs : List (Nat × Nat)) (u : State) :
      qs.foldl (fun u q => (sampledBins s.sw.furrows u.beat q).foldl (fun u f => u.inc f) u) u =
        (qs.flatMap (sampledBins s.sw.furrows u.beat)).foldl (fun u f => u.inc f) u := by
    induction qs generalizing u with
    | nil => rfl
    | cons q qs ih =>
      rw [List.flatMap_cons, List.foldl_append, List.foldl_cons, ih]
      rfl
  rw [State.sampled, ← counted, egressQueues]
  simp only [SProd.sprod, List.product, List.foldl_flatMap, List.foldl_map]
  exact if_neg (not_not.mpr due)

/-! ### Shapers and meters (R395, R397, R549) -/

section
variable {s : State} {port : Fin 144} {which : Fin 6} {v : BitVec 64}

/-- The state after a meter's rates are written and its buckets refilled. -/
def State.writeRate (s : State) (p m : Nat) (v : BitVec 64) : State :=
  (s.setWord (R.MTR_RATE p m) (BitVec.ofNat 64 (v.toNat % 2 ^ 34))).fillMeter p m

section
variable (rate : which = 2 ∨ which = 4)
include rate

theorem shaperMeterWrite_of_rate (allowed : bits v.toNat 32 2 ≠ 3) :
    shaperMeterWrite port which v s = s.writeRate port ((which.val - 2) / 2) v := by
  rcases rate with rfl | rfl <;> exact if_neg allowed

/-- Mode 3 does not exist: the mode stays, and the write is counted with its address (log entry 47). -/
theorem shaperMeterWrite_of_mode3 (refused : bits v.toNat 32 2 = 3) :
    shaperMeterWrite port which v s =
      let m := (which.val - 2) / 2
      (((s.writeRate port m v).set (F.MTR_RATE_mode port m) (s.get (F.MTR_RATE_mode port m))).inc F.HG_REJ_COUNT_rej).set F.HG_REJ_ADDR_addr
        (R.MTR_RATE port m) := by
  rcases rate with rfl | rfl <;> exact if_pos refused

end

theorem shaperMeterWrite_of_buckets (buckets : which = 3 ∨ which = 5) :
    shaperMeterWrite port which v s =
      (s.setWord (R.MTR_BKT port ((which.val - 2) / 2)) (BitVec.ofNat 64 (v.toNat % 2 ^ 48))).fillMeter port ((which.val - 2) / 2) := by
  rcases buckets with rfl | rfl <;> rfl

end

/-- A refused mode leaves the mode as it was and the register's address in HG_REJ_ADDR. -/
theorem get_rejectedRate (s u : State) (p : Fin 144) {m : Nat} (meter : m < 2) :
    let t := ((u.set (F.MTR_RATE_mode p m) (s.get (F.MTR_RATE_mode p m))).inc F.HG_REJ_COUNT_rej).set F.HG_REJ_ADDR_addr (R.MTR_RATE p m)
    t.get (F.MTR_RATE_mode p m) = s.get (F.MTR_RATE_mode p m) ∧ t.get F.HG_REJ_ADDR_addr = R.MTR_RATE p m := by
  have below : R.MTR_RATE p m < R.HG_REJ_COUNT := by
    simp only [R.MTR_RATE, R.HG_REJ_COUNT]
    omega
  have address : R.MTR_RATE p m < 2 ^ F.HG_REJ_ADDR_addr.w := below.trans (by decide)
  refine ⟨?_, ?_⟩
  · rw [State.get_set_of_ne _ _ _ _ (below.trans (by decide)).ne, State.get_inc_of_ne _ _ _ _ below.ne,
      State.get_set_self _ _ _ (show 32 + 2 ≤ 64 by decide)]
    exact Nat.mod_eq_of_lt (s.get_lt (F.MTR_RATE_mode p m))
  · rw [State.get_set_self _ _ _ (by decide)]
    exact Nat.mod_eq_of_lt address

/-- Settles O34: each command asks whether its time has come or what it names is known, and then acts or leaves everything as it was. -/
theorem headgateCommands : Obligations.HeadgateCommands := by
  unfold Obligations.HeadgateCommands
  intro s v18 port cls src m sa dst24 mc tree id n coll md which v d rest a asked
  refine ⟨fun live => ⟨fun held => ?_, fun outside => ?_⟩, fun first => ?_, fun later => ?_,
    fun head => ⟨fun on red demoted starved => ?_, fun unstarved => ?_⟩, ⟨fun idle => ?_, fun marked gap => ?_⟩,
    fun known => ⟨fun due => ?_, fun few early => ?_⟩,
    ⟨fun edge => ⟨fun flow => ?_, fun unknown => ?_⟩, fun multicast copied => ⟨fun stranger => ?_, fun sender => ?_⟩⟩,
    fun skipped => ?_, fun due => ?_,
    fun live => ⟨fun shaper => ?_, fun shaper => ?_, fun rate allowed => ?_, fun rate refused => ?_, fun buckets => ?_⟩⟩
  · obtain ⟨t, run, settled⟩ := completes (i := .grTailWrite v18) rfl ((State.bar_of_open _ live).trans (grTailWrite_of_held held))
    exact ⟨t, run, settled, (settled.get _ (not_isVecReg (by decide))).trans (get_tail_gaugeRelease s v18)⟩
  · exact completes rfl ((State.bar_of_open _ live).trans (grTailWrite_of_outside outside))
  · exact completes rfl (calBankSwitch_of_first first)
  · exact completes rfl (calBankSwitch_of_later later)
  · exact completes rfl (starvePromote_of_starved head on red demoted starved)
  · exact completes rfl (starvePromote_of_unstarved head unstarved)
  · exact completes rfl (meterMark_of_none_due idle)
  · exact completes rfl (meterMark_of_due marked gap)
  · exact completes rfl (dlvReportSend_of_due known due)
  · exact completes rfl (dlvReportSend_of_early known few early)
  · exact completes rfl ((dlvReport_of_no_copy edge).trans (by simp only [flow, if_true]))
  · exact completes rfl ((dlvReport_of_no_copy edge).trans (by
      simp only [unknown, Option.isSome_none, Bool.false_eq_true, if_false, State.flowReport_of_unknown]))
  · exact completes rfl (dlvReport_of_stranger multicast copied stranger)
  · exact completes rfl (dlvReport_of_copy multicast copied sender)
  · exact completes rfl (telemetrySample_of_skipped skipped)
  · intro queue depth ages once
    obtain ⟨t, run, settled⟩ := completes (i := .telemetrySample) rfl (telemetrySample_of_due due)
    have bin (f : Fld) (within : f ∈ sampledBins s.sw.furrows s.beat (port, cls)) (fits : f.lo + f.w ≤ 64) : t.get f = once f := by
      obtain ⟨i, row, reg⟩ := reg_sampledBins within
      have outside : ¬ isVecReg f.reg := not_isVecReg (.inr (by rw [reg]; simp only [R.INT_VEC, R.HIST_DEPTH]; omega))
      rw [settled.get f outside]
      exact State.get_incEach s.sampled_apart (mem_sampled (mem_egressQueues.mpr ⟨port.isLt, cls.isLt⟩) within) fits s
    refine ⟨t, run, ?_, bin _ (List.mem_cons_self ..) (Nat.le_refl 64),
      bin _ (List.mem_cons_of_mem _ (List.mem_cons_self ..)) (Nat.le_refl 64)⟩
    have rest := settled.rest
    rw [State.rest_incEach] at rest
    exact rest
  · subst shaper
    exact completes rfl (State.bar_of_open _ live)
  · subst shaper
    exact completes rfl (State.bar_of_open _ live)
  · exact completes rfl ((State.bar_of_open _ live).trans (shaperMeterWrite_of_rate rate allowed))
  · obtain ⟨t, run, settled⟩ :=
      completes (i := .shaperMeterWrite port which v) rfl ((State.bar_of_open _ live).trans (shaperMeterWrite_of_mode3 rate refused))
    have meter : (which.val - 2) / 2 < 2 := by omega
    have outside : R.INT_VEC 63 < R.MTR_RATE port ((which.val - 2) / 2) := by
      simp only [R.INT_VEC, R.MTR_RATE]
      omega
    obtain ⟨mode, address⟩ := get_rejectedRate s (s.writeRate port ((which.val - 2) / 2) v) port meter
    refine ⟨t, run, (settled.get _ (not_isVecReg (.inr outside))).trans mode, (settled.get _ (not_isVecReg (by decide))).trans address, ?_⟩
    rw [settled.sw]
    exact settled.rest
  · exact completes rfl ((State.bar_of_open _ live).trans (shaperMeterWrite_of_buckets buckets))

end Sys2Proof.Machine
end

section
/-!
PROOFS. Every command answers a next state, and at its end the interrupt lines are those that the enabled causes and INT_MAP give (R558, R559).
-/
namespace Sys2Proof.Machine
open Sys2Proof

/-! ### The lines do not depend on what the delivery moves -/

namespace Settled
variable {s t : State} (h : Settled s t)
include h

/-- No cause reads INT_VEC (Table 17-5). -/
theorem cause (k : Nat) : t.cause k = s.cause k := by
  have fixed (f : Fld) (outside : f.reg < R.INT_VEC 0 ∨ R.INT_VEC 63 < f.reg) : t.get f = s.get f := h.get f (not_isVecReg outside)
  have rejected (q : Nat) : t.get (F.Q_REJ_COUNT_rej q) = s.get (F.Q_REJ_COUNT_rej q) := fixed _ (.inr (by simp only [R.INT_VEC, R.Q_REJ_COUNT]; omega))
  have seen (q : Nat) : t.get (F.Q_REJ_ACK_ack q) = s.get (F.Q_REJ_ACK_ack q) := fixed _ (.inr (by simp only [R.INT_VEC, R.Q_REJ_ACK]; omega))
  have stopped (q : Nat) : t.get (F.Q_STATUS_stopped q) = s.get (F.Q_STATUS_stopped q) := fixed _ (.inr (by simp only [R.INT_VEC, R.Q_STATUS]; omega))
  have events : (decide (k ≤ 24) && t.differ (F.INT_EVT_events k) (F.INT_EVT_ACK_ack k)) =
      (decide (k ≤ 24) && s.differ (F.INT_EVT_events k) (F.INT_EVT_ACK_ack k)) := by
    by_cases known : k ≤ 24
    · simp only [State.differ]
      rw [fixed (F.INT_EVT_events k) (.inl (by simp only [R.INT_VEC, R.INT_EVT]; omega)),
        fixed (F.INT_EVT_ACK_ack k) (.inl (by simp only [R.INT_VEC, R.INT_EVT_ACK]; omega))]
    · simp only [known, decide_false, Bool.false_and]
  have queues : t.queueRej = s.queueRej := by simp only [State.queueRej, State.differ, rejected, seen]
  unfold State.cause
  split
  case h_12 => simp (disch := decide) only [State.anyRej, queues, State.differ, fixed]
  case h_15 => simp (disch := decide) only [fixed]
  case h_16 => simp only [stopped]
  case h_17 => exact events
  all_goals simp (disch := decide) only [State.differ, State.audHold, fixed]

/-- So the lines of the vectors are those of the state before the delivery. -/
theorem intLines : t.intLines = s.intLines := by
  have causes : t.cause = s.cause := funext h.cause
  have enabled : t.get F.INT_EN_en = s.get F.INT_EN_en := h.get _ (not_isVecReg (by decide))
  have mapped (k : Nat) (known : k < 25) : t.get (F.INT_MAP_vector k) = s.get (F.INT_MAP_vector k) :=
    h.get _ (not_isVecReg (.inl (by simp only [R.INT_VEC, R.INT_MAP]; omega)))
  have pend : t.intPend = s.intPend := by simp only [State.intPend, State.intStatus, causes, enabled]
  simp only [State.intLines, pend]
  refine List.foldl_ext _ _ _ fun lines k within => ?_
  rw [mapped k (List.mem_range.mp (List.mem_filter.mp within).1)]

end Settled

/-! ### The delivery -/

/-- A trigger leaves the lines as last seen (R559). -/
@[simp] theorem lines_msixTrigger (s : State) (v : Nat) : (s.msixTrigger v).host.lines = s.host.lines := by
  simp only [State.msixTrigger, State.msixWrite]
  split_ifs <;> rfl

theorem lines_triggers (l : List Nat) (s : State) : (l.foldl State.msixTrigger s).host.lines = s.host.lines := by
  induction l generalizing s with
  | nil => rfl
  | cons v l ih => rw [List.foldl_cons, ih, lines_msixTrigger]

/-- The delivery sees the lines of now. -/
theorem lines_hostIrq (s : State) : s.hostIrq.host.lines = s.intLines := by
  simp only [State.hostIrq]
  split_ifs with off
  · exact (intLines_of_disabled s off).symm
  · exact lines_triggers _ _

/-- What every command's end leaves: the lines as last seen are those of the causes. -/
theorem lines_of_done {u t : State} (ends : done u = .next t) : t.host.lines = t.intLines := by
  obtain rfl : u.hostIrq = t := Host.Outcome.next.inj ends
  rw [lines_hostIrq, (settled_hostIrq u).intLines]

/-! ### Every command -/

/-- Each command's meaning ends with the delivery of interrupts. -/
theorem exec_eq_done (c : Instr) (s : State) : ∃ u, exec c s = done u := by
  cases c <;> exact ⟨_, rfl⟩

theorem lines_of_exec {c : Instr} {s t : State} (run : exec c s = .next t) : t.host.lines = t.intLines := by
  obtain ⟨u, ends⟩ := exec_eq_done c s
  exact lines_of_done (ends.symm.trans run)

/-- A step is the end of a command or of a pulse of the turn clock. -/
theorem step_eq_done (s : State) : ∃ u, step s = done u := by
  cases front : s.pending with
  | nil => exact ⟨idle s, step_of_empty front⟩
  | cons c rest =>
    rw [step_of_cons front]
    exact exec_eq_done c _

/-- Settles O5: a step ends with the delivery of interrupts, which sees the lines of now and moves none of what they come from. -/
theorem linesFollowCauses : Obligations.LinesFollowCauses := by
  unfold Obligations.LinesFollowCauses
  refine ⟨fun s => ?_, fun s t _ run => ?_, fun c s t run => lines_of_exec run⟩
  · obtain ⟨u, ends⟩ := step_eq_done s
    exact ⟨u.hostIrq, ends⟩
  · obtain ⟨u, ends⟩ := step_eq_done s
    exact lines_of_done (ends.symm.trans run)

end Sys2Proof.Machine
end

section
/-!
PROOFS. What each rise of a vector's line does (R559): the delivery acts on the vectors one by one, and no trigger touches another vector.
-/
namespace Sys2Proof.Machine
open Sys2Proof

/-! ### One trigger -/

theorem bit_set (x : Nat) {v w : Nat} : bit (x ||| 1 <<< v) w = (bit x w || decide (w = v)) := by
  simp only [bit, Nat.testBit_or, Nat.one_shiftLeft, Nat.testBit_two_pow, eq_comm]

/-- Is the vector kept from sending (R540, R559): by a mask, by Bus Master Enable or by D3hot? -/
def State.holds (s : State) (v : Nat) : Bool := s.msixHeld v || s.host.d3hot

/-- Does a trigger of the vector send its message at once? -/
def State.sendsNow (s : State) (v : Nat) : Bool := !s.holds v && !bit s.host.gapOpen v

/-- The message of the vector's table entry. -/
def State.vecMsg (s : State) (v : Nat) : Out := .msix v (s.msixEntry v).addr (s.msixEntry v).data

section
variable {s : State} {v : Nat}

theorem msixTrigger_of_holds (held : s.holds v = true) : s.msixTrigger v = { s with host.pba := s.host.pba ||| 1 <<< v } := if_pos held

theorem msixTrigger_of_gap (free : s.holds v = false) (gap : bit s.host.gapOpen v = true) :
    s.msixTrigger v = { s with host.gapHeld := s.host.gapHeld ||| 1 <<< v } :=
  (if_neg (Bool.eq_false_iff.mp free)).trans (if_pos gap)

theorem msixTrigger_of_sends (free : s.holds v = false) (quiet : bit s.host.gapOpen v = false) : s.msixTrigger v = s.msixWrite v :=
  (if_neg (Bool.eq_false_iff.mp free)).trans (if_neg (Bool.eq_false_iff.mp quiet))

end

/-- What the delivery of interrupts moves of a vector, where `rise` says whether its line rose: its PBA bit, its gap with the trigger held in it, and its
count of messages sent. -/
structure Delivered (s t : State) (rise : Bool) (v : Nat) : Prop where
  pba  : bit t.host.pba v = (bit s.host.pba v || (rise && s.holds v))
  held : bit t.host.gapHeld v = (bit s.host.gapHeld v || (rise && !s.holds v && bit s.host.gapOpen v))
  open_ : bit t.host.gapOpen v = (bit s.host.gapOpen v || (rise && s.sendsNow v && s.get (F.INT_VEC_gap v) != 0))
  gap  : t.get (F.INT_VEC_gap v) = s.get (F.INT_VEC_gap v)
  sent : t.get (F.INT_VEC_sent v) = (s.get (F.INT_VEC_sent v) + b2n (rise && s.sendsNow v)) % 2 ^ 32

/-- Without a write of registers every field reads as before. -/
theorem get_of_regs {s t : State} (same : t.regs = s.regs) (f : Fld) : t.get f = s.get f := by simp only [State.get, State.word, same]

section
variable (s : State) (v w : Nat)

theorem get_gap_inc_sent : (s.inc (F.INT_VEC_sent v)).get (F.INT_VEC_gap w) = s.get (F.INT_VEC_gap w) :=
  State.get_inc_of_disjoint s (F.INT_VEC_sent v) (F.INT_VEC_gap w) 1 (.inl (show 0 + 16 ≤ 32 by decide)) (show 0 + 16 ≤ 64 by decide)

theorem get_sent_inc_sent : (s.inc (F.INT_VEC_sent v)).get (F.INT_VEC_sent w) = (s.get (F.INT_VEC_sent w) + b2n (decide (w = v))) % 2 ^ 32 := by
  rcases eq_or_ne w v with rfl | other
  · simpa [b2n] using State.get_inc_self s (F.INT_VEC_sent w) 1 (show 32 + 32 ≤ 64 by decide)
  · have fits : s.get (F.INT_VEC_sent w) < 2 ^ 32 := s.get_lt _
    rw [State.get_inc_of_ne s _ _ 1 (by simp only [R.INT_VEC]; omega)]
    simp only [other, decide_false, b2n, Bool.false_eq_true, if_false, Nat.add_zero, Nat.mod_eq_of_lt fits]

theorem get_sent_mod : (s.get (F.INT_VEC_sent w) + b2n false) % 2 ^ 32 = s.get (F.INT_VEC_sent w) := Nat.mod_eq_of_lt (s.get_lt _)

/-- A message leaves, is counted, and opens the gap where the vector has one (R539, R559). -/
theorem msixWrite_eq : s.msixWrite v = { (s.emit (s.vecMsg v)).inc (F.INT_VEC_sent v) with
    host.gapOpen := if s.get (F.INT_VEC_gap v) = 0 then s.host.gapOpen else s.host.gapOpen ||| 1 <<< v } := by
  have gap : ((s.emit (s.vecMsg v)).inc (F.INT_VEC_sent v)).get (F.INT_VEC_gap v) = s.get (F.INT_VEC_gap v) := get_gap_inc_sent (s.emit (s.vecMsg v)) v v
  simp only [State.vecMsg] at gap
  simp only [State.msixWrite, gap, State.vecMsg]
  split_ifs <;> rfl

/-- A trigger that sends no message moves its PBA bit or the trigger held in its gap. -/
theorem delivered_of_quiet {t : State} (quiet : (decide (w = v) && s.sendsNow w) = false) (regs : t.regs = s.regs)
    (open_ : t.host.gapOpen = s.host.gapOpen) (pba : bit t.host.pba w = (bit s.host.pba w || (decide (w = v) && s.holds w)))
    (held : bit t.host.gapHeld w = (bit s.host.gapHeld w || (decide (w = v) && !s.holds w && bit s.host.gapOpen w))) :
    Delivered s t (decide (w = v)) w :=
  ⟨pba, held, by rw [open_, quiet, Bool.false_and, Bool.or_false], get_of_regs regs _, by rw [get_of_regs regs, quiet, get_sent_mod]⟩

/-- A trigger acts on its own vector and leaves every other alone (R559). -/
theorem delivered_msixTrigger : Delivered s (s.msixTrigger v) (decide (w = v)) w := by
  cases held : s.holds v with
  | true =>
    rw [msixTrigger_of_holds held]
    refine delivered_of_quiet s v w ?_ rfl rfl ?_ ?_ <;> rcases eq_or_ne w v with rfl | other <;> simp [State.sendsNow, bit_set, *]
  | false =>
    cases gap : bit s.host.gapOpen v with
    | true =>
      rw [msixTrigger_of_gap held gap]
      refine delivered_of_quiet s v w ?_ rfl rfl ?_ ?_ <;> rcases eq_or_ne w v with rfl | other <;> simp [State.sendsNow, bit_set, *]
    | false =>
      rw [msixTrigger_of_sends held gap, msixWrite_eq]
      have count : (decide (w = v) && s.sendsNow w) = decide (w = v) := by
        rcases eq_or_ne w v with rfl | other <;> simp [State.sendsNow, *]
      refine ⟨?_, ?_, ?_, get_gap_inc_sent (s.emit (s.vecMsg v)) v w, ?_⟩
      · rcases eq_or_ne w v with rfl | other <;> simp [*]
      · rcases eq_or_ne w v with rfl | other <;> simp [*]
      · rw [count]
        rcases eq_or_ne w v with rfl | other
        · by_cases none : s.get (F.INT_VEC_gap w) = 0 <;> simp [bit_set, none]
        · by_cases none : s.get (F.INT_VEC_gap v) = 0 <;> simp [bit_set, none, other]
      · rw [count]
        exact get_sent_inc_sent (s.emit (s.vecMsg v)) v w

end

/-! ### The triggers of one delivery -/

namespace Settled
variable {s t : State} (h : Settled s t)
include h

/-- The delivery moves no mask (R559). -/
theorem holds (v : Nat) : t.holds v = s.holds v := by
  simp only [State.holds, State.msixHeld, State.msixEntry]
  rw [h.hostf]

/-- And no entry of the MSI-X table. -/
theorem vecMsg (v : Nat) : t.vecMsg v = s.vecMsg v := by
  simp only [State.vecMsg, State.msixEntry]
  rw [h.hostf]

end Settled

section
variable {s t u : State} {w : Nat} {rise : Bool}

theorem Delivered.refl (s : State) (w : Nat) : Delivered s s false w :=
  ⟨by simp, by simp, by simp, rfl, by rw [Bool.false_and, get_sent_mod]⟩

/-- A vector whose line did not rise sends as before. -/
theorem Delivered.sendsNow (still : Delivered s t false w) (holds : t.holds w = s.holds w) : t.sendsNow w = s.sendsNow w := by
  simp only [State.sendsNow, holds, still.open_, Bool.false_and, Bool.or_false]

theorem Delivered.of_still (still : Delivered s t false w) (holds : t.holds w = s.holds w) (moves : Delivered t u rise w) : Delivered s u rise w := by
  have sent := still.sent
  rw [Bool.false_and, get_sent_mod] at sent
  refine ⟨?_, ?_, ?_, moves.gap.trans still.gap, ?_⟩
  · rw [moves.pba, still.pba, holds, Bool.false_and, Bool.or_false]
  · rw [moves.held, still.held, still.open_, holds]
    simp only [Bool.false_and, Bool.or_false]
  · rw [moves.open_, still.open_, still.sendsNow holds, still.gap]
    simp only [Bool.false_and, Bool.or_false]
  · rw [moves.sent, sent, still.sendsNow holds]

theorem Delivered.then_still (moves : Delivered s t rise w) (still : Delivered t u false w) : Delivered s u rise w := by
  have sent := still.sent
  rw [Bool.false_and, get_sent_mod] at sent
  refine ⟨?_, ?_, ?_, still.gap.trans moves.gap, sent.trans moves.sent⟩
  · rw [still.pba, moves.pba, Bool.false_and, Bool.or_false]
  · rw [still.held, moves.held]
    simp only [Bool.false_and, Bool.or_false]
  · rw [still.open_, moves.open_]
    simp only [Bool.false_and, Bool.or_false]

/-- Each vector is acted on once where it is listed, and is left alone elsewhere. -/
theorem delivered_triggers {l : List Nat} (once : l.Nodup) (vectors : ∀ v ∈ l, v < 64) (s : State) (w : Nat) :
    Delivered s (l.foldl State.msixTrigger s) (decide (w ∈ l)) w := by
  induction l generalizing s with
  | nil => simpa using Delivered.refl s w
  | cons v l ih =>
    obtain ⟨out, once⟩ := List.nodup_cons.mp once
    have first := delivered_msixTrigger s v w
    have later := ih once (fun u hu => vectors u (List.mem_cons_of_mem _ hu)) (s.msixTrigger v)
    rcases eq_or_ne w v with rfl | other
    · simp only [out, decide_false] at later
      simpa using first.then_still later
    · simp only [other, decide_false] at first
      simpa [other] using first.of_still ((settled_msixTrigger s v (vectors v (List.mem_cons_self ..))).holds w) later

/-- The messages leave in the order of the list. -/
theorem out_triggers {l : List Nat} (once : l.Nodup) (vectors : ∀ v ∈ l, v < 64) (s : State) :
    (l.foldl State.msixTrigger s).out = s.out ++ (l.filter s.sendsNow).map s.vecMsg := by
  induction l generalizing s with
  | nil => simp
  | cons v l ih =>
    obtain ⟨out, once⟩ := List.nodup_cons.mp once
    have settled := settled_msixTrigger s v (vectors v (List.mem_cons_self ..))
    have rest : l.filter (s.msixTrigger v).sendsNow = l.filter s.sendsNow := List.filter_congr fun w hw => by
      have other : w ≠ v := fun same => out (same ▸ hw)
      have still := delivered_msixTrigger s v w
      rw [decide_eq_false other] at still
      exact still.sendsNow (settled.holds w)
    have first : (s.msixTrigger v).out = s.out ++ if s.sendsNow v then [s.vecMsg v] else [] := by
      cases held : s.holds v with
      | true => rw [msixTrigger_of_holds held]; simp [State.sendsNow, held]
      | false =>
        cases gap : bit s.host.gapOpen v with
        | true => rw [msixTrigger_of_gap held gap]; simp [State.sendsNow, gap]
        | false => rw [msixTrigger_of_sends held gap, msixWrite_eq]; simp [State.sendsNow, held, gap]
    rw [List.foldl_cons, ih once (fun u hu => vectors u (List.mem_cons_of_mem _ hu)), rest, first, funext settled.vecMsg, List.filter_cons]
    split_ifs <;> simp

end

/-! ### The delivery -/

/-- Did the line of a vector rise since it was last seen? -/
def State.rises (s : State) (v : Nat) : Bool := bit s.intLines v && !bit s.host.lines v

/-- The vectors whose lines rose, in ascending order. -/
def State.risen (s : State) : List Nat := (List.range 64).filter s.rises

theorem lt_of_risen {s : State} {v : Nat} (rose : v ∈ s.risen) : v < 64 := List.mem_range.mp (List.mem_filter.mp rose).1

/-- The delivery is one trigger for each risen line (R559). -/
theorem hostIrq_eq (s : State) : s.hostIrq = s.risen.foldl State.msixTrigger { s with host.lines := s.intLines } := by
  simp only [State.hostIrq]
  split_ifs with off
  · have none : s.risen = [] := by simp [State.risen, State.rises, intLines_of_disabled s off, bit]
    rw [none, List.foldl_nil, intLines_of_disabled s off]
  · rw [bitList, List.filter_filter]
    exact congrArg (List.foldl _ _) (List.filter_congr fun v _ => Bool.and_comm ..)

/-- Settles O6: the delivery is one trigger for each risen line in ascending order, and a trigger acts on its own vector alone. -/
theorem interruptDelivery : Obligations.InterruptDelivery := by
  unfold Obligations.InterruptDelivery
  intro u rises held sends
  have once : u.risen.Nodup := List.nodup_range.filter _
  refine ⟨u.hostIrq, rfl, settled_hostIrq u, lines_hostIrq u, ?_, fun v vector => ?_⟩
  · rw [hostIrq_eq, out_triggers once fun v => lt_of_risen, State.risen, List.filter_filter]
    refine congrArg (fun l => u.out ++ List.map u.vecMsg l) (List.filter_congr fun v _ => ?_)
    exact (Bool.and_comm _ (rises v)).trans (Bool.and_assoc (rises v) (!held v) (!bit u.host.gapOpen v)).symm
  · have moved := delivered_triggers once (fun v => lt_of_risen) { u with host.lines := u.intLines } v
    have rose : decide (v ∈ u.risen) = rises v := by
      simp only [State.risen, List.mem_filter, List.mem_range, vector, true_and, Bool.decide_eq_true]
      rfl
    rw [rose, ← hostIrq_eq] at moved
    have now : (rises v && { u with host.lines := u.intLines }.sendsNow v) = sends v := (Bool.and_assoc ..).symm
    obtain ⟨pba, gapHeld, gapOpen, gap, sent⟩ := moved
    rw [now] at gapOpen sent
    exact ⟨pba, gapHeld, gapOpen, gap, sent⟩

end Sys2Proof.Machine
end

section
/-!
PROOFS. A levee decision on the watermaster (R490): it also decides the steps it held back.
-/
namespace Sys2Proof.Machine
open Sys2Proof

/-- A watermaster with no fault manager, which has taken a digest of step 3 and a verdict that disagrees, and has not decided the step. -/
def undecidedWatermaster : State :=
  { State.reset.sets [(F.FLT_CTL_en, 1), (F.LEV_CTL_mode, 0), (F.WM_CTL_role, 1)] with
    det.audit.digests := [(3, 0, 0)], flt.verdicts := [(3, 0, false)] }

/-- The decision that ends the isolation lets it discard the step at once. -/
theorem settled_leveeDecide_undecidedWatermaster : (leveeDecide 1 0 0 0 undecidedWatermaster).flt.settled = [3] := by decide +kernel

/-- Refutes O46: its last clause has LEVEE_DECIDE end the isolation and arm the fence, and nothing else change. But when the isolation ends the
watermaster decides what it held back (State.rejoin, R490): `undecidedWatermaster` discards its step 3, whose verdict disagrees. -/
theorem not_leveeMessages : ¬ Obligations.LeveeMessages := by
  unfold Obligations.LeveeMessages
  intro claim
  have on : undecidedWatermaster.levee = true := by decide +kernel
  obtain ⟨-, -, -, -, -, -, -, -, decided⟩ := claim undecidedWatermaster 0 0 0 0 1 0 0 false 0 0 0 0 ⟨0, 0, 0, 0, 0, 0⟩ ⟨0, 0, 0, false, 0, 0, 0, [], 0, 0⟩
  obtain ⟨t, run, settled⟩ := decided on
  obtain ⟨u, ends, delivered⟩ := done_next (leveeDecide 1 0 0 0 undecidedWatermaster)
  obtain rfl : u = t := Host.Outcome.next.inj (ends.symm.trans run)
  have discarded : u.flt.settled = [3] := by rw [delivered.flt, settled_leveeDecide_undecidedWatermaster]
  have untouched : u.flt.settled = [] := by
    rw [settled.flt]
    decide +kernel
  exact absurd (discarded.symm.trans untouched) (by decide)

end Sys2Proof.Machine
end

section
/-!
PROOFS. Fields of one bit, and the commands that move a port through its training table (R438 to R441).
-/
namespace Sys2Proof.Machine
open Sys2Proof

/-! ### Fields of one bit -/

namespace State

/-- A field of one bit is 0 or 1. -/
theorem get_flag (s : State) {f : Fld} (one : f.w = 1) : s.get f = 0 ∨ s.get f = 1 := by
  have := s.get_lt f
  rw [one] at this
  omega

theorem get_flag_ne_one (s : State) {f : Fld} (one : f.w = 1) : s.get f ≠ 1 ↔ s.get f = 0 := by
  rcases s.get_flag one with h | h <;> simp [h]

theorem get_flag_ne_zero (s : State) {f : Fld} (one : f.w = 1) : s.get f ≠ 0 ↔ s.get f = 1 := by
  rcases s.get_flag one with h | h <;> simp [h]

end State

/-! ### PORT_ENABLE (R438) -/

section
variable {port : Fin 144} {s : State}

/-- The enable leaves the port's mode and the ports' common register as they were. -/
theorem get_after_enable (port : Fin 144) (s : State) : (s.set (F.PT_CTL_en port) 1).get (F.PT_CTL_en port) = 1 ∧ (s.set (F.PT_CTL_en port) 1).portMode port = s.portMode port ∧
    ∀ f : Fld, f.reg = R.PT_GCTL → (s.set (F.PT_CTL_en port) 1).get f = s.get f := by
  refine ⟨State.get_set_self s _ 1 (show 0 + 1 ≤ 64 by decide),
    State.get_set_of_disjoint s _ _ 1 (.inr (show 0 + 1 ≤ 1 by decide)) (show 1 + 3 ≤ 64 by decide), fun f reg => ?_⟩
  refine State.get_set_of_ne s _ f 1 ?_
  rw [reg]
  simp only [R.PT_GCTL, R.PT_CTL]
  omega

theorem portEnable_of_enabled (on : s.get (F.PT_CTL_en port) = 1) : portEnable port s = s := if_pos on

variable (off : s.get (F.PT_CTL_en port) = 0)
include off

theorem portEnable_of_disabled : portEnable port s = (s.set (F.PT_CTL_en port) 1).portStart port := if_neg (by rw [off]; decide)

theorem portEnable_of_idle (idle : s.get F.PT_GCTL_en = 0 ∨ s.portMode port > 4) : portEnable port s = s.set (F.PT_CTL_en port) 1 := by
  obtain ⟨-, mode, common⟩ := get_after_enable port s
  rw [portEnable_of_disabled off]
  exact if_pos (.inr (by rwa [mode, common _ rfl]))

theorem portEnable_of_start (on : s.get F.PT_GCTL_en = 1) (mode : s.portMode port ≤ 4) :
    portEnable port s = (s.set (F.PT_CTL_en port) 1).enterEntry port
      (if s.portMode port ≤ 1 then s.get F.PT_GCTL_start_g else s.get F.PT_GCTL_start_e) := by
  obtain ⟨enabled, same, common⟩ := get_after_enable port s
  rw [portEnable_of_disabled off, State.portStart, if_neg]
  · simp only [State.isG, same, common F.PT_GCTL_start_g rfl, common F.PT_GCTL_start_e rfl, decide_eq_true_eq]
  · rw [enabled, common _ rfl, on, same]
    omega

end

/-! ### Actions that end (R439, R440) -/

section
variable {port : Fin 144} {s : State}

theorem actionEnds_of_acting {action : Nat} (ok : Bool) (acting : s.acting port action = true) :
    actionEnds action port ok s = s.outcome port (if ok then outOk else outFail) := if_pos acting

theorem actionEnds_of_idle {action : Nat} (ok : Bool) (idle : s.acting port action = false) : actionEnds action port ok s = s :=
  if_neg (Bool.eq_false_iff.mp idle)

/-- The commands by which an action of the hardware alone ends, with the action. -/
def actionRows (port : Fin 144) (ok : Bool) : List (Instr × Nat) :=
  [(Instr.detect port ok, 1), (Instr.eq port ok, 2), (Instr.align port ok, 4), (Instr.ethTrain port ok, 10), (Instr.ethLock port ok, 11)]

theorem exec_actionRows (port : Fin 144) (ok : Bool) (s : State) : ∀ q ∈ actionRows port ok, exec q.1 s = done (actionEnds q.2 port ok s) := by
  intro q row
  simp only [actionRows, List.mem_cons, List.not_mem_nil, or_false] at row
  rcases row with rfl | rfl | rfl | rfl | rfl <;> rfl

theorem keyChk_of_acting (same : Bool) (acting : s.acting port 6 = true) :
    keyChk port same s = s.outcome port (if same = true ∧ s.linkSecret port ≠ [] then outOk else outAlt) := by
  simp only [keyChk, acting, Bool.not_true, Bool.false_eq_true, if_false, Bool.and_eq_true, Bool.not_eq_true', List.isEmpty_eq_false_iff]

theorem keyChk_of_idle (same : Bool) (idle : s.acting port 6 = false) : keyChk port same s = s := if_pos (by rw [idle]; rfl)

theorem hold_of_waited (acting : s.acting port 9 = true) (waited : (s.link port).entryAt + 1000000 * bits (s.entry port) 40 16 ≤ s.beat) :
    hold port s = s.outcome port outOk := if_pos (by simp [acting, waited])

theorem hold_of_not_waited (early : s.acting port 9 = false ∨ ¬ (s.link port).entryAt + 1000000 * bits (s.entry port) 40 16 ≤ s.beat) :
    hold port s = s := if_neg (by simpa [imp_iff_not_or] using early)

/-! ### LANETEST (R440) -/

/-- A lane that failed is in the list of failed lanes. -/
theorem lanes_of_bad : ∀ bad : BitVec 4, bad ≠ 0 → bitList bad.toNat 4 ≠ [] := by decide

/-- The spare lanes that the port may take (R440). -/
def State.spares (s : State) (p : Nat) : List Nat :=
  (List.range 2).filter (fun k => s.get (F.SPARE_port (p / 18) k) == p && s.get (F.SPARE_in_use (p / 18) k) == 0)

section
variable {bad : BitVec 4}

theorem laneTest_of_idle (idle : s.acting port 3 = false) : laneTest port bad s = s := if_pos (by rw [idle]; rfl)

variable (acting : s.acting port 3 = true)
include acting

theorem laneTest_of_sound (sound : bad = 0) : laneTest port bad s = s.outcome port outOk := by
  subst sound
  simp [laneTest, acting, bitList]

theorem laneTest_of_no_spare (some_ : bad ≠ 0)
    (none : s.isG port = false ∨ s.get (F.PT_CTL_spare_ok port) = 0 ∨ (s.spares port).length < (bitList bad.toNat 4).length) :
    laneTest port bad s = s.outcome port outFail := by
  simp only [State.spares] at none
  simp [laneTest, acting, lanes_of_bad bad some_, none]

theorem laneTest_of_spares (some_ : bad ≠ 0) (gasha : s.isG port = true) (allowed : s.get (F.PT_CTL_spare_ok port) = 1)
    (enough : (bitList bad.toNat 4).length ≤ (s.spares port).length) :
    laneTest port bad s = (bitList bad.toNat 4).foldl (fun u i => u.sendTrain port 0 i 1)
      (s.putLink port { s.link port with lanes := bitList bad.toNat 4 }) := by
  simp only [State.spares] at enough
  simp [laneTest, acting, lanes_of_bad bad some_, gasha, allowed, not_lt.mpr enough]

end

/-! ### TRAIN_TIMEOUT and ACTIVE_FAIL (R438, R439) -/

theorem trainTimeout_of_passed (enabled : s.get (F.PT_CTL_en port) = 1) (common : s.get F.PT_GCTL_en = 1) (training : s.action port ≠ 0)
    (limited : bits (s.entry port) 20 20 ≠ 0) (passed : (s.link port).entryAt + 1000 * bits (s.entry port) 20 20 ≤ s.beat) :
    trainTimeout port s = s.enterEntry port (bits (s.entry port) 14 5) :=
  if_neg (by simp [enabled, common, training, limited, passed])

theorem trainTimeout_of_not_passed (idle : ¬ (s.get (F.PT_CTL_en port) = 1 ∧ s.get F.PT_GCTL_en = 1 ∧ s.action port ≠ 0) ∨
    bits (s.entry port) 20 20 = 0 ∨ ¬ (s.link port).entryAt + 1000 * bits (s.entry port) 20 20 ≤ s.beat) : trainTimeout port s = s := by
  refine if_pos ?_
  rw [← s.get_flag_ne_one (f := F.PT_CTL_en port) rfl, ← s.get_flag_ne_one (f := F.PT_GCTL_en) rfl, ← not_le]
  tauto

/-- The times among `ts` within the last millisecond. -/
def State.recent (s : State) (ts : List Nat) : Nat := (ts.filter (fun t => decide (s.beat < t + 1000000))).length

/-- Does an up port fail (R422, R439): its alignment is lost, or too many codewords or tags failed within a millisecond? -/
def State.failing (s : State) (p : Nat) (lost : Bool) : Prop :=
  lost = true ∨ s.recent (s.link p).fecAt > bits (s.entry p) 40 16 ∨ s.recent (s.link p).tagAt > 16

theorem activeFail_of_failing {lost : Bool} (up : s.up port = true) (fails : s.failing port lost) :
    activeFail port lost s = s.enterEntry port (bits (s.entry port) 14 5) := by
  refine if_pos ?_
  simp only [State.failing, State.recent] at fails
  simpa [up, or_assoc] using fails

theorem activeFail_of_sound {lost : Bool} (sound : s.up port = false ∨ ¬ s.failing port lost) : activeFail port lost s = s := by
  refine if_neg ?_
  simp only [State.failing, State.recent] at sound
  simpa [imp_iff_not_or, or_assoc] using sound

end

/-- Settles O36, command by command: it asks whether its action runs or its time has passed. -/
theorem trainingTable : Obligations.TrainingTable := by
  unfold Obligations.TrainingTable
  intro s port ok bad p asked result waited
  refine ⟨fun live on => ?_, fun live off => ⟨fun idle => ?_, fun on mode => ?_⟩, fun q row => ⟨fun acting => ?_, fun idle => ?_⟩,
    ⟨fun idle => ?_, fun acting sound => ?_, fun acting some_ none => ?_, fun acting some_ gasha allowed enough => ?_⟩,
    fun acting => ?_, fun idle => ?_, fun acting late => ?_, fun early => ?_,
    ⟨fun ⟨enabled, common, training⟩ limited passed => ?_, fun idle => ?_⟩, ⟨fun up fails => ?_, fun sound => ?_⟩⟩
  · exact completes rfl ((State.bar_of_open _ live).trans (portEnable_of_enabled on))
  · exact completes rfl ((State.bar_of_open _ live).trans (portEnable_of_idle off idle))
  · exact completes rfl ((State.bar_of_open _ live).trans (portEnable_of_start off on mode))
  · exact completes (exec_actionRows port ok s q row) (actionEnds_of_acting ok acting)
  · exact completes (exec_actionRows port ok s q row) (actionEnds_of_idle ok idle)
  · exact completes rfl (laneTest_of_idle idle)
  · exact completes rfl (laneTest_of_sound acting sound)
  · exact completes rfl (laneTest_of_no_spare acting some_ none)
  · exact completes rfl (laneTest_of_spares acting some_ gasha allowed enough)
  · exact completes rfl (keyChk_of_acting ok acting)
  · exact completes rfl (keyChk_of_idle ok idle)
  · exact completes rfl (hold_of_waited acting late)
  · exact completes rfl (hold_of_not_waited early)
  · exact completes rfl (trainTimeout_of_passed enabled common training limited passed)
  · exact completes rfl (trainTimeout_of_not_passed idle)
  · exact completes rfl (activeFail_of_failing up fails)
  · exact completes rfl (activeFail_of_sound sound)

end Sys2Proof.Machine
end

section
/-!
PROOFS. A flit on arrival (R416 to R428): which rows take it, whether it is accepted, and what a sealed block releases.
-/
namespace Sys2Proof.Machine
open Sys2Proof

/-! ### The link of a port after a write of it or of registers -/

namespace State

@[simp] theorem link_putLink_self (s : State) (p : Nat) (l : Link) : (s.putLink p l).link p = l := SMap.get_set_self _ _ _

theorem link_putLink_of_ne (s : State) {p q : Nat} (l : Link) (other : q ≠ p) : (s.putLink p l).link q = s.link q := SMap.get_set_of_ne _ _ other

@[simp] theorem get_putLink (s : State) (p : Nat) (l : Link) (f : Fld) : (s.putLink p l).get f = s.get f := rfl
@[simp] theorem link_set (s : State) (f : Fld) (v p : Nat) : (s.set f v).link p = s.link p := rfl
@[simp] theorem link_inc (s : State) (f : Fld) (n p : Nat) : (s.inc f n).link p = s.link p := rfl

end State

/-! ### What sending leaves of the receiver -/

/-- The receiver's place in its seal block: the sequence number it expects next, the flits it holds, and whether it discards. -/
def Link.place (l : Link) : Nat × List RxFlit × Bool := (l.rxExp, l.rxBlock, l.discard)

section
variable (s : State) (p : Nat)

theorem place_sendSeal : ((s.sendSeal p).link p).place = (s.link p).place := by
  simp only [State.sendSeal]
  generalize ((s.link p).crypt && ((s.link p).rekey || decide ((s.link p).txCtr + 1 ≥ 2 ^ 30))) = rekey
  cases rekey <;> simp [Link.place]

theorem place_putFlit (f : Flit) : ((s.putFlit p f).link p).place = (s.link p).place := by
  simp only [State.putFlit]
  generalize (if (s.link p).crypt = true then
    cryptBody (s.linkKey p true (s.link p).txEpoch) (s.link p).txEpoch (s.link p).txCtr (s.link p).txBlock.length f.body else f.body) = body
  split_ifs
  · rw [place_sendSeal]
    simp [Link.place]
  · simp [Link.place]

theorem place_newFlit (type cls : Nat) (sop eop : Bool) (last : Nat) (body : List Byte) :
    ((s.newFlit p type cls sop eop last body).link p).place = (s.link p).place := by
  simp only [State.newFlit]
  rw [place_putFlit]
  simp [Link.place]

theorem place_pump (n : Nat) (s : State) : ((s.pump p n).link p).place = (s.link p).place := by
  induction n generalizing s with
  | zero => rfl
  | succ n ih =>
    simp only [State.pump]
    split
    · rfl
    · split_ifs
      · rfl
      · rw [ih, place_newFlit]
        simp [Link.place]

theorem place_ackTo (l : Link) (now a : Nat) : (l.ackTo now a).place = l.place := by
  simp only [Link.ackTo]
  split
  · rfl
  · split_ifs <;> rfl

/-- The ack and the credits of a header move the sender alone (R428). -/
theorem place_takeHeader (f : Flit) : ((s.takeHeader p f).link p).place = (s.link p).place := by
  simp only [State.takeHeader, State.pumpAll]
  rw [place_pump, State.link_putLink_self]
  exact place_ackTo _ _ _

end

/-! ### One flit position (R422 to R424) -/

/-- A flit whose codeword could be corrected and whose crc holds (R416). -/
def Flit.sound (g : Flit) (fec : Nat) : Prop := g.ok = true ∧ fec ≠ 2

/-- A flit in sequence: the one that ends the discarding, or the one expected (R423). -/
def Flit.onTime (g : Flit) (l : Link) : Prop := (l.discard = true → g.seq = l.rxNext) ∧ (l.discard = false → g.seq = l.rxExp)

/-- The body of a flit in plain, at the next position of the receiver's block (R421). -/
def State.plainBody (s : State) (p : Nat) (g : Flit) : List Byte :=
  let l := s.link p
  if l.crypt ∧ l.rxBlock.length < 47 then cryptBody (s.linkKey p false l.rxEpoch) l.rxEpoch l.rxCtr l.rxBlock.length g.body else g.body

section
variable {s : State} {p : Nat} {g : Flit} {fec : Nat}

theorem rxFlit_none (refused : ¬ g.sound fec ∨ g.type = 0 ∨ ¬ g.onTime (s.link p)) : (s.rxFlit p g fec).1 = none := by
  simp only [State.rxFlit]
  generalize (if ((s.link p).crypt && decide ((s.link p).rxBlock.length < 47)) = true then
    cryptBody (s.linkKey p false (s.link p).rxEpoch) (s.link p).rxEpoch (s.link p).rxCtr (s.link p).rxBlock.length g.body else g.body) = plain
  split_ifs with lost crc idle discards ahead behind
  · rfl
  · rfl
  · rfl
  · rfl
  · rfl
  · rfl
  · exfalso
    simp only [Bool.not_eq_true', Bool.not_eq_false] at crc
    have inTime : g.onTime (s.link p) := by
      refine ⟨fun discards => ?_, fun keeps => ?_⟩
      · by_contra other
        exact ahead ⟨discards, other⟩
      · by_contra other
        exact behind ⟨by rw [keeps]; rfl, other⟩
    rcases refused with unsound | idle' | late
    · exact unsound ⟨crc, lost⟩
    · exact idle idle'
    · exact late inTime

section
variable (sound : g.sound fec) (some_ : g.type ≠ 0) (inTime : g.onTime (s.link p))
include sound some_ inTime

/-- An accepted flit joins the block in hand, and its successor is expected next (R423). -/
theorem rxFlit_of_accepted : s.rxFlit p g fec = (some (s.plainBody p g),
    (((s.fecNote p fec).putLink p { (s.fecNote p fec).link p with rxBlock := ((s.fecNote p fec).link p).rxBlock ++ [⟨g, s.plainBody p g, true⟩] }).putLink p
      { (s.fecNote p fec).link p with
        rxBlock := ((s.fecNote p fec).link p).rxBlock ++ [⟨g, s.plainBody p g, true⟩], discard := false, rxExp := (g.seq + 1) % 4096 }).takeHeader p g) := by
  obtain ⟨crc, codeword⟩ := sound
  obtain ⟨ends, next⟩ := inTime
  have ahead : ¬ ((s.link p).discard = true ∧ g.seq ≠ (s.link p).rxNext) := fun ⟨discards, other⟩ => other (ends discards)
  have behind : ¬ ((!(s.link p).discard) = true ∧ g.seq ≠ (s.link p).rxExp) := fun ⟨keeps, other⟩ => other (next (by simpa using keeps))
  simp only [State.rxFlit, crc, codeword, some_, ahead, behind, Bool.not_true, Bool.false_eq_true, if_false, State.link_putLink_self]
  simp only [State.plainBody, Bool.and_eq_true, decide_eq_true_eq]

theorem place_rxFlit_of_accepted : ((s.rxFlit p g fec).2.link p).place =
    ((g.seq + 1) % 4096, (s.link p).rxBlock ++ [⟨g, s.plainBody p g, true⟩], false) := by
  have block : ((s.fecNote p fec).link p).rxBlock = (s.link p).rxBlock := by
    simp only [State.fecNote, sound.2, if_false]
    split_ifs <;> rfl
  rw [rxFlit_of_accepted sound some_ inTime, place_takeHeader, State.link_putLink_self, Link.place, block]

end

end

/-! ### The rows of the flits -/

/-- The commands that bring a flit, with its type (Table 13-2), but for SEAL. -/
noncomputable def flitRows (port : Fin 144) (f : FlitIn) : List (Instr × Nat) :=
  [(Instr.dataFlit port f, 1), (.idleFlit port f, 0), (.retry port f, 2), (.init port f, 2), (.keyx port f, 2), (.train port f, 2)]

/-- What a row does with the plain body of an accepted flit: a RETRY resends from the rx_next it names, at once (log entry 30). -/
def retryAct (port : Fin 144) (s : State) (b : List Byte) : State :=
  if (b.headD 0).toNat = 2 then s.resendFrom port (leNat ((b.drop 2).take 2) % 4096) else s

/-- Each row is `State.flitIn`, with no action but that of RETRY. -/
theorem exec_flitRows (port : Fin 144) (f : FlitIn) (s : State) : ∀ q ∈ flitRows port f,
    ∃ k : State → List Byte → State, exec q.1 s = done (s.flitIn port f q.2 k) ∧ (q.1 ≠ .retry port f → ∀ u b, k u b = u) := by
  intro q row
  simp only [flitRows, List.mem_cons, List.not_mem_nil, or_false] at row
  rcases row with rfl | rfl | rfl | rfl | rfl | rfl
  · exact ⟨_, rfl, fun _ _ _ => rfl⟩
  · exact ⟨_, rfl, fun _ _ _ => rfl⟩
  · exact ⟨retryAct port, rfl, fun other => absurd rfl other⟩
  · exact ⟨_, rfl, fun _ _ _ => rfl⟩
  · exact ⟨_, rfl, fun _ _ _ => rfl⟩
  · exact ⟨_, rfl, fun _ _ _ => rfl⟩

section
variable {s : State} {p : Nat} {f : FlitIn} {type : Nat} {k : State → List Byte → State}

/-- A flit that is not this row's: no row of the port, or a flit of another type. -/
def State.elsewhere (s : State) (p : Nat) (f : FlitIn) (type : Nat) : Prop := s.listens p = false ∨ ((flitOf f).sound f.fec ∧ (flitOf f).type ≠ type)

theorem here_of_listens (listens : s.listens p = true) (mine : ¬ ((flitOf f).sound f.fec ∧ (flitOf f).type ≠ type)) : ¬ s.elsewhere p f type :=
  not_or.mpr ⟨Bool.eq_false_iff.not.mpr (not_not.mpr listens), mine⟩

theorem flitIn_of_elsewhere (other : s.elsewhere p f type) : s.flitIn p f type k = s := by
  refine if_pos ?_
  rcases other with deaf | ⟨⟨crc, codeword⟩, type⟩
  · exact .inl (by rw [deaf]; rfl)
  · exact .inr ⟨crc, codeword, type⟩

section
variable (here : ¬ s.elsewhere p f type)
include here

theorem not_elsewhere : ¬ ((!s.listens p) = true ∨ ((flitOf f).ok = true ∧ f.fec.val ≠ 2 ∧ (flitOf f).type ≠ type)) := by
  rintro (deaf | ⟨crc, codeword, other⟩)
  · exact here (.inl (by simpa using deaf))
  · exact here (.inr ⟨⟨crc, codeword⟩, other⟩)

theorem flitIn_of_sealPlace (full : (s.link p).rxBlock.length = 47) : s.flitIn p f type k = s.sealLost p (flitOf f) f.fec :=
  (if_neg (not_elsewhere here)).trans (if_pos full)

variable (open_ : (s.link p).rxBlock.length ≠ 47)
include open_

theorem flitIn_of_refused (refused : (s.rxFlit p (flitOf f) f.fec).1 = none) : s.flitIn p f type k = (s.rxFlit p (flitOf f) f.fec).2 := by
  refine ((if_neg (not_elsewhere here)).trans (if_neg open_)).trans ?_
  simp only [refused]

theorem flitIn_of_accepted {b : List Byte} (accepted : (s.rxFlit p (flitOf f) f.fec).1 = some b) :
    s.flitIn p f type k = k (s.rxFlit p (flitOf f) f.fec).2 b := by
  refine ((if_neg (not_elsewhere here)).trans (if_neg open_)).trans ?_
  simp only [accepted]

end

end

/-! ### SEAL (R418, R422) -/

section
variable {s : State} {port : Fin 144} {f : FlitIn}

theorem sealIn_of_elsewhere (other : s.elsewhere port f 2) : sealIn port f s = s := by
  refine if_pos ?_
  rcases other with deaf | ⟨⟨crc, codeword⟩, type⟩
  · exact .inl (by rw [deaf]; rfl)
  · exact .inr ⟨crc, codeword, type⟩

variable (here : ¬ s.elsewhere port f 2)
include here

theorem sealIn_of_open (open_ : (s.link port).rxBlock.length ≠ 47) : sealIn port f s = s.flitIn port f 2 (fun u _ => u) :=
  (if_neg (not_elsewhere here)).trans (if_pos open_)

variable (full : (s.link port).rxBlock.length = 47)
include full

theorem sealIn_of_unsound (unsound : ¬ (flitOf f).sound f.fec) : sealIn port f s = s.sealLost port (flitOf f) f.fec := by
  refine ((if_neg (not_elsewhere here)).trans (if_neg (not_not.mpr full))).trans (if_pos ?_)
  simp only [Flit.sound] at unsound
  by_cases codeword : f.fec.val = 2
  · exact .inl codeword
  · exact .inr (by simpa [codeword] using unsound)

variable (sound : (flitOf f).sound f.fec)
include sound

/-- A sound seal flit at its place: the block is passed over, released, or fails. -/
theorem sealIn_of_sound : sealIn port f s =
    if (s.link port).discard = true ∧ (flitOf f).seq ≠ (s.link port).rxNext then (s.fecNote port f.fec).putLink port (s.link port).nextBlock
    else if (s.fecNote port f.fec).sealOk port (flitOf f).body = true then
      (s.link port).heldCtl.foldl (fun u b => u.ctlRelease port b) ((s.fecNote port f.fec).sealPass port (flitOf f))
    else (s.fecNote port f.fec).sealFail port := by
  refine ((if_neg (not_elsewhere here)).trans (if_neg (not_not.mpr full))).trans (if_neg ?_)
  rintro (codeword | crc)
  · exact sound.2 codeword
  · rw [sound.1] at crc
    exact absurd crc (by decide)

end

/-! ### Control flits released (R439, R440) -/

section
variable (s : State) (p : Nat) {b : List Byte}

theorem ctlRelease_of_other (other : (b.headD 0).toNat ∉ [3, 4, 5]) : s.ctlRelease p b = s := by
  simp only [List.mem_cons, List.not_mem_nil, or_false, not_or] at other
  obtain ⟨init, keyx, train⟩ := other
  simp only [State.ctlRelease]

theorem ctlRelease_of_init (kind : (b.headD 0).toNat = 3) : s.ctlRelease p b = s.initTake p b := by simp only [State.ctlRelease, kind]

theorem ctlRelease_of_keyx (kind : (b.headD 0).toNat = 4) :
    s.ctlRelease p b = s.kxFragment p (leNat ((b.drop 2).take 2)) (leNat ((b.drop 4).take 2)) (b.drop 8) := by simp only [State.ctlRelease, kind]

theorem ctlRelease_of_train (kind : (b.headD 0).toNat = 5) : s.ctlRelease p b = s.trainTake p b := by simp only [State.ctlRelease, kind]

/-- The state with the outcome that a TRAIN flit brings from the peer (R439). -/
def State.hearOutcome (s : State) (p : Nat) (b : List Byte) : State :=
  if (b.getD 3 0).toNat = 0 then s else s.putLink p { s.link p with theirs := (b.getD 3 0).toNat }

theorem action_hearOutcome : (s.hearOutcome p b).action p = s.action p := by
  simp only [State.hearOutcome]
  split_ifs <;> rfl

theorem trainTake_of_other_action (other : (b.getD 2 0).toNat ≠ s.action p) : s.trainTake p b = s := if_pos other

variable (action : (b.getD 2 0).toNat = s.action p)
include action

/-- A TRAIN flit of the action that runs: the peer's outcome, then a request for a spare or its grant, then the end of the action (R439, R440). -/
theorem trainTake_of_action : s.trainTake p b =
    let u := s.hearOutcome p b
    let lane := (b.getD 4 0).toNat % 4
    State.resolve (if u.action p = 3 ∧ (b.getD 5 0).toNat = 1 ∧ u.get (F.PT_CTL_spare_ok p) = 1 ∧ (u.spareLane p).isSome then
        (u.substitute p lane).sendTrain p 0 lane 2
      else if u.action p = 3 ∧ (b.getD 5 0).toNat = 2 ∧ (u.link p).lanes.contains lane then
        let v := u.substitute p lane
        let ls := (v.link p).lanes.erase lane
        let v := v.putLink p { v.link p with lanes := ls }
        if ls.isEmpty then v.outcome p outAlt else v
      else u) p :=
  if_neg (not_not.mpr action)

theorem trainTake_of_quiet (quiet : (b.getD 2 0).toNat ≠ 3 ∨
    (¬ ((b.getD 5 0).toNat = 1 ∧ (s.hearOutcome p b).get (F.PT_CTL_spare_ok p) = 1 ∧ ((s.hearOutcome p b).spareLane p).isSome = true) ∧
      ¬ ((b.getD 5 0).toNat = 2 ∧ (b.getD 4 0).toNat % 4 ∈ ((s.hearOutcome p b).link p).lanes))) :
    s.trainTake p b = (s.hearOutcome p b).resolve p := by
  refine (trainTake_of_action s p action).trans (congrArg (State.resolve · p) ((if_neg ?_).trans (if_neg ?_)))
  · rw [action_hearOutcome, ← action]
    exact fun ⟨test, asks⟩ => quiet.elim (fun other => other test) fun ⟨quiet, _⟩ => quiet asks
  · rw [action_hearOutcome, ← action, List.contains_iff_mem]
    exact fun ⟨test, grants⟩ => quiet.elim (fun other => other test) fun ⟨_, quiet⟩ => quiet grants

theorem trainTake_of_request (test : (b.getD 2 0).toNat = 3) (asks : (b.getD 5 0).toNat = 1)
    (allowed : (s.hearOutcome p b).get (F.PT_CTL_spare_ok p) = 1) (spare : ((s.hearOutcome p b).spareLane p).isSome = true) :
    s.trainTake p b = (((s.hearOutcome p b).substitute p ((b.getD 4 0).toNat % 4)).sendTrain p 0 ((b.getD 4 0).toNat % 4) 2).resolve p :=
  (trainTake_of_action s p action).trans (congrArg (State.resolve · p)
    (if_pos ⟨by rw [action_hearOutcome, ← action, test], asks, allowed, spare⟩))

theorem trainTake_of_grant (test : (b.getD 2 0).toNat = 3) (grants : (b.getD 5 0).toNat = 2)
    (waits : (b.getD 4 0).toNat % 4 ∈ ((s.hearOutcome p b).link p).lanes) :
    s.trainTake p b =
      let v := (s.hearOutcome p b).substitute p ((b.getD 4 0).toNat % 4)
      let ls := (v.link p).lanes.erase ((b.getD 4 0).toNat % 4)
      let v := v.putLink p { v.link p with lanes := ls }
      (if ls.isEmpty then v.outcome p outAlt else v).resolve p :=
  (trainTake_of_action s p action).trans (congrArg (State.resolve · p)
    ((if_neg fun ⟨_, asks, _⟩ => absurd (grants.symm.trans asks) (by decide)).trans
      (if_pos ⟨by rw [action_hearOutcome, ← action, test], grants, List.contains_iff_mem.mpr waits⟩)))

end

/-- Settles O35: the row takes the flit or leaves it; a position accepts it or not; the place of a seal verifies the block; a released control flit acts. -/
theorem flitsReceived : Obligations.FlitsReceived := by
  unfold Obligations.FlitsReceived
  intro s port f plain p g l r n sound onTime at_ rows
  have not_ahead (inTime : l.discard = false ∨ g.seq = l.rxNext) : ¬ (l.discard = true ∧ g.seq ≠ l.rxNext) := fun ⟨discards, other⟩ =>
    inTime.elim (fun keeps => absurd (discards.symm.trans keeps) (by decide)) other
  have member {q : Instr × Nat} (row : q ∈ rows) : q ∈ flitRows port f ∨ q = (.seal port f, 2) := by
    simpa [rows, flitRows, or_assoc] using row
  refine ⟨fun q row other => ?_, fun q row listens here open_ refused => ?_, fun q row listens full lost => ?_, fun ok some_ inTime => ?_,
    fun listens open_ ok inTime accepted => ⟨fun q row other type some_ => ?_, fun type other => ?_, fun type retry => ?_⟩,
    fun listens full ok type => ⟨fun discards ahead => ?_, fun inTime fails => ?_, fun inTime passes => ?_⟩,
    ctlRelease_of_other s p, ctlRelease_of_init s p, ctlRelease_of_keyx s p, fun train => ?_⟩
  · rcases member row with row | rfl
    · obtain ⟨k, run, -⟩ := exec_flitRows port f s q row
      exact completes run (flitIn_of_elsewhere other)
    · exact completes rfl (sealIn_of_elsewhere other)
  · have none : r.1 = none := rxFlit_none refused
    have here : ¬ s.elsewhere p f q.2 := here_of_listens listens here
    refine ⟨none, ?_⟩
    rcases member row with row | rfl
    · obtain ⟨k, run, -⟩ := exec_flitRows port f s q row
      exact completes run (flitIn_of_refused here open_ none)
    · exact completes rfl ((sealIn_of_open here open_).trans (flitIn_of_refused here open_ none))
  · have here : ¬ s.elsewhere p f q.2 := here_of_listens listens fun ⟨ok, other⟩ => lost.elim (fun unsound => unsound ok) fun ⟨_, type⟩ => other type
    rcases member row with row | rfl
    · obtain ⟨k, run, -⟩ := exec_flitRows port f s q row
      exact completes run (flitIn_of_sealPlace here full)
    · have unsound : ¬ sound := lost.resolve_right (fun h => h.1 rfl)
      exact completes rfl (sealIn_of_unsound here full unsound)
  · exact congrArg Prod.fst (rxFlit_of_accepted ok some_ inTime)
  · have here : ¬ s.elsewhere p f q.2 := here_of_listens listens fun ⟨_, different⟩ => different type
    have same : plain = s.plainBody p g := Option.some.inj (accepted.symm.trans (congrArg Prod.fst (rxFlit_of_accepted ok some_ inTime)))
    have place := place_rxFlit_of_accepted (s := s) (p := p) ok some_ inTime
    have complete : ∃ t, exec q.1 s = .next t ∧ Settled r.2 t := by
      rcases member row with row | rfl
      · obtain ⟨k, run, idle⟩ := exec_flitRows port f s q row
        exact completes run ((flitIn_of_accepted here open_ accepted).trans (idle other _ _))
      · exact completes rfl ((sealIn_of_open here open_).trans (flitIn_of_accepted here open_ accepted))
    obtain ⟨t, run, settled⟩ := complete
    have link : t.link p = r.2.link p := by rw [State.link, settled.links]; rfl
    rw [← same] at place
    obtain ⟨next, block, discard⟩ : _ ∧ _ ∧ _ := by simpa only [Link.place, Prod.mk.injEq] using place
    exact ⟨t, run, settled, by rw [link]; exact next, by rw [link]; exact block, by rw [link]; exact discard⟩
  · exact completes rfl ((flitIn_of_accepted (here_of_listens listens fun ⟨_, different⟩ => different type) open_ accepted).trans (if_neg other))
  · exact completes rfl ((flitIn_of_accepted (here_of_listens listens fun ⟨_, different⟩ => different type) open_ accepted).trans (if_pos retry))
  · have here : ¬ s.elsewhere p f 2 := here_of_listens listens fun ⟨_, different⟩ => different type
    exact completes rfl ((sealIn_of_sound here full ok).trans (if_pos ⟨discards, ahead⟩))
  · have here : ¬ s.elsewhere p f 2 := here_of_listens listens fun ⟨_, different⟩ => different type
    exact completes rfl (((sealIn_of_sound here full ok).trans (if_neg (not_ahead inTime))).trans (if_neg (Bool.eq_false_iff.mp fails)))
  · have here : ¬ s.elsewhere p f 2 := here_of_listens listens fun ⟨_, different⟩ => different type
    exact completes rfl (((sealIn_of_sound here full ok).trans (if_neg (not_ahead inTime))).trans (if_pos passes))
  · rw [ctlRelease_of_train s p train]
    exact ⟨trainTake_of_other_action s p, trainTake_of_quiet s p, trainTake_of_request s p, trainTake_of_grant s p⟩

end Sys2Proof.Machine
end

section
/-!
PROOFS. The sender's timers, the datagrams of an Ethernet port and its pauses (R421, R425, R430 to R434).
-/
namespace Sys2Proof.Machine
open Sys2Proof

/-! ### Timers and rekeying (R421, R425, R432) -/

section
variable {port : Fin 144} {s : State}

theorem replayTimeout_of_late (gasha : s.isG port = true) (kept : (s.link port).replay ≠ [])
    (late : (s.link port).ackAt + s.get (F.PT_RTO_ns port) ≤ s.beat) : replayTimeout port s = s.resend port :=
  if_neg (by simp [gasha, kept, late])

theorem replayTimeout_of_early (early : s.isG port = false ∨ (s.link port).replay = [] ∨
    ¬ (s.link port).ackAt + s.get (F.PT_RTO_ns port) ≤ s.beat) : replayTimeout port s = s := if_pos (by simpa using early)

theorem goeTimeout_of_late (ethernet : s.isE port = true) (kept : (s.link port).replay ≠ [])
    (late : (s.link port).ackAt + 1000 * s.get (F.GOE_CTL_rto port) ≤ s.beat) : goeTimeout port s = s.goeResend port :=
  if_neg (by simp [ethernet, kept, late])

theorem goeTimeout_of_early (early : s.isE port = false ∨ (s.link port).replay = [] ∨
    ¬ (s.link port).ackAt + 1000 * s.get (F.GOE_CTL_rto port) ≤ s.beat) : goeTimeout port s = s := if_pos (by simpa using early)

theorem rekey_of_sealed (gasha : s.isG port = true) (crypt : (s.link port).crypt = true) :
    rekey port s = s.putLink port { s.link port with rekey := true } := if_neg (by simp [gasha, crypt])

theorem rekey_of_clear (clear : s.isG port = false ∨ (s.link port).crypt = false) : rekey port s = s := if_pos (by simpa using clear)

/-! ### Datagrams (R430, R432) -/

section
variable (deaf : s.hears port = false)
include deaf

theorem not_hears : (!s.hears port) = true := by rw [deaf]; rfl

theorem frames_of_deaf (seq ack : BitVec 32) (h : BitVec 256) (data frag : List Byte) (bad again : Bool) (i n peer : BitVec 16)
    (mode enable : BitVec 8) (quanta : List (BitVec 16)) :
    ∀ q ∈ [Instr.goeData port seq ack h data bad, .goeAck port ack again bad, .goeKeyExchange port i n frag,
      .goeInit port seq ack mode peer, .pfcFrame port enable quanta, .frameNotAccepted port], exec q s = done s := by
  intro q row
  have off := not_hears deaf
  simp only [List.mem_cons, List.not_mem_nil, or_false] at row
  rcases row with rfl | rfl | rfl | rfl | rfl | rfl
  · exact congrArg done (if_pos off)
  · exact congrArg done (if_pos off)
  · exact congrArg done (if_pos off)
  · exact congrArg done (if_pos off)
  · exact congrArg done (if_pos off)
  · exact congrArg done (if_neg (Bool.eq_false_iff.mp deaf))

end

section
variable (hears : s.hears port = true)
include hears

theorem not_deaf : ¬ (!s.hears port) = true := by rw [hears]; decide

section
variable {seq ack : BitVec 32} {h : BitVec 256} {data : List Byte} {bad : Bool}

theorem goeData_of_bad (damaged : bad = true) : goeData port seq ack h data bad s = s.goeBad port true :=
  (if_neg (not_deaf hears)).trans (if_pos damaged)

variable (whole : bad = false)
include whole

theorem goeData_of_gap (gap : seq.toNat ≠ (s.link port).rxNext) : goeData port seq ack h data bad s = s.goeBad port false :=
  ((if_neg (not_deaf hears)).trans (if_neg (Bool.eq_false_iff.mp whole))).trans (if_pos gap)

variable (next : seq.toNat = (s.link port).rxNext)
include next

theorem goeData_of_no_room (full : ¬ (s.link port).inUse + 32 + data.length ≤ 262144) :
    goeData port seq ack h data bad s = s.inc (F.GOE_COUNT_bad port) :=
  (((if_neg (not_deaf hears)).trans (if_neg (Bool.eq_false_iff.mp whole))).trans (if_neg (not_not.mpr next))).trans (if_pos (not_le.mp full))

theorem goeData_of_room (room : (s.link port).inUse + 32 + data.length ≤ 262144) :
    goeData port seq ack h data bad s = ((s.putLink port { (s.link port).goeAckTo s.beat ack.toNat with
      rxNext := ((s.link port).rxNext + 1) % 2 ^ 32, ready := (s.link port).ready ++ [⟨h.toNat, data⟩] }).flowControl port).goeAck port false :=
  (((if_neg (not_deaf hears)).trans (if_neg (Bool.eq_false_iff.mp whole))).trans (if_neg (not_not.mpr next))).trans (if_neg (not_lt.mpr room))

end

theorem goeAckIn_of_bad (ack : BitVec 32) (again : Bool) {bad : Bool} (damaged : bad = true) : goeAckIn port ack again bad s = s.goeBad port true :=
  (if_neg (not_deaf hears)).trans (if_pos damaged)

theorem goeAckIn_of_whole (ack : BitVec 32) (again : Bool) {bad : Bool} (whole : bad = false) : goeAckIn port ack again bad s =
    let u := s.putLink port ((s.link port).goeAckTo s.beat ack.toNat)
    if again then u.goeResend port else u :=
  (if_neg (not_deaf hears)).trans (if_neg (Bool.eq_false_iff.mp whole))

theorem goeKeyx_of_hears (i n : BitVec 16) (frag : List Byte) : goeKeyx port i n frag s = s.kxFragment port i.toNat n.toNat frag :=
  if_neg (not_deaf hears)

theorem goeInit_of_gap {seq : BitVec 32} (ack : BitVec 32) (mode : BitVec 8) (peer : BitVec 16) (gap : seq.toNat ≠ (s.link port).rxNext) :
    goeInit port seq ack mode peer s = s.goeBad port false :=
  (if_neg (not_deaf hears)).trans (if_pos gap)

theorem goeInit_of_next {seq : BitVec 32} (ack : BitVec 32) (mode : BitVec 8) (peer : BitVec 16) (next : seq.toNat = (s.link port).rxNext) :
    goeInit port seq ack mode peer s = ((s.putLink port { (s.link port).goeAckTo s.beat ack.toNat with
      rxNext := ((s.link port).rxNext + 1) % 2 ^ 32 }).goeAck port false).takeInit port 0 mode.toNat [] peer.toNat :=
  (if_neg (not_deaf hears)).trans (if_neg (not_not.mpr next))

theorem frameOther_of_hears : frameOther port s = s.inc (F.GOE_COUNT_other port) := if_pos hears

end

theorem pfcExpire_of_over {cls : Fin 4} (paused : (s.link port).paused.rd cls ≠ 0) (ended : (s.link port).paused.rd cls ≤ s.beat) :
    pfcExpire port cls s = s.putLink port { s.link port with paused := (s.link port).paused.wr cls 0 } := if_pos ⟨paused, ended⟩

theorem pfcExpire_of_running {cls : Fin 4} (runs : (s.link port).paused.rd cls = 0 ∨ s.beat < (s.link port).paused.rd cls) :
    pfcExpire port cls s = s := if_neg (by rw [not_and_or, not_not, not_le]; exact runs)

end

/-! ### PFC_FRAME (R433) -/

section
variable (port : Fin 144) (enable : BitVec 8) (quanta : List (BitVec 16))

/-- The quanta a frame names for a class. -/
def State.pauseQuanta (s : State) (c : Nat) : Nat := (quanta.getD (s.pcp port c) 0).toNat

/-- The pulse at which the pause of a class ends: 0 releases the class. -/
def State.pauseEnd (s : State) (c : Nat) : Nat :=
  let rate := modeRate (s.portMode port)
  if s.pauseQuanta port quanta c = 0 then 0 else s.beat + (s.pauseQuanta port quanta c * 512 + rate - 1) / rate

/-- A pause of class C is a timing event (Table 10-2). -/
def State.notePause (s : State) (c : Nat) : State := if c = 1 ∧ s.pauseQuanta port quanta c ≠ 0 then s.pert 3 else s

/-- What a PFC frame does to one class. -/
def pauseClass (s : State) (c : Nat) : State :=
  if bit enable.toNat (s.pcp port c) = true then
    (s.notePause port quanta c).putLink port { s.link port with paused := (s.link port).paused.wr c (s.pauseEnd port quanta c) }
  else s

/-- `t` is `s` but for the link of the port and the count of timing events. -/
structure Pausing (s t : State) : Prop where
  rest   : t = { s with regs := t.regs, links := t.links, det.audit.perts := t.det.audit.perts }
  words  : ∀ a < R.PERT 0, t.word a = s.word a
  others : ∀ q, q ≠ port.val → t.link q = s.link q

namespace Pausing
variable {port} {s t u : State}

theorem refl (s : State) : Pausing port s s := ⟨rfl, fun _ _ => rfl, fun _ _ => rfl⟩

theorem trans (h : Pausing port s t) (k : Pausing port t u) : Pausing port s u :=
  ⟨by rw [k.rest, h.rest], fun a below => (k.words a below).trans (h.words a below), fun q other => (k.others q other).trans (h.others q other)⟩

section
variable (h : Pausing port s t)
include h

theorem get {f : Fld} (below : f.reg < R.PERT 0) : t.get f = s.get f := by rw [State.get, h.words f.reg below, State.get]

theorem pcp (c : Nat) : t.pcp port c = s.pcp port c := by
  rw [State.pcp, h.words _ (by simp only [R.PERT, R.PT_PFC]; omega), State.pcp]

theorem pauseEnd (c : Nat) : t.pauseEnd port quanta c = s.pauseEnd port quanta c := by
  have mode : t.portMode port = s.portMode port := h.get (by simp only [R.PERT, R.PT_CTL]; omega)
  have beat : t.beat = s.beat := by rw [h.rest]
  have asked : t.pauseQuanta port quanta c = s.pauseQuanta port quanta c := by rw [State.pauseQuanta, h.pcp, State.pauseQuanta]
  rw [State.pauseEnd, asked, mode, beat, State.pauseEnd]

end

theorem notePause (s : State) (c : Nat) : Pausing port s (s.notePause port quanta c) := by
  simp only [State.notePause]
  split_ifs
  · exact ⟨rfl, fun a below => State.word_set_of_ne _ _ _ (Nat.ne_of_lt (Nat.lt_of_lt_of_le below (by decide))), fun _ _ => rfl⟩
  · exact refl s

theorem pauseClass (s : State) (c : Nat) : Pausing port s (pauseClass port enable quanta s c) := by
  simp only [Machine.pauseClass]
  split_ifs
  · exact (notePause quanta s c).trans ⟨rfl, fun _ _ => rfl, fun q other => State.link_putLink_of_ne _ _ other⟩
  · exact refl s

theorem foldl (l : List Nat) (s : State) : Pausing port s (l.foldl (Machine.pauseClass port enable quanta) s) := by
  induction l generalizing s with
  | nil => exact refl s
  | cons c l ih => exact (pauseClass enable quanta s c).trans (ih _)

end Pausing

/-- The pause of a class after one class of a frame. -/
theorem paused_pauseClass (s : State) (c d : Nat) : ((pauseClass port enable quanta s c).link port).paused.rd d =
    if d = c ∧ bit enable.toNat (s.pcp port d) = true then s.pauseEnd port quanta d else (s.link port).paused.rd d := by
  simp only [pauseClass]
  by_cases same : d = c
  · subst same
    by_cases enabled : bit enable.toNat (s.pcp port d) = true <;> simp [enabled]
  · by_cases enabled : bit enable.toNat (s.pcp port c) = true
    · simp [enabled, same, NMap.rd_wr_of_ne _ _ same]
    · simp [enabled, same]

/-- The pause of a class after the classes of a list. -/
theorem paused_foldl {l : List Nat} (once : l.Nodup) (s : State) (d : Nat) :
    ((l.foldl (pauseClass port enable quanta) s).link port).paused.rd d =
      if d ∈ l ∧ bit enable.toNat (s.pcp port d) = true then s.pauseEnd port quanta d else (s.link port).paused.rd d := by
  induction l generalizing s with
  | nil => simp
  | cons c l ih =>
    obtain ⟨out, once⟩ := List.nodup_cons.mp once
    have first := Pausing.pauseClass (port := port) enable quanta s c
    rw [List.foldl_cons, ih once, first.pcp, first.pauseEnd, paused_pauseClass]
    by_cases same : d = c
    · subst same
      simp [out]
    · simp [same]

/-- Counting the pause of class C moves neither the link nor what its end is worked out from. -/
theorem putLink_notePause (s : State) (c : Nat) :
    let t := s.notePause port quanta c
    let rate := modeRate (t.portMode port)
    let q := s.pauseQuanta port quanta c
    t.putLink port { t.link port with paused := (t.link port).paused.wr c (if q = 0 then 0 else t.beat + (q * 512 + rate - 1) / rate) } =
    t.putLink port { s.link port with paused := (s.link port).paused.wr c (s.pauseEnd port quanta c) } := by
  intro t rate q
  have noted : Pausing port s t := Pausing.notePause quanta s c
  have link : t.link port = s.link port := by
    simp only [t, State.notePause]
    split_ifs <;> rfl
  have mode : t.portMode port = s.portMode port := noted.get (by simp only [R.PERT, R.PT_CTL]; omega)
  have beat : t.beat = s.beat := by rw [noted.rest]
  simp only [link, rate, mode, beat]
  rfl

theorem pcp_countFrame (s : State) (c : Nat) : (s.inc (F.PT_PFC_COUNT_received port)).pcp port c = s.pcp port c := by
  rw [State.pcp, State.word_inc_of_ne s _ 1 (by simp only [R.PT_PFC, R.PT_PFC_COUNT]; omega), State.pcp]

/-- Counting the frame leaves the ends of its pauses as they are. -/
theorem pauseEnd_countFrame (s : State) (c : Nat) :
    (s.inc (F.PT_PFC_COUNT_received port)).pauseEnd port quanta c = s.pauseEnd port quanta c := by
  have mode : (s.inc (F.PT_PFC_COUNT_received port)).portMode port = s.portMode port :=
    State.get_inc_of_ne s _ _ 1 (by simp only [R.PT_CTL, R.PT_PFC_COUNT]; omega)
  have asked : (s.inc (F.PT_PFC_COUNT_received port)).pauseQuanta port quanta c = s.pauseQuanta port quanta c := by
    rw [State.pauseQuanta, pcp_countFrame, State.pauseQuanta]
  rw [State.pauseEnd, asked, mode, State.inc_beat, State.pauseEnd]

theorem pfcFrame_of_hears {s : State} (hears : s.hears port = true) :
    pfcFrame port enable quanta s = (List.range 4).foldl (pauseClass port enable quanta) (s.inc (F.PT_PFC_COUNT_received port)) := by
  refine (if_neg (not_deaf hears)).trans (List.foldl_ext _ _ _ fun u c _ => ?_)
  by_cases enabled : bit enable.toNat (u.pcp port c) = true
  · exact ((if_neg (by rw [enabled]; decide)).trans (putLink_notePause port quanta u c)).trans (if_pos enabled).symm
  · exact (if_pos (by simpa using enabled)).trans (if_neg enabled).symm

end

/-- Settles O37: each command asks whether the port hears and what it brings is sound and next; a PFC frame acts on the four classes one by one. -/
theorem datagramsAndPauses : Obligations.DatagramsAndPauses := by
  unfold Obligations.DatagramsAndPauses
  intro s port seq ack h data frag bad again i n peer mode enable quanta cls p l late
  refine ⟨fun gasha kept due => ?_, fun early => ?_, fun gasha crypt => ?_, fun clear => ?_, fun ethernet kept due => ?_, fun early => ?_,
    fun deaf q row => ?_, fun hears => ⟨fun damaged => ?_, fun whole gap => ?_, fun whole next full => ?_, fun whole next room => ?_, fun damaged => ?_,
      fun whole => ?_, ?_, fun gap => ?_, fun next => ?_, ?_, ?_⟩, fun paused ended => ?_, fun runs => ?_⟩
  · exact completes rfl (replayTimeout_of_late gasha kept due)
  · exact completes rfl (replayTimeout_of_early early)
  · exact completes rfl (rekey_of_sealed gasha crypt)
  · exact completes rfl (rekey_of_clear clear)
  · exact completes rfl (goeTimeout_of_late ethernet kept due)
  · exact completes rfl (goeTimeout_of_early early)
  · exact completes (frames_of_deaf deaf seq ack h data frag bad again i n peer mode enable quanta q row) rfl
  · exact completes rfl (goeData_of_bad hears damaged)
  · exact completes rfl (goeData_of_gap hears whole gap)
  · exact completes rfl (goeData_of_no_room hears whole next full)
  · exact completes rfl (goeData_of_room hears whole next room)
  · exact completes rfl (goeAckIn_of_bad hears ack again damaged)
  · exact completes rfl (goeAckIn_of_whole hears ack again whole)
  · exact completes rfl (goeKeyx_of_hears hears i n frag)
  · exact completes rfl (goeInit_of_gap hears ack mode peer gap)
  · exact completes rfl (goeInit_of_next hears ack mode peer next)
  · intro rate pause
    obtain ⟨t, run, settled⟩ := completes (i := .pfcFrame port enable quanta) rfl (pfcFrame_of_hears port enable quanta hears)
    have moved := Pausing.foldl (port := port) enable quanta (List.range 4) (s.inc (F.PT_PFC_COUNT_received p))
    have link (q : Nat) : t.link q = ((List.range 4).foldl (pauseClass port enable quanta) (s.inc (F.PT_PFC_COUNT_received p))).link q := by
      rw [State.link, settled.links, State.link]
    refine ⟨t, run, ?_, ?_, ?_, fun q other => ?_⟩
    · rw [settled.rest, moved.rest]
      rfl
    · rw [settled.get _ (not_isVecReg (.inr (by simp only [R.INT_VEC, R.PT_PFC_COUNT]; omega))), moved.get (by simp only [R.PERT, R.PT_PFC_COUNT]; omega)]
      exact State.get_inc_self s _ 1 (show 32 + 32 ≤ 64 by decide)
    · rw [link, paused_foldl port enable quanta List.nodup_range, pcp_countFrame, pauseEnd_countFrame]
      by_cases enabled : bit enable.toNat (s.pcp port cls) = true
      · exact (if_pos ⟨List.mem_range.mpr cls.isLt, enabled⟩).trans (if_neg (by rw [enabled]; decide)).symm
      · exact (if_neg fun chosen => enabled chosen.2).trans (if_pos (by simpa using enabled)).symm
    · rw [link, moved.others q other, State.link_inc]
  · exact completes rfl (frameOther_of_hears hears)
  · exact completes rfl (pfcExpire_of_over paused ended)
  · exact completes rfl (pfcExpire_of_running runs)

end Sys2Proof.Machine
end

section
/-!
PROOFS. The data window (R551 to R557): an access is taken or refused, and DW_ADDR moves on by 8 in every case.
-/
namespace Sys2Proof.Machine
open Sys2Proof

/-! ### Writes of registers alone -/

/-- `t` is `s` but for registers. -/
structure Written (s t : State) : Prop where
  rest : t = { s with regs := t.regs }

namespace Written
variable {s t u : State}

theorem refl (s : State) : Written s s := ⟨rfl⟩
theorem trans (h : Written s t) (k : Written t u) : Written s u := ⟨by rw [k.rest, h.rest]⟩
theorem setWord (s : State) (a : Nat) (w : Word) : Written s (s.setWord a w) := ⟨rfl⟩
theorem set (s : State) (f : Fld) (v : Nat) : Written s (s.set f v) := ⟨rfl⟩
theorem inc (s : State) (f : Fld) (n : Nat) : Written s (s.inc f n) := ⟨rfl⟩

theorem foldl {α : Type} (g : State → α → State) (hg : ∀ s x, Written s (g s x)) (l : List α) (s : State) : Written s (l.foldl g s) := by
  induction l generalizing s with
  | nil => exact refl s
  | cons x l ih => exact (hg s x).trans (ih _)

theorem sets (l : List (Fld × Nat)) (s : State) : Written s (s.sets l) :=
  foldl (α := Fld × Nat) (fun s p => State.set s p.1 p.2) (fun s p => Written.set s p.1 p.2) l s

theorem ite (p : Prop) [Decidable p] (yes : Written s t) (no : Written s u) : Written s (if p then t else u) := by
  split_ifs
  · exact yes
  · exact no

end Written

/-! ### A refused access (R553, R526, R556) -/

section
variable (s : State) (sp a kind : Nat)

/-- A refusal writes registers alone. -/
theorem written_dwRefuse : Written s (s.dwRefuse sp a kind) :=
  (Written.inc s F.DW_ERR_COUNT_refused 1).trans ((Written.sets _ _).trans ((Written.setWord _ R.DW_ERR_ADDR _).trans
    (.ite _ (.inc _ F.SEC_DW_DENY_denied 1) (.ite _ (.inc _ F.DW_LOCK_COUNT_locked 1) (.refl _)))))

/-- The registers a refusal writes. -/
def refusalRegs : List Nat := [R.DW_ERR_COUNT, R.DW_STATUS, R.DW_ERR_ADDR, R.SEC_DW_DENY, R.DW_LOCK_COUNT]

theorem get_dwRefuse_of_other {f : Fld} (other : f.reg ∉ refusalRegs) : (s.dwRefuse sp a kind).get f = s.get f := by
  simp only [refusalRegs, List.mem_cons, List.not_mem_nil, or_false, not_or] at other
  obtain ⟨count, status, addr, deny, lock⟩ := other
  simp only [State.dwRefuse, State.sets, List.foldl_cons, List.foldl_nil]
  split_ifs <;> simp [State.get_inc_of_ne, State.get_set_of_ne, State.get_setWord_of_ne, *]

/-- A refusal is counted, with its space and kind. -/
theorem get_dwRefuse (space : sp < 8) (known : kind < 16) :
    (s.dwRefuse sp a kind).get F.DW_ERR_COUNT_refused = (s.get F.DW_ERR_COUNT_refused + 1) % 2 ^ 64 ∧
    (s.dwRefuse sp a kind).get F.DW_STATUS_err_space = sp ∧ (s.dwRefuse sp a kind).get F.DW_STATUS_err_kind = kind := by
  simp only [State.dwRefuse, State.sets, List.foldl_cons, List.foldl_nil]
  split_ifs <;> refine ⟨?_, ?_, ?_⟩ <;>
    simp (disch := decide) [State.get_inc_self, State.get_set_self, State.get_inc_of_ne, State.get_set_of_ne, State.get_setWord_of_ne,
      State.get_set_of_disjoint, Nat.mod_eq_of_lt space, Nat.mod_eq_of_lt known]

/-- Kinds 4 and 6 are counted of their own. -/
theorem get_dwRefuse_own : (kind = 4 → (s.dwRefuse sp a kind).get F.SEC_DW_DENY_denied = (s.get F.SEC_DW_DENY_denied + 1) % 2 ^ 64) ∧
    (kind = 6 → (s.dwRefuse sp a kind).get F.DW_LOCK_COUNT_locked = (s.get F.DW_LOCK_COUNT_locked + 1) % 2 ^ 64) := by
  constructor <;> rintro rfl <;>
    simp (disch := decide) [State.dwRefuse, State.sets, State.get_inc_self, State.get_inc_of_ne, State.get_set_of_ne, State.get_setWord_of_ne]

theorem dwRefused_lt (wr : Bool) : s.dwRefused sp a wr < 16 := by
  simp only [State.dwRefused]
  split_ifs <;> decide

/-- A write that is taken is one of the staging area or of a memory level. -/
theorem space_of_taken_write (taken : s.dwRefused sp a true = 0) : sp ≤ 3 := by
  by_contra above
  simp only [State.dwRefused] at taken
  split_ifs at taken with _ _ _ _ _ readOnly
  exact readOnly (.inr ⟨trivial, by omega⟩)

/-- A read takes at most a free value. -/
theorem dwFetch_rest : (s.dwFetch sp a).2 = { s with fresh := (s.dwFetch sp a).2.fresh } := by
  simp only [State.dwFetch]
  split
  · rfl
  · rfl
  · rfl
  · rfl
  · split_ifs <;> rfl

end

/-! ### Accesses of DW_DATA and DW_BURST (R551) -/

section
variable {s : State}

theorem dwRead_of_taken (taken : s.dwRefused (s.get F.DW_CTRL_space) s.dwAddr false = 0) :
    s.dwRead = ((s.dwFetch (s.get F.DW_CTRL_space) s.dwAddr).1, (s.dwFetch (s.get F.DW_CTRL_space) s.dwAddr).2.inc F.DW_ADDR_addr) := by
  simp only [State.dwRead, taken, if_true]

theorem dwRead_of_refused {kind : Nat} (refused : s.dwRefused (s.get F.DW_CTRL_space) s.dwAddr false = kind) (some_ : kind ≠ 0) :
    s.dwRead = (0, (s.dwRefuse (s.get F.DW_CTRL_space) s.dwAddr kind).inc F.DW_ADDR_addr) := by
  simp only [State.dwRead, refused, some_, if_false]

theorem dwWrite_of_refused {kind : Nat} (v : Nat) (refused : s.dwRefused (s.get F.DW_CTRL_space) s.dwAddr true = kind) (some_ : kind ≠ 0) :
    s.dwWrite v = (s.dwRefuse (s.get F.DW_CTRL_space) s.dwAddr kind).inc F.DW_ADDR_addr := by
  simp only [State.dwWrite, refused, ne_eq, some_, not_false_eq_true, if_true]

section
variable (v : Nat) (taken : s.dwRefused (s.get F.DW_CTRL_space) s.dwAddr true = 0)
include taken

theorem dwWrite_of_staging (staging : s.get F.DW_CTRL_space = 0) : s.dwWrite v = (s.stageWrite s.dwAddr (leBytes v 8) false).inc F.DW_ADDR_addr := by
  simp only [State.dwWrite, taken, ne_eq, not_true_eq_false, if_false]
  exact congrArg (State.inc · F.DW_ADDR_addr) (if_pos staging)

theorem dwWrite_of_memory (memory : s.get F.DW_CTRL_space ≠ 0) :
    s.dwWrite v = (s.memWr (s.get F.DW_CTRL_space - 1) s.dwAddr (leBytes v 8)).inc F.DW_ADDR_addr := by
  simp only [State.dwWrite, taken, ne_eq, not_true_eq_false, if_false]
  exact congrArg (State.inc · F.DW_ADDR_addr) (if_neg memory)

end

/-- Bytes written in the staging area are read back. -/
theorem staging_stageWrite (s : State) (off : Nat) (b : List Byte) (endp : Bool) :
    (s.stageWrite off b endp).host.staging.rd off b.length = b := Bytes.rd_wr _ _ _

theorem regs_foldl {α : Type} {g : State → α → State} (hg : ∀ s x, (g s x).regs = s.regs) (l : List α) (s : State) : (l.foldl g s).regs = s.regs := by
  induction l generalizing s with
  | nil => rfl
  | cons x l ih => exact (ih _).trans (hg s x)

/-- A write in the staging area moves no register. -/
theorem get_stageWrite (s : State) (off : Nat) (b : List Byte) (endp : Bool) (f : Fld) : (s.stageWrite off b endp).get f = s.get f := by
  exact get_of_regs (regs_foldl (fun _ _ => by split_ifs <;> rfl) _ s) f

theorem burstOk_iff {n : Nat} : burstOk n = true ↔ n % 8 = 0 ∧ 8 ≤ n ∧ n ≤ 256 := by simp [burstOk, and_assoc]

section
variable (asleep : s.host.d3hot = true)
include asleep

theorem dwDataRead_of_d3hot (half : Bool) : dwDataRead half s = s := if_pos (by simp [State.answers, asleep])

theorem takes_of_d3hot (a : Nat) : s.takes a = false := by simp [State.takes, asleep]

theorem dwBurst_of_d3hot (n : Option (Fin 257)) (data : List Byte) : dwBurst n data s = s := by
  cases n with
  | none => exact if_neg (by rw [takes_of_d3hot asleep]; decide)
  | some n => exact if_pos (by simp [State.answers, asleep])

end

section
variable (awake : s.host.d3hot = false)
include awake

theorem not_asleep : ¬ (!s.answers) = true := by simp [State.answers, awake]

theorem dwDataRead_of_not_ready (half : Bool) (starting : s.ready = false) : dwDataRead half s = s.emit (.read 0) :=
  (if_neg (not_asleep awake)).trans (if_pos (by rw [starting]; rfl))

theorem dwBurst_of_not_ready (n : Fin 257) (data : List Byte) (starting : s.ready = false) : dwBurst (some n) data s = s.emit (.read 0) :=
  (if_neg (not_asleep awake)).trans (if_pos (by rw [starting]; rfl))

variable (ready : s.ready = true)
include ready

theorem dwDataRead_of_half : dwDataRead true s = s.shortAccess.emit (.read 0) :=
  ((if_neg (not_asleep awake)).trans (if_neg (by rw [ready]; decide))).trans (if_pos rfl)

theorem dwDataRead_of_whole : dwDataRead false s = s.dwRead.2.emit (.read s.dwRead.1) :=
  ((if_neg (not_asleep awake)).trans (if_neg (by rw [ready]; decide))).trans (if_neg (by decide))

theorem dwBurst_of_ready (n : Fin 257) (data : List Byte) : dwBurst (some n) data s = s.burstRead n.val :=
  (if_neg (not_asleep awake)).trans (if_neg (by rw [ready]; decide))

end

theorem dwBurst_of_write {data : List Byte} (takes : s.takes 0x104000 = true) : dwBurst none data s = s.burstWrite data := if_pos takes

theorem dwBurst_of_ignored {data : List Byte} (ignored : s.takes 0x104000 = false) : dwBurst none data s = s :=
  if_neg (Bool.eq_false_iff.mp ignored)

end

/-! ### What an access leaves -/

section
variable {s t u : State}

/-- An access that leaves DW_ADDR alone moves it on by 8 at its end, with or without an answer. -/
theorem addr_of_settled {v : State} (same : u.get F.DW_ADDR_addr = s.get F.DW_ADDR_addr) (moved : v.regs = (u.inc F.DW_ADDR_addr).regs) (settled : Settled v t) :
    t.get F.DW_ADDR_addr = (s.get F.DW_ADDR_addr + 1) % 2 ^ 61 := by
  calc t.get F.DW_ADDR_addr
      _ = v.get F.DW_ADDR_addr := settled.get _ (not_isVecReg (by decide))
      _ = (u.inc F.DW_ADDR_addr).get F.DW_ADDR_addr := get_of_regs moved _
      _ = _ := by rw [State.get_inc_self _ _ 1 (by decide), same]

/-- What a refusal of a kind leaves: it is counted with its space and kind, and neither memory nor the staging area has moved. -/
structure Refused (s t : State) (sp kind : Nat) : Prop where
  counted : t.get F.DW_ERR_COUNT_refused = (s.get F.DW_ERR_COUNT_refused + 1) % 2 ^ 64
  spaceIs : t.get F.DW_STATUS_err_space = sp
  kindIs  : t.get F.DW_STATUS_err_kind = kind
  mem     : t.mem = s.mem
  staging : t.host.staging = s.host.staging
  denied  : kind = 4 → t.get F.SEC_DW_DENY_denied = (s.get F.SEC_DW_DENY_denied + 1) % 2 ^ 64
  locked  : kind = 6 → t.get F.DW_LOCK_COUNT_locked = (s.get F.DW_LOCK_COUNT_locked + 1) % 2 ^ 64

theorem refused_of_settled {sp a kind : Nat} {o : List Out} (space : sp < 8) (known : kind < 16)
    (settled : Settled { (s.dwRefuse sp a kind).inc F.DW_ADDR_addr with out := o } t) :
    Refused s t sp kind := by
  have after (f : Fld) (other : f.reg ≠ R.DW_ADDR) (quiet : f.reg < R.INT_VEC 0 ∨ R.INT_VEC 63 < f.reg) :
      t.get f = (s.dwRefuse sp a kind).get f := (settled.get f (not_isVecReg quiet)).trans (State.get_inc_of_ne _ _ _ 1 other)
  obtain ⟨count, spaceOf, kindOf⟩ := get_dwRefuse s sp a kind space known
  obtain ⟨denied, locked⟩ := get_dwRefuse_own s sp a kind
  have rest := (written_dwRefuse s sp a kind).rest
  refine ⟨(after _ (by decide) (by decide)).trans count, (after _ (by decide) (by decide)).trans spaceOf, (after _ (by decide) (by decide)).trans kindOf,
    ?_, ?_, fun k => (after _ (by decide) (by decide)).trans (denied k), fun k => (after _ (by decide) (by decide)).trans (locked k)⟩
  · exact settled.mem.trans (show (s.dwRefuse sp a kind).mem = s.mem by rw [rest])
  · exact (congrArg HostIf.staging settled.hostf).trans
      (show (s.dwRefuse sp a kind).host.staging = s.host.staging by rw [rest])

end

/-- Settles O57: an access is answered or not, taken or refused, and DW_ADDR moves on by 8. -/
theorem dataWindow : Obligations.DataWindow := by
  unfold Obligations.DataWindow
  intro s v half n data sp a live refused moves
  have space : sp < 8 := s.get_lt _
  have known (wr : Bool) : s.dwRefused sp a wr < 16 := dwRefused_lt s sp a wr
  have stays {kind : Nat} : (s.dwRefuse sp a kind).get F.DW_ADDR_addr = s.get F.DW_ADDR_addr := get_dwRefuse_of_other s sp a kind (by decide)
  have tells {kind : Nat} {t : State} (r : Refused s t sp kind) : refused kind t :=
    ⟨r.counted, r.spaceIs, r.kindIs, r.mem, r.staging, r.denied, r.locked⟩
  refine ⟨fun asleep i row => ?_, fun awake starting i row => ?_, fun ⟨awake, ready⟩ => ⟨?_, fun taken => ?_, fun refuses => ?_, fun eights few many => ?_,
    fun short => ?_⟩, fun takes => ⟨fun refuses => ?_, fun taken staging => ?_, fun taken memory => ?_⟩, fun ignored => ?_,
    fun takes => ⟨fun eights few many => ?_, fun short => ?_⟩, fun ignored => ?_, fun awake => ?_⟩
  · simp only [List.mem_cons, List.not_mem_nil, or_false] at row
    rcases row with rfl | rfl | rfl | rfl | rfl
    · exact completes rfl (dwDataRead_of_d3hot asleep half)
    · exact completes rfl (if_neg (by rw [takes_of_d3hot asleep]; decide))
    · exact completes rfl (dwBurst_of_d3hot asleep _ _)
    · exact completes rfl (dwBurst_of_d3hot asleep _ _)
    · exact completes rfl (if_neg (by simp [State.answers, asleep]))
  · simp only [List.mem_cons, List.not_mem_nil, or_false] at row
    rcases row with rfl | rfl
    · exact completes rfl (dwDataRead_of_not_ready awake half starting)
    · exact completes rfl (dwBurst_of_not_ready awake n [] starting)
  · exact completes rfl (dwDataRead_of_half awake ready)
  · intro r
    obtain ⟨t, run, settled⟩ := completes (i := .dwDataRead false) rfl ((dwDataRead_of_whole awake ready).trans (by rw [dwRead_of_taken taken]))
    have same : r.2.get F.DW_ADDR_addr = s.get F.DW_ADDR_addr := by rw [dwFetch_rest s sp a]; rfl
    exact ⟨t, run, addr_of_settled (u := r.2) (v := (r.2.inc F.DW_ADDR_addr).emit (.read r.1)) same rfl settled, settled⟩
  · obtain ⟨t, run, settled⟩ := completes (i := .dwDataRead false) rfl
      ((dwDataRead_of_whole awake ready).trans (by rw [dwRead_of_refused rfl refuses]))
    let v := ((s.dwRefuse sp a (s.dwRefused sp a false)).inc F.DW_ADDR_addr).emit (.read 0)
    exact ⟨t, run, addr_of_settled (v := v) stays rfl settled, tells (refused_of_settled space (known false) settled), settled⟩
  · exact completes rfl ((dwBurst_of_ready awake ready n []).trans (if_pos (burstOk_iff.mpr ⟨eights, few, many⟩)))
  · refine completes rfl ((dwBurst_of_ready awake ready n []).trans (if_neg fun ok => ?_))
    obtain ⟨eights, few, -⟩ := burstOk_iff.mp ok
    omega
  · obtain ⟨t, run, settled⟩ := completes (i := .dwDataWrite v) rfl ((if_pos takes).trans (dwWrite_of_refused v.toNat rfl refuses))
    exact ⟨t, run, addr_of_settled stays rfl settled, tells (refused_of_settled space (known true) settled), settled⟩
  · obtain ⟨t, run, settled⟩ := completes (i := .dwDataWrite v) rfl ((if_pos takes).trans (dwWrite_of_staging v.toNat taken staging))
    have read := staging_stageWrite s a (leBytes v.toNat 8) false
    rw [length_leBytes] at read
    have kept : t.host.staging = (s.stageWrite a (leBytes v.toNat 8) false).host.staging := by rw [settled.hostf, State.inc_host]; rfl
    exact ⟨t, run, addr_of_settled (get_stageWrite s a _ false _) rfl settled, by rw [kept]; exact read, settled⟩
  · obtain ⟨t, run, settled⟩ := completes (i := .dwDataWrite v) rfl ((if_pos takes).trans (dwWrite_of_memory v.toNat taken memory))
    have read := memBytes_memWr s (sp - 1) a (leBytes v.toNat 8)
    rw [length_leBytes] at read
    exact ⟨t, run, addr_of_settled (u := s.memWr (sp - 1) a (leBytes v.toNat 8)) rfl rfl settled, by omega, space_of_taken_write s sp a taken,
      (congrArg (fun m : Mem => m.bytes.rd (memKey (sp - 1) a) 8) settled.mem).trans read, settled⟩
  · exact completes rfl (if_neg (Bool.eq_false_iff.mp ignored))
  · exact completes rfl ((dwBurst_of_write takes).trans (if_pos (burstOk_iff.mpr ⟨eights, few, many⟩)))
  · refine completes rfl ((dwBurst_of_write takes).trans (if_neg fun ok => ?_))
    obtain ⟨eights, few, many⟩ := burstOk_iff.mp ok
    omega
  · exact completes rfl (dwBurst_of_ignored ignored)
  · exact completes rfl (if_pos (by simp [State.answers, awake]))

end Sys2Proof.Machine
end

section
/-!
PROOFS. The function's resets and power states, and the MSI-X masks (R539 to R541, R559).
-/
namespace Sys2Proof.Machine
open Sys2Proof

/-! ### The function's own reset (R541, R587) -/

section
variable (s : State)

/-- The host interface after a reset of the function: staging, its marks and locks, and the command words of the queues stay (log entry 37). -/
def HostIf.afterReset (h : HostIf) : HostIf :=
  { HostIf.init with qcmd := h.qcmd, staging := h.staging, marks := h.marks, locks := h.locks, held := h.held }

theorem functionReset_rest : s.functionReset = { s with regs := s.functionReset.regs, host := s.host.afterReset } := rfl

/-- The host block's registers return to reset. -/
theorem word_functionReset_of_hostBlock {a : Nat} (low : 0x100000 ≤ a) (high : a < 0x200000) : s.functionReset.word a = regInit a := by
  have other : a ≠ R.GCTL := by simp only [R.GCTL]; omega
  simp only [State.functionReset]
  rw [State.word_set_of_ne _ F.GCTL_strict 0 other, State.word_resetRegs, if_pos (by simp [low, high])]

/-- No other register moves but GCTL. -/
theorem word_functionReset_of_other {a : Nat} (outside : ¬ (0x100000 ≤ a ∧ a < 0x200000)) (other : a ≠ R.GCTL) : s.functionReset.word a = s.word a := by
  simp only [State.functionReset]
  rw [State.word_set_of_ne _ F.GCTL_strict 0 other, State.word_resetRegs, if_neg (by simpa using outside)]
  rfl

theorem get_intEn_functionReset : s.functionReset.get F.INT_EN_en = 0 := by
  have disabled : bits (regInit R.INT_EN).toNat 0 25 = 0 := by decide +kernel
  simp only [State.get]
  rw [word_functionReset_of_hostBlock s (by decide) (by decide), disabled]

theorem get_strict_functionReset : s.functionReset.get F.GCTL_strict = 0 := State.get_set_self _ F.GCTL_strict 0 (by decide)

/-- With every cause disabled a reset of the function delivers no interrupt. -/
theorem hostIrq_functionReset : s.functionReset.hostIrq = s.functionReset := hostIrq_of_disabled _ (get_intEn_functionReset s)

end

/-! ### The release of held vectors (R559) -/

theorem lt_of_mem_bitList {x w i : Nat} (mem : i ∈ bitList x w) : i < w := List.mem_range.mp (List.mem_filter.mp mem).1

/-- A release moves what a delivery moves. -/
theorem settled_msixRelease (s : State) {v : Nat} (vec : v < 64) : Settled s (s.msixRelease v) := by
  simp only [State.msixRelease]
  split_ifs
  · exact .refl s
  · exact .refl s
  · exact (settled_msixTrigger s v vec).trans ⟨rfl, fun _ _ => rfl, rfl, [], by simp⟩
  · exact ⟨rfl, fun _ _ => rfl, rfl, [], by simp⟩

theorem settled_releases {l : List Nat} (vecs : ∀ v ∈ l, v < 64) (s : State) : Settled s (l.foldl State.msixRelease s) := by
  induction l generalizing s with
  | nil => exact .refl s
  | cons v l ih => exact (settled_msixRelease s (vecs v (by simp))).trans (ih (fun w mem => vecs w (by simp [mem])) _)

theorem settled_releaseAll (s : State) : Settled s s.releaseAll := settled_releases (fun _ => lt_of_mem_bitList) s

namespace Settled
variable {s t : State} (h : Settled s t)
include h

/-- The delivery moves neither the function's power state nor its masks nor the MSI-X table. -/
theorem d3hot : t.host.d3hot = s.host.d3hot := by rw [h.hostf]
theorem busMaster : t.host.busMaster = s.host.busMaster := by rw [h.hostf]
theorem fnMask : t.host.fnMask = s.host.fnMask := by rw [h.hostf]
theorem msixEntry (v : Nat) : t.msixEntry v = s.msixEntry v := by simp only [State.msixEntry]; rw [h.hostf]

end Settled

/-! ### Masks and moderation gaps -/

section
variable {s : State} {v : Fin 64}

theorem bar_of_closed {f : State → State} (closed : ¬ (s.ready = true ∧ s.host.d3hot = false)) : s.bar f = s := if_neg (by simpa using closed)

theorem msixEntry_putMsix_self (s : State) (v : Nat) (e : MsixEntry) : (s.putMsix v e).msixEntry v = e := SMap.get_set_self _ _ _

theorem msixEntry_putMsix_of_ne (s : State) {v w : Nat} (e : MsixEntry) (other : w ≠ v) : (s.putMsix v e).msixEntry w = s.msixEntry w :=
  SMap.get_set_of_ne _ e other

theorem moderationExpire_of_closed (closed : bit s.host.gapOpen v = false) : moderationExpire v s = s := if_pos (by rw [closed]; rfl)

/-- The state in which the gap of a vector has ended, and no trigger is held in it. -/
def State.gapOver (s : State) (v : Nat) : State :=
  { s with
    host.gapOpen := s.host.gapOpen &&& (2 ^ 64 - 1 - 1 <<< v)
    host.gapHeld := s.host.gapHeld &&& (2 ^ 64 - 1 - 1 <<< v) }

theorem moderationExpire_of_open (opened : bit s.host.gapOpen v = true) :
    moderationExpire v s = if bit s.host.gapHeld v && bit s.intLines v then (s.gapOver v).msixTrigger v else s.gapOver v := if_neg (by rw [opened]; decide)

end

/-- Settles O56: each command completes with its own effect, and the release of held vectors moves only what a delivery moves. -/
theorem functionStates : Obligations.FunctionStates := by
  unfold Obligations.FunctionStates
  intro s on masked v asked entry
  refine ⟨fun i row => ⟨s.functionReset, ?_, rfl, rfl, rfl, rfl, rfl, get_intEn_functionReset s, get_strict_functionReset s,
      fun a low high => word_functionReset_of_hostBlock s low high, fun a outside other => word_functionReset_of_other s outside other,
      functionReset_rest s⟩, completes rfl rfl, ?_, ?_, ?_, fun closed => ⟨completes (v := s.bar _) rfl (bar_of_closed closed), completes (v := s.bar _) rfl (bar_of_closed closed)⟩,
      fun opened => ⟨?_, completes rfl (s.bar_of_open _ opened)⟩,
      fun closed => completes rfl (moderationExpire_of_closed closed), fun opened => completes rfl (moderationExpire_of_open opened)⟩
  · simp only [List.mem_cons, List.not_mem_nil, or_false] at row
    have ends : done s.functionReset = .next s.functionReset := congrArg _ (hostIrq_functionReset s)
    rcases row with rfl | rfl | rfl <;> exact ends
  · obtain ⟨t, run, settled⟩ := completes (i := .d0Entry) (s := s) rfl rfl
    exact ⟨t, run, ((settled_releaseAll _).trans settled).d3hot, settled⟩
  · obtain ⟨t, run, settled⟩ := completes (i := .busMasterEnable on) (s := s) rfl rfl
    cases on with
    | true => exact ⟨t, run, ((settled_releaseAll _).trans settled).busMaster, settled⟩
    | false => exact ⟨t, run, settled.busMaster, settled⟩
  · obtain ⟨t, run, settled⟩ := completes (i := .msixUnmask none masked) (s := s) rfl rfl
    cases masked with
    | true => exact ⟨t, run, settled.fnMask, settled⟩
    | false => exact ⟨t, run, ((settled_releaseAll _).trans settled).fnMask, settled⟩
  · let put := s.putMsix v { entry with mask := masked }
    have leaves {t : State} (settled : Settled put t) : t.msixEntry v = { entry with mask := masked } ∧ ∀ w, w ≠ v.val → t.msixEntry w = s.msixEntry w :=
      ⟨(settled.msixEntry v).trans (msixEntry_putMsix_self ..), fun w other => (settled.msixEntry w).trans (msixEntry_putMsix_of_ne s _ other)⟩
    obtain ⟨t, run, settled⟩ := completes (i := .msixUnmask (some v) masked) (v := s.bar _) (u := if masked then put else put.msixRelease v) rfl
      (s.bar_of_open _ opened)
    cases masked with
    | true =>
      obtain ⟨self, others⟩ := leaves settled
      exact ⟨t, run, self, others, settled⟩
    | false =>
      obtain ⟨self, others⟩ := leaves ((settled_msixRelease _ v.isLt).trans settled)
      exact ⟨t, run, self, others, settled⟩

end Sys2Proof.Machine
end

section
/-!
PROOFS. The field log (R601 to R609): the second, the two summaries, the journals in flash, and the signed image.
-/
namespace Sys2Proof.Machine
open Sys2Proof

/-! ### Maxima of a list -/

theorem foldl_max_le {l : List Nat} {a b : Nat} : l.foldl max a ≤ b ↔ a ≤ b ∧ ∀ x ∈ l, x ≤ b := by
  induction l generalizing a with
  | nil => simp
  | cons x l ih => simp only [List.foldl_cons, ih, max_le_iff, List.forall_mem_cons, and_assoc]

theorem foldl_max_append (l : List Nat) (a x : Nat) : (l ++ [x]).foldl max a = max (l.foldl max a) x := by
  rw [List.foldl_append, List.foldl_cons, List.foldl_nil]

/-! ### A second (R603) -/

section
variable (s : State)

/-- The temperatures that a second counts: islands, stacks, the coolant's outlet. -/
def State.secondTemps : List Nat :=
  (List.range 24).map (fun i => s.get (F.ISL_temp i)) ++ (List.range 8).map (fun k => s.get (F.HBM_STACK_temp k)) ++ [s.get F.COOL_outlet]

/-- The state in which a second's temperatures are counted. -/
def State.tempsCounted : State :=
  (s.secondTemps.zipIdx).foldl (fun (u : State) (w : Nat × Nat) => u.flogAdd (0x40 + 4 * (34 * w.2 + logBin w.1)) 4) s

/-- The state in which a second's profile is counted too. -/
def State.secondCounted : State :=
  let p := s.get F.PWR_STATUS_profile
  if 1 ≤ p ∧ p ≤ 6 then s.tempsCounted.flogAdd (0x11C8 + 8 * (p - 1)) 8 else s.tempsCounted

theorem regs_flogAdd (off n by_ : Nat) : (s.flogAdd off n by_).regs = s.regs := rfl

theorem regs_tempsCounted : s.tempsCounted.regs = s.regs := by
  unfold State.tempsCounted
  exact regs_foldl (fun u w => regs_flogAdd u _ 4 1) _ s

theorem regs_secondCounted : s.secondCounted.regs = s.regs := by
  unfold State.secondCounted
  dsimp only
  split_ifs
  · exact (regs_flogAdd ..).trans (regs_tempsCounted s)
  · exact regs_tempsCounted s

variable {s}

theorem flogSecond_of_off (off : s.pwr.off = true) : flogSecond s = s := if_pos off

theorem flogSecond_of_on (on : s.pwr.off = false) : flogSecond s = s.secondCounted.inc F.FLOG_PTIME_seconds := by
  have profile : s.tempsCounted.get F.PWR_STATUS_profile = s.get F.PWR_STATUS_profile := get_of_regs (regs_tempsCounted s) _
  refine (if_neg (Bool.eq_false_iff.mp on)).trans (congrArg (State.inc · F.FLOG_PTIME_seconds) ?_)
  simp only [State.secondCounted, ← profile]
  rfl

end

/-! ### The two summaries (R604) -/

section
variable {s : State}

theorem flogSummary_of_off (fail : Bool) (off : s.pwr.off = true) : flogSummary fail s = s := if_pos (.inl off)

theorem flogSummary_of_early (fail : Bool) (early : s.get F.FLOG_PTIME_seconds < s.flash.lastAt + 600) : flogSummary fail s = s := if_pos (.inr early)

/-- The summary of now. -/
def State.nextSummary (s : State) : Summary := ⟨s.flash.seq + 1, s.flog, s.flash.next, s.get F.FLOG_PTIME_seconds⟩

/-- Flash with the summary of now written over the older one. -/
def State.summed (s : State) : Flash := { s.flash with sums := s.flash.sums.filter (fun (y : Summary) => y.seq == s.flash.seq) ++ [s.nextSummary] }

section
variable (on : s.pwr.off = false) (due : s.flash.lastAt + 600 ≤ s.get F.FLOG_PTIME_seconds)
include on due

theorem summary_due : ¬ (s.pwr.off = true ∨ s.get F.FLOG_PTIME_seconds < s.flash.lastAt + 600) := by
  rw [on]
  simpa using due

theorem flogSummary_of_failed : flogSummary true s = s.flogFail := (if_neg (summary_due on due)).trans (if_pos rfl)

theorem flogSummary_of_due : flogSummary false s = { s with flash := s.summed }.inc F.FLOG_WRITE_COUNT_summaries :=
  (if_neg (summary_due on due)).trans (if_neg (by decide))

end

/-- A number that no summary kept has greater than the new one is greatest in the new one. -/
theorem max_summed (g : Summary → Nat) (kept : ∀ y ∈ s.flash.sums, y.seq = s.flash.seq → g y ≤ g s.nextSummary) :
    (s.summed.sums.map g).foldl max 0 = g s.nextSummary := by
  have below : ((s.flash.sums.filter (fun (y : Summary) => y.seq == s.flash.seq)).map g).foldl max 0 ≤ g s.nextSummary := by
    refine foldl_max_le.mpr ⟨Nat.zero_le _, fun x mem => ?_⟩
    obtain ⟨y, within, rfl⟩ := List.mem_map.mp mem
    obtain ⟨old, last⟩ := List.mem_filter.mp within
    exact kept y old (by simpa using last)
  simp only [State.summed, List.map_append, List.map_cons, List.map_nil, foldl_max_append]
  exact max_eq_right below

theorem lastAt_summed (due : s.flash.lastAt + 600 ≤ s.get F.FLOG_PTIME_seconds) : s.summed.lastAt = s.get F.FLOG_PTIME_seconds := by
  refine max_summed (·.secs) fun y old _ => ?_
  obtain ⟨-, all⟩ := foldl_max_le.mp (le_refl s.flash.lastAt)
  calc y.secs
      _ ≤ s.flash.lastAt := all _ (List.mem_map_of_mem old)
      _ ≤ s.get F.FLOG_PTIME_seconds := by omega

theorem seq_summed : s.summed.seq = s.flash.seq + 1 := max_summed (·.seq) fun _ _ last => last.le.trans (Nat.le_succ _)

end

/-! ### The journals in flash (R602, R605) -/

section
variable (f : Flash) (e : JEntry)

theorem write_of_permanent {e : JEntry} (permanent : jPermanent e.kind = true) : f.write e = { f with perm := f.perm ++ [e] } := if_pos permanent

theorem write_of_rolling {e : JEntry} (rolling : jPermanent e.kind = false) :
    f.write e = { f with roll := (f.roll ++ [e]).drop ((f.roll ++ [e]).length - 16384), n := f.n + 1 } := if_neg (Bool.eq_false_iff.mp rolling)

/-- An entry has its number from its event. -/
theorem next_write : (f.write e).next = f.next := by
  simp only [Flash.write]
  split_ifs <;> rfl

/-- The rolling journal's last entry is the new one. -/
theorem getLast_roll : ((f.roll ++ [e]).drop ((f.roll ++ [e]).length - 16384)).getLast? = some e := by
  rw [List.getLast?_drop, if_neg (by simp), List.getLast?_append]
  rfl

variable (s : State)

theorem flash_sets (l : List (Fld × Nat)) : (s.sets l).flash = s.flash := by rw [(Written.sets l s).rest]

theorem flash_takeOver (unit : Nat) : (s.takeOver unit).flash = s.flash := (State.pert_flash _ 8 1).trans (flash_sets _ _)

theorem flash_lpdMap (n : Nat) : (s.lpdMap n).flash = s.flash := rfl

theorem flash_migrate (n spare : Nat) : (s.migrate n spare).flash = s.flash := by
  simp only [State.migrate]
  split_ifs
  · rfl
  · exact (State.pert_flash _ 9 1).trans (flash_sets _ _)

/-- A retirement that takes effect writes nothing in flash. -/
theorem flash_retireUnit (unit : Nat) : (s.retireUnit unit).flash = s.flash := by
  simp only [State.retireUnit]
  split_ifs
  · exact flash_takeOver _ unit
  · rfl
  · exact flash_takeOver _ unit
  · rfl
  · rfl

/-- Nor does a remap. -/
theorem flash_remap (n spare : Nat) : (s.remap n spare).flash = s.flash := by
  simp only [State.remap]
  rw [flash_migrate, flash_lpdMap, flash_sets]

/-- A retirement or a remap whose entry is durable. -/
def State.entryActs (s : State) (e : JEntry) : State :=
  if e.kind = 2 then s.retireUnit e.unit else if e.kind = 4 then s.remap e.unit e.detail else s

theorem flash_entryActs : (s.entryActs e).flash = s.flash := by
  simp only [State.entryActs]
  split_ifs
  · exact flash_retireUnit s e.unit
  · exact flash_remap s e.unit e.detail
  · rfl

variable {s}

theorem flogDurable_of_empty (fail : Bool) (empty : s.journal = []) : flogDurable fail s = s := by simp only [flogDurable, empty]

theorem flogDurable_of_failed {rest : List JEntry} (head : s.journal = e :: rest) :
    let f := { s with journal := rest }.set F.FLOG_STATUS_flog_fail 1
    flogDurable true s = if e.kind = 2 then f.degradeUnit e.unit else if e.kind = 4 then f.lpdDegrade e.unit else f := by
  simp only [flogDurable, head, if_true, State.flogFail]

theorem flogDurable_of_written {rest : List JEntry} (head : s.journal = e :: rest) :
    flogDurable false s = ({ s with journal := rest, flash := s.flash.write e }.inc F.FLOG_WRITE_COUNT_entries).entryActs e := by
  simp only [flogDurable, head, Bool.false_eq_true, if_false, State.entryActs]

end

/-! ### Export and reads (R608, R609) -/

section
variable {s : State}

theorem flogExportReady_of_none (idle : s.flash.exp = .none ∨ s.get F.FLOG_STATUS_export_busy = 0) : flogExportReady s = s := by
  unfold flogExportReady
  split
  · rfl
  · rename_i x kept
    exact if_pos (idle.resolve_left (by simp [kept]))

theorem flogExportReady_of_built {x : Export} (built : s.flash.exp = some x) (busy : s.get F.FLOG_STATUS_export_busy = 1) :
    flogExportReady s = { s with flash.exp := some { x with sig := s.aliasSign (x.head ++ x.image.bytes) } }.sets
      [(F.FLOG_STATUS_export_busy, 0), (F.FLOG_STATUS_export_ready, 1)] := by
  simp only [flogExportReady, built]
  exact if_neg (by omega)

end

/-- Settles O60: each command completes with its own effect; the new summary is the latest, and an entry in flash keeps its number. -/
theorem fieldLog : Obligations.FieldLog := by
  unfold Obligations.FieldLog
  intro s fail e rest x
  refine ⟨fun off i row => ?_, fun on => ⟨?_, fun early => completes rfl (flogSummary_of_early fail early), fun due => ⟨?_, ?_⟩⟩,
    fun empty => completes rfl (flogDurable_of_empty fail empty), fun head => ⟨completes rfl (flogDurable_of_failed e head), ?_⟩, ?_,
    fun idle => completes rfl (flogExportReady_of_none idle), fun built busy => ?_, fun asleep => completes rfl (if_pos asleep),
    fun awake starting => completes rfl ((if_neg (Bool.eq_false_iff.mp awake)).trans (if_pos (by rw [starting]; rfl))),
    fun awake ready => completes rfl ((if_neg (Bool.eq_false_iff.mp awake)).trans (if_neg (by rw [ready]; decide)))⟩
  · simp only [List.mem_cons, List.not_mem_nil, or_false] at row
    rcases row with rfl | rfl
    · exact completes rfl (flogSecond_of_off off)
    · exact completes rfl (flogSummary_of_off fail off)
  · obtain ⟨t, run, settled⟩ := completes (i := .flogSecondTick) rfl (flogSecond_of_on on)
    have counted : t.get F.FLOG_PTIME_seconds = (s.get F.FLOG_PTIME_seconds + 1) % 2 ^ 64 := by
      rw [settled.get _ (not_isVecReg (by decide)), State.get_inc_self _ F.FLOG_PTIME_seconds 1 (by decide), get_of_regs (regs_secondCounted s)]
    exact ⟨t, run, counted, settled⟩
  · obtain ⟨t, run, settled⟩ := completes (i := .flogSummaryWrite true) rfl (flogSummary_of_failed on due)
    exact ⟨t, run, (settled.get _ (not_isVecReg (by decide))).trans (State.get_set_self s F.FLOG_STATUS_flog_fail 1 (by decide)), settled⟩
  · obtain ⟨t, run, settled⟩ := completes (i := .flogSummaryWrite false) rfl (flogSummary_of_due on due)
    exact ⟨t, run, (congrArg Flash.lastAt settled.flash).trans (lastAt_summed due), (congrArg Flash.seq settled.flash).trans seq_summed, settled⟩
  · obtain ⟨t, run, settled⟩ := completes (i := .flogEntryDurable false) rfl (flogDurable_of_written e head)
    have written : t.flash = s.flash.write e := settled.flash.trans (flash_entryActs e _)
    refine ⟨t, run, ?_, fun permanent => ?_, fun rolling => ?_, settled⟩
    · rw [written, next_write]
    · rw [written, write_of_permanent s.flash permanent]
      exact ⟨rfl, rfl⟩
    · rw [written, write_of_rolling s.flash rolling]
      dsimp only
      exact ⟨rfl, getLast_roll s.flash e, by rw [List.length_drop]; omega⟩
  · intro asked head
    refine ⟨fun closed => completes (v := s.bar _) rfl (bar_of_closed closed), fun opened busy => completes (v := s.bar _) rfl ((s.bar_of_open _ opened).trans (if_pos busy)),
      fun opened idle => ?_⟩
    obtain ⟨t, run, settled⟩ := completes (i := .flogExportRequest) (v := s.bar _) rfl ((s.bar_of_open _ opened).trans (if_neg (by omega)))
    refine ⟨t, run, ?_, settled⟩
    rw [settled.get _ (not_isVecReg (by decide))]
    exact (State.get_set_of_disjoint _ F.FLOG_STATUS_export_ready F.FLOG_STATUS_export_busy 0 (by decide) (by decide)).trans
      (State.get_set_self _ F.FLOG_STATUS_export_busy 1 (by decide))
  · obtain ⟨t, run, settled⟩ := completes (i := .flogExportReady) rfl (flogExportReady_of_built built busy)
    refine ⟨t, run, ?_, settled⟩
    rw [settled.get _ (not_isVecReg (by decide))]
    exact State.get_set_self _ F.FLOG_STATUS_export_ready 1 (by decide)

end Sys2Proof.Machine
end

section
/-!
PROOFS. The SMBus target and the JTAG port (R531, R589, R590, R599, R600).
-/
namespace Sys2Proof.Machine
open Sys2Proof

/-! ### SMBus (R589, R590) -/

section
variable {s : State}

theorem smb_of_off (v : Nat) (off : s.pwr.off = true) : s.smb v = s := if_pos off

theorem smb_of_on (v : Nat) (on : s.pwr.off = false) : s.smb v = s.emit (.reply "SMB" (leBytes v 8)) := if_neg (Bool.eq_false_iff.mp on)

/-- The first of the hottest sensors is found: every earlier one reads less, and no later one more. -/
theorem hottest_eq {temp : Nat → Nat} {i n : Nat} (within : i < n) (first : ∀ j < i, sint 16 (temp j) < sint 16 (temp i))
    (most : ∀ j < n, sint 16 (temp j) ≤ sint 16 (temp i)) : hottest temp n = i := by
  have scan (m : Nat) (some_ : 0 < m) (all : m ≤ n) : hottest temp m < m ∧ (i < m → hottest temp m = i) := by
    induction m with
    | zero => omega
    | succ m ih =>
      have next : hottest temp (m + 1) = if sint 16 (temp (hottest temp m)) < sint 16 (temp m) then m else hottest temp m := by
        unfold hottest
        rw [List.range_succ, List.foldl_append]
        rfl
      rcases m.eq_zero_or_pos with rfl | pos
      · have none_ : hottest temp 0 = 0 := rfl
        rw [none_] at next
        rw [next, ite_self]
        omega
      · obtain ⟨below, found⟩ := ih pos (by omega)
        rw [next]
        rcases lt_trichotomy i m with past | rfl | ahead
        · rw [found past, if_neg (not_lt.mpr (most m (by omega)))]
          omega
        · rw [if_pos (first _ below)]
          omega
        · split_ifs <;> omega
  exact (scan n (by omega) le_rfl).2 within

end

/-! ### JTAG (R599, R600, R531) -/

section
variable {s : State}

section
variable (on : s.pwr.off = false)
include on

theorem powered : ¬ s.pwr.off = true := Bool.eq_false_iff.mp on

theorem samplePreload_of_low (cells board : BitVec 16) (low : s.get F.SEC_STATUS_debug = 0) : samplePreload cells board s = s.jtag 1 :=
  (if_neg (powered on)).trans (if_pos low)

theorem samplePreload_of_debug (cells board : BitVec 16) (debug : s.get F.SEC_STATUS_debug ≠ 0) :
    let u := { s with dbg.jtag := 2, dbg.board := board.toNat }
    samplePreload cells board s = { u with dbg.cells := cells.toNat }.emit
      (.reply "TDO" (leBytes u.pinLevels 2 ++ [if u.alert then 0 else 1, if s.pwr.trip then 0 else 1])) :=
  (if_neg (powered on)).trans (if_neg debug)

theorem extest_of_low (low : s.get F.SEC_STATUS_debug = 0) : extest s = s.jtag 1 := (if_neg (powered on)).trans (if_pos low)

section
variable (debug : s.get F.SEC_STATUS_debug ≠ 0)
include debug

theorem extest_of_idle (idle : s.blkBits = 0) : extest s = s.jtag 3 :=
  ((if_neg (powered on)).trans (if_neg debug)).trans (if_neg (by simp [idle]))

theorem extest_of_busy (busy : s.blkBits ≠ 0) :
    extest s = { (s.inc F.DBG_REJ_COUNT_rej).set F.DBG_REJ_ADDR_addr 0x03E00078 with dbg.jtag := 1 } :=
  ((if_neg (powered on)).trans (if_neg debug)).trans (if_pos busy)

end

theorem internalScan_of_low (x : Scan) (low : s.get F.SEC_STATUS_debug ≠ 2) : internalScan x s = s.jtag 1 :=
  (if_neg (powered on)).trans (if_pos low)

theorem internalScan_of_debug (x : Scan) (debug : s.get F.SEC_STATUS_debug = 2) : internalScan x s = (s.jtag 4).scanAccess x :=
  (if_neg (powered on)).trans (if_neg (not_not.mpr debug))

end

/-- Is a read of memory over the scan port without an answer: HBM and LPDDR in PROD (R533), an address beyond the level, a line in error? -/
def State.scanHidden (s : State) (level : Fin 3) (a : Nat) : Prop :=
  (level ≠ 0 ∧ s.get F.SEC_STATUS_lifecycle = 1) ∨ levelSize level.val < a + 8 ∨ s.memBad level.val a 8 = true

section
variable {level : Fin 3} {a : BitVec 44}

theorem scanHidden_jtag (ir : Nat) : (s.jtag ir).scanHidden level a.toNat = s.scanHidden level a.toNat := rfl

theorem scanAccess_readMem_of_hidden (hidden : s.scanHidden level a.toNat) :
    s.scanAccess (.readMem level a) = (s.free 64).2.tdo (leBytes (s.free 64).1 8) :=
  congrArg (fun r : Nat × State => r.2.tdo (leBytes r.1 8)) (if_pos (by simpa only [State.scanHidden, ne_eq, Fin.ext_iff, Fin.val_zero] using hidden))

theorem scanAccess_readMem_of_open (opened : ¬ s.scanHidden level a.toNat) :
    s.scanAccess (.readMem level a) = s.tdo (leBytes (leNat (s.memBytes level.val a.toNat 8)) 8) :=
  congrArg (fun r : Nat × State => r.2.tdo (leBytes r.1 8)) (if_neg (by simpa only [State.scanHidden, ne_eq, Fin.ext_iff, Fin.val_zero] using opened))

theorem scanAccess_writeMem_of_within (v : BitVec 64) (within : a.toNat + 8 ≤ levelSize level) :
    s.scanAccess (.writeMem level a v) = s.memWr level.val a.toNat (leBytes v.toNat 8) := if_pos within

theorem scanAccess_writeMem_of_beyond (v : BitVec 64) (beyond : levelSize level < a.toNat + 8) : s.scanAccess (.writeMem level a v) = s :=
  if_neg (not_le.mpr beyond)

end
end

/-- Settles O59: each command of the two side interfaces completes with its own effect. -/
theorem sideInterfaces : Obligations.SideInterfaces := by
  unfold Obligations.SideInterfaces
  intro s cells board addr v level at_ x on reply isl stk
  have dead : ¬ on → s.pwr.off = true := Bool.eq_true_of_not_eq_false
  refine ⟨fun off i row => ?_, fun on => ⟨fun q row => ?_, fun i within first most => ?_, fun i within first most => ?_, completes rfl (if_neg (powered on)),
    completes rfl (if_neg (powered on)), completes rfl (if_neg (powered on)), ⟨fun low i row => ?_, fun debug => completes rfl (samplePreload_of_debug on _ _ debug),
      fun debug idle => completes rfl (extest_of_idle on debug idle), fun debug busy => completes rfl (extest_of_busy on debug busy)⟩,
    fun low => completes rfl (internalScan_of_low on x low), fun debug => ⟨?_, ?_, ?_, ⟨fun hidden => ?_, fun opened => ?_⟩, fun within => ?_, fun beyond => ?_⟩⟩⟩
  · have off := dead off
    simp only [List.mem_cons, List.not_mem_nil, or_false] at row
    rcases row with rfl | rfl | rfl | rfl | rfl | rfl | rfl | rfl | rfl | rfl | rfl | rfl | rfl | rfl <;>
      exact completes rfl (if_pos off)
  · simp only [List.mem_cons, List.not_mem_nil, or_false] at row
    rcases row with rfl | rfl | rfl | rfl | rfl | rfl <;> exact completes rfl (smb_of_on _ on)
  · exact completes rfl ((smb_of_on _ on).trans (by rw [hottest_eq within first most]))
  · exact completes rfl ((smb_of_on _ on).trans (by rw [hottest_eq within first most]))
  · simp only [List.mem_cons, List.not_mem_nil, or_false] at row
    rcases row with rfl | rfl
    · exact completes rfl (samplePreload_of_low on cells board low)
    · exact completes rfl (extest_of_low on low)
  · exact completes rfl (internalScan_of_debug on .chain debug)
  · exact completes rfl (internalScan_of_debug on (.readReg addr) debug)
  · exact completes rfl (internalScan_of_debug on (.writeReg addr v) debug)
  · exact completes rfl ((internalScan_of_debug on (.readMem level at_) debug).trans (scanAccess_readMem_of_hidden (scanHidden_jtag 4 ▸ hidden)))
  · exact completes rfl ((internalScan_of_debug on (.readMem level at_) debug).trans (scanAccess_readMem_of_open (scanHidden_jtag 4 ▸ opened)))
  · exact completes rfl ((internalScan_of_debug on (.writeMem level at_ v) debug).trans (scanAccess_writeMem_of_within v within))
  · exact completes rfl ((internalScan_of_debug on (.writeMem level at_ v) debug).trans (scanAccess_writeMem_of_beyond v beyond))

end Sys2Proof.Machine
end

section
/-!
PROOFS. What a reset keeps (Table 18-4): the boot itself writes the journal, so flash's next entry number moves on.
-/
namespace Sys2Proof.Machine
open Sys2Proof

section
variable (s : State)

theorem flash_foldl {α : Type} {g : State → α → State} (hg : ∀ s x, (g s x).flash = s.flash) (l : List α) (s : State) : (l.foldl g s).flash = s.flash := by
  induction l generalizing s with
  | nil => rfl
  | cons x l ih => exact (ih _).trans (hg s x)

/-- Restoring the maps writes nothing in flash. -/
theorem flash_restoreMaps : s.restoreMaps.flash = s.flash := by
  refine (State.resetRegs_flash ..).trans (((flash_foldl ?_ _ _).trans (flash_foldl ?_ _ _)).trans (flash_foldl ?_ _ _))
  · intro s n
    split_ifs
    · rfl
    · exact flash_sets s _
  · intro s unit
    split_ifs <;> rfl
  · intro s e
    split_ifs
    · exact flash_retireUnit s e.unit
    · exact flash_sets s _
    · rfl

/-- Measuring the firmware writes registers alone. -/
theorem written_measureFw : Written s s.measureFw := by
  unfold State.measureFw State.setDigest
  exact (Written.foldl _ (fun u n => .setWord u _ _) _ s).trans (.set _ _ _)

/-- A rolling entry that finds room takes the next number. -/
theorem next_journalPut {kind : Nat} (rolling : jPermanent kind = false) (room : s.journal.length < 256) (sub unit temp mv sig detail : Nat) :
    (s.journalPut kind sub unit temp mv sig detail).flash.next = s.flash.next + 1 := by
  simp only [State.journalPut, rolling, Bool.false_eq_true, if_false, not_le.mpr room]

/-- A slot that boots is in the journal. -/
theorem next_bootSlot (slot : Nat) (fallback : Bool) (room : s.journal.length < 256) : (s.bootSlot slot fallback).flash.next = s.flash.next + 1 := by
  have rest := (written_measureFw (s.set F.SEC_STATUS_boot_slot slot)).rest
  have journal : ((s.set F.SEC_STATUS_boot_slot slot).measureFw).journal = s.journal := by rw [rest]; rfl
  have flash : ((s.set F.SEC_STATUS_boot_slot slot).measureFw).flash = s.flash := by rw [rest]; rfl
  rw [State.bootSlot, next_journalPut _ (by decide) (by rwa [journal]), flash]

/-- Fresh nonces move no other register. -/
theorem get_newNonce {f : Fld} (first : f.reg ≠ R.DBG_NONCE0) (second : f.reg ≠ R.DBG_NONCE1) : s.newNonce.get f = s.get f :=
  (State.get_set_of_ne _ F.DBG_NONCE1_nonce f _ second).trans (State.get_set_of_ne _ F.DBG_NONCE0_nonce f _ first)

/-- The fused minimum stays (Table 18-4). -/
theorem fuse_kept : s.kept.get F.FW_SVN_fuse = s.get F.FW_SVN_fuse :=
  (State.get_set_of_ne _ F.AUD_BOOT_boot F.FW_SVN_fuse _ (by decide)).trans
    ((State.get_set_self _ F.FW_SVN_fuse _ (by decide)).trans (Nat.mod_eq_of_lt (s.get_lt _)))

/-- The selected slot boots where nothing is wrong with it (R510). -/
theorem boot_of_sound {bad : Nat → Nat} (sound : s.slotFails (s.sec.next.getD (s.get F.SEC_STATUS_boot_slot)) (bad (s.sec.next.getD (s.get F.SEC_STATUS_boot_slot))) = 0) :
    s.boot bad = { s with sec.next := none }.bootSlot (s.sec.next.getD (s.get F.SEC_STATUS_boot_slot)) false := if_pos sound

end

/-- The reset state restarted: its boot is counted and its nonce is fresh. -/
def restarted : State := ({ State.reset.kept with pwr.trip := State.reset.pwr.trip }.inc F.AUD_BOOT_boot).newNonce

/-- The state after a warm reset from the reset state, before it boots. -/
def warmRestarted : State :=
  { restarted with flog := [], journal := [] }.set F.FLOG_PTIME_seconds (State.reset.get F.FLOG_PTIME_seconds)

/-- Its factory images are not below the fused minimum. -/
theorem slotFails_warmRestarted (slot : Nat) : warmRestarted.slotFails slot 0 = 0 := by
  have fused : State.reset.get F.FW_SVN_fuse = 0 := by decide +kernel
  have fuse : warmRestarted.get F.FW_SVN_fuse = 0 := by
    calc warmRestarted.get F.FW_SVN_fuse
        _ = restarted.get F.FW_SVN_fuse :=
          State.get_set_of_ne { restarted with flog := [], journal := [] } F.FLOG_PTIME_seconds F.FW_SVN_fuse _ (by decide)
        _ = ({ State.reset.kept with pwr.trip := State.reset.pwr.trip }.inc F.AUD_BOOT_boot).get F.FW_SVN_fuse :=
          by rw [restarted, get_newNonce _ (by decide) (by decide)]
        _ = State.reset.kept.get F.FW_SVN_fuse := State.get_inc_of_ne _ F.AUD_BOOT_boot F.FW_SVN_fuse 1 (by decide)
        _ = 0 := (fuse_kept State.reset).trans fused
  simp only [State.slotFails, fuse, Nat.not_lt_zero, or_self, if_false, ne_eq, not_true_eq_false]

/-- Refutes O53: a reset does not leave flash as it was, for the boot of a slot is an entry of the journal, which takes the next entry number. -/
theorem not_resetLevels : ¬ Obligations.ResetLevels := by
  unfold Obligations.ResetLevels
  intro h
  obtain ⟨-, -, -, -, -, kept, -⟩ := h State.reset 0 0 0 0
  obtain ⟨-, -, -, -, -, -, -, -, -, -, -, -, -, -, -, -, flash, -⟩ := kept _ (List.mem_cons_of_mem _ List.mem_cons_self)
  have next : (State.reset.reboot false fun _ => 0).flash.next = 1 :=
    calc (State.reset.reboot false fun _ => 0).flash.next
      _ = (warmRestarted.boot fun _ => 0).flash.next := congrArg Flash.next (flash_restoreMaps _)
      _ = warmRestarted.flash.next + 1 := by
        rw [boot_of_sound _ (slotFails_warmRestarted _), next_bootSlot _ _ _ (by decide)]
      _ = 1 := rfl
  have none_ : (fun k => if k = 0 then (0 : Fin 6).val else (0 : Fin 6).val) = fun _ : Nat => 0 := funext fun _ => ite_self _
  rw [none_] at flash
  exact absurd (next.symm.trans (congrArg Flash.next flash)) (by decide)

end Sys2Proof.Machine
end

section
/-!
PROOFS. The power controller (R565, R566, R570, R577 to R581): profiles, the limiter, the trip at 125 °C, coolant and input.
-/
namespace Sys2Proof.Machine
open Sys2Proof

/-! ### Profiles (R576, R577) -/

section
variable (s : State)

theorem get_ctl_setDigest (d : List Byte) : (s.setDigest R.PROF_DIGEST d).get F.PWR_CTL_profile = s.get F.PWR_CTL_profile :=
  State.get_setDigest_of_ne _ (fun n => by simp only [R.PWR_CTL, R.PROF_DIGEST]; omega)

/-- A profile that takes effect stays selected. -/
theorem get_ctl_takeProfile : s.takeProfile.get F.PWR_CTL_profile = s.get F.PWR_CTL_profile := by
  have told (u : State) : (if u.get F.PWR_STATUS_profile = u.get F.PWR_CTL_profile then u else u.intEvent 24).get F.PWR_CTL_profile =
      u.get F.PWR_CTL_profile := by
    split
    · rfl
    · exact State.get_inc_of_ne u (F.INT_EVT_events 24) F.PWR_CTL_profile 1 (by decide)
  rw [State.takeProfile, State.get_set_of_ne _ F.PWR_STATUS_profile F.PWR_CTL_profile _ (by decide), told]
  split
  · exact get_ctl_setDigest ..
  · rfl

/-- PROFILE_SELECT of a profile that exists (R577). -/
def State.selectProfile (p : Nat) : State :=
  if s.get F.AUD_CTL_en = 0 then (s.set F.PWR_CTL_profile p).takeProfile else s.set F.PWR_CTL_profile p

variable {s} {p : BitVec 3}

section
variable (opened : s.ready = true ∧ s.host.d3hot = false)
include opened

theorem profileSelect_of_range (outside : p = 0 ∨ p = 7) : profileSelect p s = (s.inc F.PWR_REJ_COUNT_rej).set F.PWR_REJ_ADDR_addr R.PWR_CTL :=
  (s.bar_of_open _ opened).trans (if_pos (by rcases outside with rfl | rfl <;> decide))

theorem profileSelect_of_known (first : p ≠ 0) (last : p ≠ 7) : profileSelect p s = s.selectProfile p.toNat := by
  have known : ¬ (p.toNat = 0 ∨ p.toNat = 7) := by
    rintro (low | high)
    · exact first (BitVec.eq_of_toNat_eq low)
    · exact last (BitVec.eq_of_toNat_eq high)
  have audit : (s.set F.PWR_CTL_profile p.toNat).get F.AUD_CTL_en = s.get F.AUD_CTL_en :=
    State.get_set_of_ne s F.PWR_CTL_profile F.AUD_CTL_en p.toNat (by decide)
  refine (s.bar_of_open _ opened).trans ((if_neg known).trans ?_)
  simp only [audit, State.selectProfile]

end

theorem get_ctl_set : (s.set F.PWR_CTL_profile p.toNat).get F.PWR_CTL_profile = p.toNat :=
  (State.get_set_self s F.PWR_CTL_profile p.toNat (by decide)).trans (Nat.mod_eq_of_lt p.isLt)

theorem get_ctl_selectProfile : (s.selectProfile p.toNat).get F.PWR_CTL_profile = p.toNat := by
  simp only [State.selectProfile]
  split_ifs
  · exact (get_ctl_takeProfile _).trans get_ctl_set
  · exact get_ctl_set

theorem get_status_selectProfile (quiet : s.get F.AUD_CTL_en = 0) : (s.selectProfile p.toNat).get F.PWR_STATUS_profile = p.toNat := by
  rw [State.selectProfile, if_pos quiet, State.get_profile_takeProfile]
  exact get_ctl_set

end

/-! ### Pauses of class C (R581) -/

section
variable (s : State) (reason unit temp : Nat)

theorem regs_thermalMsg (type : Nat) : (s.thermalMsg type reason unit temp).regs = s.regs := by
  simp only [State.thermalMsg, State.sendWm]
  split <;> rfl

theorem noted_reasons : Noted s s.reasons := .sets _ s

theorem noted_pauseOn : Noted s (s.pauseOn reason unit temp) := (noted_reasons s).trans ((Noted.pert _ 3 1).trans (.sendWm _ _ _ _))

theorem noted_pauseOff : Noted s (s.pauseOff reason unit temp) := by
  simp only [State.pauseOff]
  split_ifs
  · exact noted_reasons s
  · exact (noted_reasons s).trans (.sendWm _ _ _ _)

/-- The reasons say nothing new of the input. -/
theorem get_vinLow_reasons : s.reasons.get F.PWR_STATUS_vin_low = s.get F.PWR_STATUS_vin_low :=
  (State.get_set_of_disjoint _ F.PWR_STATUS_neighbour F.PWR_STATUS_vin_low _ (by decide) (by decide)).trans
    (State.get_set_of_disjoint _ F.PWR_STATUS_paused F.PWR_STATUS_vin_low _ (by decide) (by decide))

/-- A low input is a reason (R566). -/
theorem get_paused_reasons (low : s.get F.PWR_STATUS_vin_low = 1) : s.reasons.get F.PWR_STATUS_paused = 1 := by
  refine (State.get_set_of_disjoint _ F.PWR_STATUS_neighbour F.PWR_STATUS_paused _ (by decide) (by decide)).trans ?_
  rw [State.get_set_self _ F.PWR_STATUS_paused _ (by decide), low, beq_self_eq_true, Bool.or_true]
  rfl

theorem get_pauseOn {f : Fld} (other : f.reg ≠ R.PERT 3) : (s.pauseOn reason unit temp).get f = s.reasons.get f := by
  rw [State.pauseOn, get_of_regs (regs_thermalMsg _ _ _ _ _) f, State.pert, State.get_set_of_ne _ (F.PERT_events 3) f _ other]
  simp only [State.get, State.word]

theorem get_pauseOff (f : Fld) : (s.pauseOff reason unit temp).get f = s.reasons.get f := by
  simp only [State.pauseOff]
  split_ifs
  · rfl
  · exact get_of_regs (regs_thermalMsg _ _ _ _ _) f

end

/-! ### The limiter (R578) -/

section
variable {s : State} {w c : Nat}

/-- Steps of the limiter at the islands of a list move those islands alone, each once. -/
theorem lim_foldl {g : State → Nat → State} {f : Nat → Nat} {l : List Nat} (once : l.Nodup)
    (moves : ∀ i ∈ l, ∀ u : State, (g u i).pwr.lim = u.pwr.lim.wr i (f (u.pwr.lim.rd i))) (s : State) (j : Nat) :
    (l.foldl g s).pwr.lim.rd j = if j ∈ l then f (s.pwr.lim.rd j) else s.pwr.lim.rd j := by
  induction l generalizing s with
  | nil => rfl
  | cons i l ih =>
    obtain ⟨fresh, once⟩ := List.nodup_cons.mp once
    rw [List.foldl_cons, ih once (fun k mem => moves k (List.mem_cons_of_mem i mem)), moves i List.mem_cons_self]
    rcases eq_or_ne j i with rfl | other
    · rw [if_neg fresh, if_pos List.mem_cons_self, NMap.rd_wr_self]
    · simp only [NMap.rd_wr_of_ne _ _ other, List.mem_cons, other, false_or]

theorem islKind_of_mem : ∀ k < 3, ∀ i ∈ kindIslands k, islKind i = some k := by decide

theorem kindIslands_nodup : ∀ k < 3, (kindIslands k).Nodup := by decide

/-- One step down of a kind (Table 18-9). -/
theorem lim_limLower {k : Nat} (known : k < 3) (s : State) (j : Nat) : (s.limLower (kindIslands k)).pwr.lim.rd j =
    if j ∈ kindIslands k then min (kindNominal k - kindFloor k) (s.pwr.lim.rd j + 50) else s.pwr.lim.rd j :=
  lim_foldl (f := fun x => min (kindNominal k - kindFloor k) (x + 50)) (kindIslands_nodup k known)
    (fun i mem u => by simp only [islKind_of_mem k known i mem]) s j

theorem kindAtFloor_of_above {k i : Nat} (mem : i ∈ kindIslands k) (above : s.pwr.lim.rd i < kindNominal k - kindFloor k) : s.kindAtFloor k = false :=
  List.all_eq_false.mpr ⟨i, mem, by simp only [decide_eq_true_eq, not_le, above]⟩

theorem kindAtFloor_of_all {k : Nat} (all : ∀ i ∈ kindIslands k, kindNominal k - kindFloor k ≤ s.pwr.lim.rd i) : s.kindAtFloor k = true :=
  List.all_eq_true.mpr fun i mem => decide_eq_true (all i mem)

theorem limiter_of_over {k : Nat} (beyond : c < w) (first : [0, 2, 1].find? (fun k => !s.kindAtFloor k) = some k) :
    s.limiter w c = { s with pwr.under := 0 }.limLower (kindIslands k) := (if_pos beyond).trans (by rw [first])

theorem limiter_of_between (within : w ≤ c) (near : 95 * c ≤ 100 * w) : s.limiter w c = { s with pwr.under := 0 } :=
  (if_neg (not_lt.mpr within)).trans (if_neg (not_lt.mpr near))

section
variable (under : 100 * w < 95 * c)
include under

theorem limiter_of_early (early : s.pwr.under < 9) : s.limiter w c = { s with pwr.under := s.pwr.under + 1 } :=
  ((if_neg (by omega)).trans (if_pos under)).trans (if_pos (Nat.succ_lt_succ early))

theorem limiter_of_late {k : Nat} (late : 9 ≤ s.pwr.under) (first : [1, 2, 0].find? (fun k => !s.kindFree k) = some k) :
    s.limiter w c = (kindIslands k).foldl (fun (s : State) i => { s with pwr.lim := s.pwr.lim.wr i (s.pwr.lim.rd i - 50) })
      { s with pwr.under := s.pwr.under + 1 } :=
  ((if_neg (by omega)).trans (if_pos under)).trans ((if_neg (not_lt.mpr (Nat.succ_le_succ late))).trans (by
    have same : (fun k => !({ s with pwr.under := s.pwr.under + 1 } : State).kindFree k) = fun k => !s.kindFree k := rfl
    rw [same, first]))

end
end

/-! ### A sample (R578, R579) -/

section
variable (s : State)

/-- The registers a reset sets anew from the fuses and the boot (Table 18-4). -/
def keptRegs : List Nat := [R.SEC_STATUS, R.FW_SVN, R.AUD_BOOT]

theorem get_kept_of_other {f : Fld} (other : f.reg ∉ keptRegs) : s.kept.get f = State.reset.get f := by
  simp only [keptRegs, List.mem_cons, List.not_mem_nil, or_false, not_or] at other
  obtain ⟨status, svn, boot⟩ := other
  simp only [State.kept, State.sets, List.foldl_cons, List.foldl_nil]
  simp only [State.get_set_of_ne, ne_eq, status, svn, boot, not_false_eq_true]
  simp only [State.get, State.word]

theorem regs_withPower (p : Power) : { s with pwr := p }.regs = s.regs := rfl

theorem get_ready_railsOff (trip : Bool) : (s.railsOff trip).get F.PWR_STATUS_ready = 0 := by
  have atReset : State.reset.get F.PWR_STATUS_ready = 0 := by decide +kernel
  have same : (s.railsOff trip).regs = s.kept.regs := regs_withPower s.kept { s.kept.pwr with off := true, trip := trip }
  rw [get_of_regs same, get_kept_of_other s (by decide), atReset]

variable (temps : List (BitVec 16)) (mvs : List (Fin 24 × BitVec 12)) (mv ca w : BitVec 16)

/-- The state in which a sample's readings are shown. -/
def State.readingsShown : State :=
  (temps.zipIdx).foldl (fun (u : State) x => if x.2 < 24 then u.set (F.ISL_temp x.2) x.1.toNat else u)
    (s.sets [(F.PWR_IN_mv, mv.toNat), (F.PWR_IN_ca, ca.toNat), (F.PWR_IN_w, w.toNat)])

/-- Is an island at 125 °C? -/
def State.trips (i : Nat) : Bool := decide (1000 ≤ sint 16 (s.get (F.ISL_temp i)))

/-- What a sample does where no island trips: the limits in the order of chapter 18. -/
def State.regulated : State :=
  let limited := (s.currentCap mv.toNat).guardTemp.limiter w.toNat ((s.currentCap mv.toNat).ceiling mv.toNat)
  let clocked := mvs.foldl (fun (u : State) m => u.set (F.ISL_mv m.1.val) m.2.toNat) limited.clocks
  (List.range 24).foldl State.guardHot (neighbours.foldl State.guardPair clocked)

variable {s}

theorem powerSample_of_starting (starting : s.ready = false) : powerSample temps mvs mv ca w s = s := if_pos (by rw [starting]; rfl)

theorem powerSample_of_ready (ready : s.ready = true) : powerSample temps mvs mv ca w s =
    match (List.range 24).find? (s.readingsShown temps mv ca w).trips with
    | some i => (s.readingsShown temps mv ca w).thermtrip i
    | none => (s.readingsShown temps mv ca w).regulated mvs mv w := if_neg (by rw [ready]; decide)

theorem powerSample_of_trip {i : Nat} (ready : s.ready = true) (island : i < 24) (hot : (s.readingsShown temps mv ca w).trips i = true)
    (first : ∀ j < i, (s.readingsShown temps mv ca w).trips j = false) : powerSample temps mvs mv ca w s = (s.readingsShown temps mv ca w).thermtrip i := by
  have found : (List.range 24).find? (s.readingsShown temps mv ca w).trips = some i := by
    refine List.find?_range_eq_some.mpr ⟨hot, List.mem_range.mpr island, fun j below => ?_⟩
    rw [first j below]
    rfl
  rw [powerSample_of_ready _ _ _ _ _ ready, found]

theorem powerSample_of_cool (ready : s.ready = true) (cool : ∀ j < 24, (s.readingsShown temps mv ca w).trips j = false) :
    powerSample temps mvs mv ca w s = (s.readingsShown temps mv ca w).regulated mvs mv w := by
  have none_ : (List.range 24).find? (s.readingsShown temps mv ca w).trips = .none :=
    List.find?_eq_none.mpr fun j mem => Bool.eq_false_iff.mp (cool j (List.mem_range.mp mem))
  rw [powerSample_of_ready _ _ _ _ _ ready, none_]

end

/-! ### Coolant and input (R566, R580) -/

section
variable (s : State) (inlet outlet : BitVec 16)

/-- The state in which the coolant's temperatures are shown. -/
def State.coolantShown : State := s.sets [(F.COOL_inlet, inlet.toNat), (F.COOL_outlet, outlet.toNat)]

/-- The state in which the outlet ceiling of R580 is then in force or not. -/
def State.cooled : State :=
  let u := s.coolantShown inlet outlet
  if s.pwr.outHot = false ∧ 520 ≤ sint 16 outlet.toNat then { u with pwr.outHot := true }.intEvent 15
  else if s.pwr.outHot = true ∧ sint 16 outlet.toNat < 480 then { u with pwr.outHot := false } else u

/-- The pause of class C begins, with its count, its entry and its cause (R580). -/
def State.coolPause : State :=
  ((({ s with pwr.cool := true }.flogAdd (0x7F48 + 132) 4).journalPut 5 3 32 outlet.toNat 0 0 0).intEvent 15).pauseOn 3 0 outlet.toNat

/-- The pause of class C ends. -/
def State.coolResume : State := ({ s with pwr.cool := false }.journalPut 5 0x83 32 outlet.toNat 0 0 0).pauseOff 3 0 outlet.toNat

/-- The pause begins, ends or stays as it is. -/
def State.coolPaused : State :=
  if !s.pwr.cool ∧ 560 ≤ sint 16 outlet.toNat then s.coolPause outlet
  else if s.pwr.cool ∧ sint 16 outlet.toNat < 520 then s.coolResume outlet
  else s

theorem pwr_coolantShown : (s.coolantShown inlet outlet).pwr = s.pwr := by rw [State.coolantShown, (Written.sets _ s).rest]

theorem cool_cooled : (s.cooled inlet outlet).pwr.cool = s.pwr.cool := by
  have shown := congrArg Power.cool (pwr_coolantShown s inlet outlet)
  simp only [State.cooled]
  split_ifs <;> exact shown

theorem pwr_journalPut (kind sub unit temp mv sig detail : Nat) : (s.journalPut kind sub unit temp mv sig detail).pwr = s.pwr := by
  simp only [State.journalPut]
  split_ifs <;> rfl

theorem cool_coolPause : (s.coolPause outlet).pwr.cool = true := by
  rw [State.coolPause, (noted_pauseOn _ 3 0 outlet.toNat).rest, State.intEvent_pwr, pwr_journalPut]
  rfl

theorem cool_coolResume : (s.coolResume outlet).pwr.cool = false := by
  rw [State.coolResume, (noted_pauseOff _ 3 0 outlet.toNat).rest, pwr_journalPut]

variable {s}

theorem coolantSample_of_starting (starting : s.ready = false) : coolantSample inlet outlet s = s := if_pos (by rw [starting]; rfl)

theorem coolantSample_of_ready (ready : s.ready = true) : coolantSample inlet outlet s = (s.cooled inlet outlet).coolPaused outlet := by
  have cooled : (if !(s.coolantShown inlet outlet).pwr.outHot ∧ 520 ≤ sint 16 outlet.toNat then
      { s.coolantShown inlet outlet with pwr.outHot := true }.intEvent 15
      else if (s.coolantShown inlet outlet).pwr.outHot ∧ sint 16 outlet.toNat < 480 then { s.coolantShown inlet outlet with pwr.outHot := false }
      else s.coolantShown inlet outlet) = s.cooled inlet outlet := by
    simp only [State.cooled, pwr_coolantShown, Bool.not_eq_true']
  exact (if_neg (by rw [ready]; decide)).trans (congrArg (State.coolPaused · outlet) cooled)

variable {inlet outlet}

theorem coolPaused_of_hot (cold : s.pwr.cool = false) (hot : 560 ≤ sint 16 outlet.toNat) : s.coolPaused outlet = s.coolPause outlet :=
  if_pos ⟨by rw [cold]; rfl, hot⟩

theorem coolPaused_of_cold (paused : s.pwr.cool = true) (cold : sint 16 outlet.toNat < 520) : s.coolPaused outlet = s.coolResume outlet :=
  (if_neg (by simp [paused])).trans (if_pos ⟨paused, cold⟩)

theorem coolPaused_of_stays (stays : s.pwr.cool = false ∧ sint 16 outlet.toNat < 560 ∨ s.pwr.cool = true ∧ 520 ≤ sint 16 outlet.toNat) :
    s.coolPaused outlet = s := by
  rcases stays with ⟨cold, cool⟩ | ⟨paused, hot⟩
  · exact (if_neg (by simp [cool])).trans (if_neg (by simp [cold]))
  · exact (if_neg (by simp [paused])).trans (if_neg (by simp [hot]))

end

section
variable (s : State) (mv : BitVec 16)

/-- The state in which the input is low or no longer low, before the pause follows. -/
def State.inputTold (low : Nat) : State := (s.sets [(F.PWR_STATUS_vin_low, low), (F.PWR_IN_mv, mv.toNat)]).intEvent 24

theorem get_vinLow_inputTold {low : Nat} (flag : low < 2) : (s.inputTold mv low).get F.PWR_STATUS_vin_low = low := by
  refine (State.get_inc_of_ne _ (F.INT_EVT_events 24) F.PWR_STATUS_vin_low 1 (by decide)).trans
    ((State.get_set_of_ne _ F.PWR_IN_mv F.PWR_STATUS_vin_low _ (by decide)).trans ?_)
  rw [State.get_set_self _ F.PWR_STATUS_vin_low low (by decide)]
  exact Nat.mod_eq_of_lt flag

end

/-- Settles O55: each command completes with its own effect, and a step of the limiter moves the islands of one kind alone. -/
theorem powerController : Obligations.PowerController := by
  unfold Obligations.PowerController
  intro s p temps mvs mv ca w inlet outlet i pw c
  refine ⟨fun closed => completes (v := s.bar _) rfl (bar_of_closed closed), fun opened outside => ?_, fun opened first last => ?_,
    ⟨fun starting => completes rfl (powerSample_of_starting _ _ _ _ _ starting), fun ready island hot first => ?_, fun ready cool => ?_⟩,
    ⟨fun beyond x all low => ?_, fun beyond floor x all low => ?_, limiter_of_between, limiter_of_early, fun under late x all high => ?_⟩,
    fun starting => completes rfl (coolantSample_of_starting inlet outlet starting), fun ready => ⟨fun cold hot => ?_, fun paused cold => ?_, fun stays => ?_⟩,
    fun ready high low => ?_, fun stays => ?_, fun low high => ?_, fun stays => ?_⟩
  · obtain ⟨t, run, settled⟩ := completes (i := .profileSelect p) rfl (profileSelect_of_range opened outside)
    refine ⟨t, run, ?_, settled⟩
    rw [settled.get _ (not_isVecReg (by decide)), State.get_set_of_ne _ F.PWR_REJ_ADDR_addr F.PWR_CTL_profile _ (by decide),
      State.get_inc_of_ne _ F.PWR_REJ_COUNT_rej F.PWR_CTL_profile 1 (by decide)]
  · obtain ⟨t, run, settled⟩ := completes (i := .profileSelect p) rfl (profileSelect_of_known opened first last)
    exact ⟨t, run, (settled.get _ (not_isVecReg (by decide))).trans get_ctl_selectProfile,
      fun quiet => (settled.get _ (not_isVecReg (by decide))).trans (get_status_selectProfile quiet), settled⟩
  · obtain ⟨t, run, settled⟩ := completes (i := .powerSample temps mvs mv ca w) rfl
      (powerSample_of_trip temps mvs mv ca w ready island (decide_eq_true hot) (fun j below => decide_eq_false (first j below)))
    exact ⟨t, run, settled, congrArg Power.off settled.pwr, congrArg Power.trip settled.pwr,
      (settled.get _ (not_isVecReg (by decide))).trans (get_ready_railsOff _ true)⟩
  · exact completes rfl (powerSample_of_cool temps mvs mv ca w ready fun j island => decide_eq_false (cool j island))
  · intro j _
    have first : [0, 2, 1].find? (fun k => !s.kindAtFloor k) = some 0 := by
      simp [kindAtFloor_of_above (s := s) (k := 0) (i := 10) (by decide) (by rw [all 10 (by decide)]; exact low)]
    rw [limiter_of_over beyond first, lim_limLower (by decide)]
    exact ite_congr rfl (fun mem => by rw [all j mem]; rfl) fun _ => rfl
  · intro j _
    have first : [0, 2, 1].find? (fun k => !s.kindAtFloor k) = some 2 := by
      simp [kindAtFloor_of_all (s := s) (k := 0) floor, kindAtFloor_of_above (s := s) (k := 2) (i := 18) (by decide) (by rw [all 18 (by decide)]; exact low)]
    rw [limiter_of_over beyond first, lim_limLower (by decide)]
    exact ite_congr rfl (fun mem => by rw [all j mem]; rfl) fun _ => rfl
  · intro j _
    have held : s.kindFree 1 = false := List.all_eq_false.mpr ⟨8, by decide, by rw [all 8 (by decide)]; simpa using Nat.ne_of_gt high⟩
    have first : [1, 2, 0].find? (fun k => !s.kindFree k) = some 1 := by simp [held]
    rw [limiter_of_late under late first, lim_foldl (f := fun y => y - 50) (kindIslands_nodup 1 (by decide)) fun _ _ _ => rfl]
    exact ite_congr rfl (fun mem => by rw [all j mem]) fun _ => rfl
  · obtain ⟨t, run, settled⟩ := completes (i := .coolantSample inlet outlet) rfl
      ((coolantSample_of_ready inlet outlet ready).trans (coolPaused_of_hot ((cool_cooled s inlet outlet).trans cold) hot))
    exact ⟨t, run, (congrArg Power.cool settled.pwr).trans (cool_coolPause _ outlet), settled⟩
  · obtain ⟨t, run, settled⟩ := completes (i := .coolantSample inlet outlet) rfl
      ((coolantSample_of_ready inlet outlet ready).trans (coolPaused_of_cold ((cool_cooled s inlet outlet).trans paused) cold))
    exact ⟨t, run, (congrArg Power.cool settled.pwr).trans (cool_coolResume _ outlet), settled⟩
  · exact completes rfl ((coolantSample_of_ready inlet outlet ready).trans (coolPaused_of_stays (by rwa [cool_cooled])))
  · have told := get_vinLow_inputTold s mv (low := 1) (by decide)
    obtain ⟨t, run, settled⟩ := completes (i := .vinLow mv) (u := (s.inputTold mv 1).pauseOn 5 0 (8 * mv.toNat / 1000)) rfl
      (if_neg (by simp [ready, high, low]))
    refine ⟨t, run, ?_, ?_, settled⟩
    · rw [settled.get _ (not_isVecReg (by decide)), get_pauseOn _ _ _ _ (by decide), get_vinLow_reasons, told]
    · rw [settled.get _ (not_isVecReg (by decide)), get_pauseOn _ _ _ _ (by decide), get_paused_reasons _ told]
  · refine completes rfl (if_pos ?_)
    simpa using stays
  · obtain ⟨t, run, settled⟩ := completes (i := .vinRecover mv) (u := (s.inputTold mv 0).pauseOff 5 0 (8 * mv.toNat / 1000)) rfl
      (if_neg (by simp [low, high]))
    refine ⟨t, run, ?_, settled⟩
    rw [settled.get _ (not_isVecReg (by decide)), get_pauseOff, get_vinLow_reasons, get_vinLow_inputTold s mv (by decide)]
  · exact completes rfl (if_pos stays)

end Sys2Proof.Machine
end

section
/-!
PROOFS. Resilvering (R502 to R504, R507): the messages on the spare's side and on the partner's.
-/
namespace Sys2Proof.Machine
open Sys2Proof

section
variable {s : State}

/-! ### The request -/

section
variable {h : Shard} {m p : Nat} (found : s.shard (s.get F.RSL_CTL_shard) = some h) (paired : s.partner (s.get F.RSL_CTL_shard) = some (m, p))
include found paired

theorem rslStart_of_empty (enabled : s.get F.FLT_CTL_en = 1) (empty : h.st = 0) :
    let x := s.get F.RSL_CTL_shard
    let q := s.flt.rslSeq + 1
    rslStart s = ({ s with
      flt.rslSeq := q
      flt.spares := s.flt.spares.put x ⟨m, p, q, [], none, 0, s.beat⟩ }.putShard x { h with st := 4 }).sendMod m 0x94 32
        [(32, 10, x), (48, 10, p), (64, 32, q)] := by
  simp only [rslStart, found, paired]
  exact if_neg (by simp [enabled, empty])

theorem rslStart_of_not (ignored : s.get F.FLT_CTL_en = 0 ∨ h.st ≠ 0) : rslStart s = s := by
  simp only [rslStart, found, paired]
  exact if_pos ignored

end

section
variable {sender : BitVec 16} {shard pshard : Fin 1024} {seq : BitVec 32} {h : Shard}

theorem rslReq_of_disabled (disabled : s.get F.FLT_CTL_en = 0) : rslReq sender shard pshard seq s = s := if_pos disabled

section
variable (enabled : s.get F.FLT_CTL_en = 1)
include enabled

/-- A request is refused for a shard that is not in service here, or whose partner is another one (R502). -/
theorem rslReq_of_refused (refused : s.shard pshard = .none ∨ (s.shard pshard = some h ∧ (h.st = 0 ∨ 4 ≤ h.st)) ∨
    s.partner pshard ≠ some (sender.toNat, shard.val)) : rslReq sender shard pshard seq s = s.rslAck sender.toNat 1 0xFFFFFFFF 0 seq.toNat := by
  refine (if_neg (by omega)).trans (if_pos ?_)
  rcases refused with absent | ⟨there, idle⟩ | other
  · exact .inl (by rw [absent]; rfl)
  · rw [there]
    exact idle.imp id .inl
  · exact .inr (.inr other)

variable (there : s.shard pshard = some h) (mine : s.partner pshard = some (sender.toNat, shard.val))
include there mine

theorem rslReq_of_idle (idle : h.st = 1) : rslReq sender shard pshard seq s = s.lend ⟨sender.toNat, shard, pshard, seq.toNat, .none, 0⟩ := by
  refine (if_neg (by omega)).trans ((if_neg ?_).trans (if_pos ?_))
  · simp [there, mine, idle]
  · simp [there, idle]

theorem rslReq_of_pending (pending : h.st = 2 ∨ h.st = 3) :
    rslReq sender shard pshard seq s = { s with flt.lends := s.flt.lends ++ [⟨sender.toNat, shard, pshard, seq.toNat, .none, 0⟩] } := by
  refine (if_neg (by omega)).trans ((if_neg ?_).trans (if_neg ?_))
  · simp only [there, mine, Option.map_some, Option.getD_some, ne_eq, not_true_eq_false, or_false]
    omega
  · simp only [there, Option.map_some, Option.getD_some]
    omega

end
end

/-! ### The segments -/

section
variable {sender : BitVec 16} {seg : BitVec 32} {tt seq : BitVec 64} {last : Bool} {data : List Byte}

theorem rslSeg_of_unknown (unknown : s.resilverOf sender.toNat seq.toNat = .none) : rslSeg sender last seg tt seq data s = s := by
  simp only [rslSeg, unknown]

/-- The spare's record with a segment kept. -/
def Resilver.keep (r : Resilver) (seg : Nat) (data : List Byte) (last : Bool) (now : Nat) : Resilver :=
  { r with segs := r.segs.put seg data, last := if last then some seg else r.last, since := now }

/-- Are all segments up to the last one in? -/
def Resilver.whole (r : Resilver) (p : Nat) : Prop := ∀ j < p + 1, (r.segs.find j).isSome = true

theorem Resilver.whole_iff {r : Resilver} {p : Nat} : (List.range (p + 1)).all (fun j => (r.segs.find j).isSome) = true ↔ r.whole p := by
  simp only [List.all_eq_true, List.mem_range, Resilver.whole]

/-- The manifest that segment 0 brings. -/
def Resilver.manifest (r : Resilver) : List Byte := (r.segs.find 0).getD []

/-- The image that the other segments bring. -/
def Resilver.image (r : Resilver) (p : Nat) : List Byte := ((List.range p).map (fun j => (r.segs.find (j + 1)).getD [])).flatten

/-- What the spare does once a segment is kept: with the last one in, the image is checked and written (R502). -/
def State.segTaken (s : State) (k : Nat) (r : Resilver) : State :=
  let keep := { s with flt.spares := s.flt.spares.put k r }
  match r.last, s.shard k with
  | some p, some h =>
    if !(List.range (p + 1)).all (fun j => (r.segs.find j).isSome) then keep
    else
      match imagePlanes h r.manifest (r.image p) with
      | none => s.rslEmpty k
      | some (h1, planes) => (({ s with flt.spares := s.flt.spares.drop k }.putImage h1 planes).putShard k { h1 with
          st := 1, live := 0, t := fieldOf r.manifest 0x80 8, ver0 := fieldOf r.manifest 0x88 4, ver1 := 2 ^ 32, restore := none, skipped := false }).inc
            F.RSL_COUNT_done
  | _, _ => keep

theorem rslSeg_of_known {k : Nat} {r : Resilver} (known : s.resilverOf sender.toNat seq.toNat = some (k, r)) : rslSeg sender last seg tt seq data s =
    (s.rslAck r.partner 0 seg.toNat tt.toNat r.seq).segTaken k (r.keep seg.toNat data last s.beat) := by
  simp only [rslSeg, known]
  rfl

variable {k p : Nat} {r : Resilver} {h : Shard}

theorem segTaken_of_open (found : s.shard k = some h) (open_ : r.last = .none ∨ r.last = some p ∧ ¬ r.whole p) :
    s.segTaken k r = { s with flt.spares := s.flt.spares.put k r } := by
  rcases open_ with none_ | ⟨some_, missing⟩
  · simp only [State.segTaken, none_]
  · simp only [State.segTaken, some_, found]
    exact if_pos (by simpa only [Bool.not_eq_true', Bool.eq_false_iff, ne_eq, Resilver.whole_iff] using missing)

section
variable (found : s.shard k = some h) (end_ : r.last = some p) (whole : r.whole p)
include found end_ whole

theorem segTaken_of_bad (bad : imagePlanes h r.manifest (r.image p) = .none) : s.segTaken k r = s.rslEmpty k := by
  simp only [State.segTaken, end_, found, Resilver.whole_iff.mpr whole, Bool.not_true, Bool.false_eq_true, if_false, bad]

theorem segTaken_of_sound {h1 : Shard} {planes : List (List Byte)} (sound : imagePlanes h r.manifest (r.image p) = some (h1, planes)) :
    s.segTaken k r = (({ s with flt.spares := s.flt.spares.drop k }.putImage h1 planes).putShard k { h1 with
      st := 1, live := 0, t := fieldOf r.manifest 0x80 8, ver0 := fieldOf r.manifest 0x88 4, ver1 := 2 ^ 32, restore := none, skipped := false }).inc
        F.RSL_COUNT_done := by
  simp only [State.segTaken, end_, found, Resilver.whole_iff.mpr whole, Bool.not_true, Bool.false_eq_true, if_false, sound]

end
end

/-! ### The acknowledgements -/

section
variable {sender : BitVec 16} {status : BitVec 8} {seg seq : BitVec 32} {tt : BitVec 64}

section
variable {l : Lend} (there : s.flt.lends.find? (fun l => l.spare == sender.toNat && l.seq == seq.toNat) = some l)
include there

theorem rslAckIn_of_ended (ended : status = 2 ∨ status = 0 ∧ l.next = some seg.toNat ∧ s.rslCount l ≤ seg.toNat + 1) :
    rslAckIn sender status seg tt seq s = { s with flt.lends := s.flt.lends.erase l } := by
  simp only [rslAckIn, there]
  rcases ended with rfl | ⟨rfl, due, over_⟩
  · exact if_pos rfl
  · exact (if_neg (by decide)).trans ((if_neg (by simp [due])).trans (if_pos over_))

theorem rslAckIn_of_next (taken : status = 0) (due : l.next = some seg.toNat) (more : seg.toNat + 1 < s.rslCount l) :
    let l1 := { l with next := some (seg.toNat + 1) }
    rslAckIn sender status seg tt seq s = { s with flt.lends := s.flt.lends.erase l ++ [l1] }.rslSend l1 (seg.toNat + 1) := by
  subst taken
  simp only [rslAckIn, there]
  exact (if_neg (by decide)).trans ((if_neg (by simp [due])).trans (if_neg (by omega)))

theorem rslAckIn_of_stray (going : status ≠ 2) (stray : status ≠ 0 ∨ l.next ≠ some seg.toNat) : rslAckIn sender status seg tt seq s = s := by
  simp only [rslAckIn, there]
  exact (if_neg going).trans (if_pos stray)

end

variable {k : Nat} {r : Resilver} (none_ : s.flt.lends.find? (fun l => l.spare == sender.toNat && l.seq == seq.toNat) = .none)
  (known : s.resilverOf sender.toNat seq.toNat = some (k, r))
include none_ known

theorem rslAckIn_of_refusal (refused : status = 1) : rslAckIn sender status seg tt seq s = s.rslEmpty k := by
  simp only [rslAckIn, none_, known]
  exact if_pos refused

theorem rslAckIn_of_acceptance (accepted : status = 0) :
    rslAckIn sender status seg tt seq s = { s with flt.spares := s.flt.spares.put k { r with t := tt.toNat, since := s.beat } } := by
  simp only [rslAckIn, none_, known]
  exact (if_neg (by rw [accepted]; decide)).trans (if_pos accepted)

theorem rslAckIn_of_other (first : status ≠ 0) (second : status ≠ 1) : rslAckIn sender status seg tt seq s = s := by
  simp only [rslAckIn, none_, known]
  exact (if_neg second).trans (if_neg first)

end

/-! ### The timeout (R504) -/

section
variable {n : Fin 1024} {r : Resilver} (found : s.flt.spares.find n = some r)
include found

theorem rslTimeout_of_due (due : r.since + 1000 * s.get F.ACK_TIMEOUT_us ≤ s.beat) : rslTimeout n s = s.rslFail n r 2 := by
  simp only [rslTimeout, found]
  exact if_neg (not_lt.mpr due)

theorem rslTimeout_of_early (early : s.beat < r.since + 1000 * s.get F.ACK_TIMEOUT_us) : rslTimeout n s = s := by
  simp only [rslTimeout, found]
  exact if_pos early

end
end

/-- Settles O47: each message and the timeout act as the state of the resilver has it. -/
theorem resilvering : Obligations.Resilvering := by
  unfold Obligations.Resilvering
  intro s n shard pshard sender seq seg tt seq64 last status data h h1 k m p r l planes
  refine ⟨fun ready awake found paired => ⟨fun enabled empty => ?_, fun ignored => ?_⟩, fun disabled => completes rfl (rslReq_of_disabled disabled),
    fun enabled => ⟨fun refused => completes rfl (rslReq_of_refused enabled refused), fun there idle mine => completes rfl (rslReq_of_idle enabled there mine idle),
      fun there pending mine => completes rfl (rslReq_of_pending enabled there mine pending)⟩,
    fun unknown => completes rfl (rslSeg_of_unknown unknown), fun known found => ?_,
    ⟨fun there => ⟨fun ended => completes rfl (rslAckIn_of_ended there ended), fun taken due more => completes rfl (rslAckIn_of_next there taken due more),
        fun going stray => completes rfl (rslAckIn_of_stray there going stray)⟩,
      fun none_ known => ⟨fun refused => completes rfl (rslAckIn_of_refusal none_ known refused),
        fun accepted => completes rfl (rslAckIn_of_acceptance none_ known accepted),
        fun first second => completes rfl (rslAckIn_of_other none_ known first second)⟩⟩,
    fun found => ⟨fun due => completes rfl (rslTimeout_of_due found due), fun early => completes rfl (rslTimeout_of_early found early)⟩⟩
  · exact completes (v := s.bar rslStart) rfl ((s.bar_of_open _ ⟨ready, awake⟩).trans (rslStart_of_empty found paired enabled empty))
  · exact completes (v := s.bar rslStart) rfl ((s.bar_of_open _ ⟨ready, awake⟩).trans (rslStart_of_not found paired ignored))
  · intro i u r1 whole man image
    have found : u.shard k = some h := found
    have taken : rslSeg sender last seg tt seq64 data s = u.segTaken k r1 := rslSeg_of_known known
    exact ⟨fun open_ => completes rfl (taken.trans (segTaken_of_open found open_)),
      fun end_ whole bad => completes rfl (taken.trans (segTaken_of_bad found end_ whole bad)),
      fun end_ whole sound => completes rfl (taken.trans (segTaken_of_sound found end_ whole sound))⟩

end Sys2Proof.Machine
end

section
/-!
PROOFS. Sessions with the responder (R510, R514, R515): what every request meets first, and what each then does.
-/
namespace Sys2Proof.Machine
open Sys2Proof

/-! ### What a request meets (R514) -/

/-- Does the responder answer requests beyond GET_VERSION (R510, Table 16-3)? -/
def State.answersSpdm (s : State) : Prop := s.spdmUp = true ∧ s.get F.SEC_STATUS_lifecycle ≠ 3

/-- Is the session that a request names, where it names one, there and secured? -/
def State.sessionOpen (s : State) (b : Nat) (ses : Option Nat) : Prop := ∀ n, ses = some n → ∃ x, s.session b n = some x ∧ x.secured = true

section
variable {s : State} {b phase : Nat} {ses : Option Nat} {f : State → State}

theorem answersSpdm_iff : ¬ ((!s.spdmUp) = true ∨ s.get F.SEC_STATUS_lifecycle = 3) ↔ s.answersSpdm := by simp [State.answersSpdm]

theorem spdmAsk_of_down (down : ¬ s.answersSpdm) : s.spdmAsk b ses phase f = s := if_pos (not_not.mp (answersSpdm_iff.not.mpr down))

section
variable (up : s.answersSpdm)
include up

theorem spdmAsk_of_early (early : s.sec.neg.rd b < phase) : s.spdmAsk b ses phase f = s.spdmError b ses 4 :=
  (if_neg (answersSpdm_iff.mpr up)).trans (if_pos early)

variable (negotiated : phase ≤ s.sec.neg.rd b)
include negotiated

theorem spdmAsk_of_unsecured {n : Nat} (open_ : ∀ x, s.session b n = some x → x.secured = false) :
    s.spdmAsk b (some n) phase f = s.spdmError b (some n) 2 := by
  refine (if_neg (answersSpdm_iff.mpr up)).trans ((if_neg (not_lt.mpr negotiated)).trans (if_pos ?_))
  cases found : s.session b n with
  | none => simp [found]
  | some x => simp [found, open_ x found]

theorem spdmAsk_of_open (secured : s.sessionOpen b ses) : s.spdmAsk b ses phase f = f s := by
  refine (if_neg (answersSpdm_iff.mpr up)).trans ((if_neg (not_lt.mpr negotiated)).trans (if_neg ?_))
  cases ses with
  | none => simp
  | some n =>
    obtain ⟨x, found, secured⟩ := secured n rfl
    simp [found, secured]

end

theorem sessionOpen_none : s.sessionOpen b .none := fun _ names => nomatch names

theorem sessionOpen_some {n : Nat} {x : Session} (found : s.session b n = some x) (secured : x.secured = true) : s.sessionOpen b (some n) := by
  rintro m names
  obtain rfl : n = m := Option.some.inj names
  exact ⟨x, found, secured⟩

end

/-! ### The requests -/

section
variable {s : State} {b : Fin 3}

theorem spdmVersion_of_down (down : s.spdmUp = false) : spdmVersion b s = s := if_pos (by rw [down]; rfl)

theorem spdmVersion_of_up (up : s.spdmUp = true) : spdmVersion b s =
    { s with sec.neg := s.sec.neg.wr b 1, sec.mlog := s.sec.mlog.drop b.val }.spdmOut b none 4 0 0 (leBytes 1 2 ++ leBytes 0x1300 2) :=
  if_neg (by rw [up]; decide)

section
variable (up : s.answersSpdm)
include up

theorem spdmCapabilities_of_up (negotiated : 1 ≤ s.sec.neg.rd b) : spdmCapabilities b s =
    { s with sec.neg := s.sec.neg.wr b 2 }.spdmOut b none 0x61 0 0 (Config.layout 0 [spdmCaps]) :=
  spdmAsk_of_open up negotiated sessionOpen_none

section
variable {asym hash dhe aead : Bool} (negotiated : 2 ≤ s.sec.neg.rd b)
include negotiated

theorem spdmAlgorithms_of_offered (offered : asym = true ∧ hash = true) : spdmAlgorithms b asym hash dhe aead s =
    { s with sec.neg := s.sec.neg.wr b 3 }.spdmOut b none 0x63 0 0 (Config.layout 1 [1, 1, b2n dhe, b2n aead]) :=
  (spdmAsk_of_open up negotiated sessionOpen_none).trans (if_neg (by simp [offered]))

theorem spdmAlgorithms_of_missing (missing : asym = false ∨ hash = false) : spdmAlgorithms b asym hash dhe aead s = s.spdmError b none 1 :=
  (spdmAsk_of_open up negotiated sessionOpen_none).trans (if_pos (by simpa using missing))

end

section
variable {request : List Byte} (negotiated : 3 ≤ s.sec.neg.rd b)
include negotiated

theorem spdmKeyExchange_of_full (full : 4 ≤ s.sec.sessions.length) : spdmKeyExchange b request s = s.spdmError b none 0x0A :=
  (spdmAsk_of_open up negotiated sessionOpen_none).trans (if_pos full)

theorem spdmKeyExchange_of_room (room : s.sec.sessions.length < 4) :
    let r := s.free 64
    let n := s.sec.nextSes
    let body := leBytes n 4 ++ Config.spdmKey r.1 request
    spdmKeyExchange b request s = { r.2 with
      sec.sessions := s.sec.sessions ++ [(⟨n, b, false, r.1, 0, [], false⟩ : Session)]
      sec.nextSes := (n + 1) % 2 ^ 32 }.spdmOut b none 0x64 0 0 (body ++ (Config.aliasEc s.cdi2 (s.chain0 ++ request ++ body)).toList) :=
  (spdmAsk_of_open up negotiated sessionOpen_none).trans (if_neg (not_le.mpr room))

end
end

/-! ### Requests that name a session -/

section
variable {id : BitVec 32} {chain fin : List Byte}

theorem spdmFinish_of_down (down : ¬ s.answersSpdm) : spdmFinish b id chain fin s = s := if_pos (not_not.mp (answersSpdm_iff.not.mpr down))

/-- A session found has the number that it is asked for by. -/
theorem id_of_session {b n : Nat} {x : Session} (found : s.session b n = some x) : x.id = n := by
  have same := List.find?_some found
  simp only [Bool.and_eq_true, beq_iff_eq] at same
  exact same.1

section
variable (up : s.answersSpdm)
include up

theorem spdmFinish_of_unknown (unknown : s.session b id.toNat = .none) : spdmFinish b id chain fin s = s.spdmError b none 2 :=
  (if_neg (answersSpdm_iff.mpr up)).trans (by rw [unknown])

variable {x : Session} (found : s.session b id.toNat = some x)
include found

theorem spdmFinish_of_secured (secured : x.secured = true) : spdmFinish b id chain fin s = s.spdmError b none 4 :=
  (if_neg (answersSpdm_iff.mpr up)).trans (by rw [found]; exact if_pos secured)

section
variable (open_ : x.secured = false)
include open_

theorem spdmFinish_of_bad (bad : Config.spdmFinish x.eph chain fin = false) :
    spdmFinish b id chain fin s = (s.dropSession x.id).spdmError b none 6 :=
  (if_neg (answersSpdm_iff.mpr up)).trans (by rw [found]; exact (if_neg (by simp [open_])).trans (if_pos (by simp [bad])))

theorem spdmFinish_of_sound (sound : Config.spdmFinish x.eph chain fin = true) : spdmFinish b id chain fin s =
    (s.putSession { x with secured := true, fm := chain != [] && Config.ownerSigned s.sec.owner chain }).spdmOut b (some id.toNat) 0x65 0 0 [] := by
  rw [← id_of_session found]
  exact (if_neg (answersSpdm_iff.mpr up)).trans (by rw [found]; exact (if_neg (by simp [open_])).trans (if_neg (by simp [sound])))

end

section
variable {op tag : BitVec 8} (secured : x.secured = true)
include secured

theorem spdmHeartbeat_of_secured : spdmHeartbeat b id s = s.spdmOut b (some id.toNat) 0x68 0 0 [] :=
  spdmAsk_of_open up (Nat.zero_le _) (sessionOpen_some found secured)

theorem spdmEndSession_of_secured : spdmEndSession b id s = (s.spdmOut b (some id.toNat) 0x6C 0 0 []).dropSession id.toNat :=
  spdmAsk_of_open up (Nat.zero_le _) (sessionOpen_some found secured)

theorem spdmKeyUpdate_of_update (update : op = 1 ∨ op = 2) : spdmKeyUpdate b id op tag s =
    (s.putSession { x with gen := x.gen + 1 }).spdmOut b (some id.toNat) 0x69 op.toNat tag.toNat [] := by
  refine (spdmAsk_of_open up (Nat.zero_le _) (sessionOpen_some found secured)).trans ?_
  rw [if_neg (by rcases update with rfl | rfl <;> decide), found]
  exact congrArg (State.spdmOut · b (some id.toNat) 0x69 op.toNat tag.toNat []) (if_neg (by rcases update with rfl | rfl <;> decide))

theorem spdmKeyUpdate_of_verify (verify : op = 3) : spdmKeyUpdate b id op tag s = s.spdmOut b (some id.toNat) 0x69 op.toNat tag.toNat [] := by
  refine (spdmAsk_of_open up (Nat.zero_le _) (sessionOpen_some found secured)).trans ?_
  rw [if_neg (by rw [verify]; decide), found]
  exact congrArg (State.spdmOut · b (some id.toNat) 0x69 op.toNat tag.toNat []) (if_pos (by rw [verify]; rfl))

theorem spdmKeyUpdate_of_bad (bad : op = 0 ∨ 4 ≤ op.toNat) : spdmKeyUpdate b id op tag s = s.spdmError b (some id.toNat) 1 := by
  refine (spdmAsk_of_open up (Nat.zero_le _) (sessionOpen_some found secured)).trans (if_pos ?_)
  rcases bad with rfl | high
  · exact .inl (by decide)
  · exact .inr high

end
end
end

/-! ### Chunks -/

section
variable {o : Option (BitVec 32)} {handle : BitVec 8} {seq : BitVec 16} {size : BitVec 32} {data : List Byte}
  (up : s.answersSpdm) (negotiated : 2 ≤ s.sec.neg.rd b) (secured : s.sessionOpen b (o.map BitVec.toNat))

/-- The number of the chunk that is due. -/
def State.chunkDue (s : State) (b : Nat) (seq : BitVec 16) : Nat := if seq = 0 then 0 else s.sec.neg.rd (8 + b)

/-- The chunks gathered so far. -/
def State.chunksOld (s : State) (b : Nat) (seq : BitVec 16) : List Byte := if seq = 0 then [] else (s.sec.chunks.find (2 * b)).getD []

theorem toNat_eq_zero_iff {w : Nat} {x : BitVec w} : x.toNat = 0 ↔ x = 0 := by rw [← BitVec.toNat_inj]; simp

include up negotiated secured

theorem spdmChunkSend_of_stray (stray : seq.toNat ≠ s.chunkDue b seq) : spdmChunkSend b o handle seq data s = s.spdmError b (o.map BitVec.toNat) 1 := by
  simp only [spdmChunkSend]
  refine (spdmAsk_of_open up negotiated secured).trans (if_pos ?_)
  simpa only [State.chunkDue, ← toNat_eq_zero_iff] using stray

theorem spdmChunkSend_of_due (due : seq.toNat = s.chunkDue b seq) : spdmChunkSend b o handle seq data s = { s with
    sec.neg := s.sec.neg.wr (8 + b) (s.chunkDue b seq + 1)
    sec.chunks := s.sec.chunks.put (2 * b.val) (s.chunksOld b seq ++ data) }.spdmOut b (o.map BitVec.toNat) 5 0 handle.toNat (leBytes seq.toNat 2) := by
  simp only [spdmChunkSend]
  refine (spdmAsk_of_open up negotiated secured).trans ?_
  simp only [State.chunkDue, State.chunksOld, ← toNat_eq_zero_iff] at due ⊢
  exact if_neg (not_not.mpr due)

theorem spdmChunkGet_of_end (end_ : ((((s.sec.chunks.find (2 * b.val + 1)).getD []).drop (seq.toNat * size.toNat)).take size.toNat) = []) :
    spdmChunkGet b o handle seq size s = s.spdmError b (o.map BitVec.toNat) 1 := by
  simp only [spdmChunkGet]
  exact (spdmAsk_of_open up negotiated secured).trans (if_pos end_)

theorem spdmChunkGet_of_piece (more : ((((s.sec.chunks.find (2 * b.val + 1)).getD []).drop (seq.toNat * size.toNat)).take size.toNat) ≠ []) :
    let whole := (s.sec.chunks.find (2 * b.val + 1)).getD []
    spdmChunkGet b o handle seq size s = s.emit (.spdm b (o.map BitVec.toNat) (leBytes 0x13 1 ++ leBytes 6 1 ++
      leBytes (b2n (decide (whole.length ≤ (seq.toNat + 1) * size.toNat))) 1 ++ leBytes handle.toNat 1 ++ leBytes seq.toNat 2 ++
        (whole.drop (seq.toNat * size.toNat)).take size.toNat)) := by
  simp only [spdmChunkGet]
  exact (spdmAsk_of_open up negotiated secured).trans (if_neg more)

end
end

/-- Settles O48: a request first meets what every request meets, and then acts as R514 and R515 have it. -/
theorem spdmSessions : Obligations.SpdmSessions := by
  unfold Obligations.SpdmSessions
  intro s b id o slot off len seq nonce index op tag handle size request chain fin data ec pq asym hash dhe aead sign list tenant x up ses neg asks
  have asked : ∀ a ∈ asks, ∃ f, exec a.1 s = done (s.spdmAsk b a.2.1 a.2.2 f) := by
    intro a row
    simp only [asks, List.mem_cons, List.not_mem_nil, or_false] at row
    rcases row with rfl | rfl | rfl | rfl | rfl | rfl | rfl | rfl | rfl | rfl | rfl | rfl | rfl | rfl | rfl | rfl | rfl <;> exact ⟨_, rfl⟩
  have shows {b : Nat} {ses : Option Nat} {code p1 p2 : Nat} {body : List Byte} {u t : State} (settled : Settled (u.spdmOut b ses code p1 p2 body) t) :
      t.sec.neg = u.sec.neg ∧ t.sec.mlog = u.sec.mlog := ⟨by rw [settled.sec]; rfl, by rw [settled.sec]; rfl⟩
  refine ⟨fun a row => ?_, fun down => completes rfl (spdmVersion_of_down down), fun runs => ?_, fun up negotiated => ?_,
    fun up negotiated => ⟨fun offered => ?_, fun missing => completes rfl (spdmAlgorithms_of_missing up negotiated missing)⟩,
    fun up negotiated => ⟨fun full => completes rfl (spdmKeyExchange_of_full up negotiated full),
      fun room => completes rfl (spdmKeyExchange_of_room up negotiated room)⟩,
    fun down => completes rfl (spdmFinish_of_down down), fun up unknown => completes rfl (spdmFinish_of_unknown up unknown),
    fun up found => ⟨fun secured => ⟨completes rfl (spdmFinish_of_secured up found secured), completes rfl (spdmHeartbeat_of_secured up found secured),
        fun update => completes rfl (spdmKeyUpdate_of_update up found secured update), fun verify => completes rfl (spdmKeyUpdate_of_verify up found secured verify),
        fun bad => completes rfl (spdmKeyUpdate_of_bad up found secured bad), completes rfl (spdmEndSession_of_secured up found secured)⟩,
      fun open_ => ⟨fun bad => completes rfl (spdmFinish_of_bad up found open_ bad), fun sound => completes rfl (spdmFinish_of_sound up found open_ sound)⟩⟩,
    fun up negotiated secured => ?_⟩
  · obtain ⟨f, run⟩ := asked a row
    refine ⟨fun down => completes run (spdmAsk_of_down down), fun up early => completes run (spdmAsk_of_early up early), fun up negotiated n names open_ => ?_⟩
    rw [names] at run ⊢
    exact completes run (spdmAsk_of_unsecured up negotiated open_)
  · obtain ⟨t, run, settled⟩ := completes (i := .getVersion b) rfl (spdmVersion_of_up runs)
    obtain ⟨neg, mlog⟩ := shows settled
    exact ⟨t, run, by rw [neg, NMap.rd_wr_self], by rw [mlog]; exact OMap.find_drop_self _ _, settled⟩
  · obtain ⟨t, run, settled⟩ := completes (i := .getCapabilities b) rfl (spdmCapabilities_of_up up negotiated)
    exact ⟨t, run, by rw [(shows settled).1, NMap.rd_wr_self], settled⟩
  · obtain ⟨t, run, settled⟩ := completes (i := .negotiateAlgorithms b asym hash dhe aead) rfl (spdmAlgorithms_of_offered up negotiated offered)
    exact ⟨t, run, by rw [(shows settled).1, NMap.rd_wr_self], settled⟩
  · exact ⟨fun stray => completes rfl (spdmChunkSend_of_stray up negotiated secured stray),
      fun due => completes rfl (spdmChunkSend_of_due up negotiated secured due), fun end_ => completes rfl (spdmChunkGet_of_end up negotiated secured end_),
      fun more => completes rfl (spdmChunkGet_of_piece up negotiated secured more)⟩

end Sys2Proof.Machine
end

section
/-!
PROOFS. What the responder attests (R511, R512, R515): certificates, challenges and measurements.
-/
namespace Sys2Proof.Machine
open Sys2Proof

section
variable {s : State} {b : Fin 3} {o : Option (BitVec 32)} (up : s.answersSpdm) (negotiated : 3 ≤ s.sec.neg.rd b)

/-! ### Challenges -/

section
variable {slot : Fin 8} {nonce : BitVec 256}
include up negotiated

theorem spdmChallenge_of_slot0 (first : slot = 0) :
    let body := sha384 s.chain0 ++ leBytes (s.free 256).1 32
    spdmChallenge b slot nonce s =
      (s.free 256).2.spdmOut b none 3 0 1 (body ++ (Config.aliasEc s.cdi2 (leBytes nonce.toNat 32 ++ body)).toList) :=
  (spdmAsk_of_open up negotiated sessionOpen_none).trans (if_neg (by rw [first]; decide))

theorem spdmChallenge_of_other (other : slot ≠ 0) : spdmChallenge b slot nonce s = s.spdmError b none 1 :=
  (spdmAsk_of_open up negotiated sessionOpen_none).trans (if_pos fun zero => other (Fin.ext zero))

end

variable (secured : s.sessionOpen b (o.map BitVec.toNat))

/-! ### Certificates (R512) -/

section
variable {slot : Fin 8} {off len : BitVec 16}
include up negotiated secured

theorem spdmDigests_of_up : spdmDigests b o s = s.spdmOut b (o.map BitVec.toNat) 1 0 1 (sha384 s.chain0) := by
  simp only [spdmDigests]
  exact spdmAsk_of_open up negotiated secured

theorem spdmCertificate_of_within (first : slot = 0) (within : off.toNat < s.chain0.length) :
    let p := (s.chain0.drop off.toNat).take len.toNat
    spdmCertificate b o slot off len s = s.spdmOut b (o.map BitVec.toNat) 2 0 0
      (leBytes p.length 2 ++ leBytes (s.chain0.length - off.toNat - p.length) 2 ++ p) := by
  simp only [spdmCertificate]
  refine (spdmAsk_of_open up negotiated secured).trans (if_neg ?_)
  rintro (other | ⟨beyond, -⟩)
  · exact other (by rw [first]; rfl)
  · omega

theorem spdmCertificate_of_bad (bad : slot ≠ 0 ∨ s.chain0.length ≤ off.toNat ∧ s.chain0 ≠ []) :
    spdmCertificate b o slot off len s = s.spdmError b (o.map BitVec.toNat) 1 := by
  simp only [spdmCertificate]
  exact (spdmAsk_of_open up negotiated secured).trans (if_pos (bad.imp (fun other zero => other (Fin.ext zero)) id))

/-- ATTEST_PQ answers with the transcript as it stands. -/
theorem attestPq_of_up : attestPq b o s = s.vendorOut b (o.map BitVec.toNat) 1 0
    (Config.certChain 1 s.cdi2 ++ (Config.aliasPq s.cdi2 (sha384 (s.transcript b (o.map BitVec.toNat)))).toList) := by
  simp only [attestPq]
  exact spdmAsk_of_open up negotiated secured

end

/-! ### Measurements (R511) -/

section
variable {index : BitVec 8} {sign : Bool} {nonce : BitVec 256}

/-- The blocks a request names, by its index (Table 16-4). -/
theorem spdmBlocks_eq {n : Nat} (known : n < 10 ∨ n = 0xFF) :
    spdmBlocks n = if n = 0xFF then [1, 2, 3, 4, 5, 6, 7, 8, 9] else if n = 0 then [] else [n] := by
  rcases known with low | rfl
  · rcases n.eq_zero_or_pos with rfl | pos
    · rfl
    · rw [spdmBlocks, if_neg (by omega), if_pos (by omega), if_neg (by omega), if_neg (by omega)]
  · rfl

theorem spdmBlocks_of_unknown {n : Nat} (high : 10 ≤ n) (some_ : n ≠ 0xFF) : spdmBlocks n = [] := by
  rw [spdmBlocks, if_neg some_, if_neg (by omega)]

theorem spdmBlocks_ne_nil {n : Nat} (known : n < 10 ∨ n = 0xFF) (some_ : n ≠ 0) : spdmBlocks n ≠ [] := by
  rw [spdmBlocks_eq known]
  split_ifs
  · exact List.cons_ne_nil _ _
  · exact List.cons_ne_nil _ _

include up negotiated secured

theorem spdmMeasurements_of_unknown (high : 10 ≤ index.toNat) (some_ : index.toNat ≠ 0xFF) :
    spdmMeasurements b o index sign nonce s = s.spdmError b (o.map BitVec.toNat) 1 := by
  simp only [spdmMeasurements]
  exact (spdmAsk_of_open up negotiated secured).trans (if_pos ⟨by omega, spdmBlocks_of_unknown high some_⟩)

theorem spdmMeasurements_of_known (known : index.toNat < 10 ∨ index.toNat = 0xFF) :
    let n := index.toNat
    let ses := o.map BitVec.toNat
    let body := leBytes (spdmBlocks n).length 1 ++ (spdmBlocks n).flatMap (fun k => leBytes k 1 ++ s.measurement k) ++ leBytes (s.free 256).1 32
    let count := if n = 0 then 9 else 0
    let ask := leBytes 0x13 1 ++ leBytes 0xE0 1 ++ leBytes (b2n sign) 1 ++ leBytes n 1 ++ (if sign = true then leBytes nonce.toNat 32 else [])
    let u := (s.free 256).2.measureLog b ses (ask ++ leBytes 0x6013 2 ++ leBytes count 1 ++ leBytes 0 1 ++ body)
    let sig := if sign = true then (Config.aliasEc u.cdi2 (u.transcript b ses)).toList else []
    spdmMeasurements b o index sign nonce s = u.spdmOut b ses 0x60 count 0 (body ++ sig) := by
  simp only [spdmMeasurements]
  exact (spdmAsk_of_open up negotiated secured).trans (if_neg fun none_ => spdmBlocks_ne_nil known none_.1 none_.2)

end
end

/-- Settles O49: each request answers what R511, R512 and R515 have it answer. -/
theorem spdmEvidence : Obligations.SpdmEvidence := by
  unfold Obligations.SpdmEvidence
  intro s b o slot off len nonce index sign ses runs use negotiated secured c r
  have up : s.answersSpdm := ⟨runs, use⟩
  refine ⟨completes rfl (spdmDigests_of_up up negotiated secured), fun first within => completes rfl (spdmCertificate_of_within up negotiated secured first within),
    fun bad => completes rfl (spdmCertificate_of_bad up negotiated secured bad), fun first => completes rfl (spdmChallenge_of_slot0 up negotiated first),
    fun other => completes rfl (spdmChallenge_of_other up negotiated other), ⟨fun high some_ => ?_, fun known => ?_⟩,
    completes rfl (attestPq_of_up up negotiated secured), rfl, rfl, rfl, rfl, fun unset => if_pos unset, fun set_ => if_neg set_⟩
  · exact completes rfl (spdmMeasurements_of_unknown up negotiated secured high some_)
  · have run := completes (i := .getMeasurements b o index sign nonce) rfl (spdmMeasurements_of_known (sign := sign) (nonce := nonce) up negotiated secured known)
    rw [spdmBlocks_eq known] at run
    exact run

end Sys2Proof.Machine
end

section
/-!
PROOFS. What the owner signs (R516 to R518, R522, R528): an op is refused, or changes the state as its record says.
-/
namespace Sys2Proof.Machine
open Sys2Proof

/-! ### What an op that the owner signs meets (R516) -/

/-- Do both signatures of the owner over a message verify? -/
def State.ownerSigned (s : State) (m ec pq : List Byte) : Prop :=
  Config.ecdsaOk (Config.ownerEc s.sec.owner) m ec = true ∧ Config.mldsaOk (Config.ownerPq s.sec.owner) m pq = true

theorem State.ownerSigned.verifies {s : State} {m ec pq : List Byte} (signed : s.ownerSigned m ec pq) :
    ¬ ((!Config.ecdsaOk (Config.ownerEc s.sec.owner) m ec) = true ∨ (!Config.mldsaOk (Config.ownerPq s.sec.owner) m pq) = true) := by
  obtain ⟨classical, quantum⟩ := signed
  rw [classical, quantum]
  decide

section
variable {s : State} {b : Fin 3} {id : BitVec 32} {op : Nat} {m ec pq : List Byte} {f : State → Option State}
  (up : s.answersSpdm) (negotiated : 3 ≤ s.sec.neg.rd b) (secured : s.sessionOpen b (some id.toNat))
include up negotiated secured

theorem ownerAsk_of_unset (unset : s.sec.owner = []) : s.ownerAsk b id.toNat op m ec pq f = s.vendorOut b (some id.toNat) op 1 [] :=
  (spdmAsk_of_open up negotiated secured).trans (if_pos unset)

variable (set_ : s.sec.owner ≠ [])
include set_

theorem ownerAsk_of_unsigned (unsigned : ¬ s.ownerSigned m ec pq) : s.ownerAsk b id.toNat op m ec pq f =
    (s.sigTrap 0x0C 0 0 ⟨5, 0xFFFFFFFF, 0xFF⟩).vendorOut b (some id.toNat) op 1 [] := by
  refine (spdmAsk_of_open up negotiated secured).trans ((if_neg set_).trans (if_pos ?_))
  simpa only [State.ownerSigned, not_and_or, Bool.not_eq_true', Bool.not_eq_true] using unsigned

variable (signed : s.ownerSigned m ec pq)
include signed

theorem ownerAsk_of_refused (refused : f s = .none) : s.ownerAsk b id.toNat op m ec pq f = s.vendorOut b (some id.toNat) op 1 [] :=
  (spdmAsk_of_open up negotiated secured).trans ((if_neg set_).trans ((if_neg signed.verifies).trans (by rw [refused])))

theorem ownerAsk_of_accepted {t : State} (accepted : f s = some t) : s.ownerAsk b id.toNat op m ec pq f = t.vendorOut b (some id.toNat) op 0 [] :=
  (spdmAsk_of_open up negotiated secured).trans ((if_neg set_).trans ((if_neg signed.verifies).trans (by rw [accepted])))

end

/-! ### The effects (R517, R518, R522, R528) -/

section
variable {s : State}

/-- An enrolled tenant takes the lowest free slot. -/
theorem enroll_eq {k : Nat} (record : List Byte) (below : ∀ j < k, (s.sec.tenants.find j).isSome = true) (free : s.sec.tenants.find k = .none) (slot : k < 16) :
    s.enroll_ record = { s with sec.tenants := s.sec.tenants.put k ⟨fieldOf record 0 4, fieldOf record 4 1, fieldOf record 8 18,
      fieldOf record 0x1C 4, (record.drop 0x20).take 32, enrollKeys record, 0, 2 ^ 63⟩ } := by
  have found : (List.range 16).find? (fun k => (s.sec.tenants.find k).isNone) = some k := by
    refine List.find?_range_eq_some.mpr ⟨by rw [free]; rfl, List.mem_range.mpr slot, fun j before => ?_⟩
    rw [Option.not_isNone]
    exact below j before
  simp only [State.enroll_, found, Option.getD_some]

section
variable {level g own : Nat}

theorem assign1_of_same (same : s.sec.owners.rd (level * 65536 + g) = own) : s.assign1 level g own = s := if_pos same

/-- A granule that changes its owner loses its bytes. -/
theorem owners_assign1_of_other (other : s.sec.owners.rd (level * 65536 + g) ≠ own) :
    (s.assign1 level g own).sec.owners = s.sec.owners.wr (level * 65536 + g) own := by
  rw [State.assign1, if_neg other]

theorem bytes_assign1_of_other (other : s.sec.owners.rd (level * 65536 + g) ≠ own) :
    (s.assign1 level g own).mem.bytes = SMap.erase (fun x => memKey level (granuleRange level g).2.1 ≤ x &&
      x < memKey level (granuleRange level g).2.1 + (granuleRange level g).2.2) s.mem.bytes := by
  rw [State.assign1, if_neg other]

/-- Afterwards the granule is its new owner's. -/
theorem owner_assign1 : (s.assign1 level g own).sec.owners.rd (level * 65536 + g) = own := by
  by_cases same : s.sec.owners.rd (level * 65536 + g) = own
  · rw [assign1_of_same same, same]
  · rw [owners_assign1_of_other same, NMap.rd_wr_self]

/-- No other granule changes its owner. -/
theorem owner_assign1_of_ne {m : Nat} (other : m ≠ level * 65536 + g) : (s.assign1 level g own).sec.owners.rd m = s.sec.owners.rd m := by
  by_cases same : s.sec.owners.rd (level * 65536 + g) = own
  · rw [assign1_of_same same]
  · rw [owners_assign1_of_other same, NMap.rd_wr_of_ne _ _ other]

/-- Every byte outside the granule stays. -/
theorem byte_assign1_of_outside {m : Nat} (outside : m < memKey level (granuleRange level g).2.1 ∨
    memKey level (granuleRange level g).2.1 + (granuleRange level g).2.2 ≤ m) : (s.assign1 level g own).mem.bytes.rd m 1 = s.mem.bytes.rd m 1 := by
  by_cases same : s.sec.owners.rd (level * 65536 + g) = own
  · rw [assign1_of_same same]
  · simp only [Bytes.rd, SMap.getList, bytes_assign1_of_other same, SMap.get_erase, Bool.and_eq_true, decide_eq_true_eq]
    rw [if_neg (by omega)]

/-- Every byte of the granule is zero under a new owner (R522). -/
theorem byte_assign1_of_inside (other : s.sec.owners.rd (level * 65536 + g) ≠ own) {a : Nat} (low : (granuleRange level g).2.1 ≤ a)
    (high : a < (granuleRange level g).2.1 + (granuleRange level g).2.2) : (s.assign1 level g own).mem.bytes.rd (memKey level a) 1 = [0] := by
  simp only [Bytes.rd, SMap.getList, bytes_assign1_of_other other, SMap.get_erase, Bool.and_eq_true, decide_eq_true_eq]
  rw [if_pos (by unfold memKey; omega)]

end
end

/-- Settles O50: each op meets the owner's checks first, and is then refused or changes the state as its record says. -/
theorem ownerRequests : Obligations.OwnerRequests := by
  unfold Obligations.OwnerRequests
  intro s b id tenant record root ec pq list x k w runs use negotiated found verified answer signed asks
  have up : s.answersSpdm := ⟨runs, use⟩
  have secured : s.sessionOpen b (some id.toNat) := sessionOpen_some found verified
  have asked : ∀ a ∈ asks, ∃ f, exec a.1 s = done (s.ownerAsk b id.toNat a.2.1 a.2.2.1 a.2.2.2.1 a.2.2.2.2 f) := by
    intro a row
    simp only [asks, List.mem_cons, List.not_mem_nil, or_false] at row
    rcases row with rfl | rfl | rfl | rfl <;> exact ⟨_, rfl⟩
  refine ⟨fun a row => ?_, fun set_ => ⟨fun valid => ⟨fun bad => ?_, fun good below free slot => ?_⟩, fun valid => ⟨fun unknown => ?_, fun known holds => ?_,
    fun known idle => ?_⟩, fun valid => ⟨fun bad => ?_, fun good => ?_⟩, fun valid => ⟨fun full => ?_, fun room => ?_⟩⟩,
    fun level g own => ⟨owner_assign1, fun m other => owner_assign1_of_ne other, fun m outside => byte_assign1_of_outside outside,
      fun other a low high => byte_assign1_of_inside other low high⟩⟩
  · obtain ⟨f, run⟩ := asked a row
    exact ⟨fun unset => completes run (ownerAsk_of_unset up negotiated secured unset),
      fun set_ unsigned => completes run (ownerAsk_of_unsigned up negotiated secured set_ unsigned)⟩
  · exact completes rfl (ownerAsk_of_refused up negotiated secured set_ valid (if_neg (by simp [bad])))
  · exact completes rfl (ownerAsk_of_accepted up negotiated secured set_ valid ((if_pos good).trans (congrArg some (enroll_eq record below free slot))))
  · exact completes rfl (ownerAsk_of_refused up negotiated secured set_ valid (by rw [unknown]))
  · exact completes rfl (ownerAsk_of_refused up negotiated secured set_ valid (by rw [known]; exact if_pos holds))
  · exact completes rfl (ownerAsk_of_accepted up negotiated secured set_ valid (by rw [known]; exact if_neg (by simp [idle])))
  · obtain ⟨e, mem, bad⟩ := bad
    exact completes rfl (ownerAsk_of_refused up negotiated secured set_ valid (if_neg fun all => by simpa [bad] using List.all_eq_true.mp all e mem))
  · exact completes rfl (ownerAsk_of_accepted up negotiated secured set_ valid (if_pos (List.all_eq_true.mpr good)))
  · exact completes rfl (ownerAsk_of_refused up negotiated secured set_ valid (if_pos full))
  · exact completes rfl (ownerAsk_of_accepted up negotiated secured set_ valid (if_neg (not_le.mpr room)))

end Sys2Proof.Machine
end

section
/-!
PROOFS. The mailbox's ops on firmware, owner and lifecycle (R510, R513, R516, R531 to R533, R536).
-/
namespace Sys2Proof.Machine
open Sys2Proof

/-! ### Which ops are answered (R510, R536) -/

/-- Is an op of the mailbox answered: not in D3hot, while no firmware booted ops 1 and 7 alone, and else once BAR0 is ready? -/
def State.mbxAnswers (s : State) (op : Nat) : Prop :=
  s.host.d3hot = false ∧ (s.get F.SEC_STATUS_boot_fail = 1 ∧ (op = 1 ∨ op = 7) ∨ s.get F.SEC_STATUS_boot_fail = 0 ∧ s.ready = true)

namespace State.mbxAnswers
variable {s : State} {op : Nat} (answers : s.mbxAnswers op)
include answers

theorem awake : ¬ s.host.d3hot = true := Bool.eq_false_iff.mp answers.1

theorem known : ¬ (s.get F.SEC_STATUS_boot_fail = 1 ∧ op ≠ 1 ∧ op ≠ 7) := by
  obtain ⟨-, ⟨-, known⟩ | ⟨booted, -⟩⟩ := answers
  · omega
  · omega

theorem started : ¬ (s.get F.SEC_STATUS_boot_fail = 0 ∧ (!s.ready) = true) := by
  obtain ⟨-, ⟨failing, -⟩ | ⟨-, ready⟩⟩ := answers
  · omega
  · simp [ready]

end State.mbxAnswers

section
variable {s : State} {n : Nat}

theorem mbx_of_silent {op : Nat} (silent : s.host.d3hot = true ∨ (s.get F.SEC_STATUS_boot_fail = 1 ∧ op ≠ 1 ∧ op ≠ 7) ∨
    (s.get F.SEC_STATUS_boot_fail = 0 ∧ s.ready = false)) : s.mbx op n = s := by
  by_cases asleep : s.host.d3hot = true
  · exact if_pos asleep
  · rcases silent with asleep' | failing | ⟨booted, starting⟩
    · exact absurd asleep' asleep
    · exact (if_neg asleep).trans (if_pos failing)
    · exact (if_neg asleep).trans ((if_neg (by omega)).trans (if_pos (by simp [booted, starting])))

theorem mbx_fwStage (answers : s.mbxAnswers 1) : s.mbx 1 n = s.fwStage n :=
  (if_neg answers.awake).trans ((if_neg answers.known).trans (if_neg answers.started))

theorem mbx_svnCommit (answers : s.mbxAnswers 2) : s.mbx 2 n = s.svnCommit :=
  (if_neg answers.awake).trans ((if_neg answers.known).trans (if_neg answers.started))

theorem mbx_debug (answers : s.mbxAnswers 3) : s.mbx 3 n = s.debugOp n :=
  (if_neg answers.awake).trans ((if_neg answers.known).trans (if_neg answers.started))

theorem mbx_dataIn (answers : s.mbxAnswers 4) : s.mbx 4 n = s.dataIn n :=
  (if_neg answers.awake).trans ((if_neg answers.known).trans (if_neg answers.started))

theorem mbx_dataOut (answers : s.mbxAnswers 5) : s.mbx 5 n = s.dataOut n :=
  (if_neg answers.awake).trans ((if_neg answers.known).trans (if_neg answers.started))

theorem mbx_setOwner (answers : s.mbxAnswers 6) : s.mbx 6 n = s.setOwner n :=
  (if_neg answers.awake).trans ((if_neg answers.known).trans (if_neg answers.started))

theorem mbx_recover (answers : s.mbxAnswers 7) : s.mbx 7 n = s.recover n :=
  (if_neg answers.awake).trans ((if_neg answers.known).trans (if_neg answers.started))

/-! ### The input (R536) -/

theorem mbxIn_of_within (within : s.get F.MBX_ARG_offset + n ≤ stagingSize) : s.mbxIn n = some (s.host.staging.rd (s.get F.MBX_ARG_offset) n) := if_pos within

theorem mbxIn_of_beyond (beyond : ¬ s.get F.MBX_ARG_offset + n ≤ stagingSize) : s.mbxIn n = .none := if_neg beyond

/-- An op without a result code for a range fault takes an input outside the staging area as empty. -/
theorem getD_mbxIn : (s.mbxIn n).getD [] = if s.get F.MBX_ARG_offset + n ≤ stagingSize then s.host.staging.rd (s.get F.MBX_ARG_offset) n else [] := by
  simp only [State.mbxIn]
  split_ifs <;> rfl

/-! ### Firmware (R510, R513) -/

theorem fwStage_of_select (empty : n = 0) : s.fwStage n = { s with sec.next := some (1 - s.get F.SEC_STATUS_boot_slot) }.mbxEnd 0 := if_pos empty

section
variable {u : State} {body : List Byte}

theorem fwStage_of_beyond (some_ : n ≠ 0) (beyond : ¬ s.get F.MBX_ARG_offset + n ≤ stagingSize) : s.fwStage n = s.mbxEnd 4 :=
  (if_neg some_).trans (by rw [mbxIn_of_beyond beyond])

section
variable {e : List Byte} (some_ : n ≠ 0) (input : s.mbxIn n = some e)
include some_ input

theorem fwStage_of_error (error : s.takeEnvelope e 5 none .mailbox = .error u) : s.fwStage n = u.mbxEnd 2 :=
  (if_neg some_).trans (by simp only [input, error])

variable (taken : s.takeEnvelope e 5 none .mailbox = .ok (body, u))
include taken

theorem fwStage_of_malformed (malformed : fwHead body = .none) : s.fwStage n = u.mbxEnd 4 :=
  (if_neg some_).trans (by simp only [input, taken, malformed])

/-- The image goes to the slot that did not boot. -/
theorem fwStage_of_image {stage svn : Nat} (image : fwHead body = some (stage, svn)) :
    let other := 1 - s.get F.SEC_STATUS_boot_slot
    s.fwStage n = { u with sec.fw := u.sec.fw.put other (((u.sec.fw.find other).getD ⟨none, none⟩).with stage svn body) }.mbxEnd 0 :=
  (if_neg some_).trans (by simp only [input, taken, image])

end

theorem recover_of_booted (booted : s.get F.SEC_STATUS_boot_fail = 0) : s.recover n = s.mbxEnd 3 := if_pos booted

section
variable {e : List Byte} (failing : s.get F.SEC_STATUS_boot_fail = 1) (input : (s.mbxIn n).getD [] = e)
include failing input

theorem recover_of_error (error : s.takeEnvelope e 5 none .mailbox = .error u) : s.recover n = u.mbxEnd 2 :=
  (if_neg (by omega)).trans (by simp only [State.mbxEnvelope, input, error])

variable (taken : s.takeEnvelope e 5 none .mailbox = .ok (body, u))
include taken

theorem recover_of_malformed (malformed : fwHead body = .none) : s.recover n = (u.sigTrap 1 5 0 .mailbox).mbxEnd 2 :=
  (if_neg (by omega)).trans (by simp only [State.mbxEnvelope, input, taken, malformed])

variable {stage svn : Nat} (image : fwHead body = some (stage, svn))
include image

theorem recover_of_old (old : svn < u.get F.FW_SVN_fuse) : s.recover n = (u.sigTrap 8 5 0 .mailbox).mbxEnd 2 :=
  (if_neg (by omega)).trans (by simp only [State.mbxEnvelope, input, taken, image, if_pos old])

theorem recover_of_image (new : u.get F.FW_SVN_fuse ≤ svn) : s.recover n =
    ({ u with sec.live := u.sec.live.with stage svn body }.set F.SEC_STATUS_boot_fail 0).measureFw.mbxEnd 0 :=
  (if_neg (by omega)).trans (by simp only [State.mbxEnvelope, input, taken, image, if_neg (not_lt.mpr new)])

end
end

/-! ### The owner hash (R516) -/

theorem setOwner_of_blank {b : List Byte} (input : s.mbxIn n = some b) (blank : s.sec.owner = []) (whole : n = 48) :
    s.setOwner n = ({ s with sec.owner := b }.set F.SEC_STATUS_owner_set 1).mbxEnd 0 := by
  simp only [State.setOwner, input]
  exact if_neg (by simp [blank, whole])

theorem setOwner_of_refused (refused : ¬ s.get F.MBX_ARG_offset + n ≤ stagingSize ∨ s.sec.owner ≠ [] ∨ n ≠ 48) : s.setOwner n = s.mbxEnd 3 := by
  rcases refused with beyond | bad
  · simp only [State.setOwner, mbxIn_of_beyond beyond]
  · simp only [State.setOwner]
    split
    · rfl
    · exact if_pos bad

/-! ### Debug and lifecycle (R531 to R533) -/

theorem debugOp_of_scrap (scrap : s.get F.SEC_STATUS_lifecycle = 3) : s.debugOp n = s.mbxEnd 3 := if_pos scrap

/-- Is a token one that names a level alone, which TEST takes unsigned (log entry 38)? -/
def unsignedToken (now : Nat) (e : List Byte) : Prop := now = 0 ∧ e.length = envHead + 64 ∧ fieldOf e (envHead + 33) 1 = 0

/-- The target lifecycle that a token names, where it changes it. -/
def tokenLife (now : Nat) (b : List Byte) : Option Nat := if fieldOf b 33 1 = 0 ∨ fieldOf b 33 1 = now then none else some (fieldOf b 33 1)

/-- Is a token bound to this device and the present nonces (R532)? -/
def State.tokenBound (s : State) (b : List Byte) : Prop :=
  b.take 16 = s.dev ∧ (b.drop 16).take 16 = leBytes (s.word R.DBG_NONCE0).toNat 8 ++ leBytes (s.word R.DBG_NONCE1).toNat 8

/-- What DEBUG does with a token taken. -/
def State.debugTaken (s : State) (now key : Nat) (b : List Byte) : State :=
  let bound := b.take 16 == s.dev && (b.drop 16).take 16 == leBytes (s.word R.DBG_NONCE0).toNat 8 ++ leBytes (s.word R.DBG_NONCE1).toNat 8
  if b.length ≠ 64 ∨ !zeros (b.drop 34) then ((s.sigTrap 1 7 key SigAt.mailbox).newNonce).mbxEnd 2
  else if !bound ∨ !tokenMay now (fieldOf b 32 1) (tokenLife now b) (key != 0) then ((s.sigTrap 9 7 key SigAt.mailbox).newNonce).mbxEnd 2
  else ((s.tokenAct (fieldOf b 32 1) (tokenLife now b)).newNonce).mbxEnd 0

section
variable {e body : List Byte} {u : State} (input : (s.mbxIn n).getD [] = e) (use : s.get F.SEC_STATUS_lifecycle ≠ 3)
include input use

theorem debugOp_of_error (signed : ¬ unsignedToken (s.get F.SEC_STATUS_lifecycle) e) (error : s.takeEnvelope e 7 none .mailbox = .error u) :
    s.debugOp n = u.newNonce.mbxEnd 2 := by
  unfold unsignedToken at signed
  refine (if_neg use).trans ?_
  simp only [State.mbxEnvelope, input, signed, decide_false, Bool.false_eq_true, if_false, error]

theorem debugOp_of_taken (taken : (unsignedToken (s.get F.SEC_STATUS_lifecycle) e ∧ body = e.drop envHead ∧ u = s) ∨
    (¬ unsignedToken (s.get F.SEC_STATUS_lifecycle) e ∧ s.takeEnvelope e 7 none .mailbox = .ok (body, u))) :
    s.debugOp n = u.debugTaken (s.get F.SEC_STATUS_lifecycle) (fieldOf e 8 4) body := by
  unfold unsignedToken at taken
  refine (if_neg use).trans ?_
  rcases taken with ⟨open_, rfl, rfl⟩ | ⟨signed, taken⟩
  · simp only [input, open_]
    rfl
  · simp only [State.mbxEnvelope, input, signed, decide_false, Bool.false_eq_true, if_false, taken]
    rfl

end

section
variable {now key : Nat} {b : List Byte}

theorem tokenBound_iff : (b.take 16 == s.dev && (b.drop 16).take 16 == leBytes (s.word R.DBG_NONCE0).toNat 8 ++ leBytes (s.word R.DBG_NONCE1).toNat 8) = true ↔
    s.tokenBound b := by simp only [State.tokenBound, Bool.and_eq_true, beq_iff_eq]

theorem debugTaken_of_malformed (malformed : ¬ (b.length = 64 ∧ zeros (b.drop 34) = true)) :
    s.debugTaken now key b = ((s.sigTrap 1 7 key .mailbox).newNonce).mbxEnd 2 :=
  if_pos (by simpa only [ne_eq, Bool.not_eq_true', not_and_or, Bool.not_eq_true] using malformed)

section
variable (shape : b.length = 64 ∧ zeros (b.drop 34) = true)
include shape

theorem shape_ok : ¬ (b.length ≠ 64 ∨ (!zeros (b.drop 34)) = true) := by simp [shape]

theorem debugTaken_of_refused (refused : ¬ (s.tokenBound b ∧ tokenMay now (fieldOf b 32 1) (tokenLife now b) (key != 0) = true)) :
    s.debugTaken now key b = ((s.sigTrap 9 7 key .mailbox).newNonce).mbxEnd 2 := by
  refine (if_neg (shape_ok shape)).trans (if_pos ?_)
  rw [← tokenBound_iff, not_and_or] at refused
  simpa only [Bool.not_eq_true', Bool.not_eq_true] using refused

theorem debugTaken_of_admitted (bound : s.tokenBound b) (admitted : tokenMay now (fieldOf b 32 1) (tokenLife now b) (key != 0) = true) :
    s.debugTaken now key b = ((s.tokenAct (fieldOf b 32 1) (tokenLife now b)).newNonce).mbxEnd 0 := by
  refine (if_neg (shape_ok shape)).trans (if_neg ?_)
  rw [tokenBound_iff.mpr bound, admitted]
  decide

end
end
end

/-- Settles O51: an op that is answered ends with the result and the effect its input gives it. -/
theorem mailboxControl : Obligations.MailboxControl := by
  unfold Obligations.MailboxControl
  intro s len e body u stage svn n op input failing other old staged
  refine ⟨fun q row silent => ?_, fun awake up => ?_, fun awake booted ready => ?_⟩
  · simp only [op, List.mem_cons, List.not_mem_nil, or_false] at row
    rcases row with rfl | rfl | rfl | rfl | rfl | rfl | rfl <;> exact completes rfl (mbx_of_silent silent)
  · have first : s.mbxAnswers 1 := ⟨awake, up.imp (fun failing => ⟨failing, .inl rfl⟩) id⟩
    have last : s.mbxAnswers 7 := ⟨awake, up.imp (fun failing => ⟨failing, .inr rfl⟩) id⟩
    refine ⟨fun empty => completes rfl ((mbx_fwStage first).trans (fwStage_of_select empty)),
      fun some_ beyond => completes rfl ((mbx_fwStage first).trans (fwStage_of_beyond some_ beyond)),
      fun some_ within => ⟨fun error => completes rfl ((mbx_fwStage first).trans (fwStage_of_error some_ (mbxIn_of_within within) error)),
        fun taken malformed => completes rfl ((mbx_fwStage first).trans (fwStage_of_malformed some_ (mbxIn_of_within within) taken malformed)),
        fun taken image => completes rfl ((mbx_fwStage first).trans (fwStage_of_image some_ (mbxIn_of_within within) taken image))⟩,
      fun booted => completes rfl ((mbx_recover last).trans (recover_of_booted booted)), fun failing read => ?_⟩
    have read : (s.mbxIn n).getD [] = e := getD_mbxIn.trans read.symm
    exact ⟨fun error => completes rfl ((mbx_recover last).trans (recover_of_error failing read error)),
      fun taken malformed => completes rfl ((mbx_recover last).trans (recover_of_malformed failing read taken malformed)),
      fun taken image => ⟨fun old => completes rfl ((mbx_recover last).trans (recover_of_old failing read taken image old)),
        fun new => completes rfl ((mbx_recover last).trans (recover_of_image failing read taken image new))⟩⟩
  · have answers (k : Nat) : s.mbxAnswers k := ⟨awake, .inr ⟨booted, ready⟩⟩
    refine ⟨completes rfl (mbx_svnCommit (answers 2)),
      fun within blank whole => completes rfl ((mbx_setOwner (answers 6)).trans (setOwner_of_blank (mbxIn_of_within within) blank whole)),
      fun refused => completes rfl ((mbx_setOwner (answers 6)).trans (setOwner_of_refused refused)), ?_⟩
    intro now token key unsigned r
    have runs : s.mbx 3 n = s.debugOp n := mbx_debug (answers 3)
    refine ⟨fun scrap => completes rfl (runs.trans (debugOp_of_scrap scrap)),
      fun use signed error => completes rfl (runs.trans (debugOp_of_error getD_mbxIn use signed error)), fun use taken => ?_⟩
    intro level life shape bound admitted
    have acts : s.mbx 3 n = u.debugTaken now key body := runs.trans (debugOp_of_taken getD_mbxIn use taken)
    exact ⟨fun malformed => completes rfl (acts.trans (debugTaken_of_malformed malformed)),
      fun shape refused => completes rfl (acts.trans (debugTaken_of_refused shape refused)),
      fun shape bound admitted => completes rfl (acts.trans (debugTaken_of_admitted shape bound admitted))⟩

end Sys2Proof.Machine
end

section
/-!
PROOFS. Data envelopes (R520, R521, R523, R526, R556).
-/
namespace Sys2Proof.Machine
open Sys2Proof

section
variable {s u : State} {n : Nat} {e body : List Byte}

theorem takeEnvelope_of_error {kind c : Nat} {tenant : Option Nat} {at_ : SigAt} (bad : s.envCheck e kind tenant = .error c) :
    s.takeEnvelope e kind tenant at_ = .error (s.sigTrap c kind (fieldOf e 8 4) at_) := by
  simp only [State.takeEnvelope, bad]

/-! ### Before the range is known -/

theorem dataIn_of_beyond (beyond : ¬ s.get F.MBX_ARG_offset + n ≤ stagingSize) : s.dataIn n = s.mbxEnd 4 := by
  simp only [State.dataIn, mbxIn_of_beyond beyond]

theorem dataOut_of_beyond (beyond : ¬ s.get F.MBX_ARG_offset + n ≤ stagingSize) : s.dataOut n = s.mbxEnd 4 := by
  simp only [State.dataOut, mbxIn_of_beyond beyond]

section
variable (input : s.mbxIn n = some e)
include input

theorem dataIn_of_error (error : s.takeEnvelope e 6 none .mailbox = .error u) : s.dataIn n = u.mbxEnd 2 := by
  simp only [State.dataIn, input, error]

theorem dataOut_of_error (error : s.takeEnvelope e 6 none .mailbox = .error u) : s.dataOut n = u.mbxEnd 2 := by
  simp only [State.dataOut, input, error]

variable (taken : s.takeEnvelope e 6 none .mailbox = .ok (body, u))
include taken

theorem dataIn_of_keyless (keyless : u.keyOwner (fieldOf e 8 4) = .none) : s.dataIn n = u.mbxEnd 4 := by
  simp only [State.dataIn, input, taken, State.envTenant, keyless, Option.map_none, Option.bind_none]

theorem dataOut_of_keyless (keyless : u.keyOwner (fieldOf e 8 4) = .none) : s.dataOut n = u.mbxEnd 4 := by
  simp only [State.dataOut, input, taken, State.envTenant, keyless, Option.map_none]

/-! ### With the tenant whose key the envelope names -/

variable {slot : Nat} {w : Tenant} {tk : TenKey} (key : u.keyOwner (fieldOf e 8 4) = some (slot, w, tk))
include key

theorem dataIn_of_foreign (foreign : u.dataRange w body = .none) : s.dataIn n = u.mbxEnd 4 := by
  simp only [State.dataIn, input, taken, State.envTenant, key, Option.map_some, Option.bind_some, foreign]

theorem dataOut_of_foreign (foreign : u.dataRange w body = .none) : s.dataOut n = u.mbxEnd 4 := by
  simp only [State.dataOut, input, taken, State.envTenant, key, Option.map_some, foreign]

variable {a : Range} (range : u.dataRange w body = some a)
include range

theorem dataIn_of_payload (whole : body.length = 24 + a.2.2) : s.dataIn n = (u.memWr a.1 a.2.1 (body.drop 24)).mbxEnd 0 := by
  simp only [State.dataIn, input, taken, State.envTenant, key, Option.map_some, Option.bind_some, range]
  exact if_neg (not_not.mpr whole)

theorem dataIn_of_length (other : body.length ≠ 24 + a.2.2) : s.dataIn n = u.mbxEnd 4 := by
  simp only [State.dataIn, input, taken, State.envTenant, key, Option.map_some, Option.bind_some, range]
  exact if_pos other

/-- The reply's place in the staging area, with its length. -/
theorem dataOut_of_range : s.dataOut n =
    if body.length ≠ 24 ∨ u.get F.MBX_ARG_offset + (envHead + 32 + a.2.2) > stagingSize ∨
      u.stageLocked (u.get F.MBX_ARG_offset) (envHead + 32 + a.2.2) = true then u.mbxEnd 4
    else
      let env := u.sealEnvelope w (fieldOf e 8 4) (u.memBytes a.1 a.2.1 a.2.2)
      ({ u with sec.tenants := u.sec.tenants.put slot { w with outCtr := w.outCtr + 1 } }.stageWrite (u.get F.MBX_ARG_offset) env false).mbxEnd 0
        env.length := by
  simp only [State.dataOut, input, taken, State.envTenant, key, Option.map_some, range]

end
end

/-- Settles O52: an envelope that passes its checks acts on the range its plaintext names, and any other leaves memory unchanged. -/
theorem dataEnvelopes : Obligations.DataEnvelopes := by
  unfold Obligations.DataEnvelopes
  intro s len body u slot w a awake booted ready n off e r ops
  have answers (k : Nat) : s.mbxAnswers k := ⟨awake, .inr ⟨booted, ready⟩⟩
  have taken : s.mbx 4 n = s.dataIn n := mbx_dataIn (answers 4)
  have given : s.mbx 5 n = s.dataOut n := mbx_dataOut (answers 5)
  have both {v : State} (inwards : s.dataIn n = v) (outwards : s.dataOut n = v) : ∀ i ∈ ops, ∃ t, exec i s = .next t ∧ Settled v t := by
    intro i row
    simp only [ops, List.mem_cons, List.not_mem_nil, or_false] at row
    rcases row with rfl | rfl
    · exact completes rfl (taken.trans inwards)
    · exact completes rfl (given.trans outwards)
  refine ⟨fun beyond => both (dataIn_of_beyond (not_le.mpr beyond)) (dataOut_of_beyond (not_le.mpr beyond)), fun within => ?_⟩
  have input : s.mbxIn n = some e := mbxIn_of_within within
  refine ⟨fun c bad => both (dataIn_of_error input (takeEnvelope_of_error bad)) (dataOut_of_error input (takeEnvelope_of_error bad)),
    fun ok keyless => both (dataIn_of_keyless input ok keyless) (dataOut_of_keyless input ok keyless),
    fun tk ok key => ⟨fun foreign => both (dataIn_of_foreign input ok key foreign) (dataOut_of_foreign input ok key foreign), fun range => ?_⟩⟩
  intro size at_ env
  refine ⟨fun whole => completes rfl (taken.trans (dataIn_of_payload input ok key range whole)),
    fun other => completes rfl (taken.trans (dataIn_of_length input ok key range other)), fun empty room free => ?_, fun bad => ?_⟩
  · refine completes rfl (given.trans ((dataOut_of_range input ok key range).trans (if_neg ?_)))
    rintro (other | beyond | locked)
    · exact other empty
    · exact absurd room (not_le.mpr beyond)
    · exact absurd (free.symm.trans locked) (by decide)
  · exact completes rfl (given.trans ((dataOut_of_range input ok key range).trans (if_pos bad)))

end Sys2Proof.Machine
end
